-- ==== Sys2Proof/Word.lean ====
section
/-! DEFINITION. The word types of the model: the 32-bit register and frame word of R12 and R388, the byte of a
frame on the wire, and the shape in which every sparse table of the machine is kept. -/

namespace Sys2Proof

/-- A register word, a mailbox word or a table record word (R12, R388): 32 bits, bit 0 least significant. -/
abbrev Word := BitVec 32

/-- One byte of a frame, as it is transmitted (R12). -/
abbrev Byte := BitVec 8

/-- A table held sparsely: the records that differ from the table's unwritten record, by key, keys strictly
rising.  `Sys2Proof.Machine.tget` and `Sys2Proof.Machine.tset` read and write it and keep that form. -/
abbrev Sparse (α : Type) := List (Nat × α)

end Sys2Proof
end

