-- ==== Sys2Proof/Syntax.lean ====
section
/-! DEFINITION. The commands of the block: one constructor of `Instr` per row of spec/opcode_table.json, in the
table's order, with the row's operands.  The table gives no row any bits, so no constructor has an encoding. -/

namespace Sys2Proof

/-- A command frame as a mailbox hands it to firmware (R388), its header fields pulled apart.  The opcode is the
row's.  `rsvd` says that a reserved bit of the four header words is set; `payload` holds the words that follow the
header. -/
structure Frame where
  /-- Mailbox, 0 to 4 (R386). -/
  mb : Nat
  /-- On MB2, the cascade session that carries the command (R374, R377): 0 session A, 1 session B of a worker. -/
  partner : Nat
  rsvd : Bool
  length : Nat
  tag : Nat
  opts : Nat
  session : Word
  scope : Nat
  payload : List Word
  deriving DecidableEq, Repr



/-- A read of the BPM's state memory that found bad parity twice (R242): a cell state word or owner record by ADDR, a
link of a pool's free list, a use count of a requester and pool. -/
inductive BpmErr where
  | none | cell (a : Nat) | link (k n : Nat) | use (r k : Nat)
  deriving DecidableEq, Repr


/-- What a port's decision reads with bad parity twice (R36): a node's row, the bucket of a shaper (level 0 queue, 1 node,
2 port, its index within the die). -/
inductive SchBad where
  | none | node (n : Nat) | bucket (level i : Nat)
  deriving DecidableEq, Repr

/-- What the filter stage reads with bad parity twice (R36): the record of the packet's stream, the buckets of a meter that
it charges. -/
inductive StmBad where
  | none | record | meter (i : Nat)
  deriving DecidableEq, Repr

/-- The record rings: the learn ring of a glen (R140), a dump ring, a die's queue-sample ring, the packet-sample ring
(R502, R514), the event ring of field inputs (R343), the response ring of a mailbox (R394). -/
inductive RingName where
  | learn (g : Nat) | dump (i : Nat) | queueSample (d : Nat) | packetSample | event | response (m : Nat)
  deriving DecidableEq, Repr

/-- A read of a lookup that found bad parity twice (R36): the bucket row of the destination or of the source search, an
overflow entry, the age stamp of the entry that the source search hits, a prefix bucket row, a next-hop entry, the rule
row of the TCAM winner. -/
inductive LookupBad where
  | none | bucket | source | overflow (i : Nat) | age | prefixRow (i : Nat) | nextHop | rule
  deriving DecidableEq, Repr

/-- What the age scanner finds bad twice (R36, R129): the row it reads, the age stamp of a slot, the verify read of a
delete. -/
inductive ScanBad where
  | none | row | age (slot : Nat) | verify
  deriving DecidableEq, Repr

/-- The scanner's next visit: the glen, what it finds bad. -/
structure ScanRead where
  glen : Nat
  bad : ScanBad
  deriving DecidableEq, Repr

/-- A service of a glen's pending notifications: the glen, whether the verify read of an AUTO insert fails (R129). -/
structure LearnTry where
  glen : Nat
  verifyFails : Bool
  deriving DecidableEq, Repr

/-- A refused word's receiver (R33): its block, BAR0 address [25:16], and the pipeline whose word it is, where it is one's. -/
structure WordAt where
  block : Nat
  pip : Option Nat
  deriving DecidableEq, Repr

/-- A read of a rewrite context that found bad parity twice: a patch word (R310), a recovery function's state (R327), a
duplicate entry (R331). -/
inductive RweBad where
  | none | word | recovery | duplicate
  deriving DecidableEq, Repr


/-- What HARDWARE_ERROR_EVENT reports (R471, R484): an error condition of a source, with its ADDR and UNIT; an upset of
memory that nothing has read yet: a slice of a rule in the TCAM array, the rule's header there (R179, R181), a prefix pivot (R161), a register or a
staged copy (R428, R430); a corrected error of an HBM stack, or a row of it that fails (R470). -/
inductive HwErr where
  | source (src addr kind idx : Nat)
  | ruleFlip (g i slice value mask : Nat)
  | headerFlip (g i hdr : Nat)
  | pivotFlip (g i : Nat)
  | registerFlip (a : Nat) (staged : Bool)
  | hbmCorrected (d : Nat)
  | hbmRow (d : Nat)
  deriving DecidableEq, Repr

/-- What a start step reports when it ends: the hottest junction temperature in °C + 40, the time that full HBM training
took in ms, whether the east and the west stack trained, whether the west die and the Saddle management channel are in
service. -/
structure StartReport where
  celsius : Nat
  trainMs : Nat
  east : Bool
  west : Bool
  westUp : Bool
  deriving DecidableEq, Repr

/-- The commands of the block, in the order of the opcode table. -/
inductive Instr where
  /-- HELLO (R396): Opens a mailbox session by agreeing a command-set version and returns the session number, stage and capabilities. -/
  | hello (f : Frame)
  /-- ENGINE_INFO (R415): Returns the HELLO information words, the capability bitmap, the ordering code and the stepping. -/
  | engineInfo (f : Frame)
  /-- CMD_STATUS (R402): Returns the status and element results of one of the asking mailbox's last 64 PENDING commands. -/
  | cmdStatus (f : Frame)
  /-- XFER_WRITE (R411): Writes data into the mailbox's 64 KiB transfer buffer at a given offset. -/
  | xferWrite (f : Frame)
  /-- SESSION_LIST (R415): Returns the session, agreed version and client word of each mailbox. -/
  | sessionList (f : Frame)
  /-- SHADOW_INFO (R409): Returns the bytes used and free in the MRAM shadow and the last committed transaction. -/
  | shadowInfo (f : Frame)
  /-- SHADOW_DIGEST (R415): Returns the SHA-384 of the shadow records of the command groups named. -/
  | shadowDigest (f : Frame)
  /-- NOP (R415): Returns its request payload unchanged. -/
  | nop (f : Frame)
  /-- PORT_CREATE (R416): Creates a logical port of a given width, lane rate, FEC and maximum frame length. -/
  | portCreate (f : Frame)
  /-- PORT_DELETE (R416): Deletes a port that is administratively down and has empty queues. -/
  | portDelete (f : Frame)
  /-- PORT_ADMIN (R415): Sets a port administratively up or down. -/
  | portAdmin (f : Frame)
  /-- PORT_STATUS (R415): Returns link, rate, FEC counts and lane signal state of a port. -/
  | portStatus (f : Frame)
  /-- MCAST_GROUP_SET (R416): Writes the member bitmap of a multicast group. -/
  | mcastGroupSet (f : Frame)
  /-- MCAST_GROUP_READ (R415): Returns the member bitmap of a multicast group. -/
  | mcastGroupRead (f : Frame)
  /-- MIRROR_CFG (R415): Configures ingress or egress mirroring of a port with truncation and sampling. -/
  | mirrorCfg (f : Frame)
  /-- EM_TABLE_CFG (R412): Writes EMT_TBL_CFG of a logical exact-match table in the glens of a mask. -/
  | emTableCfg (f : Frame)
  /-- EM_KEY_LAYOUT (R412): Writes and commits both exact-match search definitions of a key layout. -/
  | emKeyLayout (f : Frame)
  /-- EM_PORT_CFG (R412): Writes the default VID and learning disable of a port. -/
  | emPortCfg (f : Frame)
  /-- TBL_INSERT (R127): Inserts or updates an exact-match entry in the glens of a mask and returns per-glen results. -/
  | tblInsert (f : Frame)
  /-- TBL_DELETE (R131): Deletes an exact-match entry in the glens of a mask. -/
  | tblDelete (f : Frame)
  /-- TBL_LOOKUP (R412): Reads an exact-match entry and its home bucket as a debug read. -/
  | tblLookup (f : Frame)
  /-- TBL_FLUSH (R150): Deletes entries selected by table, port and static or non-static. -/
  | tblFlush (f : Frame)
  /-- TBL_BULK_INSERT (R412): Carries up to 255 exact-match inserts in one command. -/
  | tblBulkInsert (f : Frame)
  /-- TBL_ITERATE (R150): Steps through valid exact-match entries with a resume token. -/
  | tblIterate (f : Frame)
  /-- LEARN_RING_CFG (R412): Sets the owner, base, size, moderation and filter hold of a glen's learn ring. -/
  | learnRingCfg (f : Frame)
  /-- LEARN_POLICY (R145): Sets the replicate-on-learn policy of a table. -/
  | learnPolicy (f : Frame)
  /-- AGE_CFG (R412): Writes the aging tick and scanner rate of the glens of a mask. -/
  | ageCfg (f : Frame)
  /-- GLEN_BUDGET_SET (R412): Commits the access budgets of the glens of a mask. -/
  | glenBudgetSet (f : Frame)
  /-- TBL_CAPACITY (R149): Returns free, used and retired exact-match capacity per glen. -/
  | tblCapacity (f : Frame)
  /-- LPM_KEY_LAYOUT (R188): Writes and commits a layout's prefix search definition. -/
  | lpmKeyLayout (f : Frame)
  /-- LPM_PORT_VRF (R188): Sets the VRF of a port. -/
  | lpmPortVrf (f : Frame)
  /-- ROUTE_ADD (R157): Inserts or updates a longest-prefix route in the glens of a mask. -/
  | routeAdd (f : Frame)
  /-- ROUTE_DELETE (R412): Deletes a route in the glens of a mask. -/
  | routeDelete (f : Frame)
  /-- ROUTE_LOOKUP (R412): Returns the longest matching route for an address and VRF as a debug read. -/
  | routeLookup (f : Frame)
  /-- ROUTE_BULK (R412): Applies up to 255 route adds and deletes in order. -/
  | routeBulk (f : Frame)
  /-- NEXTHOP_SET (R158): Writes next-hop entries of the glens of a mask. -/
  | nexthopSet (f : Frame)
  /-- ROUTE_CAPACITY (R412): Returns route units used, free and retired per glen. -/
  | routeCapacity (f : Frame)
  /-- TCAM_KEY_LAYOUT (R188): Writes and commits a layout's TCAM search definition. -/
  | tcamKeyLayout (f : Frame)
  /-- TCAM_RULE_WRITE (R173): Writes a TCAM rule with VALID clear and then sets VALID. -/
  | tcamRuleWrite (f : Frame)
  /-- TCAM_RULE_DELETE (R173): Clears the VALID bit of a TCAM rule. -/
  | tcamRuleDelete (f : Frame)
  /-- TCAM_RULE_REPLACE (R174): Writes a new rule and exchanges it with an old one between two searches. -/
  | tcamRuleReplace (f : Frame)
  /-- TCAM_ACTION_SET (R175): Changes a rule's action or PRIO in place. -/
  | tcamActionSet (f : Frame)
  /-- TCAM_RULE_READ (R412): Reads a rule's header, slices and action. -/
  | tcamRuleRead (f : Frame)
  /-- TCAM_SEARCH (R184): Runs a search-port TCAM search in STEP or COUNT mode according to the mailbox's standing. -/
  | tcamSearch (f : Frame)
  /-- TCAM_SCRUB_CFG (R182): Sets the narrow-rule scrub period. -/
  | tcamScrubCfg (f : Frame)
  /-- STREAM_KEY_LAYOUT (R219): Writes and commits a layout's stream identification definitions. -/
  | streamKeyLayout (f : Frame)
  /-- STREAM_ID_ADD (R196): Inserts or updates a stream identification entry. -/
  | streamIdAdd (f : Frame)
  /-- STREAM_ID_DELETE (R412): Deletes a stream identification entry. -/
  | streamIdDelete (f : Frame)
  /-- STREAM_CTX_SET (R199): Writes a stream context and clears BLOCKED. -/
  | streamCtxSet (f : Frame)
  /-- STREAM_CTX_READ (R219): Reads a stream context and its counters. -/
  | streamCtxRead (f : Frame)
  /-- STREAM_UNBLOCK (R412): Clears BLOCKED of a context, CLOSED_INV_RX of a gate or MARK_RED of a meter. -/
  | streamUnblock (f : Frame)
  /-- STREAM_GATE_SET (R203): Writes and commits a stream gate's admin list and times. -/
  | streamGateSet (f : Frame)
  /-- STREAM_CAPACITY (R412): Returns stream table, context, gate and meter occupancy per glen. -/
  | streamCapacity (f : Frame)
  /-- METER_SET (R213): Commits a meter record, optionally resetting its buckets. -/
  | meterSet (f : Frame)
  /-- METER_READ (R412): Reads a meter record, its buckets and colour counters. -/
  | meterRead (f : Frame)
  /-- TENANT_POLICER_MAP (R216): Writes POL_TEN_MAP entries. -/
  | tenantPolicerMap (f : Frame)
  /-- COLOUR_MAP_SET (R215): Writes a PCP and DEI colour map or a DSCP colour map. -/
  | colourMapSet (f : Frame)
  /-- HIST_EDGES_SET (R218): Writes a histogram edge set, refusing decreasing edges. -/
  | histEdgesSet (f : Frame)
  /-- HIST_READ (R219): Reads the 16 histogram bins of a context. -/
  | histRead (f : Frame)
  /-- BPM_POOL_LAYOUT (R245): Commits the pool regions of the dies of a mask. -/
  | bpmPoolLayout (f : Frame)
  /-- BPM_QUOTA_SET (R246): Commits MIN and MAX quotas of requesters and pools. -/
  | bpmQuotaSet (f : Frame)
  /-- BPM_STATUS (R248): Returns free, reserved and retired cells per pool and use per requester. -/
  | bpmStatus (f : Frame)
  /-- BPM_BUDGET_SET (R412): Commits the Plain access budgets. -/
  | bpmBudgetSet (f : Frame)
  /-- BPM_YELLOW_KEEP (R226): Sets BPM_YEL_KEEP of pools. -/
  | bpmYellowKeep (f : Frame)
  /-- BPM_AUDIT (R243): Audits every cell state word, rebuilds use counts, frees ownerless quarantined cells and lists old cells. -/
  | bpmAudit (f : Frame)
  /-- BPM_CAPACITY (R248): Returns cells lost to retirement and quarantine per pool. -/
  | bpmCapacity (f : Frame)
  /-- SCH_PORT_SET (R277): Writes DEF_NODE, ADJ and DOWN_DROP of a port. -/
  | schPortSet (f : Frame)
  /-- SCH_NODE_SET (R253): Writes a tenant node record. -/
  | schNodeSet (f : Frame)
  /-- SCH_TENANT_MAP (R251): Writes tenant map entries on the dies of a mask. -/
  | schTenantMap (f : Frame)
  /-- SCH_QUEUE_SET (R253): Writes a service queue record. -/
  | schQueueSet (f : Frame)
  /-- SHAPER_SET (R267): Commits a shaper record, optionally resetting its buckets. -/
  | shaperSet (f : Frame)
  /-- SHAPER_READ (R277): Reads a shaper record and its buckets. -/
  | shaperRead (f : Frame)
  /-- SCH_QUEUE_READ (R277): Returns depth, head age, spill state and counters of a queue. -/
  | schQueueRead (f : Frame)
  /-- SCH_SAMPLE_CFG (R270): Sets a depth and delay sampling group. -/
  | schSampleCfg (f : Frame)
  /-- SCH_BUDGET_SET (R412): Commits the scheduler state memory budgets. -/
  | schBudgetSet (f : Frame)
  /-- SCH_NODE_REHOME (R275): Moves a tenant to a spare node, copying its records and shapers. -/
  | schNodeRehome (f : Frame)
  /-- SCH_CAPACITY (R276): Returns nodes in use, retired and spare per die. -/
  | schCapacity (f : Frame)
  /-- SCH_QUEUE_FLUSH (R277): Drops every frame of a queue or node, counted as FLUSH. -/
  | schQueueFlush (f : Frame)
  /-- TIME_GET (R305): Returns network time, VALID, LOCKED and source. -/
  | timeGet (f : Frame)
  /-- TIME_SET (R282): Loads an absolute network time in one cycle, counting as a step. -/
  | timeSet (f : Frame)
  /-- TIME_STEP (R282): Steps network time by a signed offset and recomputes every gate position. -/
  | timeStep (f : Frame)
  /-- TIME_SLEW (R282): Starts a slew of network time by a signed offset of up to one second. -/
  | timeSlew (f : Frame)
  /-- TIME_SOURCE (R284): Selects the domain 36 source and PPS_IN discipline. -/
  | timeSource (f : Frame)
  /-- TIME_PPS_CFG (R289): Sets PPS_OUT offset and width and output behaviour while time is invalid. -/
  | timePpsCfg (f : Frame)
  /-- TIME_PORT_ADJ (R285): Writes per-port timestamp offsets. -/
  | timePortAdj (f : Frame)
  /-- PTP_INSTANCE_SET (R288): Creates or changes a PTP clock instance. -/
  | ptpInstanceSet (f : Frame)
  /-- GATE_LIST_SET (R413): Writes gate list entries into the staging list and optionally commits the admin list. -/
  | gateListSet (f : Frame)
  /-- GATE_LIST_READ (R305): Returns admin and operational lists, the change time and W_c per class. -/
  | gateListRead (f : Frame)
  /-- GATE_PORT_CFG (R300): Sets preemption, PMASK, hold advance and INV_GATES of a port. -/
  | gatePortCfg (f : Frame)
  /-- GATE_LIST_DISCARD (R293): Ends a pending gate list change and clears the staging list. -/
  | gateListDiscard (f : Frame)
  /-- FRE_PORT_CFG (R332): Sets a port's redundancy mode, LAN, NET_ID, domain, DUP_EN, STRIP and default generator. -/
  | frePortCfg (f : Frame)
  /-- FRE_HANDLE_MAP (R319): Writes handle map entries on the dies of a mask. -/
  | freHandleMap (f : Frame)
  /-- FRE_GEN_SET (R320): Writes NEXT of a sequence generator between two draws. -/
  | freGenSet (f : Frame)
  /-- FRE_RCV_SET (R323): Replaces a recovery function's configuration and sets TAKE_ANY. -/
  | freRcvSet (f : Frame)
  /-- FRE_RCV_READ (R333): Returns state and counters of a recovery function. -/
  | freRcvRead (f : Frame)
  /-- FRE_RCV_RESET (R333): Sets TAKE_ANY of a recovery function and counts a reset. -/
  | freRcvReset (f : Frame)
  /-- FRE_DUP_CFG (R333): Sets LIFETIME, seed and own MAC addresses of a die's duplicate table. -/
  | freDupCfg (f : Frame)
  /-- FRE_DUP_STATUS (R333): Returns occupancy and counters of a duplicate table. -/
  | freDupStatus (f : Frame)
  /-- UCODE_PATCH_LOAD (R109): Checks, relocates and writes a patch image into the inactive banks, optionally switching. -/
  | ucodePatchLoad (f : Frame)
  /-- UCODE_PATCH_SWITCH (R107): Switches the banks of all engines of one kind in pipeline order. -/
  | ucodePatchSwitch (f : Frame)
  /-- UCODE_PATCH_REVERT (R106): Loads an empty bank and switches, leaving ROM code only. -/
  | ucodePatchRevert (f : Frame)
  /-- UCODE_QUERY (R111): Returns ROM identifier, active serial and measurement, added profiles and free patch words. -/
  | ucodeQuery (f : Frame)
  /-- PORT_PARSE_PROFILE (R111): Sets a port's parse profile ID. -/
  | portParseProfile (f : Frame)
  /-- RWE_PORT_PROFILE (R333): Sets a port's rewrite profile. -/
  | rwePortProfile (f : Frame)
  /-- FI_CFG (R357): Sets FILT, INV, CNT_EDGE and EVT_EN of field inputs. -/
  | fiCfg (f : Frame)
  /-- FI_READ (R357): Returns levels, counts and last event of field inputs. -/
  | fiRead (f : Frame)
  /-- FIO_PUB_SET (R341): Writes a publication set and queues its first state. -/
  | fioPubSet (f : Frame)
  /-- FIO_GOOSE_TEMPLATE (R345): Writes the template and offsets of a GOOSE publication set. -/
  | fioGooseTemplate (f : Frame)
  /-- FIO_EVENT_RING_CFG (R340): Sets the event ring owner, base, size and moderation. -/
  | fioEventRingCfg (f : Frame)
  /-- FIO_UTC_OFFSET (R345): Sets TAI minus UTC seconds and KNOWN. -/
  | fioUtcOffset (f : Frame)
  /-- FO_CFG (R354): Writes an output's pin record to FIO_FO_CFG and MRAM. -/
  | foCfg (f : Frame)
  /-- FO_FORCE (R350): Forces or releases field outputs. -/
  | foForce (f : Frame)
  /-- FO_TIME_EVENT (R351): Writes a field-output time event. -/
  | foTimeEvent (f : Frame)
  /-- FO_RELEASE (R355): Ends the fail state of named outputs unless a level 4 or 5 reaction is in force. -/
  | foRelease (f : Frame)
  /-- FO_READ (R357): Returns logical state, pin level, fail, force and counters of outputs. -/
  | foRead (f : Frame)
  /-- CAS_ROLE_SET (R359): Sets the engine's cascade role, ending every session with LEAVE. -/
  | casRoleSet (f : Frame)
  /-- CAS_DEVICE_ID (R383): Sets the device ID unless a session is up. -/
  | casDeviceId (f : Frame)
  /-- CAS_PORT_CFG (R361): Sets CASCADE and TAG_VER of ports together with their parse and rewrite profiles. -/
  | casPortCfg (f : Frame)
  /-- CAS_BUDGET_SET (R383): Writes the per-class latency budget codes. -/
  | casBudgetSet (f : Frame)
  /-- CAS_RELAY_CFG (R383): Writes the relay settings of CAS_CFG. -/
  | casRelayCfg (f : Frame)
  /-- CAS_JOIN_CFG (R383): Starts or stops joining on a worker, or sets PRIORITY and allow list on a manager. -/
  | casJoinCfg (f : Frame)
  /-- CAS_LEAVE (R381): Ends a cascade session with LEAVE. -/
  | casLeave (f : Frame)
  /-- CAS_SESSION_READ (R383): Returns state, partner, versions and counters of a session. -/
  | casSessionRead (f : Frame)
  /-- CAS_FORWARD (R383): On a manager sends a command to a worker over MB2 and returns its response. -/
  | casForward (f : Frame)
  /-- CAS_WORKER_LIST (R379): On a manager returns sessions, lost sessions and join refusals. -/
  | casWorkerList (f : Frame)
  /-- FAULT_STATUS (R557): Returns FCL_STATUS, FCL_CONSEQ, class levels, first capture and FCL_FIRST_ALSO. -/
  | faultStatus (f : Frame)
  /-- FAULT_LOG (R557): Returns up to 64 fault records kept by firmware. -/
  | faultLog (f : Frame)
  /-- FAULT_ACK (R472): Clears FCL_STATUS bits of a mask and optionally the first capture. -/
  | faultAck (f : Frame)
  /-- FAULT_SRC_CFG (R557): Writes severity, class, DIS, WIN and neighbour mask of a source. -/
  | faultSrcCfg (f : Frame)
  /-- FAULT_WINDOW (R557): Writes WINDOW_US, IRQ_MP and IRQ_HOST. -/
  | faultWindow (f : Frame)
  /-- UNIT_DRAIN (R488): Drains and isolates a unit, re-homing a pipeline first. -/
  | unitDrain (f : Frame)
  /-- UNIT_TEST (R490): Starts an in-service self-test of a unit, with a glen plan. -/
  | unitTest (f : Frame)
  /-- UNIT_RETURN (R488): Returns a unit to service; a pipeline takes its port group back from the spare. -/
  | unitReturn (f : Frame)
  /-- UNIT_STATUS (R557): Returns the state of every pipeline, glen, port group, HBM stack and field-I/O channel. -/
  | unitStatus (f : Frame)
  /-- REHOME (R486): Re-homes a pipeline to its die's spare. -/
  | rehome (f : Frame)
  /-- FAULT_INJECT (R557): Raises a fault source with given ADDR and UNIT, marked INJECTED. -/
  | faultInject (f : Frame)
  /-- FAULT_LOCK (R491): Sets FCL_CFG.LOCK until RESET_N. -/
  | faultLock (f : Frame)
  /-- DUMP_SET_CFG (R516): Sets PERIOD, ring and range of a dump set. -/
  | dumpSetCfg (f : Frame)
  /-- DUMP_RING_CFG (R516): Sets owner, base, size and moderation of a dump ring. -/
  | dumpRingCfg (f : Frame)
  /-- DUMP_NOW (R498): Latches the dump sets of a mask at once as extra dumps. -/
  | dumpNow (f : Frame)
  /-- DUMP_READ (R504): Returns the latest dump of a set, or its MRAM copy. -/
  | dumpRead (f : Frame)
  /-- COUNTER_READ (R516): Reads one record of any dump set live. -/
  | counterRead (f : Frame)
  /-- SAMPLE_RING_CFG (R516): Configures a queue or packet sample ring. -/
  | sampleRingCfg (f : Frame)
  /-- PKT_SAMPLE_CFG (R512): Sets tagging MODE, N and seed. -/
  | pktSampleCfg (f : Frame)
  /-- OVF_SAMPLE_CFG (R515): Sets EN, EVENT and THRESH of overflow sampling per pipeline. -/
  | ovfSampleCfg (f : Frame)
  /-- SLOT_READ (R516): Returns live slot accounting of pipelines. -/
  | slotRead (f : Frame)
  /-- START_STATUS (R469): Returns stage, kind and step of the last start, the failure record and Primrose counters. -/
  | startStatus (f : Frame)
  /-- FW_RESTART (R461): Requests a firmware restart. -/
  | fwRestart (f : Frame)
  /-- FW_BOOT (R467): In the loader, verifies and boots the image in the transfer buffer. -/
  | fwBoot (f : Frame)
  /-- FW_IMAGE_WRITE (R523): Verifies a signed firmware image and writes it into the inactive slot. -/
  | fwImageWrite (f : Frame)
  /-- FW_SLOT_SELECT (R468): Makes a firmware slot active for the next start, optionally restarting. -/
  | fwSlotSelect (f : Frame)
  /-- PRIMROSE_HANDOVER (R453): Hands the Primrose ring ports over to their configuration between two frames. -/
  | primroseHandover (f : Frame)
  /-- START_RETRY (R466): Clears the failure record and begins a failed-repeat start. -/
  | startRetry (f : Frame)
  /-- ID_CERT_READ (R534): Returns the device chain or owner certificate in pieces. -/
  | idCertRead (f : Frame)
  /-- MEASUREMENT_READ (R530): Returns the unsigned measurement digests and counts. -/
  | measurementRead (f : Frame)
  /-- OWNER_CERT_SET (R521): Installs or, with an owner-signed authority record, replaces the owner certificate. -/
  | ownerCertSet (f : Frame)
  /-- OWNER_CERT_CLEAR (R521): Removes the owner certificate under an owner-signed authority record. -/
  | ownerCertClear (f : Frame)
  /-- SVN_COMMIT (R523): Raises SVN_MIN to the active image's security version. -/
  | svnCommit (f : Frame)
  /-- SPDM_MSG (R531): Carries one SPDM request and its response through a mailbox. -/
  | spdmMsg (f : Frame)
  /-- DEBUG_UNLOCK (R527): Checks an action 1 authority record on MB4 and unlocks debug for its duration. -/
  | debugUnlock (f : Frame)
  /-- DEBUG_LOCK (R528): Locks debug at once. -/
  | debugLock (f : Frame)
  /-- DEBUG_POLICY (R529): Writes SEC_CFG.VENDOR_UNLOCK and keeps it in MRAM. -/
  | debugPolicy (f : Frame)
  /-- ISL_CFG_SET (R58): Writes and commits PWI_ISL_CFG and PWI_ISL_LOOP for the islands of a mask. -/
  | islCfgSet (f : Frame)
  /-- ISL_STATUS (R58): Returns an island's registers, restarting VMAX and VMIN. -/
  | islStatus (f : Frame)
  /-- ISL_CEIL_TIME (R58): Writes PWI_CEIL_TIME. -/
  | islCeilTime (f : Frame)
  /-- ISL_LOOP_TIMING (R58): Writes and commits PWI_LOOP_TIMING and PWI_RATIO_CFG. -/
  | islLoopTiming (f : Frame)
  /-- ISL_CEIL_REARM (R58): Clears PWI_CEIL_PEND bits of a mask of islands. -/
  | islCeilRearm (f : Frame)
  /-- COL_STALL_CFG (R81): Writes STALL_TIME of every cell of a mask. -/
  | colStallCfg (f : Frame)
  /-- COL_STATUS (R81): Returns a cell's registers and a domain's status. -/
  | colStatus (f : Frame)
  /-- COL_REARM (R81): Clears sticky bits of cells and ABSENT_SEEN of domains. -/
  | colRearm (f : Frame)
  /-- SMB_REG_WRITE (R546): SMBus command that writes one BAR0 dword as master 3. -/
  | smbRegWrite (addr : Nat) (value : Word)
  /-- SMB_REG_ADDR (R546): SMBus command that sets the address for REG_READ. -/
  | smbRegAddr (addr : Nat)
  /-- SMB_REG_READ (R546): SMBus command that reads the dword at the set address with a status byte. -/
  | smbRegRead
  /-- SMB_REG_STATUS (R546): SMBus command that returns the status of the last REG_WRITE. -/
  | smbRegStatus
  /-- SMB_ALERT_RESPONSE (R547): The module answers the Alert Response Address with its own address while SMB_ALERT_N is asserted. -/
  | smbAlertResponse
  /-- REGACC_UPDATE (R548): A TAP REGACC Update-DR with GO starts a BAR0 access as master 4. -/
  | regaccUpdate (addr : Nat) (write : Bool) (value : Word)
  /-- SPDM_DOE_REQUEST (R531): An SPDM request arrives through the PF0 DOE capability and is answered. -/
  | spdmDoeRequest (words : List Word)
  /-- PCIE_READ_REQUEST (R422): A PCIe memory read of up to 32 dwords is checked whole and then read in ascending order. -/
  | pcieReadRequest (fn addr count : Nat)
  /-- REGISTER_WRITE (R423): A dword write to a register with no row of its own stores its fields under access type and guard rules. -/
  | registerWrite (m a be : Nat) (v : Word)
  /-- STAGED_REGISTER_WRITE (R431): A write to a staged register goes to the staged copy and starts the uncommitted timer. -/
  | stagedRegisterWrite (m a : Nat) (v : Word)
  /-- CFG_UNCOMMITTED_TIMEOUT (R432): A staged write left without commit or discard for 1 ms raises CFG_UNCOMMITTED. -/
  | cfgUncommittedTimeout (commit : Nat)
  /-- COUNTER_LO_READ (R495): A read of a 64-bit counter's _LO word latches its _HI word for the same master. -/
  | counterLoRead (m a : Nat)
  /-- TIM_READ_FRAC (R306): A read of TIM_READ_FRAC latches all four network time read registers. -/
  | timReadFrac (m : Nat)
  /-- PWI_ISL_PEAK_READ (R60): A read of PWI_ISL_PEAK returns VMAX and VMIN and resets both to the current VCODE. -/
  | pwiIslPeakRead (m isl : Nat)
  /-- PWI_COMMIT (R59): Writing COMMIT checks and commits the staged island loop group. -/
  | pwiCommit (m : Nat)
  /-- PWI_DISCARD (R59): Writing DISCARD returns the staged island loop fields to their values in force. -/
  | pwiDiscard (m : Nat)
  /-- PWI_CEIL_PEND_CLEAR (R53): Clearing a PWI_CEIL_PEND bit re-arms ISL_CEILING for that island. -/
  | pwiCeilPendClear (m w : Nat) (v : Word)
  /-- GLN_BUDGET_COMMIT (R29): Writing COMMIT checks the glen budget sum and arms it for the next budget period. -/
  | glnBudgetCommit (m g : Nat)
  /-- GLN_BUDGET_DISCARD (R146): Writing DISCARD discards staged glen budgets. -/
  | glnBudgetDiscard (m g : Nat)
  /-- EMT_KEY_COMMIT (R151): Writing COMMIT checks and commits the key layout group between two lookups. -/
  | emtKeyCommit (m g : Nat)
  /-- EMT_KEY_DISCARD (R151): Writing DISCARD discards the staged key layout group. -/
  | emtKeyDiscard (m g : Nat)
  /-- EMT_HASH_WRITE (R122): A write of the exact-match hash seed or rotation takes effect only while the memory holds no valid entry. -/
  | emtHashWrite (m g : Nat) (seed : Bool) (v : Word)
  /-- STM_HASH_SEED_WRITE (R196): A write of the stream identification seed takes effect only while the table is empty. -/
  | stmHashSeedWrite (m g : Nat) (v : Word)
  /-- FRE_DUP_SEED_WRITE (R334): A write of the duplicate table seed takes effect only while USED is 0. -/
  | freDupSeedWrite (m d : Nat) (v : Word)
  /-- RING_CONS_WRITE (R141): An owner's write to a ring CONS index is dropped when it would pass PROD. -/
  | ringConsWrite (m : Nat) (ring : RingName) (v : Word)
  /-- RING_ENABLE_WRITE (R151): Setting a ring's EN from 0 to 1 sets PROD to CONS. -/
  | ringEnableWrite (m : Nat) (ring : RingName) (v : Word)
  /-- POL_STG_COMMIT (R213): Writing COMMIT checks and commits a meter record between two evaluations, optionally resetting buckets. -/
  | polStgCommit (m g : Nat) (reset : Bool)
  /-- POL_STG_DISCARD (R213): Writing DISCARD discards the staged meter record. -/
  | polStgDiscard (m g : Nat)
  /-- BPM_LAYOUT_COMMIT (R245): Writing COMMIT checks and commits the pool layout and rebuilds free lists. -/
  | bpmLayoutCommit (m d : Nat)
  /-- BPM_LAYOUT_DISCARD (R245): Writing DISCARD discards the staged pool layout. -/
  | bpmLayoutDiscard (m d : Nat)
  /-- BPM_QUOTA_COMMIT (R246): Writing COMMIT checks and commits the quotas between two BPM operations. -/
  | bpmQuotaCommit (m d : Nat)
  /-- BPM_QUOTA_DISCARD (R246): Writing DISCARD discards the staged quotas. -/
  | bpmQuotaDiscard (m d : Nat)
  /-- BPM_BUDGET_COMMIT (R249): Writing COMMIT checks and arms the Plain budgets for the next period. -/
  | bpmBudgetCommit (m d : Nat)
  /-- BPM_BUDGET_DISCARD (R249): Writing DISCARD discards the staged Plain budgets. -/
  | bpmBudgetDiscard (m d : Nat)
  /-- BPM_CAPTURE_REARM (R233): Clearing BPM_BF_CAP_INFO.VALID arms the next refused-release capture. -/
  | bpmCaptureRearm (m d : Nat)
  /-- SCH_BUDGET_COMMIT (R279): Writing COMMIT checks and arms the scheduler budgets for the next period. -/
  | schBudgetCommit (m d : Nat)
  /-- SCH_BUDGET_DISCARD (R279): Writing DISCARD discards the staged scheduler budgets. -/
  | schBudgetDiscard (m d : Nat)
  /-- SCH_SHP_COMMIT (R267): Writing COMMIT checks a shaper record and queues it for a configuration slot, setting PENDING. -/
  | schShpCommit (m d : Nat) (reset : Bool)
  /-- SCH_SHP_DISCARD (R267): Writing DISCARD discards the staged shaper record. -/
  | schShpDiscard (m d : Nat)
  /-- SHAPER_COMMIT_EFFECT (R267): An accepted shaper commit is applied when its access slot is granted and PENDING clears. -/
  | shaperCommitEffect (d : Nat)
  /-- GAT_LIST_COMMIT (R293): Writing COMMIT checks the admin gate list, makes it pending and fixes its change time. -/
  | gatListCommit (m p : Nat)
  /-- GAT_LIST_DISCARD (R293): Writing DISCARD discards staged values or ends a pending change. -/
  | gatListDiscard (m p : Nat)
  /-- TIM_STEP_GO (R282): Writing TIM_STEP_GO steps network time by the offset in TIM_STEP. -/
  | timStepGo (m : Nat)
  /-- TIM_RATE_ADJ_WRITE (R281): A write of TIM_RATE_ADJ changes the time base rate from the next cycle. -/
  | timRateAdjWrite (m : Nat) (v : Word)
  /-- TIM_SRC_SELECT (R284): A change of TIM_CFG.SRC switches the domain 36 PLL phase-continuously and relocks it. -/
  | timSrcSelect (m : Nat) (src : Bool)
  /-- FIO_FO_FORCE_EN_WRITE (R350): A masked write of FIO_FO_FORCE_EN forces or releases output pins. -/
  | fioFoForceEnWrite (m : Nat) (v : Word)
  /-- FIO_FO_FORCE_VAL_WRITE (R350): A masked write of FIO_FO_FORCE_VAL sets forced pin values. -/
  | fioFoForceValWrite (m : Nat) (v : Word)
  /-- FO_MISMATCH_REARM (R352): Clearing an FIO_FO_STAT.MISMATCH bit re-arms that output's readback fault. -/
  | foMismatchRearm (m j : Nat)
  /-- CAS_ROLE_WRITE (R359): A write of CAS_CFG.ROLE changes the role and ends every session. -/
  | casRoleWrite (m role : Nat)
  /-- CAS_AUTH_FAIL_REARM (R375): Clearing CAS_STAT.AUTH_FAIL re-arms CAS_AUTH_FAIL. -/
  | casAuthFailRearm (m : Nat)
  /-- COL_STALL_STICKY_CLEAR (R71): Clearing STALL_STICKY or a COL_STALL_PEND bit re-arms a cell's stall watchdog. -/
  | colStallStickyClear (m c : Nat) (pend : Bool)
  /-- COL_OVF_CLEAR (R73): Clearing OVF or a COL_OVF_PEND bit clears the accumulator's overflow bit. -/
  | colOvfClear (m c : Nat) (pend : Bool)
  /-- PRS_BANK_SWITCH (R104): Writing SWITCH makes the inactive parse bank active for new contexts and sets BUSY. -/
  | prsBankSwitch (m n : Nat)
  /-- RWE_BANK_SWITCH (R316): Writing SWITCH makes the inactive rewrite bank active for new contexts. -/
  | rweBankSwitch (m n : Nat)
  /-- PRS_PATCH_ADDR_WRITE (R112): A write of PRS_PATCH_ADDR loads the addressed patch word into PRS_PATCH_DATA. -/
  | prsPatchAddrWrite (m n : Nat) (v : Word)
  /-- PRS_PATCH_DATA_WRITE (R112): A write of PRS_PATCH_DATA[0] stores all eight words at ADDR, with optional increment. -/
  | prsPatchDataWrite (m n : Nat) (v : Word)
  /-- RWE_PATCH_ADDR_WRITE (R334): A write of RWE_PATCH_ADDR loads the addressed rewrite patch word. -/
  | rwePatchAddrWrite (m n : Nat) (v : Word)
  /-- RWE_PATCH_DATA_WRITE (R334): A write of RWE_PATCH_DATA[0] stores all six words at ADDR. -/
  | rwePatchDataWrite (m n : Nat) (v : Word)
  /-- BUSERR_CAPTURE_REARM (R424): Clearing GLB_BUSERR_CAP_INFO.VALID arms the next bus error capture. -/
  | buserrCaptureRearm (m : Nat)
  /-- FCL_STATUS_CLEAR (R472): Clearing an FCL_STATUS bit acknowledges the source and clears its open bit. -/
  | fclStatusClear (m w : Nat) (v : Word)
  /-- FCL_FIRST_REARM (R477): Clearing FCL_FIRST_SRC.VALID arms the next first-error capture. -/
  | fclFirstRearm (m : Nat)
  /-- FCL_LOG_POP (R492): Writing FCL_LOG_POP removes the head fault log record. -/
  | fclLogPop (m : Nat)
  /-- FCL_LOCK_SET (R492): Writing LOCK locks fault configuration against masters other than the MP. -/
  | fclLockSet (m : Nat)
  /-- PIP_CTL_MODE_WRITE (R493): A write of PIP_CTL.MODE moves a pipeline to the next service, drain, isolate or test state. -/
  | pipCtlModeWrite (m n mode : Nat)
  /-- OVF_CAPTURE_REARM (R515): Clearing PMC_OVF_CAP.VALID arms the next overflow capture. -/
  | ovfCaptureRearm (m p : Nat)
  /-- SEC_DBG_REQ (R525): Writing SEC_DBG_REQ issues a new debug nonce unless lockout is set. -/
  | secDbgReq (m : Nat)
  /-- WIN_READ (R436): WIN_CMD READ copies one table record into WIN_DATA when its access is granted. -/
  | winRead (m w : Nat) (bad : Bool)
  /-- WIN_WRITE (R436): WIN_CMD WRITE applies the record in WIN_DATA under its chapter's checks. -/
  | winWrite (m w : Nat)
  /-- MBX_DOORBELL (R393): Writing a mailbox doorbell in register mode sets BUSY and starts the command. -/
  | mbxDoorbell (m mb : Nat)
  /-- MBX_COMMAND_AREA_WRITE (R393): A write to a command area is dropped and sets WR_BUSY while BUSY is set. -/
  | mbxCommandAreaWrite (m mb w : Nat) (v : Word)
  /-- MBX_CMD_PROD_WRITE (R394): Advancing CMD_PROD submits ring commands, or is dropped on overflow. -/
  | mbxCmdProdWrite (m mb : Nat) (v : Word) (entries : List (List Word))
  /-- MBX_RSP_CONS_WRITE (R394): Advancing RSP_CONS frees response ring entries, or is dropped past RSP_PROD. -/
  | mbxRspConsWrite (m mb : Nat) (v : Word)
  /-- MBX_RING_EN_WRITE (R394): A write of RING_EN switches ring mode when idle and empty and resets the indices. -/
  | mbxRingEnWrite (m mb : Nat) (v : Word)
  /-- PENDING_ELEMENT_COMPLETE (R402): An element reported PENDING completes when its slots are granted. -/
  | pendingElementComplete (g m : Nat)
  /-- SHADOW_LOG_RECOVERY (R406): Firmware reads back every configuration register of blocks whose log entries were lost. -/
  | shadowLogRecovery
  /-- CFG_PARITY_CHECK (R428): The background checker visits a protected register and detects bad parity. -/
  | cfgParityCheck (a : Nat) (pass : Option Nat)
  /-- CFG_RESTORE_WRITE (R429): Firmware writes the shadow value, stored only while parity is still bad. -/
  | cfgRestoreWrite
  /-- CFG_RESTORE_VERIFY_TIMEOUT (R484): Parity still bad 1 ms after a restore write raises CFG_RESTORE_FAIL. -/
  | cfgRestoreVerifyTimeout (a : Nat)
  /-- CLOCK_ABSENT (R62): A clock monitor sees no edge for four periods plus 5 ns and declares the clock absent. -/
  | clockAbsent (d : Nat)
  /-- CLOCK_PRESENT (R62): After 64 good edges a clock is declared present again. -/
  | clockPresent (d periodPs : Nat)
  /-- SYSCLK_SWITCHBACK (R63): After SYSCLK has been present for 100 µs domain 38 switches back from its oscillator. -/
  | sysclkSwitchback
  /-- COL_TRANSFER_START (R65): A cell source places a value and raises its flag. -/
  | colTransferStart (c value : Nat)
  /-- COL_CAPTURE (R65): A cell destination sees the synchronised flag, captures the value and acknowledges. -/
  | colCapture (c : Nat)
  /-- COL_ACK_SEEN (R65): A cell source sees the acknowledge, ends its phase and starts any accumulated pulse transfer. -/
  | colAckSeen (c : Nat)
  /-- COL_FIFO_WRITE (R69): A FIFO cell source writes a word into a free entry. -/
  | colFifoWrite (c word : Nat)
  /-- COL_FIFO_READ (R69): A FIFO cell destination reads a word once its write pointer has crossed. -/
  | colFifoRead (c : Nat)
  /-- PULSE_ARRIVAL (R72): A pulse reaches a pulse cell source and starts a transfer or accumulates. -/
  | pulseArrival (c : Nat)
  /-- COL_STALL_WATCHDOG (R71): A cell stalled longer than STALL_TIME raises COL_STALL once. -/
  | colStallWatchdog (c : Nat)
  /-- COL_PARTNER_RESET (R75): Reset of one side puts the surviving side of a cell into PARTNER_ABSENT. -/
  | colPartnerReset (c : Nat) (ofSource : Bool)
  /-- COL_RESYNC_COMPLETE (R76): The sides exchange pointers, empty the cell and count discarded words. -/
  | colResyncComplete (c : Nat) (through : List Nat)
  /-- RATIO_WINDOW_END (R44): A ratio window completes and the island's demand ratio is computed. -/
  | ratioWindowEnd (n arrivals stepPs milliVolts : Nat)
  /-- ISLAND_EVALUATION (R45): At each raise interval the island loop raises, lowers or holds the island voltage. -/
  | islandEvaluation (n occupancy steps : Nat)
  /-- ISL_CEILING_EXPIRY (R53): An island pinned for longer than the ceiling time raises ISL_CEILING and sets its pending bit. -/
  | islCeilingExpiry (n : Nat)
  /-- BUDGET_PERIOD_BOUNDARY (R27): A 1,024 ns budget period begins, armed budget commits take effect and slots are granted anew. -/
  | budgetPeriodBoundary
  /-- FRAME_INGRESS (R24): The ingress MAC recovers a frame, timestamps it and places it in the port group's ingress FIFO. -/
  | frameIngress (p got : Nat) (bytes : List Byte)
  /-- PRIMROSE_FRAME (R445): A frame on a Primrose ring port is relayed, removed or discarded under the Primrose plan. -/
  | primroseFrame (p : Nat) (bytes : List Byte) (good : Bool)
  /-- PARSE_CONTEXT_TAKE (R84): A frame's first segment takes a free parse context set to its start values. -/
  | parseContextTake (n : Nat)
  /-- PARSE_STEP (R89): A parse context executes one microword, with the HP checks and any END or DROP. -/
  | parseStep (k got : Nat) (bad : Bool)
  /-- GLEN_LOOKUP (R171): The glen runs the exact-match, prefix and TCAM searches and forms the forwarding decision. -/
  | glenLookup (k : Nat) (bad : LookupBad)
  /-- FILTER_STAGE (R200): The filter stage chooses the stream context and applies block, SDU, gate, meter and tenant policer. -/
  | filterStage (k : Nat) (bad : StmBad)
  /-- FRAME_FCS_RESULT (R561): A frame's last byte reaches its pipeline and its ingress FCS proves good or bad. -/
  | frameFcsResult (k : Nat) (good : Bool)
  /-- ADMISSION (R254): The egress die checks the queue's limits and allocates a buffer, or drops the frame. -/
  | admission (k d : Nat) (bad : BpmErr)
  /-- ENQUEUE (R274): A packet joins its service queue, waiting for a reservation slot when needed. -/
  | enqueue (c : Nat)
  /-- PORT_DECISION (R259): A port picks the next frame across nodes and queues, charges its shapers and dequeues it. -/
  | portDecision (p : Nat) (bad : SchBad)
  /-- REWRITE_CONTEXT_TAKE (R307): An egress copy takes a rewrite context at dequeue. -/
  | rewriteContextTake (c : Nat)
  /-- REWRITE_STEP (R310): A rewrite context executes one microword; at END its edits apply and recovery and duplicate checks run. -/
  | rewriteStep (c : Nat) (bad : RweBad)
  /-- LAUNCH_TIME (R317): A launched copy reaches its launch time TL and leaves exactly then, or waits for the next fit. -/
  | launchTime (c : Nat)
  /-- EGRESS_TRANSMIT (R314): The egress MAC sends a copy with a fresh or inverted FCS and takes its egress timestamp. -/
  | egressTransmit (c : Nat) (bad : Bool)
  /-- BPM_RELEASE (R232): An owner releases a buffer; checks pass or refuse, and the cell is freed when its last owner goes. -/
  | bpmRelease (d req owner : Nat) (ptr : Word) (bad : BpmErr)
  /-- BPM_TRANSFER (R234): An owner of a buffer is replaced by a new owner after checks. -/
  | bpmTransfer (d req old new : Nat) (ptr : Word) (bad : BpmErr)
  /-- SPILL_COPY (R238): The spill engine copies a marked frame to HBM and releases its cell. -/
  | spillCopy (c : Nat)
  /-- SPILL_RETURN (R268): The spill engine allocates a cell and copies the head of the HBM part back. -/
  | spillReturn (c : Nat) (bad : Bool)
  /-- LINK_DOWN (R255): A port's link goes down and, with DOWN_DROP set, its queued frames are dropped. -/
  | linkDown (p : Nat)
  /-- LINK_UP (R255): A port's link comes up and waiting frames can leave. -/
  | linkUp (p : Nat)
  /-- PREEMPT_VERIFY_DONE (R300): IEEE 802.3br verification succeeds or fails and preemption becomes active or not. -/
  | preemptVerifyDone (p : Nat) (good : Bool)
  /-- CHANNEL_WORD_REFUSAL (R33): A receiver refuses a word with bad parity and the sender replays it. -/
  | channelWordRefusal (w : WordAt) (n : Nat)
  /-- SADDLE_LANE_REALIGN (R484): Saddle lane alignment is lost and regained and words in flight are replayed. -/
  | saddleLaneRealign (d words : Nat)
  /-- SADDLE_MGMT_WATCHDOG (R484): The management channel moves no word for 10 µs with words pending. -/
  | saddleMgmtWatchdog
  /-- GLEN_UPDATE_OPERATION (R127): The update unit runs a queued insert or delete on a held bucket once its slots are granted. -/
  | glenUpdateOperation (g m : Nat) (verifyFails : Bool)
  /-- PROMOTION (R132): A freed bucket slot takes the lowest-index overflow entry of that bucket. -/
  | promotion (g : Nat) (verifyFails : Bool)
  /-- LEARN_NOTIFY_SERVICE (R134): A pending NEW or MOVED gets its slot and is recorded or applied by AUTO learning. -/
  | learnNotifyService (x : LearnTry)
  /-- AGE_REFRESH (R138): A source hit's queued refresh rewrites the entry's age stamp. -/
  | ageRefresh (g : Nat)
  /-- AGE_TICK (R137): The aging tick advances AGE_NOW if a scanner pass has completed, or is deferred. -/
  | ageTick (g : Nat)
  /-- AGE_SCAN_BUCKET (R139): The scanner reads a bucket or overflow entry and deletes aged entries. -/
  | ageScanBucket (x : ScanRead)
  /-- RING_IRQ_MODERATION (R143): A ring's moderation time ends and its interrupt is raised if PROD has advanced. -/
  | ringIrqModeration (ring : RingName)
  /-- LEARN_REPLICATE (R145): Firmware replicates a learned entry to the glens of the table's policy scope. -/
  | learnReplicate (g : Nat)
  /-- PREFIX_UPDATE_OPERATION (R162): The prefix update unit writes a route change bucket by bucket and the pivot between lookups. -/
  | prefixUpdateOperation (g m : Nat) (badRow : Option Nat)
  /-- PIVOT_SCRUB (R161): The scrub compares a pivot latch with its mirror and corrects it. -/
  | pivotScrub (g n : Nat)
  /-- WIDE_RULE_SCRUB (R182): The scrub compares a wide rule's slices with its mirror. -/
  | wideRuleScrub (g n : Nat)
  /-- WIDE_RULE_RESTORE (R181): The glen rewrites an excluded wide rule from its mirror and clears EXCLUDE. -/
  | wideRuleRestore (g n : Nat)
  /-- NARROW_RULE_SCRUB (R182): Firmware reads narrow rules back each PERIOD, restores differences and retires failing slices. -/
  | narrowRuleScrub (g n : Nat)
  /-- STREAM_MGMT_REQUEST (R193): The stream memory's management port serves one queued request. -/
  | streamMgmtRequest (d : Nat)
  /-- STREAM_GATE_SWITCH (R203): A committed stream gate admin list becomes operational at a cycle boundary. -/
  | streamGateSwitch (g n : Nat)
  /-- METER_SWEEP (R212): The sweep evaluates each meter with zero length to keep elapsed time bounded. -/
  | meterSweep (g n : Nat)
  /-- SHAPER_SWEEP (R264): The scheduler refreshes a shaper's buckets through its configuration activity. -/
  | shaperSweep (d level n : Nat)
  /-- SAMPLE_BOUNDARY (R270): A sampling group's interval boundary starts a pass or counts a skip. -/
  | sampleBoundary (d g : Nat)
  /-- SAMPLE_MEMBER_READ (R272): A sampling group reads one member and writes a sample record. -/
  | sampleMemberRead (d g : Nat)
  /-- PLL_RELOCK_DONE (R284): The domain 36 PLL relocks after a source change and sets LOCKED. -/
  | pllRelockDone
  /-- TIME_SRC_LOSS (R284): Loss of TIME_10M_IN switches the PLL to SYSCLK. -/
  | timeSrcLoss
  /-- PPS_OUT_RISE (R289): PPS_OUT rises when NS passes the configured offset. -/
  | ppsOutRise
  /-- PPS_OUT_FALL (R289): PPS_OUT falls after WIDTH µs. -/
  | ppsOutFall
  /-- PPS_IN_EDGE (R290): A PPS_IN rising edge is stamped and latched. -/
  | ppsInEdge
  /-- PPS_IN_TIMEOUT (R484): With discipline on, no PPS_IN edge for 2 s raises TIME_PPS_LOST. -/
  | ppsInTimeout
  /-- GATE_CHANGE_TIME (R294): At T_c the gate list banks exchange and the new list starts. -/
  | gateChangeTime (p : Nat)
  /-- GATE_ENTRY_START (R295): A gate list entry comes into force and sets the gates of its classes. -/
  | gateEntryStart (p : Nat) (bad : Bool)
  /-- GATE_HOLD_ASSERT (R300): A hold is asserted a tail time before a preemptable gate closes or GAT_HOLD_ADV before an OP 1 entry. -/
  | gateHoldAssert (p : Nat) (op1 : Bool)
  /-- RECOVERY_RESET_TIMEOUT (R325): A recovery function with no pass for RESET_MS sets TAKE_ANY and raises its reset source. -/
  | recoveryResetTimeout (d f : Nat)
  /-- LATENT_TEST_PERIOD (R326): At the end of a latent test period the pass and discard difference is tested. -/
  | latentTestPeriod (d f : Nat)
  /-- LATENT_RESET_PERIOD (R326): P and D are zeroed every LAT_RESET period. -/
  | latentResetPeriod (d f : Nat)
  /-- DUP_ENTRY_RECLAIM (R329): The background scan reclaims duplicate entries older than LIFETIME. -/
  | dupEntryReclaim (d b : Nat)
  /-- FI_TRANSITION (R335): A field input's sampled logical level changes and the glitch filter starts or restarts. -/
  | fiTransition (n : Nat) (pin : Bool)
  /-- FI_FILTER_EXPIRY (R336): A level stable for FILT is accepted as an edge, or the pending transition is cancelled. -/
  | fiFilterExpiry (n : Nat)
  /-- PUB_REPETITION (R342): A publication set's repetition interval ends and its frame is queued again. -/
  | pubRepetition (j : Nat)
  /-- PUB_HEARTBEAT (R342): A publication set's heartbeat interval T0 ends and its frame is queued. -/
  | pubHeartbeat (j : Nat)
  /-- PACKET_TRIGGER_APPLY (R348): A trigger from cell 298 applies set, clear or pulse to an output. -/
  | packetTriggerApply
  /-- TIME_EVENT_FIRE (R351): Network time reaches a time event's occurrence and its operation is applied. -/
  | timeEventFire (n : Nat)
  /-- FO_PULSE_EXPIRY (R347): An output's pulse timer expires and clears its state. -/
  | foPulseExpiry (j : Nat)
  /-- FO_READBACK_TIMEOUT (R352): A pin differing from its driven level for 1 µs raises FIO_FO_MISMATCH. -/
  | foReadbackTimeout (j : Nat) (pin : Bool)
  /-- CONTROL_FRAME_RECEIVE (R374): A cascade control frame is checked, authenticated and taken by kind or relayed. -/
  | controlFrameReceive
  /-- FRAGMENT_TIMEOUT (R374): An incomplete fragment set is discarded 10 ms after its first fragment. -/
  | fragmentTimeout (n : Nat)
  /-- JOIN_HELLO_TIMER (R378): A worker lacking two sessions sends JOIN_HELLO every second. -/
  | joinHelloTimer
  /-- KEEPALIVE_TIMER (R380): A side that has sent nothing for KEEPALIVE ms sends KEEPALIVE. -/
  | keepaliveTimer (k : Nat)
  /-- SESSION_LOSS_TIMEOUT (R380): No authenticated frame for LOSS times KEEPALIVE loses the session. -/
  | sessionLossTimeout (k : Nat)
  /-- SESSION_REKEY_TIMER (R381): A manager rejoins a worker before the counter or the 24 h limit is reached. -/
  | sessionRekeyTimer (k : Nat)
  /-- VIN_GOOD (R540): VIN held at or above 4.45 V for 100 µs brings up the rails and begins a cold start. -/
  | vinGood (straps : Nat)
  /-- VIN_LOW_DETECT (R540): VIN below 4.40 V for 1 µs raises VIN_LOW. -/
  | vinLowDetect
  /-- VIN_RAIL_SHUTDOWN (R540): VIN below 4.20 V switches off all but the always-on and MRAM rails and asserts FAULT_N. -/
  | vinRailShutdown
  /-- VIN_LOSS (R540): VIN below 3.00 V switches off the always-on rail and floats the outputs. -/
  | vinLoss
  /-- VIN_HIGH_DETECT (R540): VIN above 18.5 V for 1 µs raises VIN_HIGH. -/
  | vinHighDetect
  /-- VIN_OVERVOLTAGE (R540): VIN above 19.5 V for 1 µs shuts the rails down. -/
  | vinOvervoltage
  /-- RESET_N_ASSERT (R551): RESET_N is asserted, sampling WARM_N, driving fail states and putting HBM in self-refresh. -/
  | resetNAssert (warm : Bool)
  /-- RESET_N_DEASSERT (R443): RESET_N deasserts, the straps are latched and a cold or warm start begins. -/
  | resetNDeassert (straps : Nat) (warm retained : Bool)
  /-- PCIE_PERST (R545): PCIE_PERST_N resets the PCIe endpoint and domain 32 only. -/
  | pciePerst (low : Bool)
  /-- START_STEP_DONE (R455): A start step completes and the supervisor proceeds to the next. -/
  | startStepDone (r : StartReport)
  /-- START_STEP_OVERRUN (R464): A start step overruns its maximum, or another failure is detected, and the start fails. -/
  | startStepOverrun (cause : Nat)
  /-- PEONY_HOLD_TIMER (R466): Holding Peony for 60 s clears the failed-start record. -/
  | peonyHoldTimer
  /-- MP_WATCHDOG_EXPIRY (R461): The MP watchdog expires and raises MP_WATCHDOG. -/
  | mpWatchdogExpiry
  /-- FIRMWARE_RESTART (R461): The MP is reset and firmware reloaded while forwarding continues. -/
  | firmwareRestart
  /-- HARDWARE_ERROR_EVENT (R471): A block detects an error condition and raises its fault source toward the collector. -/
  | hardwareErrorEvent (e : HwErr)
  /-- CONTEXT_HANG_WATCHDOG (R484): A parse, rewrite, glen, scheduler or pipeline hang watchdog expires. -/
  | contextHangWatchdog (src idx : Nat)
  /-- FAULT_SAMPLE (R474): The collector takes the sources raised since the last sample, ranks them and applies reactions. -/
  | faultSample
  /-- FAULT_WINDOW_EXPIRY (R476): A neighbour window ends WINDOW_US after it opened. -/
  | faultWindowExpiry (n : Nat)
  /-- SPARE_TAKEOVER (R486): Firmware copies an isolated pipeline's registers into the spare, exchanges indices and starts it. -/
  | spareTakeover (n : Nat)
  /-- FAULT_LOG_DRAIN (R478): Firmware drains fault log records and keeps them for FAULT_LOG. -/
  | faultLogDrain
  /-- UNIT_DRAIN_COMPLETE (R488): A draining unit finishes its work or has it discarded and becomes isolated. -/
  | unitDrainComplete (kind idx : Nat)
  /-- UNIT_TEST_COMPLETE (R488): A unit's self-test ends with pass or fail. -/
  | unitTestComplete (kind idx : Nat) (pass : Bool)
  /-- DUMP_BOUNDARY (R497): A dump set's boundary latches its counters into shadows or skips when a dump is in progress. -/
  | dumpBoundary (k : Nat)
  /-- DUMP_WRITE (R503): The PMC reads the shadows and writes a whole dump to its ring, or loses it whole. -/
  | dumpWrite (k : Nat) (bad : Option Nat)
  /-- SLOT_ELAPSE (R509): A pipeline slot elapses and is accounted to exactly one class. -/
  | slotElapse (n : Nat)
  /-- OVF_COUNT_REACHED (R515): An overflow-sampling count reaches THRESH, interrupts the MP and arms a capture. -/
  | ovfCountReached (n : Nat)
  /-- NONCE_LAPSE (R525): A debug nonce lapses 60 s after issue. -/
  | nonceLapse
  /-- LOCKOUT_END (R526): LOCKOUT clears 60 s after it was set. -/
  | lockoutEnd
  /-- UNLOCK_EXPIRY (R528): UNLOCK_LEFT reaches 0 and debug locks again. -/
  | unlockExpiry
  /-- SLEW_COMPLETE (R282): A slew in progress has applied its whole offset, TIM_SLEW_LEFT reaches 0 and TIM_STAT.SLEWING clears. -/
  | slewComplete
  /-- BLOCK_RESET_RELEASE (R75): A unit held in reset by a block-reset or port-group reset reaction is released synchronously to its own clock and comes up in RESYNC, then is restored. -/
  | blockResetRelease (kind idx : Nat)
  /-- HOST_FRAME_TRANSMIT (R286): The MP or the host submits a frame for transmission, optionally with TS_REQ and a cookie, and it is allocated, queued and sent. -/
  | hostFrameTransmit (p tc tenant : Nat) (bytes : List Byte) (cookie : Option Nat) (host : Bool)
  /-- THERM_N_RELEASE (R484): The highest junction sensor falls back to 105 °C or below and THERM_N and GLB_STATUS.THERM are deasserted. -/
  | thermNRelease
  /-- THERMAL_SHUTDOWN (R553): A junction sensor reaches 125 °C and the rails switch off. -/
  | thermalShutdown
  /-- SMBUS_CLOCK_LOW_TIMEOUT (R546): SMB_CLK held low for 25 ms ends the SMBus transaction and raises SMB_ERR. -/
  | smbusClockLowTimeout
  deriving DecidableEq, Repr

end Sys2Proof
end

