-- ==== Sys2Proof/Decode.lean ====
section
/-! DEFINITION. Decoding by the bits of the opcode table.  The table gives none of its rows any bits: a command of the
block is a mailbox frame, a bus access or an event, so no word spells one. -/

namespace Sys2Proof

/-- The command that a word spells by the table's bits: none, since no row has any. -/
def decodeTableWord (_nbits _w : Nat) : Option Instr := none

end Sys2Proof
end

