-- ==== Sys2Proof/Machine/State.lean ====
section
/-! DEFINITION. The state of the EU8840: everything the spec gives the machine, as plain data, and the machine right
after reset.  Registers lie in one sparse file by BAR0 address (`State.regs`, unwritten ones at the reset value the
register map gives); tables are sparse lists by key; every other piece of state has a field of its own, grouped by the
chapter that gives it. -/

namespace Sys2Proof.Machine
open Sys2Proof

/-! ### Registers and the paths to them (chapters 15 and 20) -/

/-- A staged write left open: whether CFG_UNCOMMITTED has been raised for it, who wrote last, and the 1 GHz count at the
first staged write of the period (R432). -/
structure Uncommitted where
  raised : Bool
  lastMaster : Nat
  since : Nat
  deriving DecidableEq, Repr

/-- What a master got back from its last access: `ok` false is a bus error (R424). -/
structure Completion where
  ok : Bool
  words : List Word
  deriving DecidableEq, Repr

/-- One operation of an indirect table window that waits for its slot (R436, R438): the window, the record it names as
the window's registers named it when the operation began, and whether its row reads with bad parity twice (R36). -/
structure WinOp where
  win : Nat
  table : Nat
  unit : Nat
  index : Nat
  write : Bool
  bad : Bool
  deriving DecidableEq, Repr

/-- The paths to the registers.  `staged` holds the staged copies that differ in time from the values in force (R431),
`armed` those copied by a commit that takes effect later (R433). -/
structure Bus where
  staged : Sparse (Option Word)
  armed : Sparse (Option Word)
  /-- Registers and staged copies whose hidden parity is bad (R428, R430), by address. -/
  badPar : List Nat
  badStg : List Nat
  /-- High words latched by a read of a low word, by master and address (R495). -/
  hiLatch : Sparse (Option Word)
  /-- Open staged groups, by the address of their commit register (R432). -/
  open_ : Sparse (Option Uncommitted)
  /-- The local index of the pipeline that each die's spare replaces, one more than it, 0 for none (R6, R421). -/
  spareOf : List Nat
  /-- Firmware's restore queue of register addresses, and the addresses restored and not yet verified, with the
  count of each restore write (R428, R484). -/
  restoreQ : List Nat
  restored : List (Nat × Nat)
  /-- What each master's last access returned, by master index (R422, R425). -/
  done : Sparse (Option Completion)
  /-- The PCIe AER status of PF0 shows a Completer Abort (R424). -/
  aerAbort : Bool
  winQ : List WinOp
  /-- SMBus: the address REG_ADDR set, the status of the last REG_WRITE, the last block read (R546). -/
  smbAddr : Option Word
  smbStatus : Nat
  smbRead : List Nat
  /-- The TAP's REGACC data register: data and status of the last access (R548). -/
  tapData : Word
  tapStatus : Nat
  deriving DecidableEq, Repr

/-! ### Mailboxes (chapter 14) -/

/-- A mailbox session (R396, R397); session 0 is none. -/
structure Session where
  number : Word
  agreed : Nat
  client : Word
  deriving DecidableEq, Repr

/-- A command answered PENDING, with its element results as they stand (R402). -/
structure PendRec where
  id : Nat
  mb : Nat
  tag : Nat
  die : Bool
  elems : List Nat
  deriving DecidableEq, Repr

/-- One entry of the shadow log (R406). -/
structure LogEntry where
  addr : Nat
  value : Word
  mask : Nat
  master : Nat
  deriving DecidableEq, Repr

/-- The mailboxes and what firmware keeps for them.  A mailbox's key is its number, 10 for session B of a worker on
MB2. -/
structure Mbx where
  sess : Sparse Session
  /-- Sessions opened so far; the last number given out (R397). -/
  opened : Nat
  /-- Command ring slots in host memory as their owner last wrote them, by mailbox and slot (R394). -/
  ringMem : Sparse (List Word)
  /-- MB2 commands reassembled and not yet answered, oldest first, by session (R395). -/
  mb2 : Sparse (List (List Word))
  /-- Doorbells counted while firmware does not take commands, by mailbox (R393, R403). -/
  early : Sparse Nat
  /-- Command areas and response areas, 1,024 words each (R386). -/
  area : Sparse Word
  resp : Sparse (List Word)
  /-- Transfer buffers of 64 KiB, 16,384 words each, by mailbox (R411). -/
  xfer : Sparse Word
  /-- PENDING commands, oldest first; 64 of each mailbox are kept (R402). -/
  pend : List PendRec
  nextPend : Nat
  /-- The shadow log (R406). -/
  log : List LogEntry
  /-- MRAM shadow: bytes used, last committed transaction (R408, R409). -/
  shUsed : Nat
  txn : Nat
  /-- Firmware's staging list of GATE_LIST_SET by port (R413): entries of two words. -/
  gateStg : Sparse (List (Word × Word))
  /-- Commands that firmware has taken and not answered, oldest first, by mailbox and opcode: each holds the locks of its
  groups, or waits for those that one before it holds (R400, R401). -/
  waits : List (Nat × Nat)
  deriving DecidableEq, Repr

/-! ### What leaves the block -/

/-- What the block hands to the outside: interrupts, memory writes, frames, pins and bus messages.  `ring` is a record
written: the ring's base register, the record's index, whether it goes to host memory or to the MP's, its address there
(R140), its words. -/
inductive Out where
  | irqMp (cause : Nat)
  | msix (fn vec : Nat)
  | hostNotify (addr : Nat)
  | ring (base index : Nat) (host : Bool) (addr : Nat) (words : List Word)
  | frame (port : Nat) (bytes : List Byte) (fcsGood : Bool)
  | smbBytes (bytes : List Nat)
  | doe (words : List Word)
  deriving DecidableEq, Repr

/-- What firmware and hardware remember of one record ring (R140 to R143): the time of its last interrupt, whether
PROD has advanced since, and whether a record was lost since the last one written. -/
structure RingSt where
  lastIrq : Option Nat
  advanced : Bool
  loss : Bool
  deriving DecidableEq, Repr

/-! ### Access budgets (R26 to R32) -/

/-- Who waits for an element: the PENDING command and the element's index, or nobody. -/
structure Ticket where
  id : Nat
  elem : Nat
  deriving DecidableEq, Repr

/-! ### Ports (chapters 0, 1, 14, 15) -/

/-- A logical port (R5, R416): width in lanes, lane rate and FEC codes of PORT_CREATE, maximum frame length, whether
it is administratively up and whether its link is up. -/
structure PortRec where
  width : Nat
  rate : Nat
  fec : Nat
  maxLen : Nat
  admin : Bool
  link : Bool
  deriving DecidableEq, Repr

/-- A mirror of a source port (R415). -/
structure Mirror where
  ingress : Bool
  egress : Bool
  group : Nat
  trunc : Nat
  sample : Nat
  deriving DecidableEq, Repr

/-- Ports, multicast groups, mirrors, and the ingress FIFO bytes held per port group (R24). -/
structure Ports where
  ports : Sparse (Option PortRec)
  /-- Member bitmaps of ports 0 to 255, by group (R415). -/
  mcast : Sparse Nat
  mirrors : Sparse (Option Mirror)
  /-- Bytes waiting in each port group's ingress FIFO. -/
  fifo : Sparse Nat
  /-- Tuning words of the port groups that a master has written since firmware last wrote them (R441), by address. -/
  tuning : Sparse (Option Word)
  deriving DecidableEq, Repr

/-! ### Islands and crossings (chapters 2 and 3) -/

/-- What an island's loop remembers (R44, R45, R53), in ns of the 1 GHz count: since when its lower condition has held,
its last lower, since when it has been pinned at every evaluation, its last evaluation, the end of its last ratio
window. -/
structure IslSt where
  dwell : Option Nat
  lowered : Option Nat
  pinned : Option Nat
  evaluated : Option Nat
  window : Option Nat
  deriving DecidableEq, Repr

/-- A col cell.  Transfers (R65, R72): its flag, whether the destination has captured, the value or count in the transfer
and its overflow flag, the value last captured or the pulses delivered; the source's current value; the accumulator of a
pulse cell and its sticky overflow bit.  A FIFO cell (R69, R76): its words from the oldest whose read the writer has not
seen, how many of them have been read, of how many the reader has seen the write, and the words that its source still
keeps in its own block.  Stalls (R71): since when nothing has moved, since when a FIFO has been full, STALLED.  Resets
(R75 to R80): the sides in reset (1 source, 2 destination, 3 both), those whose release waits for their clock, those that
came up in RESYNC, and whether both sides were in reset together. -/
structure ColCell where
  flag : Bool
  captured : Bool
  ovfIn : Bool
  val : Nat
  last : Nat
  cur : Nat
  acc : Nat
  accOvf : Bool
  fifo : List Nat
  read : Nat
  seen : Nat
  kept : List Nat
  since : Nat
  fullAt : Nat
  stalled : Bool
  rst : Nat
  rel : Nat
  sync : Nat
  both : Bool
  deriving DecidableEq, Repr

/-- The col cells, and the domains whose clock has been declared absent and not present again (R62). -/
structure Col where
  cells : Sparse ColCell
  stopped : List Nat
  deriving DecidableEq, Repr

/-! ### Microcode engines and packets (chapters 1, 4, 6, 11) -/

/-- A parse or rewrite context (R86, R308).  `stack` has its top first; `limit` and `depthLimit` are the limits as
they stood when the context was taken (R113); the key buffer, flags, class, key layout and depth base are the parse
engine's alone. -/
structure UCtx where
  pc : Nat
  hp : Nat
  a : Nat
  b : Nat
  stack : List Nat
  steps : Nat
  bank : Nat
  limit : Nat
  depthLimit : Nat
  kb : List Byte
  offs : List Nat
  flags : Nat
  cls : Nat
  prof : Nat
  depthBase : Nat
  deriving DecidableEq, Repr

/-- One edit of a rewrite context's list (R311): the operation, its position in the frame as received, the bytes it
writes or their number. -/
structure Edit where
  op : Nat
  pos : Nat
  len : Nat
  bytes : List Byte
  deriving DecidableEq, Repr

/-- The forwarding decision of a packet (R171, R172) with what the TCAM winner adds: egress ports, whether they are a
group's, the ports of copies sent upstream alone (R369, R370), a copy to the MP, traffic class, USER, VID, mirroring, routed by step 4, the winner's action word 1, and the
flags of an upstream copy (R369) or of a control frame that this engine sends (R374). -/
structure Decision where
  ports : List Nat
  group : Bool
  upPorts : List Nat
  toMp : Bool
  tc : Nat
  user : Nat
  vid : Nat
  mirror : Bool
  routed : Bool
  tcam1 : Word
  up : Bool
  exc : Bool
  ctrl : Bool
  deriving DecidableEq, Repr

/-- Where a packet stands (R18). -/
inductive Phase where
  | fifo | parsing | parsed | looked | filtered | admitted
  deriving DecidableEq, Repr

/-- A packet: ingress port, pipeline index, the frame without its FCS, the bytes that have arrived, whether its last
byte has and what its FCS proved to be, arrival count, ingress timestamp in ns and whether time was valid, its parse
and what followed.  `charged` are the meters charged on a decision length (R211); `seq` the sequence number drawn
(R320); `ptrs` the buffers allocated per die; `dies` the dies still to admit it; `verdicts` the recovery and duplicate
decisions per buffer (R324, R330); `times` the stage times of R513; `sent` says that a copy reached an egress MAC or
the MP (R510). -/
structure Pkt where
  port : Nat
  pip : Nat
  bytes : List Byte
  got : Nat
  complete : Bool
  fcs : Option Bool
  arrival : Nat
  stamp : Nat
  tsv : Bool
  phase : Phase
  profile : Nat
  ctx : UCtx
  endAct : Nat
  dec : Decision
  handle : Option Nat
  colour : Nat
  tenant : Nat
  charged : List (Nat × Int × Bool × Bool)
  seq : Option Nat
  dies : List Nat
  ptrs : List (Nat × Word)
  verdicts : List (Nat × Bool)
  trigger : Option (Nat × Nat)
  tagged : Bool
  times : List Nat
  vParse : Nat
  sent : Bool
  /-- False hits that its lookup has met, while the repeat of the search waits for a slot (R180). -/
  falseHits : Nat
  deriving DecidableEq, Repr

/-- Where an egress copy stands: it waits to join its queue, is queued, dequeued, in a rewrite context, launched, with
the MAC. -/
inductive CopyPhase where
  | waiting | queued | dequeued | rewriting | launched | ready
  deriving DecidableEq, Repr

/-- An egress copy of a packet: its port, local queue, traffic class, colour, frame length with FCS, buffer, owner and
requester; cut-through (R21); marked for spilling or in HBM (R268); its rewrite context and edits; the bytes a mirror copy is cut to, 0 for all; the frame as edited;
ended with an inverted FCS (R22); its buffer's data known to be bad (R37); its launch time (R317); a timestamp request with its cookie (R286). -/
structure Copy where
  pkt : Nat
  port : Nat
  queue : Nat
  tc : Nat
  colour : Nat
  len : Nat
  ptr : Word
  phase : CopyPhase
  cut : Bool
  marked : Bool
  inHbm : Bool
  spilled : Bool
  ctx : UCtx
  edits : List Edit
  csum : Nat
  trunc : Nat
  out : List Byte
  invFcs : Bool
  badData : Bool
  tl : Option Nat
  tsReq : Option Nat
  times : List Nat
  vEnd : Nat
  deriving DecidableEq, Repr

/-- A frame that the MP has been given: its buffer, ingress port (256 for none), the bytes, timestamp in ns and whether
time was valid, whether it is a cascade control frame (R374). -/
structure MpFrame where
  die : Nat
  ptr : Word
  port : Nat
  bytes : List Byte
  stamp : Nat
  tsv : Bool
  ctrl : Bool
  deriving DecidableEq, Repr

/-- A request for slots of the Plain that waits (R27, R240).  Host DMA: a frame of the engine's own for a die's ports, with
its requester, the cookie of a timestamp request, and whether it is a publication; a sample record with its ring and the
register that counts its loss.  Mirror copies: a packet with its mirror's group and truncation. -/
inductive MemReq where
  | frame (pkt req : Nat) (ports : List Nat) (cookie : Option Nat) (pub : Bool)
  | sample (ring lost : Nat) (words : List Word)
  | mirror (pkt group trunc : Nat)
  deriving DecidableEq, Repr

/-- The packets in the block and their copies, by number; the numbers given out. -/
structure Path where
  pkts : Sparse (Option Pkt)
  nextPkt : Nat
  copies : Sparse (Option Copy)
  nextCopy : Nat
  /-- Mirrored frames counted per source port, for sampling. -/
  mirCnt : Sparse Nat
  /-- Tagging LFSR of each pipeline index (R512). -/
  lfsr : Sparse Nat
  /-- Word refusals waiting to be accounted per pipeline index (R509). -/
  wasted : Sparse Nat
  /-- A packet took a context since the last slot (R509). -/
  took : Sparse Bool
  /-- Overflow sampling: the next parse that ends is captured (R515). -/
  capNext : List Nat
  /-- Frames the MP holds, oldest first. -/
  mpRx : List MpFrame
  /-- When the last frame sent on a port ends, in ns of network time (R317). -/
  wireEnd : Sparse Nat
  /-- Requests that wait for slots of the Plain, by die and activity, oldest first. -/
  memQ : Sparse (List MemReq)
  deriving DecidableEq, Repr

/-- A patch set (R106 to R109): the image as signed and the first patch word it takes. -/
structure PatchSet where
  image : List Byte
  base : Nat
  deriving DecidableEq, Repr

/-- A copy of a ROM word in patch memory (R95): the engine's kind and pipeline block, the patch word, the ROM address. -/
structure RomCopy where
  e : Nat
  pip : Nat
  word : Nat
  rom : Nat
  deriving DecidableEq, Repr

/-- A load that waits in a gap (R106): the engines' kind, the mailbox and the image. -/
structure GapLoad where
  e : Nat
  mb : Nat
  image : List Byte
  deriving DecidableEq, Repr

/-- The patch memories of the engines: words as 256-bit and 192-bit numbers, keyed by pipeline block and word; the patch
sets by key: 1 parse and 2 rewrite the active set, 3 and 4 the one in the inactive banks; the ROM words covered, the loads
that wait in a gap. -/
structure Ucode where
  prs : Sparse Nat
  rwe : Sparse Nat
  sets : Sparse PatchSet
  covers : List RomCopy
  gaps : List GapLoad
  deriving DecidableEq, Repr


/-! ### Exact match (chapter 5) -/

/-- An exact-match entry (R117); KEY as a 96-bit number, key byte 0 highest. -/
structure EmEntry where
  key : Nat
  action : Word
  age : Nat
  isStatic : Bool
  valid : Bool
  table : Nat
  deriving DecidableEq, Repr

/-- An overflow entry: an exact-match entry with its home bucket (R120). -/
structure OvfEntry where
  e : EmEntry
  home : Nat
  deriving DecidableEq, Repr

/-- An operation of the glen's table-memory update unit that waits for slots (R126, R27). -/
inductive GlenOp where
  | emInsert (table key : Nat) (action : Word) (isStatic : Bool)
  | emDelete (table key : Nat)
  | emFlush (table : Nat) (portEn : Bool) (port : Nat) (selStatic selOther : Bool)
  | routeAdd (vrf fam pfx len nh count : Nat)
  | routeDel (vrf fam pfx len : Nat)
  | nextHop (index : Nat) (action : Word)
  | tcamWrite (index hdr : Nat) (words : List Word)
  | tcamDelete (index : Nat)
  | tcamReplace (old index hdr : Nat) (words : List Word)
  | tcamAction (index : Nat) (setAct setPrio : Bool) (prio : Nat) (a0 a1 : Word)
  /-- Firmware rewrites a row that a read found bad: 0 a bucket, 1 a prefix bucket (R36, R161). -/
  | rowFix (kind index : Nat)
  deriving DecidableEq, Repr

/-- A queued operation with the command element it answers, and the memories whose slots it still waits for, in turn
(R154). -/
structure QueuedOp where
  op : GlenOp
  ticket : Option Ticket
  mems : List Nat
  deriving DecidableEq, Repr

/-- A NEW or MOVED in the pending queue (R133, R136); `pkt` is the frame whose FCS it waits for, `good` says it has
proved good.  `reason` is 1 NEW or 2 MOVED. -/
structure LearnPend where
  reason : Nat
  table : Nat
  key : Nat
  port : Nat
  pkt : Nat
  good : Bool
  /-- The entry the source search hit, as it was read: its action, STATIC, whether it lay in the overflow store. -/
  act : Word
  isStatic : Bool
  inOvf : Bool
  deriving DecidableEq, Repr

/-- A key in the glen's filter and the time it was posted, in ns of the 1 GHz count (R135). -/
structure FilterEnt where
  table : Nat
  key : Nat
  time : Nat
  deriving DecidableEq, Repr

/-- One route (R157). -/
structure Route where
  vrf : Nat
  fam : Nat
  pfx : Nat
  len : Nat
  nh : Nat
  count : Nat
  deriving DecidableEq, Repr

/-- A TCAM rule by its INDEX (R165): the header fields, one VALUE and MASK per slice, the two action words.  `array` is
the slices as the array holds them, `slices` and `hdr` the mirror or firmware's record of them and of the header word
(R179, R181). -/
structure Rule where
  valid : Bool
  exclude : Bool
  width : Nat
  group : Nat
  prio : Nat
  slices : List (Nat × Nat)
  array : List (Nat × Nat)
  act0 : Word
  act1 : Word
  hdr : Word
  deriving DecidableEq, Repr

/-- The eight glens' table, TCAM and rule memories and their update, learning and aging machinery.  Tables are keyed
by glen and index. -/
structure Glens where
  /-- Buckets: index 4 × bucket + slot. -/
  em : Sparse EmEntry
  ovf : Sparse OvfEntry
  /-- Retired buckets, overflow entries and prefix bucket rows (R148, R149, R161). -/
  bktRetired : Sparse Bool
  ovfRetired : Sparse Bool
  pfxRetired : Sparse Bool
  lfsr : Sparse Nat
  filter : Sparse (List FilterEnt)
  pend : Sparse (List LearnPend)
  /-- Age refreshes waiting: (table, key) pairs (R138). -/
  ageQ : Sparse (List (Nat × Nat))
  /-- Buckets with a promotion queued (R132). -/
  promo : Sparse (List Nat)
  /-- Update requests that wait for slots, by memory unit (R27, R126, R154). -/
  updQ : Sparse (List QueuedOp)
  /-- The scanner: position in its pass (R139); ticks deferred that AGE_NOW has still to follow, and how many were
deferred (R137). -/
  scanPos : Sparse Nat
  /-- The scanner idles between passes (R139); it runs one from reset on. -/
  scanIdle : Sparse Bool
  tickLate : Sparse Nat
  tickLateCnt : Sparse Nat
  /-- The 1 GHz count of each glen's last tick, or of TICK's becoming non-zero (R137). -/
  tickAt : Sparse Nat
  /-- Replicate-on-learn policy of each table (R145): 0 OFF, 1 SAME_DIE, 2 ALL_GLENS. -/
  learnPol : Sparse Nat
  /-- The origin glen of each learned key, as firmware keeps it (R145): key by table, value list of (key, glen). -/
  origin : List (Nat × Nat × Nat)
  routes : Sparse (List Route)
  nextHop : Sparse Word
  /-- Pivot latches and their mirror (R160, R161); bounds are not laid down, so each holds whether it is corrupted. -/
  pivotBad : Sparse Bool
  rules : Sparse Rule
  /-- Slices retired, and when each slice gave its false hits and scrub fixes (R183). -/
  sliceRetired : Sparse Bool
  sliceHits : Sparse (List Nat)
  deriving DecidableEq, Repr

/-- The access budgets: slots used in the present period, by memory unit and activity, queued debt included; rows
flagged under R36; spare rows used per macro; the period count, and which 1,024 ns of the 1 GHz count the last boundary
began. -/
structure Budgets where
  used : Sparse Nat
  rowFlags : Sparse Nat
  sparesUsed : Sparse Nat
  periods : Nat
  last : Nat
  deriving DecidableEq, Repr

/-! ### Streams, gates and meters (chapter 7) -/

/-- A stream identification entry: the 48 key bytes as one number, byte 0 highest (R194, R196). -/
structure StreamId where
  key : Nat
  ctx : Nat
  valid : Bool
  deriving DecidableEq, Repr

/-- One list of a gate with its times: entries, base time in ns since the PTP epoch, cycle and extension in ns. -/
structure GateSet where
  len : Nat
  base : Nat
  cycle : Nat
  ext : Nat
  entries : List Word
  deriving DecidableEq, Repr

/-- A stream gate (R203): the admin list, the operational list and since when it is in force, the list in force
before, the change time of a committed admin list that waits. -/
structure StreamGate where
  admin : GateSet
  oper : GateSet
  prev : GateSet
  since : Nat
  tc : Option Nat
  /-- Committed while network time was not valid: the change time is fixed when it becomes valid (R293). -/
  waits : Bool
  invRxEn : Bool
  closedInv : Bool
  deriving DecidableEq, Repr

/-- A meter (R207, R210): its four record words, both buckets in units of 2^-32 byte, the 32-bit last-update time. -/
structure Meter where
  w0 : Word
  w1 : Word
  w2 : Word
  w3 : Word
  tc : Int
  tp : Int
  last : Nat
  deriving DecidableEq, Repr

/-- A histogram report on its way to a context's bins (R217). -/
structure HistRep where
  glen : Nat
  ctx : Nat
  residence : Int
  deriving DecidableEq, Repr

/-- The eight stream memories, keyed by glen and index; tenant-ingress policer i is meter 32,768 + i. -/
structure Streams where
  ids : Sparse StreamId
  ctx : Sparse (List Word)
  gates : Sparse StreamGate
  meters : Sparse Meter
  tenMap : Sparse Word
  edges : Sparse (List Word)
  /-- Histogram queue of each die (R217). -/
  histQ : Sparse (List HistRep)
  deriving DecidableEq, Repr

/-! ### The Plain and the buffer pool manager (chapter 8) -/

/-- A cell's state (R232). -/
inductive CellSt where
  | free | allocated | retired | quarantined
  deriving DecidableEq, Repr

/-- A cell of the Plain: its state, the owners still on its buffer's list, those of them that are the port set, the
requester and pool that allocated it, the epoch count of its allocation, whether it holds an owner record. -/
structure CellRec where
  st : CellSt
  owners : List Nat
  ports : List Nat
  req : Nat
  pool : Nat
  epoch : Nat
  record : Bool
  deriving DecidableEq, Repr

/-- A pool's region and its first-in, first-out free list (R222, R236): the region's first unit and cell count, the
index of the next cell not allocated since the layout was committed, the cells that left that part in some other way, the
addresses freed since, oldest first. -/
structure PoolSt where
  first : Nat
  cells : Nat
  next : Nat
  left : List Nat
  freed : List Nat
  deriving DecidableEq, Repr

/-- A page whose row is flagged, draining or retired (R241). -/
structure PageSt where
  flags : Nat
  draining : Bool
  retired : Bool
  deriving DecidableEq, Repr

/-- Both buffer pool managers.  Cells by die and ADDR, pools by die and pool, pages by die and page. -/
structure Bpm where
  cells : Sparse CellRec
  pools : Sparse PoolSt
  pages : Sparse PageSt
  /-- Spare rows used, by die and macro group (R241). -/
  sparesUsed : Sparse Nat
  /-- Dies whose audit firmware owes after a state parity error (R242). -/
  audits : List Nat
  deriving DecidableEq, Repr

/-! ### Scheduler (chapter 9) -/

/-- A shaper record (R262) with its buckets in units of 2^-32 byte and its last-update count. -/
structure Shp where
  w0 : Word
  w1 : Word
  w2 : Word
  tc : Int
  tp : Int
  last : Nat
  deriving DecidableEq, Repr

/-- The DWRR state of a node: the current queue of passes 2 and 4, the deficits of its queues (R260). -/
structure NodeDyn where
  cur2 : Option Nat
  cur4 : Option Nat
  defs : Sparse Int
  deriving DecidableEq, Repr

/-- The same of a port over its nodes, with the node last served for each class and pass (R259). -/
structure PortDyn where
  cur2 : Option Nat
  cur4 : Option Nat
  defs : Sparse Int
  served : Sparse (Option Nat)
  deriving DecidableEq, Repr

/-- A shaper commit that waits for its access slot (R267): STG_ADDR, the record, RESET_BKT, who waits. -/
structure ShpPend where
  addr : Word
  w0 : Word
  w1 : Word
  w2 : Word
  reset : Bool
  ticket : Option Ticket
  deriving DecidableEq, Repr

/-- A sampling group (R270): its level and the members still to be read in the pass under way, and its next boundary on the
1 GHz count, 0 while it is off. -/
structure SampSt where
  level : Nat
  members : List Nat
  next : Nat
  deriving DecidableEq, Repr

/-- Both schedulers: records by die and local index, queues as lists of copies, head first. -/
structure Sch where
  tmap : Sparse Word
  nodes : Sparse Word
  queues : Sparse (List Word)
  q : Sparse (List Nat)
  shp : Sparse Shp
  shpPend : Sparse (Option ShpPend)
  nodeDyn : Sparse NodeDyn
  portDyn : Sparse PortDyn
  /-- Reserved slots used in the present period, and enqueues that wait, per die (R274). -/
  resUsed : Sparse Nat
  enqWait : Sparse (List Nat)
  samp : Sparse SampSt
  /-- Retired nodes, by die and index, whose tenants firmware has still to re-home (R275). -/
  rehome : List Nat
  deriving DecidableEq, Repr

/-! ### Time (chapter 10) -/

/-- The time base.  `now` is network time in units of 2^-48 ns since the PTP epoch: SEC, NS, the 16 fraction bits that
software sees and the 32 hidden ones (R280, R281).  `cnt` counts the 1 GHz cycles of domain 36 (R28).  `slewLeft` is
what a slew has still to apply, in units of 10^-9 ns; `rateRem` is the part of the adjustments below 2^-48 ns. -/
structure Tim where
  now : Nat
  cnt : Nat
  rateRem : Nat
  slewLeft : Int
  /-- The level of PPS_OUT, a capture of PPS_IN not yet read, PPS_IN discipline (R289, R290, R305). -/
  ppsHigh : Bool
  ppsUnread : Bool
  discipline : Bool
  /-- The 1 GHz count of the last PPS_IN edge, or of discipline's being turned on (R484). -/
  ppsSeen : Nat
  /-- Clock instances by number (R288): the payload that set them. -/
  ptp : Sparse (List Word)
  /-- Egress timestamp records per die, oldest first (R286). -/
  tsRing : Sparse (List (List Word))
  deriving DecidableEq, Repr

/-- One bank of a port's gate list (R292): LENGTH, base time in ns since the epoch, CYCLE, EXT and the 1,024 entries,
those that are not zero listed. -/
structure GateBank where
  len : Nat
  base : Nat
  cycle : Nat
  ext : Nat
  entries : Sparse (Word × Word)
  deriving DecidableEq, Repr

/-- The gates of a port: the entries of the admin bank (its parameters are the GAT_ADMIN registers) and the staged
entries over them, the operational bank, whether a list is pending and its change time, the gates as they stand (a bit
per class), the holds asserted for an OP 1 entry and for a closing gate, the class of the frame on the wire. -/
structure GatePort where
  admin : Sparse (Word × Word)
  stg : Sparse (Option (Word × Word))
  oper : GateBank
  pending : Bool
  tc : Option Nat
  gates : Nat
  holdOp : Bool
  holdClose : Bool
  wire : Option Nat
  deriving DecidableEq, Repr
/-! ### Redundancy (chapter 11) -/

/-- A recovery function (R323): its three configuration words, TAKE_ANY, RECOV_SEQ, the history with bit 0 newest, the
latent-test counts, and when its reset timer and latent periods last started, in ns of the 1 GHz count. -/
structure Rcv where
  w0 : Word
  w1 : Word
  w2 : Word
  takeAny : Bool
  seq : Nat
  hist : Nat
  p : Nat
  d : Nat
  timer : Nat
  latAt : Nat
  latZero : Nat
  deriving DecidableEq, Repr

/-- A duplicate entry (R329): source address, sequence number, domain, insertion time. -/
structure DupEnt where
  mac : Nat
  seq : Nat
  domain : Nat
  time : Nat
  deriving DecidableEq, Repr

/-- Both FRE blocks: handle maps, generators, recovery functions and duplicate buckets, by die. -/
structure Fre where
  handles : Sparse Word
  gens : Sparse Nat
  rcv : Sparse Rcv
  dup : Sparse (List DupEnt)
  deriving DecidableEq, Repr

/-! ### Field inputs and outputs (chapter 12) -/

/-- A field input (R336 to R338): the sampled pin level, the accepted level once there is one, T_first and the number of
transitions away, the count at the last transition, MSEQ, a loss to be shown in the next record, the last edge's time,
its quality and whether there was one. -/
structure FiIn where
  pin : Bool
  acc : Option Bool
  first : Option Nat
  moves : Nat
  since : Nat
  mseq : Nat
  loss : Bool
  last : Nat
  qual : Nat
  seen : Bool
  deriving DecidableEq, Repr

/-- A field output (R347, R352, R353): logical state, pulse running, fail state with the level it holds, the physical
level driven, MSEQ, a loss to be shown, the last change's time and quality; the count at which the pulse ends, and the level
that the pin had when the fail state began. -/
structure FoOut where
  state : Bool
  pulse : Bool
  fail : Bool
  failLevel : Bool
  level : Bool
  mseq : Nat
  loss : Bool
  last : Nat
  qual : Nat
  ends : Nat
  was : Bool
  deriving DecidableEq, Repr

/-- An event in the unit's queue: the member and its record of R339, whether it goes to the event ring. -/
structure FioEvt where
  mem : Nat
  bytes : List Nat
  ring : Bool
  deriving DecidableEq, Repr

/-- A publication set (R341, R342): the payload words that set it, the records of the present state, the interval of
the repetition that comes next in µs (0 for none), whether heartbeats run, FRAME_SEQ of the state's first frame, the
number of frames so far, stNum, sqNum, the time of the state in ns, and the count at which its frame was last due. -/
structure PubSt where
  cfg : List Word
  events : List (List Nat)
  fresh : Bool
  interval : Nat
  beats : Bool
  frameSeq : Nat
  seqNext : Nat
  stNum : Nat
  sqNum : Nat
  at_ : Nat
  sentAt : Nat
  deriving DecidableEq, Repr

/-- A GOOSE template (R345): its bytes, ST_OFF, SQ_OFF, T_OFF, and its data positions (offset, member, kind). -/
structure Goose where
  bytes : List Nat
  stOff : Nat
  sqOff : Nat
  tOff : Nat
  pos : List (Nat × Nat × Nat)
  deriving DecidableEq, Repr

/-- A time event (R351): PIN, OP, EN, START and the next occurrence in ns since the epoch, PERIOD. -/
structure TimeEvt where
  pin : Nat
  op : Nat
  en : Bool
  start : Nat
  period : Nat
  next : Nat
  deriving DecidableEq, Repr

/-- The field I/O unit; `trig` is the trigger queue of R349, `ready` says that the pin record has been loaded (R354). -/
structure Fio where
  ins : Sparse FiIn
  outs : Sparse FoOut
  evq : List FioEvt
  pubs : Sparse PubSt
  tmpl : Sparse Goose
  trig : List (Nat × Nat)
  tev : Sparse TimeEvt
  ready : Bool
  /-- The pin record in MRAM (R354). -/
  pinRec : Sparse (Option Word)
  /-- Network time has been invalid since the inputs' levels were taken (R337). -/
  stale : Bool
  deriving DecidableEq, Repr


/-! ### The cascade (chapter 13) -/

/-- A session (R374 to R381), or one that is joining: its number, the partner's device ID, the manager's PRIORITY, the
tag version chosen, whether it is up, the last COUNTER sent, the highest accepted and which of the 64 below it have been
(bit i for COUNTER top − 1 − i), when a frame last came and last went and when it came up, in ns of the 1 GHz count, the
port that faces the partner, the join payloads so far, the number of the session it replaces (R381), and the command session that the manager's HELLO opened on MB2 with its
version. -/
structure CasSess where
  number : Nat
  device : Nat
  prio : Nat
  tagVer : Nat
  up : Bool
  tx : Nat
  rxTop : Nat
  rxMask : Nat
  lastRx : Nat
  lastTx : Nat
  since : Nat
  port : Nat
  talk : List (List Byte)
  old : Nat
  mbSess : Nat
  agreed : Nat
  deriving DecidableEq, Repr

/-- Fragments of one message (R374): who sent it, session, kind, first COUNTER, when the first came, the pieces by index,
the number of pieces once it is known. -/
structure CasFrag where
  device : Nat
  sess : Nat
  kind : Nat
  first : Nat
  time : Nat
  pieces : Sparse (List Byte)
  total : Nat
  deriving DecidableEq, Repr

/-- A command that CAS_FORWARD sent: the session, the mailbox that waits, its partner and TAG. -/
structure CasFwd where
  sess : Nat
  mb : Nat
  tag : Nat
  deriving DecidableEq, Repr

/-- The cascade unit.  A worker's sessions have the keys 0 (A) and 1 (B), a manager's their number.  `join` says that a
worker joins; `allow` and `prio` are the manager's (R379); `hello` is the last JOIN_HELLO, `helloNext` the count at which
the next is due, `resp` the responses on their way to a session. -/
structure Cas where
  sess : Sparse (Option CasSess)
  join : Bool
  prio : Nat
  allow : List Nat
  lost : List Nat
  refused : List (Nat × Nat)
  nextSess : Nat
  frags : List CasFrag
  fwd : List CasFwd
  hello : List Byte
  helloNext : Nat
  resp : List (Nat × List Word)
  deriving DecidableEq, Repr

/-! ### Start and restart (chapter 16) -/

/-- A failed start on record (R466): when, in ns of the 1 GHz count, the step and the cause of R469. -/
structure FailRec where
  time : Nat
  step : Nat
  cause : Nat
  deriving DecidableEq, Repr

/-- What the start sequence, the supervisor and the always-on domain keep.  `handedOver`: the ring ports have been handed
over (R453); `held`: register values of the ring ports held for the hand-over (R416).  `kind` is 0 cold, 1 warm, 2
firmware restart, 3 failed-repeat and `step` the step in progress, 0 while RESET_N or the rails hold the engine, 10 in
Peony (R455, R469); `origin` the 1 GHz count at the start's origin, `toPeony` the ms that the last start took.  `fails`
is the failure record, `loop` START_LOOP, `loader` says that the boot ROM loader runs (R467).  `slots` are the two MRAM
slots' images, `active` the active one, `image` the one that runs and `swap` that the other slot is to be loaded.
`reached`: the last start reached Peony (R456).  `warmLow`: WARM_N was low when RESET_N was asserted (R551).  `inReset`,
`rails`, `alive`: RESET_N asserted, rails good, the always-on rail up (R540).  `perst`: PCIE_PERST_N asserted.
`restarting`: a firmware restart is under way (R461), with the commands it interrupted.  `bistFail`: the last start failed
the Primrose-path BIST (R465).  `train` is the stored training's junction temperature of each stack (R458).  `ringTx` are
the frames in the ring ports' Primrose FIFOs, `mpq` the MP copies that wait (R447), `thermHot` a sensor above 105 °C,
`corr` the corrected HBM errors of the current second per stack.  `dropped`: the engine has dropped to Primrose and holds
every other port down (R454); `began` is the count at which the step in progress began, or Peony was reached; `plan`: the Primrose plan is loaded and its ports run (R448, R459). -/
structure Start where
  handedOver : Bool
  held : List (Nat × Word)
  kind : Nat
  step : Nat
  origin : Nat
  toPeony : Nat
  fails : List FailRec
  loop : Bool
  loader : Bool
  slots : List (List Byte)
  active : Nat
  image : List Byte
  swap : Bool
  reached : Bool
  warmLow : Bool
  inReset : Bool
  rails : Bool
  alive : Bool
  perst : Bool
  restarting : Bool
  bistFail : Bool
  train : List (Option Nat)
  ringTx : Sparse (List (List Byte))
  mpq : List (List Byte)
  thermHot : Bool
  corr : List Nat
  dropped : Bool
  began : Nat
  plan : Bool
  deriving DecidableEq, Repr

/-! ### Faults and units (chapter 17) -/

/-- A raise of a fault source toward the collector (R471). -/
structure Raise where
  src : Nat
  addr : Nat
  kind : Nat
  idx : Nat
  master : Nat
  access : Nat
  injected : Bool
  deriving DecidableEq, Repr

/-- An open neighbour window: the sources it covers, by bit, and when it ends, in ns of the 1 GHz count (R476). -/
structure Window where
  mask : Nat
  ends : Nat
  deriving DecidableEq, Repr

/-- A unit that can be drained, isolated and tested (R488): its state 0 service, 1 draining, 2 isolated, 3 testing,
its test results, whether it is held in reset, and the plan of a glen test (R490). -/
structure UnitSt where
  state : Nat
  pass : Bool
  fail : Bool
  inReset : Bool
  plan : Nat
  since : Nat
  deriving DecidableEq, Repr

/-- The fault collector and the units it acts on. -/
structure Fcl where
  /-- Sources raised since the last sample, in the order of the raises. -/
  raised : List Raise
  windows : List Window
  /-- The fault log of 32 records (R478); records made since RESET_N. -/
  log : List (List Word)
  seq : Nat
  /-- The latest 64 records firmware has drained (R557). -/
  kept : List (List Word)
  /-- Units by key (kind, index) of R482. -/
  units : Sparse UnitSt
  /-- The reaction level in force that only RESET_N or VIN ends: 0, 4 or 5 (R480, R481). -/
  hold : Nat
  /-- Pipelines waiting for firmware to re-home them (R486). -/
  rehome : List Nat
  deriving DecidableEq, Repr

/-! ### Dumps (chapter 18) -/

/-- A dump set (R497 to R505): dumps latched since reset, the 1 GHz count at the last latch, a loss or a step since the
last dump written or latched, boundaries skipped, and the words latched and not yet written.  `mark` is the network time
in ns, and `base` the 1 GHz count, after which the next boundary is sought; `owes` the slots that reading the shadows
still takes, by memory and activity (R499); `prev` the words of the dump before (R501). -/
structure SetSt where
  seq : Nat
  last : Option Nat
  loss : Bool
  stepped : Bool
  skipped : Nat
  pend : List Word
  mark : Nat
  base : Nat
  owes : List (Nat × Nat)
  prev : List Word
  deriving DecidableEq, Repr

/-- The dump sets, the latest complete dump of each in the MP's ring and in MRAM with the count at its copy (R504), and
the 1 GHz count from which slots elapse (R509). -/
structure Dmp where
  sets : Sparse SetSt
  latest : Sparse (List Word)
  mram : Sparse (Nat × List Word)
  slot0 : Nat
  deriving DecidableEq, Repr

/-! ### The identity unit (chapter 19) -/

/-- The identity unit: in MRAM the owner certificate ([] for none), SVN_MIN and VENDOR_UNLOCK; the measurements' digests
and change counts by index (R530); the 1 GHz counts of the latest refused action 1 records (R526), at the nonce's issue
(R525) and at the setting of LOCKOUT (R526); when the unlock ends; the SPDM connection state of its two paths, 0 PF0 and 1
the mailbox (R531). -/
structure Sec where
  owner : List Byte
  svn : Nat
  vendor : Bool
  digests : Sparse Nat
  changes : Sparse Nat
  refused : List Nat
  nonceAt : Nat
  lockAt : Nat
  unlockEnd : Nat
  spdm : Sparse Nat
  deriving DecidableEq, Repr

/-! ### The configuration shadow (R405) -/

/-- An exact-match entry as the shadow records it. -/
structure EmRec where
  glen : Nat
  table : Nat
  key : Nat
  action : Word
  isStatic : Bool
  deriving DecidableEq, Repr

/-- The shadow: what the write commands and the shadow log have recorded, in the layout of the tables that it restores;
`any` says that a transaction has been committed. -/
structure Shadow where
  any : Bool
  regs : Sparse (Option Word)
  ports : Sparse (Option PortRec)
  mcast : Sparse Nat
  mirrors : Sparse (Option Mirror)
  em : List EmRec
  learnPol : Sparse Nat
  routes : List (Nat × Route)
  nextHop : Sparse Word
  rules : Sparse Rule
  ids : Sparse StreamId
  ctx : Sparse (List Word)
  gates : Sparse StreamGate
  meters : Sparse Meter
  tenMap : Sparse Word
  edges : Sparse (List Word)
  tmap : Sparse Word
  nodes : Sparse Word
  queues : Sparse (List Word)
  shp : Sparse Shp
  gat : Sparse GatePort
  handles : Sparse Word
  gens : Sparse Nat
  rcv : Sparse Rcv
  pubs : Sparse PubSt
  tmpl : Sparse Goose
  tev : Sparse TimeEvt
  ptp : Sparse (List Word)
  sets : Sparse PatchSet
  casJoin : Bool
  casPrio : Nat
  casAllow : List Nat
  handedOver : Bool
  held : List (Nat × Word)
  deriving DecidableEq, Repr


/-! ### The machine -/

/-- Why the machine stops. -/
inductive Fault where
  /-- Raised by a meaning whose operand names nothing the spec has (a ninth glen, a mailbox 5): no such command can be
  sent.  Safe: the hardware has no such input either. -/
  | illFormed
  deriving DecidableEq, Repr

/-- Why a command has no outcome. -/
inductive Refusal where
  /-- Raised by `exec` for a command this model gives no meaning.  Safe: nothing is claimed of it. -/
  | notModelled (mnemonic : String)
  deriving DecidableEq, Repr

/-- The state of the block. -/
structure State where
  /-- The commands that wait, first in, first out (the model's own queue; reset: empty). -/
  pending : List Instr
  /-- The model's own counter of free values taken; no statement rests on it. -/
  freeCtr : Nat
  /-- The register file: every register's value in force by BAR0 address, those at their reset value unlisted. -/
  regs : Sparse Word
  /-- Counters that lie in no register, by dump set kind, index and position (R507). -/
  cnt : Sparse Nat
  /-- The paths to the registers. -/
  bus : Bus
  /-- The mailboxes. -/
  mbx : Mbx
  /-- What the block has handed to the outside, oldest first. -/
  out : List Out
  /-- What is remembered of each record ring, by the ring's base register address. -/
  rings : Sparse RingSt
  /-- Ports, groups, mirrors and ingress FIFOs; the two Primrose ring ports exist from reset on (R444). -/
  ports : Ports
  /-- The glens' tables. -/
  glens : Glens
  /-- The stream memories. -/
  streams : Streams
  /-- The buffer pool managers. -/
  bpm : Bpm
  /-- The access budgets. -/
  bud : Budgets
  /-- The fault collector and the units. -/
  fcl : Fcl
  /-- The time base. -/
  tim : Tim
  /-- The gates of the ports. -/
  gat : Sparse GatePort
  /-- What each island's loop remembers. -/
  isl : Sparse IslSt
  /-- The col cells and the stopped clocks. -/
  col : Col
  /-- Packets and their copies. -/
  path : Path
  /-- The schedulers. -/
  sch : Sch
  /-- The FRE blocks. -/
  fre : Fre
  /-- The field I/O unit. -/
  fio : Fio
  /-- The patch memories. -/
  ucode : Ucode
  /-- The cascade unit. -/
  cas : Cas
  /-- The dump sets. -/
  dmp : Dmp
  /-- The identity unit. -/
  sec : Sec
  /-- The configuration shadow in MP memory and MRAM. -/
  shadow : Shadow
  /-- Starts and restarts. -/
  start : Start
  deriving DecidableEq, Repr

/-- The machine right after reset: no command waits, every register reads its reset value (the register file lists
none), every table is empty. -/
def State.reset : State where
  pending := []
  freeCtr := 0
  regs := []
  cnt := []
  bus :=
    { staged := [], armed := [], badPar := [], badStg := [], hiLatch := [], open_ := [], spareOf := [0, 0], restoreQ := [],
      restored := [], done := [], aerAbort := false, winQ := [], smbAddr := none, smbStatus := 0, smbRead := [], tapData := 0,
      tapStatus := 0 }
  mbx :=
    { sess := [], opened := 0, ringMem := [], mb2 := [], early := [], area := [], resp := [], xfer := [], pend := [],
      nextPend := 0, log := [], shUsed := 0, txn := 0, gateStg := [], waits := [] }
  out := []
  rings := []
  ports :=
    { ports := [(7, some ⟨1, 0, 0, 1522, true, false⟩), (135, some ⟨1, 0, 0, 1522, true, false⟩)], mcast := [], mirrors := [],
      fifo := [], tuning := [] }
  glens :=
    { em := [], ovf := [], bktRetired := [], ovfRetired := [], pfxRetired := [], lfsr := [], filter := [], pend := [],
      ageQ := [], promo := [], updQ := [], scanPos := [], scanIdle := [], tickLate := [], tickLateCnt := [], tickAt := [],
      learnPol := [],
      origin := [], routes := [], nextHop := [], pivotBad := [], rules := [], sliceRetired := [], sliceHits := [] }
  streams :=
    { ids := [], ctx := [], gates := [], meters := [], tenMap := [], edges := [], histQ := [] }
  bpm :=
    { cells := [], pools := [], pages := [], sparesUsed := [], audits := [] }
  bud :=
    { used := [], rowFlags := [], sparesUsed := [], periods := 0, last := 0 }
  fcl :=
    { raised := [], windows := [], log := [], seq := 0, kept := [], units := [], hold := 0, rehome := [] }
  tim :=
    { now := 0, cnt := 0, rateRem := 0, slewLeft := 0, ppsHigh := false, ppsUnread := false, discipline := false,
      ppsSeen := 0, ptp := [], tsRing := [] }
  gat := []
  isl := []
  col :=
    { cells := [], stopped := [] }
  path :=
    { pkts := [], nextPkt := 0, copies := [], nextCopy := 0, mirCnt := [], lfsr := [], wasted := [], took := [],
      capNext := [], mpRx := [], wireEnd := [], memQ := [] }
  sch :=
    { tmap := [], nodes := [], queues := [], q := [], shp := [], shpPend := [], nodeDyn := [], portDyn := [], resUsed := [],
      enqWait := [], samp := [], rehome := [] }
  fre :=
    { handles := [], gens := [], rcv := [], dup := [] }
  fio :=
    { ins := [], outs := [], evq := [], pubs := [], tmpl := [], trig := [], tev := [], ready := false, pinRec := [],
      stale := false }
  ucode :=
    { prs := [], rwe := [], sets := [], covers := [], gaps := [] }
  cas :=
    { sess := [], join := true, prio := 128, allow := [], lost := [], refused := [], nextSess := 1, frags := [], fwd := [],
      hello := [], helloNext := 0, resp := [] }
  dmp :=
    { sets := [], latest := [], mram := [], slot0 := 0 }
  sec :=
    { owner := [], svn := 0, vendor := true, digests := [], changes := [], refused := [], nonceAt := 0, lockAt := 0,
      unlockEnd := 0, spdm := [] }
  shadow :=
    { any := false, regs := [], ports := [], mcast := [], mirrors := [], em := [], learnPol := [], routes := [],
      nextHop := [], rules := [], ids := [], ctx := [], gates := [], meters := [], tenMap := [], edges := [], tmap := [],
      nodes := [], queues := [], shp := [], gat := [], handles := [], gens := [], rcv := [], pubs := [], tmpl := [],
      tev := [], ptp := [], sets := [], casJoin := true, casPrio := 128, casAllow := [], handedOver := false, held := [] }
  start :=
    { handedOver := false, held := [], kind := 0, step := 2, origin := 0, toPeony := 0, fails := [], loop := false,
      loader := false, slots := [[], []], active := 0, image := [], swap := false, reached := false, warmLow := false,
      inReset := false, rails := true, alive := true, perst := false, restarting := false, bistFail := false,
      train := [none, none], ringTx := [], mpq := [], thermHot := false, corr := [0, 0], dropped := false, began := 0,
      plan := false }

end Sys2Proof.Machine
end

