-- ==== Sys2Proof/Machine/Catalogue.lean ====
section
/-! DEFINITION. The catalogue of the Orogiut command set (R414, R415 and the command tables of R58, R81, R111, R150,
R188, R219, R248, R277, R305, R333, R357, R383, R468, R491, R516 and R534): each command's opcode, first version,
class (R387), scope (R559), the option bits it defines (R388) and the mailboxes that its chapter admits. -/

namespace Sys2Proof.Machine
open Sys2Proof

/-- How a command uses SCOPE (R559). -/
inductive ScopeKind where
  | none | glenMask | oneGlen | dieMask | oneDie
  deriving DecidableEq, Repr

/-- Which mailboxes a command's own chapter admits, on top of R387: `mb034` MB0, MB3 and unlocked MB4 (R383, R468,
R491); `mb0234` those and authenticated MB2 (R357); `mb4Only` MB4 whatever its standing (R527); `mb034any` MB0, MB3
or MB4 (R528); `mb03` MB0 and MB3 (R534). -/
inductive Admits where
  | any | mb034 | mb0234 | mb4Only | mb034any | mb03
  deriving DecidableEq, Repr

/-- One row of the catalogue. -/
structure CmdInfo where
  op : Nat
  ver : Nat
  write : Bool
  scope : ScopeKind
  opts : Nat
  admits : Admits
  deriving DecidableEq, Repr

def ciHello : CmdInfo := ⟨0x0000, 0x0100, false, .none, 0, .any⟩
def ciEngineInfo : CmdInfo := ⟨0x0001, 0x0100, false, .none, 0, .any⟩
def ciCmdStatus : CmdInfo := ⟨0x0002, 0x0200, false, .none, 0, .any⟩
def ciXferWrite : CmdInfo := ⟨0x0003, 0x0200, false, .none, 0, .any⟩
def ciSessionList : CmdInfo := ⟨0x0004, 0x0300, false, .none, 0, .any⟩
def ciShadowInfo : CmdInfo := ⟨0x0005, 0x0300, false, .none, 0, .any⟩
def ciShadowDigest : CmdInfo := ⟨0x0006, 0x0302, false, .none, 0, .any⟩
def ciNop : CmdInfo := ⟨0x0007, 0x0100, false, .none, 0, .any⟩
def ciPortCreate : CmdInfo := ⟨0x0100, 0x0100, true, .none, 0, .any⟩
def ciPortDelete : CmdInfo := ⟨0x0101, 0x0100, true, .none, 0, .any⟩
def ciPortAdmin : CmdInfo := ⟨0x0102, 0x0100, true, .none, 0, .any⟩
def ciPortStatus : CmdInfo := ⟨0x0103, 0x0100, false, .none, 0, .any⟩
def ciMcastGroupSet : CmdInfo := ⟨0x0110, 0x0100, true, .none, 0, .any⟩
def ciMcastGroupRead : CmdInfo := ⟨0x0111, 0x0100, false, .none, 0, .any⟩
def ciMirrorCfg : CmdInfo := ⟨0x0120, 0x0200, true, .none, 0, .any⟩
def ciEmTableCfg : CmdInfo := ⟨0x0300, 0x0100, true, .glenMask, 0, .any⟩
def ciEmKeyLayout : CmdInfo := ⟨0x0301, 0x0100, true, .glenMask, 0, .any⟩
def ciEmPortCfg : CmdInfo := ⟨0x0302, 0x0100, true, .none, 0, .any⟩
def ciTblInsert : CmdInfo := ⟨0x0310, 0x0100, true, .glenMask, 0, .any⟩
def ciTblDelete : CmdInfo := ⟨0x0311, 0x0100, true, .glenMask, 0, .any⟩
def ciTblLookup : CmdInfo := ⟨0x0312, 0x0100, false, .oneGlen, 0, .any⟩
def ciTblFlush : CmdInfo := ⟨0x0313, 0x0200, true, .glenMask, 0, .any⟩
def ciTblBulkInsert : CmdInfo := ⟨0x0314, 0x0300, true, .glenMask, 7, .any⟩
def ciTblIterate : CmdInfo := ⟨0x0315, 0x0200, false, .oneGlen, 0, .any⟩
def ciLearnRingCfg : CmdInfo := ⟨0x0320, 0x0100, true, .oneGlen, 0, .any⟩
def ciLearnPolicy : CmdInfo := ⟨0x0321, 0x0301, true, .none, 0, .any⟩
def ciAgeCfg : CmdInfo := ⟨0x0322, 0x0100, true, .glenMask, 0, .any⟩
def ciGlenBudgetSet : CmdInfo := ⟨0x0330, 0x0200, true, .glenMask, 0, .any⟩
def ciTblCapacity : CmdInfo := ⟨0x0331, 0x0300, false, .glenMask, 0, .any⟩
def ciLpmKeyLayout : CmdInfo := ⟨0x0400, 0x0100, true, .glenMask, 0, .any⟩
def ciLpmPortVrf : CmdInfo := ⟨0x0401, 0x0200, true, .none, 0, .any⟩
def ciRouteAdd : CmdInfo := ⟨0x0402, 0x0100, true, .glenMask, 0, .any⟩
def ciRouteDelete : CmdInfo := ⟨0x0403, 0x0100, true, .glenMask, 0, .any⟩
def ciRouteLookup : CmdInfo := ⟨0x0404, 0x0100, false, .oneGlen, 0, .any⟩
def ciRouteBulk : CmdInfo := ⟨0x0405, 0x0300, true, .glenMask, 0, .any⟩
def ciNexthopSet : CmdInfo := ⟨0x0406, 0x0100, true, .glenMask, 0, .any⟩
def ciRouteCapacity : CmdInfo := ⟨0x0407, 0x0300, false, .glenMask, 0, .any⟩
def ciTcamKeyLayout : CmdInfo := ⟨0x0410, 0x0100, true, .glenMask, 0, .any⟩
def ciTcamRuleWrite : CmdInfo := ⟨0x0411, 0x0100, true, .glenMask, 0, .any⟩
def ciTcamRuleDelete : CmdInfo := ⟨0x0412, 0x0100, true, .glenMask, 0, .any⟩
def ciTcamRuleReplace : CmdInfo := ⟨0x0413, 0x0200, true, .glenMask, 0, .any⟩
def ciTcamActionSet : CmdInfo := ⟨0x0414, 0x0100, true, .glenMask, 0, .any⟩
def ciTcamRuleRead : CmdInfo := ⟨0x0415, 0x0100, false, .oneGlen, 0, .any⟩
def ciTcamSearch : CmdInfo := ⟨0x0416, 0x0300, false, .glenMask, 0, .any⟩
def ciTcamScrubCfg : CmdInfo := ⟨0x0417, 0x0200, true, .glenMask, 0, .any⟩
def ciStreamKeyLayout : CmdInfo := ⟨0x0500, 0x0100, true, .glenMask, 0, .any⟩
def ciStreamIdAdd : CmdInfo := ⟨0x0501, 0x0100, true, .glenMask, 0, .any⟩
def ciStreamIdDelete : CmdInfo := ⟨0x0502, 0x0100, true, .glenMask, 0, .any⟩
def ciStreamCtxSet : CmdInfo := ⟨0x0503, 0x0100, true, .glenMask, 0, .any⟩
def ciStreamCtxRead : CmdInfo := ⟨0x0504, 0x0100, false, .oneGlen, 0, .any⟩
def ciStreamUnblock : CmdInfo := ⟨0x0505, 0x0200, true, .glenMask, 0, .any⟩
def ciStreamGateSet : CmdInfo := ⟨0x0506, 0x0200, true, .glenMask, 0, .any⟩
def ciStreamCapacity : CmdInfo := ⟨0x0507, 0x0300, false, .glenMask, 0, .any⟩
def ciMeterSet : CmdInfo := ⟨0x0510, 0x0100, true, .glenMask, 1, .any⟩
def ciMeterRead : CmdInfo := ⟨0x0511, 0x0100, false, .oneGlen, 0, .any⟩
def ciTenantPolicerMap : CmdInfo := ⟨0x0512, 0x0200, true, .glenMask, 0, .any⟩
def ciColourMapSet : CmdInfo := ⟨0x0513, 0x0100, true, .glenMask, 0, .any⟩
def ciHistEdgesSet : CmdInfo := ⟨0x0514, 0x0300, true, .glenMask, 0, .any⟩
def ciHistRead : CmdInfo := ⟨0x0515, 0x0300, false, .oneGlen, 0, .any⟩
def ciBpmPoolLayout : CmdInfo := ⟨0x0600, 0x0100, true, .dieMask, 0, .any⟩
def ciBpmQuotaSet : CmdInfo := ⟨0x0601, 0x0100, true, .dieMask, 0, .any⟩
def ciBpmStatus : CmdInfo := ⟨0x0602, 0x0100, false, .dieMask, 0, .any⟩
def ciBpmBudgetSet : CmdInfo := ⟨0x0603, 0x0200, true, .dieMask, 0, .any⟩
def ciBpmYellowKeep : CmdInfo := ⟨0x0604, 0x0200, true, .dieMask, 0, .any⟩
def ciBpmAudit : CmdInfo := ⟨0x0605, 0x0300, true, .dieMask, 0, .any⟩
def ciBpmCapacity : CmdInfo := ⟨0x0606, 0x0300, false, .dieMask, 0, .any⟩
def ciSchPortSet : CmdInfo := ⟨0x0700, 0x0100, true, .none, 0, .any⟩
def ciSchNodeSet : CmdInfo := ⟨0x0701, 0x0100, true, .oneDie, 0, .any⟩
def ciSchTenantMap : CmdInfo := ⟨0x0702, 0x0100, true, .dieMask, 0, .any⟩
def ciSchQueueSet : CmdInfo := ⟨0x0703, 0x0100, true, .oneDie, 0, .any⟩
def ciShaperSet : CmdInfo := ⟨0x0704, 0x0100, true, .oneDie, 1, .any⟩
def ciShaperRead : CmdInfo := ⟨0x0705, 0x0100, false, .oneDie, 0, .any⟩
def ciSchQueueRead : CmdInfo := ⟨0x0706, 0x0100, false, .oneDie, 0, .any⟩
def ciSchSampleCfg : CmdInfo := ⟨0x0707, 0x0200, true, .dieMask, 0, .any⟩
def ciSchBudgetSet : CmdInfo := ⟨0x0708, 0x0200, true, .dieMask, 0, .any⟩
def ciSchNodeRehome : CmdInfo := ⟨0x0709, 0x0300, true, .oneDie, 0, .any⟩
def ciSchCapacity : CmdInfo := ⟨0x070A, 0x0300, false, .dieMask, 0, .any⟩
def ciSchQueueFlush : CmdInfo := ⟨0x070B, 0x0200, true, .oneDie, 0, .any⟩
def ciTimeGet : CmdInfo := ⟨0x0800, 0x0100, false, .none, 0, .any⟩
def ciTimeSet : CmdInfo := ⟨0x0801, 0x0100, true, .none, 0, .any⟩
def ciTimeStep : CmdInfo := ⟨0x0802, 0x0100, true, .none, 0, .any⟩
def ciTimeSlew : CmdInfo := ⟨0x0803, 0x0200, true, .none, 0, .any⟩
def ciTimeSource : CmdInfo := ⟨0x0804, 0x0100, true, .none, 0, .any⟩
def ciTimePpsCfg : CmdInfo := ⟨0x0805, 0x0100, true, .none, 0, .any⟩
def ciTimePortAdj : CmdInfo := ⟨0x0806, 0x0100, true, .none, 0, .any⟩
def ciPtpInstanceSet : CmdInfo := ⟨0x0810, 0x0200, true, .none, 0, .any⟩
def ciGateListSet : CmdInfo := ⟨0x0811, 0x0100, true, .none, 1, .any⟩
def ciGateListRead : CmdInfo := ⟨0x0812, 0x0100, false, .none, 0, .any⟩
def ciGatePortCfg : CmdInfo := ⟨0x0813, 0x0200, true, .none, 0, .any⟩
def ciGateListDiscard : CmdInfo := ⟨0x0814, 0x0200, true, .none, 0, .any⟩
def ciFrePortCfg : CmdInfo := ⟨0x0900, 0x0100, true, .none, 0, .any⟩
def ciFreHandleMap : CmdInfo := ⟨0x0901, 0x0100, true, .dieMask, 0, .any⟩
def ciFreGenSet : CmdInfo := ⟨0x0902, 0x0100, true, .oneDie, 0, .any⟩
def ciFreRcvSet : CmdInfo := ⟨0x0903, 0x0100, true, .oneDie, 0, .any⟩
def ciFreRcvRead : CmdInfo := ⟨0x0904, 0x0100, false, .oneDie, 0, .any⟩
def ciFreRcvReset : CmdInfo := ⟨0x0905, 0x0200, true, .oneDie, 0, .any⟩
def ciFreDupCfg : CmdInfo := ⟨0x0906, 0x0100, true, .dieMask, 0, .any⟩
def ciFreDupStatus : CmdInfo := ⟨0x0907, 0x0200, false, .dieMask, 0, .any⟩
def ciUcodePatchLoad : CmdInfo := ⟨0x0A10, 0x0200, true, .none, 3, .any⟩
def ciUcodePatchSwitch : CmdInfo := ⟨0x0A11, 0x0200, true, .none, 0, .any⟩
def ciUcodePatchRevert : CmdInfo := ⟨0x0A12, 0x0200, true, .none, 0, .any⟩
def ciUcodeQuery : CmdInfo := ⟨0x0A13, 0x0200, false, .none, 0, .any⟩
def ciPortParseProfile : CmdInfo := ⟨0x0A14, 0x0100, true, .none, 0, .any⟩
def ciRwePortProfile : CmdInfo := ⟨0x0A15, 0x0100, true, .none, 0, .any⟩
def ciFiCfg : CmdInfo := ⟨0x0B00, 0x0100, true, .none, 0, .any⟩
def ciFiRead : CmdInfo := ⟨0x0B01, 0x0100, false, .none, 0, .any⟩
def ciFioPubSet : CmdInfo := ⟨0x0B02, 0x0100, true, .none, 0, .any⟩
def ciFioGooseTemplate : CmdInfo := ⟨0x0B03, 0x0200, true, .none, 0, .any⟩
def ciFioEventRingCfg : CmdInfo := ⟨0x0B04, 0x0100, true, .none, 0, .any⟩
def ciFioUtcOffset : CmdInfo := ⟨0x0B05, 0x0200, true, .none, 0, .any⟩
def ciFoCfg : CmdInfo := ⟨0x0B10, 0x0100, true, .none, 0, .mb0234⟩
def ciFoForce : CmdInfo := ⟨0x0B11, 0x0100, true, .none, 0, .mb0234⟩
def ciFoTimeEvent : CmdInfo := ⟨0x0B12, 0x0200, true, .none, 0, .mb0234⟩
def ciFoRelease : CmdInfo := ⟨0x0B13, 0x0100, true, .none, 0, .mb0234⟩
def ciFoRead : CmdInfo := ⟨0x0B14, 0x0100, false, .none, 0, .any⟩
def ciCasRoleSet : CmdInfo := ⟨0x0C00, 0x0100, true, .none, 0, .mb034⟩
def ciCasDeviceId : CmdInfo := ⟨0x0C01, 0x0100, true, .none, 0, .mb034⟩
def ciCasPortCfg : CmdInfo := ⟨0x0C02, 0x0100, true, .none, 0, .mb034⟩
def ciCasBudgetSet : CmdInfo := ⟨0x0C03, 0x0200, true, .none, 0, .mb034⟩
def ciCasRelayCfg : CmdInfo := ⟨0x0C04, 0x0100, true, .none, 0, .mb034⟩
def ciCasJoinCfg : CmdInfo := ⟨0x0C05, 0x0100, true, .none, 0, .mb034⟩
def ciCasLeave : CmdInfo := ⟨0x0C06, 0x0100, true, .none, 0, .mb034⟩
def ciCasSessionRead : CmdInfo := ⟨0x0C07, 0x0200, false, .none, 0, .any⟩
def ciCasForward : CmdInfo := ⟨0x0C08, 0x0100, true, .none, 0, .any⟩
def ciCasWorkerList : CmdInfo := ⟨0x0C09, 0x0200, false, .none, 0, .any⟩
def ciFaultStatus : CmdInfo := ⟨0x0D00, 0x0100, false, .none, 0, .any⟩
def ciFaultLog : CmdInfo := ⟨0x0D01, 0x0100, false, .none, 0, .any⟩
def ciFaultAck : CmdInfo := ⟨0x0D02, 0x0100, true, .none, 1, .any⟩
def ciFaultSrcCfg : CmdInfo := ⟨0x0D03, 0x0100, true, .none, 0, .mb034⟩
def ciFaultWindow : CmdInfo := ⟨0x0D04, 0x0200, true, .none, 0, .mb034⟩
def ciUnitDrain : CmdInfo := ⟨0x0D05, 0x0200, true, .none, 0, .any⟩
def ciUnitTest : CmdInfo := ⟨0x0D06, 0x0200, true, .none, 0, .any⟩
def ciUnitReturn : CmdInfo := ⟨0x0D07, 0x0200, true, .none, 0, .any⟩
def ciUnitStatus : CmdInfo := ⟨0x0D08, 0x0200, false, .none, 0, .any⟩
def ciRehome : CmdInfo := ⟨0x0D09, 0x0200, true, .none, 0, .any⟩
def ciFaultInject : CmdInfo := ⟨0x0D0A, 0x0300, true, .none, 0, .mb034⟩
def ciFaultLock : CmdInfo := ⟨0x0D0B, 0x0300, true, .none, 0, .mb034⟩
def ciDumpSetCfg : CmdInfo := ⟨0x0E00, 0x0100, true, .none, 0, .any⟩
def ciDumpRingCfg : CmdInfo := ⟨0x0E01, 0x0100, true, .none, 0, .any⟩
def ciDumpNow : CmdInfo := ⟨0x0E02, 0x0200, true, .none, 0, .any⟩
def ciDumpRead : CmdInfo := ⟨0x0E03, 0x0100, false, .none, 0, .any⟩
def ciCounterRead : CmdInfo := ⟨0x0E04, 0x0100, false, .none, 0, .any⟩
def ciSampleRingCfg : CmdInfo := ⟨0x0E05, 0x0200, true, .none, 0, .any⟩
def ciPktSampleCfg : CmdInfo := ⟨0x0E06, 0x0200, true, .none, 0, .any⟩
def ciOvfSampleCfg : CmdInfo := ⟨0x0E07, 0x0300, true, .none, 0, .any⟩
def ciSlotRead : CmdInfo := ⟨0x0E08, 0x0200, false, .none, 0, .any⟩
def ciStartStatus : CmdInfo := ⟨0x0F00, 0x0100, false, .none, 0, .any⟩
def ciFwRestart : CmdInfo := ⟨0x0F01, 0x0100, true, .none, 0, .mb034⟩
def ciFwBoot : CmdInfo := ⟨0x0F02, 0x0200, true, .none, 0, .mb034⟩
def ciFwImageWrite : CmdInfo := ⟨0x0F03, 0x0200, true, .none, 0, .mb034⟩
def ciFwSlotSelect : CmdInfo := ⟨0x0F04, 0x0200, true, .none, 1, .mb034⟩
def ciPrimroseHandover : CmdInfo := ⟨0x0F05, 0x0200, true, .none, 0, .mb034⟩
def ciStartRetry : CmdInfo := ⟨0x0F06, 0x0200, true, .none, 0, .mb034⟩
def ciIdCertRead : CmdInfo := ⟨0x1000, 0x0100, false, .none, 0, .any⟩
def ciMeasurementRead : CmdInfo := ⟨0x1001, 0x0100, false, .none, 0, .any⟩
def ciOwnerCertSet : CmdInfo := ⟨0x1002, 0x0200, true, .none, 0, .any⟩
def ciOwnerCertClear : CmdInfo := ⟨0x1003, 0x0200, true, .none, 0, .any⟩
def ciSvnCommit : CmdInfo := ⟨0x1004, 0x0300, true, .none, 0, .any⟩
def ciSpdmMsg : CmdInfo := ⟨0x1010, 0x0300, false, .none, 0, .any⟩
def ciDebugUnlock : CmdInfo := ⟨0x1020, 0x0100, true, .none, 0, .mb4Only⟩
def ciDebugLock : CmdInfo := ⟨0x1021, 0x0100, true, .none, 0, .mb034any⟩
def ciDebugPolicy : CmdInfo := ⟨0x1022, 0x0200, true, .none, 0, .mb03⟩
def ciIslCfgSet : CmdInfo := ⟨0x1100, 0x0100, true, .none, 0, .mb034⟩
def ciIslStatus : CmdInfo := ⟨0x1101, 0x0100, false, .none, 0, .any⟩
def ciIslCeilTime : CmdInfo := ⟨0x1102, 0x0200, true, .none, 0, .mb034⟩
def ciIslLoopTiming : CmdInfo := ⟨0x1103, 0x0200, true, .none, 0, .mb034⟩
def ciIslCeilRearm : CmdInfo := ⟨0x1104, 0x0200, true, .none, 0, .mb034⟩
def ciColStallCfg : CmdInfo := ⟨0x1110, 0x0100, true, .none, 0, .mb034⟩
def ciColStatus : CmdInfo := ⟨0x1111, 0x0100, false, .none, 0, .any⟩
def ciColRearm : CmdInfo := ⟨0x1112, 0x0200, true, .none, 0, .mb034⟩

/-- Every command of the catalogue, in the order of the opcode table. -/
def catalogue : List CmdInfo :=
  [ciHello, ciEngineInfo, ciCmdStatus, ciXferWrite, ciSessionList, ciShadowInfo, ciShadowDigest, ciNop, ciPortCreate, ciPortDelete, ciPortAdmin, ciPortStatus, ciMcastGroupSet, ciMcastGroupRead, ciMirrorCfg, ciEmTableCfg, ciEmKeyLayout, ciEmPortCfg, ciTblInsert, ciTblDelete, ciTblLookup, ciTblFlush, ciTblBulkInsert, ciTblIterate, ciLearnRingCfg, ciLearnPolicy, ciAgeCfg, ciGlenBudgetSet, ciTblCapacity, ciLpmKeyLayout] ++
  [ciLpmPortVrf, ciRouteAdd, ciRouteDelete, ciRouteLookup, ciRouteBulk, ciNexthopSet, ciRouteCapacity, ciTcamKeyLayout, ciTcamRuleWrite, ciTcamRuleDelete, ciTcamRuleReplace, ciTcamActionSet, ciTcamRuleRead, ciTcamSearch, ciTcamScrubCfg, ciStreamKeyLayout, ciStreamIdAdd, ciStreamIdDelete, ciStreamCtxSet, ciStreamCtxRead, ciStreamUnblock, ciStreamGateSet, ciStreamCapacity, ciMeterSet, ciMeterRead, ciTenantPolicerMap, ciColourMapSet, ciHistEdgesSet, ciHistRead, ciBpmPoolLayout] ++
  [ciBpmQuotaSet, ciBpmStatus, ciBpmBudgetSet, ciBpmYellowKeep, ciBpmAudit, ciBpmCapacity, ciSchPortSet, ciSchNodeSet, ciSchTenantMap, ciSchQueueSet, ciShaperSet, ciShaperRead, ciSchQueueRead, ciSchSampleCfg, ciSchBudgetSet, ciSchNodeRehome, ciSchCapacity, ciSchQueueFlush, ciTimeGet, ciTimeSet, ciTimeStep, ciTimeSlew, ciTimeSource, ciTimePpsCfg, ciTimePortAdj, ciPtpInstanceSet, ciGateListSet, ciGateListRead, ciGatePortCfg, ciGateListDiscard] ++
  [ciFrePortCfg, ciFreHandleMap, ciFreGenSet, ciFreRcvSet, ciFreRcvRead, ciFreRcvReset, ciFreDupCfg, ciFreDupStatus, ciUcodePatchLoad, ciUcodePatchSwitch, ciUcodePatchRevert, ciUcodeQuery, ciPortParseProfile, ciRwePortProfile, ciFiCfg, ciFiRead, ciFioPubSet, ciFioGooseTemplate, ciFioEventRingCfg, ciFioUtcOffset, ciFoCfg, ciFoForce, ciFoTimeEvent, ciFoRelease, ciFoRead, ciCasRoleSet, ciCasDeviceId, ciCasPortCfg, ciCasBudgetSet, ciCasRelayCfg] ++
  [ciCasJoinCfg, ciCasLeave, ciCasSessionRead, ciCasForward, ciCasWorkerList, ciFaultStatus, ciFaultLog, ciFaultAck, ciFaultSrcCfg, ciFaultWindow, ciUnitDrain, ciUnitTest, ciUnitReturn, ciUnitStatus, ciRehome, ciFaultInject, ciFaultLock, ciDumpSetCfg, ciDumpRingCfg, ciDumpNow, ciDumpRead, ciCounterRead, ciSampleRingCfg, ciPktSampleCfg, ciOvfSampleCfg, ciSlotRead, ciStartStatus, ciFwRestart, ciFwBoot, ciFwImageWrite] ++
  [ciFwSlotSelect, ciPrimroseHandover, ciStartRetry, ciIdCertRead, ciMeasurementRead, ciOwnerCertSet, ciOwnerCertClear, ciSvnCommit, ciSpdmMsg, ciDebugUnlock, ciDebugLock, ciDebugPolicy, ciIslCfgSet, ciIslStatus, ciIslCeilTime, ciIslLoopTiming, ciIslCeilRearm, ciColStallCfg, ciColStatus, ciColRearm]

/-- The catalogue's row for an opcode. -/
def cmdInfoOf (op : Nat) : Option CmdInfo := catalogue.find? (fun c => c.op == op)

end Sys2Proof.Machine
end

