-- ==== Sys2Proof/Config.lean ====
section
/-! DEFINITION. What one module fixes and the spec leaves open: fuses, and the free values.  No constant here has a
body, so nothing can be proved of a value of one. -/

namespace Sys2Proof

/-- The free value number n: a value the spec leaves open, applied to the state's counter of free values. -/
opaque Config.freeWord : Nat → Word

/-- GLB_REV.GRADE as the fuses give it, 0 EU8840-C or 1 EU8840-E (R442). -/
opaque Config.gradeE : Bool
def Config.gradeFuse : Nat := if Config.gradeE then 1 else 0

/-- The module serial's words from fuses (R556). -/
opaque Config.serialLo : Word
opaque Config.serialHi : Word

/-- The base MAC address from fuses (R556): its group and local bits and its low four bits are zero. -/
opaque Config.baseMacBits : Nat
def Config.baseMac : Nat := (Config.baseMacBits % 2 ^ 36) * 16 % 2 ^ 40 + (Config.baseMacBits / 2 ^ 36 % 64) * 2 ^ 42


/-- Spare rows of a macro group of the Plain, and the macro group that a page lies in, which the spec does not lay down
(R241). -/
opaque Config.plainSpares : Nat
opaque Config.plainGroup : Nat → Nat

/-- The ROM words that the spec does not lay down, by address: parse microwords of 256 bits, rewrite microwords of 192
bits (R100, R315). -/
opaque Config.parseRom : Nat → Nat
opaque Config.rweRom : Nat → Nat

/-- Steps beyond the first that a ROM build takes over a header whose paths R101 does not name: 0 IEEE 1588, 1 GENEVE, 2 the
Gnoyr tag. -/
opaque Config.romCost : Nat → Nat

/-- The templates of the rewrite engines, which the spec does not lay down: a byte by template and position (R309). -/
opaque Config.template : Nat → Nat → Byte

/-- Spare rows of a patch memory, which the spec does not count (R95). -/
opaque Config.patchSpares : Nat

/-- Spare rows of a macro of a memory class whose spare rows the spec does not count (R36). -/
opaque Config.rowSpares : Nat → Nat

/-- A tuning word as firmware writes it from the lane tables of its image, which the spec does not give: by its address and
the modes of the group's ports, lane by lane (R441). -/
opaque Config.laneTable : Nat → List (Option (Nat × Nat × Nat)) → Word

/-- A byte of host memory that a command fetches by DMA (R411), by the state's counter of free values and address. -/
opaque Config.hostMem : Nat → Nat → Byte

/-- Random and computed bytes whose values the spec does not fix: nonces, keys, signatures. -/
opaque Config.freeByte : Nat → Nat → Byte

/-! Cryptography: SHA-384, and whether a signature of R522 over some bytes verifies against the Moennum key, or against
the owner key of a certificate; an owner certificate is one that R521 admits; a device chain verifies (R520), the second
argument the time where it is known; whether a join's signatures verify over its payloads (R378); the key that a join
gives a direction; AES-256-GMAC (R375). -/
opaque Config.sha384 : List Byte → Nat
opaque Config.sigMoennum : List Byte → List Byte → Bool
opaque Config.sigOwner : List Byte → List Byte → List Byte → Bool
opaque Config.certOk : List Byte → Bool
opaque Config.chainOk : List Byte → Option Nat → Bool
opaque Config.joinOk : List (List Byte) → Bool
opaque Config.sessionKey : List (List Byte) → Bool → Nat
opaque Config.gmac : Nat → List Byte → List Byte

/-- The device certificate chain in MRAM (R520), the digest of the boot ROM and loader (R530). -/
opaque Config.deviceChain : List Byte
opaque Config.romDigest : Nat

/-- A firmware image's security version, and whether its Moennum signature verifies (R523): the spec lays down no
layout of an image. -/
opaque Config.imageSvn : List Byte → Nat
opaque Config.imageOk : List Byte → Bool

/-- The version an Orogiut image reports (R396). -/
opaque Config.fwVersion : List Byte → Word

/-- SPDM 1.2 (R531), which the spec does not lay down: by connection state and request, whether the request fails
authentication or format, the connection state it leaves, and the response, which also depends on the measurements. -/
opaque Config.spdmFails : Nat → List Word → Bool
opaque Config.spdmNext : Nat → List Word → Nat
opaque Config.spdmAnswer : Nat → List Word → List Nat → List Word

end Sys2Proof
end

