-- ==== Sys2Proof/Machine/Bits.lean ====
section
/-! DEFINITION. Bit fields of words (the notation [31:16] and [5] of R12), the two's complement readings the
chapters use, and the byte order of frames (R12). -/

namespace Sys2Proof.Machine
open Sys2Proof

/-- A word from a number, taken modulo 2^32. -/
def wd (n : Nat) : Word := BitVec.ofNat 32 n

/-- The field of `n` bits of `w` whose lowest bit is `lo`, as a number. -/
def fld (w : Word) (lo n : Nat) : Nat := (w.toNat / 2 ^ lo) % 2 ^ n

/-- Bit `i` of `w`. -/
def bit (w : Word) (i : Nat) : Bool := fld w i 1 == 1

/-- `w` with its field of `n` bits at `lo` replaced by `v`, taken modulo 2^n; the other bits stay. -/
def setFld (w : Word) (lo n v : Nat) : Word :=
  wd (w.toNat - fld w lo n * 2 ^ lo + (v % 2 ^ n) * 2 ^ lo)

/-- `w` with bit `i` set or cleared. -/
def setBit (w : Word) (i : Nat) (b : Bool) : Word := setFld w i 1 (if b then 1 else 0)

/-- The number 1 or 0 that a status bit shows. -/
def b2n (b : Bool) : Nat := if b then 1 else 0

/-- The field `x` of `n` bits read as a two's complement number. -/
def sgn (n x : Nat) : Int := if x < 2 ^ (n - 1) then (x : Int) else (x : Int) - (2 ^ n : Nat)

/-- An integer written in `n` bits of two's complement. -/
def unsgn (n : Nat) (i : Int) : Nat := (i % (2 ^ n : Nat)).toNat

/-- A 64-bit number from its low and high words, low word first (R495). -/
def w64 (lo hi : Word) : Nat := lo.toNat + hi.toNat * 2 ^ 32

/-- The low and the high word of a number. -/
def loW (n : Nat) : Word := wd n
def hiW (n : Nat) : Word := wd (n / 2 ^ 32)

/-- The number that bytes spell in network order, the first byte highest (R12). -/
def beNat (bs : List Byte) : Nat := bs.foldl (fun a b => a * 256 + b.toNat) 0

/-- `n` bytes that spell `v` in network order. -/
def beBytes (n v : Nat) : List Byte :=
  (List.range n).map (fun i => BitVec.ofNat 8 (v / 256 ^ (n - 1 - i)))

/-- `n` bytes of a frame from byte `off` on; bytes beyond its end read zero. -/
def bytesAt (bs : List Byte) (off n : Nat) : List Byte :=
  (List.range n).map (fun i => bs.getD (off + i) 0)

/-- The number that `n` bytes of a frame from byte `off` on spell in network order. -/
def beAt (bs : List Byte) (off n : Nat) : Nat := beNat (bytesAt bs off n)

/-- A frame with its bytes from `off` on replaced by `new`; bytes beyond its end are not added. -/
def overwrite (bs : List Byte) (off : Nat) (new : List Byte) : List Byte :=
  bs.take off ++ (new.take (bs.length - off)) ++ bs.drop (off + new.length)

/-- Two's complement negation free saturating decrement and the saturating addition of the counters. -/
def satAdd (top a b : Nat) : Nat := min top (a + b)

/-- The bits set in `m`, among the lowest `n`, rising. -/
def bitsOf (n m : Nat) : List Nat := (List.range n).filter (fun i => (m / 2 ^ i) % 2 == 1)

/-- Bit `i` of a number. -/
def nbit (m i : Nat) : Bool := (m / 2 ^ i) % 2 == 1

/-- A number with bit `i` set or cleared. -/
def setNbit (m i : Nat) (b : Bool) : Nat :=
  if nbit m i then (if b then m else m - 2 ^ i) else (if b then m + 2 ^ i else m)

end Sys2Proof.Machine
end

