-- ==== Sys2Proof/Machine/ColTable.lean ====
section
/-! DEFINITION. The 304 col cells of R64 and the islands of R42, as tables: types, sides, depths, work units. -/

namespace Sys2Proof.Machine
open Sys2Proof

abbrev cellCount : Nat := 304
abbrev domCount : Nat := 40
abbrev islCount : Nat := 96
/-- The core has no clock. -/
abbrev clockless : Nat := 255

abbrev cellV : Nat := 0
abbrev cellF : Nat := 1
abbrev cellP : Nat := 2

/-- A cell's type, source domain and destination domain (R64). -/
def cellInfo (c : Nat) : Nat × Nat × Nat :=
  if c < 128 then
    let n := c / 4
    match c % 4 with
    | 0 => (cellF, n, clockless)
    | 1 => (cellF, clockless, n)
    | 2 => (cellV, clockless, n)
    | _ => (cellV, if n < 16 then 36 else clockless, n)
  else if c < 236 then (cellP, 36, clockless)
  else if c < 274 then (cellV, c - 236, 38)
  else match c with
    | 274 => (cellV, 39, 38)
    | 275 => (cellV, clockless, 38)
    | 276 => (cellV, clockless, 38)
    | 277 => (cellF, 32, clockless)
    | 278 => (cellF, clockless, 32)
    | 279 => (cellP, 32, 35)
    | 280 => (cellP, 32, 35)
    | 281 => (cellP, 35, 32)
    | 282 => (cellP, 35, 32)
    | 283 => (cellF, clockless, 33)
    | 284 => (cellF, 33, clockless)
    | 285 => (cellF, clockless, 34)
    | 286 => (cellF, 34, clockless)
    | 287 => (cellF, 35, clockless)
    | 288 => (cellF, clockless, 35)
    | 289 => (cellF, 35, 39)
    | 290 => (cellF, 39, 35)
    | 291 => (cellF, 38, 35)
    | 292 => (cellF, 35, 38)
    | 293 => (cellP, 38, 35)
    | 294 => (cellF, 37, 35)
    | 295 => (cellF, 35, 37)
    | 296 => (cellP, 37, 35)
    | 297 => (cellV, 36, 35)
    | 298 => (cellF, clockless, 36)
    | 299 => (cellF, 36, clockless)
    | 300 => (cellF, 38, clockless)
    | 301 => (cellV, 38, clockless)
    | 302 => (cellP, 38, 35)
    | _ => (cellP, 38, 32)

def cellType (c : Nat) : Nat := (cellInfo c).1
def cellSrc (c : Nat) : Nat := (cellInfo c).2.1
def cellDst (c : Nat) : Nat := (cellInfo c).2.2

/-- Words or segments that a FIFO cell holds. -/
def cellDepth (c : Nat) : Nat :=
  if c < 128 then 64
  else if c = 283 ∨ c = 284 ∨ c = 285 ∨ c = 286 then 64
  else if c = 277 ∨ c = 278 ∨ c = 287 ∨ c = 288 ∨ c = 298 ∨ c = 299 then 32
  else 16

/-- COL_CELL_STAT and COL_CELL_CFG after reset (R82): a clockless side counts as present. -/
def cellStatReset (c : Nat) : Nat :=
  let i := cellInfo c
  i.1 * 16 + i.2.1 * 2 ^ 16 + i.2.2 * 2 ^ 24
def cellCfgReset (c : Nat) : Nat := if c = 294 ∨ c = 295 ∨ c = 296 then 0 else 10

/-- Work units per step of an island, by its index on its die (R42). -/
def islUnits (i : Nat) : Nat :=
  let l := i % 48
  if l < 34 then 1 else if l < 38 then 16 else if l < 42 then 12 else if l < 44 then 16
  else if l = 44 then 64 else if l = 45 then 16 else if l = 46 then 32 else 4

end Sys2Proof.Machine
end

