-- ==== Sys2Proof/Machine/Sources.lean ====
section
/-! DEFINITION. The 112 fault sources of R484 with their default severities, classes and unit columns, and the default
neighbour masks of R485. -/

namespace Sys2Proof.Machine
open Sys2Proof

abbrev srcRegBusErr : Nat := 0
abbrev srcCfgParity : Nat := 1
abbrev srcCfgUncommitted : Nat := 2
abbrev srcCfgRestoreFail : Nat := 3
abbrev srcCfgLogLost : Nat := 4
abbrev srcClkAbsent : Nat := 5
abbrev srcClkFallback : Nat := 6
abbrev srcColStall : Nat := 7
abbrev srcColPulseLost : Nat := 8
abbrev srcColResync : Nat := 9
abbrev srcPllUnlock : Nat := 10
abbrev srcChanStuck : Nat := 11
abbrev srcSaddleStuck : Nat := 12
abbrev srcSaddleMgmtLoss : Nat := 13
abbrev srcSaddleDeskew : Nat := 14
abbrev srcUcodeStack : Nat := 15
abbrev srcUcodeStep : Nat := 16
abbrev srcUcodeIllegal : Nat := 17
abbrev srcUcodeParity : Nat := 18
abbrev srcPatchAuth : Nat := 19
abbrev srcPrsCtxHang : Nat := 20
abbrev srcRweCtxHang : Nat := 21
abbrev srcEmtParity : Nat := 22
abbrev srcLpmParity : Nat := 23
abbrev srcLpmPivotFix : Nat := 24
abbrev srcTcmParity : Nat := 25
abbrev srcTcmFalseHit : Nat := 26
abbrev srcTcmScrubFix : Nat := 27
abbrev srcStmParity : Nat := 28
abbrev srcGlnUpdateFail : Nat := 29
abbrev srcGlnHang : Nat := 30
abbrev srcLrnRingLost : Nat := 31
abbrev srcCntParity : Nat := 32
abbrev srcDumpRingLost : Nat := 33
abbrev srcDumpOverrun : Nat := 34
abbrev srcSampleRingLost : Nat := 35
abbrev srcPlainParity : Nat := 36
abbrev srcBpmBadFree : Nat := 37
abbrev srcBpmStateParity : Nat := 38
abbrev srcBpmLeak : Nat := 39
abbrev srcBpmOwnExh : Nat := 40
abbrev srcBpmPoolEmpty : Nat := 41
abbrev srcHbmUncorr : Nat := 42
abbrev srcHbmCorrRate : Nat := 43
abbrev srcHbmTrainFail : Nat := 44
abbrev srcHbmRetireFull : Nat := 45
abbrev srcHbmThermal : Nat := 46
abbrev srcSchParity : Nat := 47
abbrev srcSchHang : Nat := 48
abbrev srcGatParity : Nat := 49
abbrev srcGatOverrun : Nat := 50
abbrev srcGatStep : Nat := 51
abbrev srcTimeSrcLost : Nat := 52
abbrev srcTimeInvalid : Nat := 53
abbrev srcTimePpsLost : Nat := 54
abbrev srcPtpServo : Nat := 55
abbrev srcTsRingLost : Nat := 56
abbrev srcFreRcvReset : Nat := 57
abbrev srcFreLatent : Nat := 58
abbrev srcFreParity : Nat := 59
abbrev srcFreDupParity : Nat := 60
abbrev srcFreWrongLan : Nat := 61
abbrev srcFioEvtLost : Nat := 62
abbrev srcFioTrigLost : Nat := 63
abbrev srcFioFoMismatch : Nat := 64
abbrev srcFioPubRefused : Nat := 65
abbrev srcCasAuthFail : Nat := 66
abbrev srcCasMgrLost : Nat := 67
abbrev srcCasReplay : Nat := 68
abbrev srcCasJoinRefused : Nat := 69
abbrev srcGnoyrDrop : Nat := 70
abbrev srcSecPufFail : Nat := 71
abbrev srcSecImageAuth : Nat := 72
abbrev srcSecDebugUnlock : Nat := 73
abbrev srcSecUnlockFail : Nat := 74
abbrev srcSpdmFail : Nat := 75
abbrev srcMpLockstep : Nat := 76
abbrev srcMpWatchdog : Nat := 77
abbrev srcMpEccCorr : Nat := 78
abbrev srcMpEccUncorr : Nat := 79
abbrev srcFwInternal : Nat := 80
abbrev srcMramErr : Nat := 81
abbrev srcMramWriteFail : Nat := 82
abbrev srcStartFail : Nat := 83
abbrev srcStartLoop : Nat := 84
abbrev srcVinLow : Nat := 85
abbrev srcVinHigh : Nat := 86
abbrev srcRailFault : Nat := 87
abbrev srcIslRegFault : Nat := 88
abbrev srcIslCeiling : Nat := 89
abbrev srcThermWarn : Nat := 90
abbrev srcThermCrit : Nat := 91
abbrev srcSdsLos : Nat := 92
abbrev srcPcsLinkFault : Nat := 93
abbrev srcFecUncorr : Nat := 94
abbrev srcPgFault : Nat := 95
abbrev srcMacFifoOvf : Nat := 96
abbrev srcPreemptVerifyFail : Nat := 97
abbrev srcPcieLinkDown : Nat := 98
abbrev srcPcieUncorr : Nat := 99
abbrev srcSmbErr : Nat := 100
abbrev srcPipBistFail : Nat := 101
abbrev srcGlnBistFail : Nat := 102
abbrev srcPgBistFail : Nat := 103
abbrev srcPipeHang : Nat := 104
abbrev srcSpareRemap : Nat := 105
abbrev srcSpareExhausted : Nat := 106
abbrev srcRehomeDone : Nat := 107
abbrev srcRehomeFail : Nat := 108
abbrev srcTestAbort : Nat := 109
abbrev srcFclSelf : Nat := 110
abbrev srcFclLogLost : Nat := 111

/-- The unit column of R484. -/
inductive UnitCol where
  | none | p | g | pg | h | mp | b | r | u
  deriving DecidableEq, Repr

/-- Default severity, class and unit column of each source, in order (R484), eight sources a part. -/
def srcRows0 : List (Nat × Nat × UnitCol) := [(0, 0, .none), (0, 0, .none), (1, 0, .none), (2, 1, .b), (1, 0, .none), (1, 2, .u), (1, 0, .none), (1, 2, .none)]
def srcRows1 : List (Nat × Nat × UnitCol) := [(1, 2, .none), (0, 0, .none), (1, 2, .u), (2, 3, .u), (4, 3, .none), (4, 3, .none), (1, 3, .none), (1, 0, .none)]
def srcRows2 : List (Nat × Nat × UnitCol) := [(1, 0, .none), (1, 0, .none), (1, 4, .p), (1, 0, .none), (2, 4, .p), (2, 4, .p), (1, 5, .r), (1, 5, .r)]
def srcRows3 : List (Nat × Nat × UnitCol) := [(0, 0, .none), (1, 5, .r), (0, 0, .none), (0, 0, .none), (1, 5, .r), (1, 5, .r), (3, 5, .g), (1, 0, .none)]
def srcRows4 : List (Nat × Nat × UnitCol) := [(0, 0, .none), (1, 0, .none), (1, 0, .none), (0, 0, .none), (1, 6, .r), (1, 0, .none), (1, 6, .none), (1, 0, .none)]
def srcRows5 : List (Nat × Nat × UnitCol) := [(1, 0, .none), (0, 0, .none), (1, 15, .r), (0, 0, .none), (2, 15, .h), (2, 15, .h), (1, 15, .h), (1, 7, .r)]
def srcRows6 : List (Nat × Nat × UnitCol) := [(3, 7, .b), (1, 7, .r), (0, 0, .none), (0, 0, .none), (1, 8, .none), (1, 8, .none), (1, 8, .none), (1, 8, .none)]
def srcRows7 : List (Nat × Nat × UnitCol) := [(0, 0, .none), (0, 0, .none), (1, 9, .none), (0, 0, .none), (0, 0, .none), (0, 0, .none), (1, 10, .none), (1, 10, .none)]
def srcRows8 : List (Nat × Nat × UnitCol) := [(1, 10, .none), (1, 10, .none), (1, 11, .none), (1, 0, .none), (0, 0, .none), (1, 0, .none), (0, 0, .none), (1, 11, .none)]
def srcRows9 : List (Nat × Nat × UnitCol) := [(1, 11, .none), (0, 0, .none), (1, 11, .none), (0, 0, .none), (3, 12, .mp), (3, 12, .mp), (0, 0, .none), (3, 12, .mp)]
def srcRows10 : List (Nat × Nat × UnitCol) := [(1, 12, .mp), (1, 12, .none), (1, 12, .none), (1, 0, .none), (1, 0, .none), (4, 13, .none), (1, 13, .none), (4, 13, .none)]
def srcRows11 : List (Nat × Nat × UnitCol) := [(2, 13, .u), (1, 13, .u), (1, 13, .none), (5, 13, .none), (0, 0, .none), (0, 0, .none), (1, 14, .none), (3, 14, .pg)]
def srcRows12 : List (Nat × Nat × UnitCol) := [(0, 0, .none), (1, 0, .none), (1, 0, .none), (1, 0, .none), (0, 0, .none), (2, 16, .p), (2, 16, .g), (2, 16, .pg)]
def srcRows13 : List (Nat × Nat × UnitCol) := [(2, 16, .p), (0, 0, .none), (1, 0, .none), (0, 0, .none), (1, 16, .none), (1, 0, .none), (1, 0, .none), (0, 0, .none)]
def srcRows : List (Nat × Nat × UnitCol) :=
  srcRows0 ++ srcRows1 ++ srcRows2 ++ srcRows3 ++ srcRows4 ++ srcRows5 ++ srcRows6 ++
  srcRows7 ++ srcRows8 ++ srcRows9 ++ srcRows10 ++ srcRows11 ++ srcRows12 ++ srcRows13

def srcRow (s : Nat) : Nat × Nat × UnitCol := srcRows.getD s (0, 0, .none)
def srcUnit (s : Nat) : UnitCol := (srcRow s).2.2

/-- A mask with the bits of a list of sources set. -/
def maskOf (l : List Nat) : Nat := l.foldl (fun m s => setNbit m s true) 0

/-- R485, row: Unit P. -/
def nbrP : Nat := maskOf [srcChanStuck, srcColStall, srcColPulseLost, srcUcodeStack, srcUcodeStep, srcUcodeIllegal, srcUcodeParity, srcPrsCtxHang, srcRweCtxHang, srcPipeHang, srcMacFifoOvf, srcIslCeiling, srcRegBusErr]
/-- R485, row: Unit G. -/
def nbrG : Nat := maskOf [srcChanStuck, srcGlnHang, srcGlnUpdateFail, srcEmtParity, srcLpmParity, srcTcmParity, srcStmParity, srcPipeHang, srcIslCeiling, srcRegBusErr]
/-- R485, row: Unit PG, CLK_ABSENT, PLL_UNLOCK. -/
def nbrPg : Nat := maskOf [srcColStall, srcColPulseLost, srcColResync, srcClkAbsent, srcPllUnlock, srcSdsLos, srcPcsLinkFault, srcFecUncorr, srcMacFifoOvf, srcPreemptVerifyFail, srcTimeInvalid, srcIslCeiling, srcRegBusErr]
/-- R485, row: Unit H. -/
def nbrH : Nat := maskOf [srcHbmUncorr, srcHbmCorrRate, srcHbmThermal, srcColStall, srcColResync, srcRegBusErr]
/-- R485, row: Unit MP. -/
def nbrMp : Nat := maskOf [srcColStall, srcColPulseLost, srcColResync, srcFwInternal, srcLrnRingLost, srcFioEvtLost, srcPtpServo, srcCfgLogLost, srcCasMgrLost, srcRegBusErr]
/-- R485, row: Unit B, and unit R. -/
def nbrB : Nat := maskOf [srcColStall, srcColResync, srcCfgParity, srcRegBusErr]
/-- R485, row: Default severity 4, and SADDLE_DESKEW. -/
def nbrSev4 : Nat := maskOf [srcColStall, srcColResync, srcChanStuck, srcSdsLos, srcPcsLinkFault, srcGatOverrun, srcCasMgrLost, srcPtpServo, srcLrnRingLost, srcFioEvtLost, srcRegBusErr]

/-- The mask R485 gives for a unit column. -/
def nbrOfCol : UnitCol → Nat
  | .none => 0
  | .p => nbrP
  | .g => nbrG
  | .pg => nbrPg
  | .h => nbrH
  | .mp => nbrMp
  | .b => nbrB
  | .r => nbrB
  | .u => 0

/-- The neighbour mask a source resets with (R485). -/
def nbrMaskReset (s : Nat) : Nat :=
  if s = srcClkAbsent ∨ s = srcPllUnlock then nbrPg
  else if (srcRow s).1 = 4 ∨ s = srcSaddleDeskew then nbrSev4
  else nbrOfCol (srcUnit s)

/-- FCL_SRC_CFG of a source at reset: SEV, CLASS and WIN (R484, R485, R492). -/
def srcCfgReset (s : Nat) : Nat :=
  let r := srcRow s
  r.1 + 8 * r.2.1 + (if s = srcClkAbsent ∨ s = srcPllUnlock ∨ s = srcSaddleDeskew then 512 else 0)

end Sys2Proof.Machine
end

