-- ==== Sys2Proof/Machine/RegMap.lean ====
section
/-! DEFINITION. The register map of BAR0 (R419, R420, R440): which block an address falls in, every register of every
block with its offset, reset value, access types (R13), guards (R426) and what a write or a read of it does beyond
storing. -/

namespace Sys2Proof.Machine
open Sys2Proof

/-- The blocks of R419 and R420.  Pipelines 32 and 33 are the spares S0 and S1, block 16 of each die. -/
inductive Blk where
  | glb | mbx | fcl | pmc | tim | pwi | col | fio | cas | sec
  | pip (n : Nat) | gln (g : Nat) | sch (d : Nat) | gat (d : Nat) | bpm (d : Nat) | fre (d : Nat)
  | pg (n : Nat) | hbm (d : Nat) | sad (d : Nat) | win (w : Nat)
  deriving DecidableEq, Repr

/-- What a write to a register does beyond the access types of R13.  `store` does nothing more, `mw` is the masked
write of R427, `staged` goes to the staged copy (R431); each other name is one register's own effect, carried out by
`busWrite`. -/
inductive WrAct where
  | store | mw | staged
  | glbBuserr
  | mbxDoorbell | mbxStat | mbxRingCfg | mbxCmdProd | mbxRspCons | mbxArea | mbxRingBase
  | fclCfg | fclStatus | fclConseq | fclFirst | fclLogPop | fclSrcCfg | fclNbr
  | pipCtl
  | pmcOvfCap | ringCfg (szTop : Nat) | ringCons
  | winIndex | winCmd | winStat | winData
  | pwiCommit
  | colCellStat | colStallPend | colOvfPend
  | glnBudgetCommit | emtKeyCommit | emtHash | emtAgeCfg | emtTblCfg | stmSeed
  | polStgAddr | polStgCommit
  | bpmLayoutCommit | bpmQuotaCommit | bpmBudgetCommit | bpmEpoch | bpmBfCap
  | schBudgetCommit | schShpCommit
  | timStepGo | timRateAdj | timCfg
  | gatListCommit | gatPortCfg | gatStaged | tune | dumpSet
  | foForceEn | foForceVal | foStat | fioEtype | fioStore (k : Nat)
  | casCfg | casStat | casDevId | casEtype | casTiming
  | prsBank | prsPatchAddr | prsPatchData | rweBank | rwePatchAddr | rwePatchData
  | freDupSeed | freStore (k : Nat)
  | secDbgReq | secCfg
  | keep (k : Nat)
  deriving DecidableEq, Repr

/-- What a read of a register does beyond returning its value: `lo64` latches the high word (R495), `timFrac`
latches network time (R306), `peak` restarts the island extremes (R60), `secStat` counts the unlock down (R535). -/
inductive RdAct where
  | plain | lo64 | hi64 | timFrac | ppsCap | peak | mbxArea | mbxResp | winData | patchData | secStat
  deriving DecidableEq, Repr

/-- How a register's reset value is found: `fixed` the row's number, or one that differs between blocks or instances or
comes from fuses. -/
inductive RstK where
  | fixed | colCfg | colStat | glbRev | glnCaps | hashFn | macCaps | macHi | macLo | nbrMask | pipCtl | poolCfg | ringProf | schPortCfg | serialHi | serialLo | srcCfg
  deriving DecidableEq, Repr

/-- One row of a block's register table.  `rw`, `w1c` and `rc` are the masks of the fields of those types; every other
bit is RO or reserved.  `prv` and `sec` are the masks of the guarded fields.  Instance (i, j) of the row lies at
`off + stride * i + st2 * j`. -/
structure RegDesc where
  name : String
  off : Nat
  stride : Nat := 4
  count : Nat := 1
  st2 : Nat := 4
  n2 : Nat := 1
  reset : Nat := 0
  rst : RstK := .fixed
  /-- The register belongs to one logical port (R5). -/
  perPort : Bool := false
  rw : Nat := 0
  w1c : Nat := 0
  rc : Nat := 0
  prv : Nat := 0
  sec : Nat := 0
  act : WrAct := .store
  rd : RdAct := .plain
  deriving DecidableEq, Repr

/-- Every bit of a register. -/
abbrev all32 : Nat := 0xFFFFFFFF

/-! ### GLB (R442) -/

def regsGlb : List RegDesc := [
  { name := "GLB_ID", off := 0x0000, reset := 0x88404D4E },
  { name := "GLB_REV", off := 0x0004, rst := .glbRev, reset := 0x2 },
  { name := "GLB_SERIAL_LO", off := 0x0008, rst := .serialLo },
  { name := "GLB_SERIAL_HI", off := 0x000C, rst := .serialHi },
  { name := "GLB_BASE_MAC_LO", off := 0x0010, rst := .macLo, prv := all32 },
  { name := "GLB_BASE_MAC_HI", off := 0x0014, rst := .macHi, prv := all32 },
  { name := "GLB_STRAPS", off := 0x0020 },
  { name := "GLB_STATUS", off := 0x0024, reset := 0x3 },
  { name := "GLB_SCRATCH", off := 0x0030, rw := all32, prv := all32 },
  { name := "GLB_CNT_GUARD", off := 0x0040, count := 5, prv := all32 },
  { name := "GLB_CNT_BUS_ERR", off := 0x0060, count := 5, prv := all32 },
  { name := "GLB_BUSERR_CAP_ADDR", off := 0x0080, prv := all32 },
  { name := "GLB_BUSERR_CAP_INFO", off := 0x0084, w1c := 0x80000000, prv := all32, act := .glbBuserr },
  { name := "GLB_PAR_STAT", off := 0x0090, prv := all32 } ]

/-! ### MBX (R418): the registers of mailbox m at 0x0100 + 0x40 m, its areas at 0x2000 + 0x2000 m -/

/-- The guards of a mailbox page (R418): MB0 and MB3 PRV, MB2 and MB4 SEC, MB1 unguarded. -/
def mbxPrv (m : Nat) : Nat := if m = 0 ∨ m = 3 then all32 else 0
def mbxSec (m : Nat) : Nat := if m = 2 ∨ m = 4 then all32 else 0

def regsMbxPage (m : Nat) : List RegDesc :=
  let b := 0x0100 + 0x40 * m
  let ringBase := if m ≤ 1 then 0xFFFFF000 else 0
  [ { name := "MBX_DOORBELL", off := b, prv := mbxPrv m, sec := mbxSec m, act := .mbxDoorbell },
    { name := "MBX_STAT", off := b + 0x04, w1c := 0x2E, prv := mbxPrv m, sec := mbxSec m },
    { name := "MBX_IRQ", off := b + 0x08, reset := 0x00080000, rw := 0x007FFF01, prv := mbxPrv m, sec := mbxSec m },
    { name := "MBX_RESP_SEQ", off := b + 0x0C, prv := mbxPrv m, sec := mbxSec m },
    { name := "MBX_RING_CMD_LO", off := b + 0x10, rw := ringBase, prv := mbxPrv m, sec := mbxSec m },
    { name := "MBX_RING_CMD_HI", off := b + 0x14, rw := all32, prv := mbxPrv m, sec := mbxSec m },
    { name := "MBX_RING_RSP_LO", off := b + 0x18, rw := ringBase, prv := mbxPrv m, sec := mbxSec m },
    { name := "MBX_RING_RSP_HI", off := b + 0x1C, rw := all32, prv := mbxPrv m, sec := mbxSec m },
    { name := "MBX_RING_CFG", off := b + 0x20, rw := if m ≤ 1 then 0xF else 0, prv := mbxPrv m, sec := mbxSec m,
      act := .mbxRingCfg },
    { name := "MBX_CMD_PROD", off := b + 0x24, rw := all32, prv := mbxPrv m, sec := mbxSec m, act := .mbxCmdProd },
    { name := "MBX_CMD_CONS", off := b + 0x28, prv := mbxPrv m, sec := mbxSec m },
    { name := "MBX_RSP_PROD", off := b + 0x2C, prv := mbxPrv m, sec := mbxSec m },
    { name := "MBX_RSP_CONS", off := b + 0x30, rw := all32, prv := mbxPrv m, sec := mbxSec m, act := .mbxRspCons },
    { name := "MBX_COMMAND_AREA", off := 0x2000 + 0x2000 * m, count := 1024, rw := all32, prv := mbxPrv m,
      sec := mbxSec m, act := .mbxArea, rd := .mbxArea },
    { name := "MBX_RESPONSE_AREA", off := 0x3000 + 0x2000 * m, count := 1024, prv := mbxPrv m, sec := mbxSec m,
      rd := .mbxResp } ]

def regsMbx : List RegDesc :=
  [ { name := "MBX_CAPS", off := 0x0000, reset := 0x00030005 },
    { name := "MBX_FW_STAT", off := 0x0004 },
    { name := "MBX_CNT_LOG_LOST", off := 0x0020 },
    { name := "MBX_LOG_LOST_MAP", off := 0x0040, count := 32, w1c := all32, sec := all32 } ] ++
  regsMbxPage 0 ++ regsMbxPage 1 ++ regsMbxPage 2 ++ regsMbxPage 3 ++ regsMbxPage 4

/-! ### FCL (R492) -/

def regsFcl : List RegDesc := [
  { name := "FCL_CAPS", off := 0x0000, reset := 0x00100070 },
  { name := "FCL_CFG", off := 0x0004, reset := 0x00010014, rw := 0x0007FFFF, prv := all32, act := .fclCfg },
  { name := "FCL_STATUS", off := 0x0010, count := 4, w1c := all32, act := .fclStatus },
  { name := "FCL_CONSEQ", off := 0x0020, count := 4, w1c := all32 },
  { name := "FCL_OPEN", off := 0x0030, count := 4 },
  { name := "FCL_FIRST_ALSO", off := 0x0040, count := 4 },
  { name := "FCL_FIRST_SRC", off := 0x0050, w1c := 0x80000000, act := .fclFirst },
  { name := "FCL_FIRST_ADDR", off := 0x0054 },
  { name := "FCL_FIRST_UNIT", off := 0x0058 },
  { name := "FCL_FIRST_NS", off := 0x005C },
  { name := "FCL_FIRST_SEC_LO", off := 0x0060 },
  { name := "FCL_FIRST_SEC_HI", off := 0x0064 },
  { name := "FCL_FIRST_SEQ", off := 0x0068 },
  { name := "FCL_CLASS_LVL", off := 0x0070, count := 4 },
  { name := "FCL_LOG_STAT", off := 0x0080 },
  { name := "FCL_LOG_POP", off := 0x0084, act := .fclLogPop },
  { name := "FCL_LOG_DATA", off := 0x0090, count := 7 },
  { name := "FCL_SRC_CFG", off := 0x0100, rst := .srcCfg, count := 112, rw := 0x3FF, prv := all32, act := .fclSrcCfg },
  { name := "FCL_CNT", off := 0x0400, count := 112 },
  { name := "FCL_NBR_MASK", off := 0x1000, rst := .nbrMask, count := 448, rw := all32, prv := all32, act := .fclNbr } ]

/-! ### PMC (R517) -/

/-- The five registers of a record ring (the EMT_LRN fields of R151): base, configuration, PROD and CONS. -/
def ringRegs (b szTop prv : Nat) : List RegDesc :=
  [ { name := "RING_BASE_LO", off := b, rw := 0xFFFFF000, prv := prv },
    { name := "RING_BASE_HI", off := b + 4, rw := all32, prv := prv },
    { name := "RING_CFG", off := b + 8, rw := 0x00FF003F, w1c := 0x100, prv := prv, act := .ringCfg szTop },
    { name := "RING_PROD", off := b + 0xC },
    { name := "RING_CONS", off := b + 0x10, rw := all32, prv := prv, act := .ringCons } ]

def regsPmc : List RegDesc :=
  [ { name := "PMC_CAPS", off := 0x0000, reset := 0x0000040B },
    { name := "PMC_TAG_CFG", off := 0x0004, rw := 0x01FFFFFF, prv := all32 },
    { name := "PMC_TAG_SEED", off := 0x0008, reset := 1, rw := 0x00FFFFFF, prv := all32, act := .keep 10 },
    { name := "PMC_SET_CFG", off := 0x0100, stride := 0x10, count := 11, rw := 0x03FFFFFF, prv := all32, act := .dumpSet },
    { name := "PMC_SET_FIRST", off := 0x0104, stride := 0x10, count := 11, rw := 0x7FFFF, prv := all32 },
    { name := "PMC_SET_LAST", off := 0x0108, stride := 0x10, count := 11, reset := 0x7FFFF, rw := 0x7FFFF,
      prv := all32 } ] ++
  ringRegs 0x0200 10 all32 ++ ringRegs 0x0220 10 all32 ++ ringRegs 0x0240 10 all32 ++ ringRegs 0x0260 10 all32 ++
  ringRegs 0x0300 10 all32 ++ ringRegs 0x0320 10 all32 ++ ringRegs 0x0340 10 all32 ++
  [ { name := "PMC_CNT_DUMP_LOST", off := 0x0400, count := 11 },
    { name := "PMC_CNT_OVERRUN", off := 0x0440, count := 11 },
    { name := "PMC_CNT_QSAMP_LOST", off := 0x0480, count := 2 },
    { name := "PMC_CNT_PSAMP_LOST", off := 0x0488 },
    { name := "PMC_OVF_CFG", off := 0x1000, stride := 0x20, count := 32, rw := 0x0FFFFFFF, prv := all32 },
    { name := "PMC_OVF_CNT", off := 0x1004, stride := 0x20, count := 32, prv := all32 },
    { name := "PMC_OVF_CAP", off := 0x1010, stride := 0x20, count := 32, w1c := 0x80000000, act := .pmcOvfCap },
    { name := "PMC_OVF_CAP_1", off := 0x1014, stride := 0x20, count := 32, st2 := 4, n2 := 3 } ]

/-! ### PIP (R493, R518), SAD (R494), MAC and SDS (R441), windows (R435) -/

def regsPip : List RegDesc := [
  { name := "PIP_CTL", off := 0x0000, rst := .pipCtl, rw := 0x3, sec := all32, act := .pipCtl },
  { name := "PIP_STAT", off := 0x0004, reset := 0x8 },
  { name := "PIP_CNT_ISOLATE_DROP", off := 0x0010 },
  { name := "PIP_SLOT_LO", off := 0x0100, stride := 8, count := 5, rd := .lo64 },
  { name := "PIP_SLOT_HI", off := 0x0104, stride := 8, count := 5, rd := .hi64 } ]

def regsSad : List RegDesc := [
  { name := "SAD_STAT", off := 0x0000 },
  { name := "SAD_CNT_REPLAY", off := 0x0004 },
  { name := "SAD_CNT_DESKEW", off := 0x0008 },
  { name := "SAD_MGMT_LAT", off := 0x000C } ]

def regsPg : List RegDesc := [
  { name := "MAC_CAPS", off := 0x0000, rst := .macCaps, reset := 0x8 },
  { name := "MAC_PORT_STAT", off := 0x0010, count := 8 },
  { name := "MAC_TUNING", off := 0x0100, count := 8128, rw := all32, sec := all32, act := .tune },
  { name := "SDS_TUNING", off := 0x8000, count := 8192, rw := all32, sec := all32, act := .tune } ]

def regsWin : List RegDesc := [
  { name := "WIN_TABLE", off := 0x000, rw := 0x7FF },
  { name := "WIN_INDEX", off := 0x004, rw := 0x00FFFFFF },
  { name := "WIN_CMD", off := 0x008, act := .winCmd },
  { name := "WIN_STAT", off := 0x00C, w1c := 0x10 },
  { name := "WIN_DATA", off := 0x100, count := 64, rw := all32, act := .winData } ]
/-! ### PWI (R60) and COL (R82) -/

def regsPwi : List RegDesc := [
  { name := "PWI_CAPS", off := 0x0000, reset := 0x003C0060 },
  { name := "PWI_LOOP_TIMING", off := 0x0004, reset := 0x020A1408, rw := 0x0FFFFFFF, prv := all32, act := .staged },
  { name := "PWI_RATIO_CFG", off := 0x0008, reset := 0x0000C0E6, rw := 0xFFFF, prv := all32, act := .staged },
  { name := "PWI_CEIL_TIME", off := 0x000C, reset := 0x64, rw := 0xFFFFF },
  { name := "PWI_COMMIT", off := 0x0010, act := .pwiCommit },
  { name := "PWI_COMMIT_STAT", off := 0x0014 },
  { name := "PWI_CEIL_PEND", off := 0x0020, count := 3, w1c := all32 },
  { name := "PWI_ISL_CFG", off := 0x0100, count := 96, reset := 0x00103C00, rw := 0x03F33F3F, prv := all32,
    act := .staged },
  { name := "PWI_ISL_LOOP", off := 0x0300, count := 96, reset := 0x00000C04, rw := 0x1F1F, prv := all32,
    act := .staged },
  { name := "PWI_ISL_STAT", off := 0x0500, count := 96, reset := 0x03200028 },
  { name := "PWI_ISL_PACE", off := 0x0700, count := 96, reset := 0x00000208 },
  { name := "PWI_ISL_STEPCNT", off := 0x0900, count := 96 },
  { name := "PWI_ISL_PEAK", off := 0x0B00, count := 96, reset := 0x00280028, rc := 0x003F003F, rd := .peak } ]

def regsCol : List RegDesc := [
  { name := "COL_CAPS", off := 0x0000, reset := 0x00280130 },
  { name := "COL_STALL_PEND", off := 0x0040, count := 10, w1c := all32, act := .colStallPend },
  { name := "COL_OVF_PEND", off := 0x0080, count := 10, w1c := all32, act := .colOvfPend },
  { name := "COL_DOM_STAT", off := 0x0100, count := 40, w1c := 0x4 },
  { name := "COL_CELL_CFG", off := 0x1000, rst := .colCfg, count := 304, reset := 0xA, rw := 0xFFFF, prv := all32 },
  { name := "COL_CELL_STAT", off := 0x2000, rst := .colStat, count := 304, w1c := 0x700, act := .colCellStat },
  { name := "COL_CELL_DISC", off := 0x3000, count := 304 },
  { name := "COL_CELL_XFER", off := 0x4000, count := 304 } ]


/-! ### PRS (R112) -/

def regsPrs : List RegDesc := [
  { name := "PRS_ROM_ID", off := 0x4000, reset := 0x01170304 },
  { name := "PRS_CTL", off := 0x4004, reset := 0x00010040, rw := 0x3FFFF, prv := all32 },
  { name := "PRS_BANK", off := 0x4008, w1c := 0x18, sec := all32, act := .prsBank },
  { name := "PRS_STAT", off := 0x400C },
  { name := "PRS_PATCH_ADDR", off := 0x4010, rw := 0x101FF, sec := all32, act := .prsPatchAddr },
  { name := "PRS_PATCH_DATA", off := 0x4020, count := 8, rw := all32, sec := all32, act := .prsPatchData },
  { name := "PRS_PORT_PROF", perPort := true, off := 0x4040, count := 8, rst := .ringProf, rw := 0xFF, w1c := 0x100, prv := all32,
    act := .keep 1 },
  { name := "PRS_MATCH_ENT", off := 0x4100, count := 64, rw := 0x81FF1FFF, sec := all32, act := .keep 4 },
  { name := "PRS_PROF_ENT", off := 0x4200, count := 32, rw := 0x80FF3FFF, sec := all32, act := .keep 5 },
  { name := "PRS_CNT_LO", off := 0x4300, stride := 8, count := 6, rd := .lo64 },
  { name := "PRS_CNT_HI", off := 0x4304, stride := 8, count := 6, rd := .hi64 } ]

/-! ### GLN (R146, R147) and EMT (R151), at offsets of the glen's 512 KiB block -/

def regsGln : List RegDesc := [
  { name := "GLN_CAPS", off := 0x0000, rst := .glnCaps, reset := 0x00400410 },
  { name := "GLN_STAT", off := 0x0004 },
  { name := "GLN_BUDGET_A", off := 0x0100, reset := 0x10002000, rw := 0x7FFF7FFF, prv := all32, act := .staged },
  { name := "GLN_BUDGET_B", off := 0x0104, reset := 0x04000800, rw := 0x7FFF7FFF, prv := all32, act := .staged },
  { name := "GLN_BUDGET_C", off := 0x0108, reset := 0x261A0200, rw := 0x7FFF, prv := all32, act := .staged },
  { name := "GLN_BUDGET_COMMIT", off := 0x010C, prv := all32, act := .glnBudgetCommit },
  { name := "GLN_BUDGET_STAT", off := 0x0110 } ]

def regsEmt : List RegDesc :=
  [ { name := "EMT_HASH_CFG", off := 0x10004, rst := .hashFn, rw := 0x1F, w1c := 0x100, prv := all32, act := .emtHash },
    { name := "EMT_HASH_SEED", off := 0x10008, reset := 0xFFFFFFFF, rw := all32, prv := all32, act := .emtHash },
    { name := "EMT_AGE_CFG", off := 0x10010, reset := 0x020003E8, rw := 0x0FFFFFFF, prv := all32, act := .emtAgeCfg },
    { name := "EMT_AGE_STAT", off := 0x10014 },
    { name := "EMT_LRN_FILTER", off := 0x10020, reset := 0x3E8, rw := 0xFFFF, prv := all32 },
    { name := "EMT_TBL_CFG", off := 0x10040, count := 4, reset := 0x0004B000, rw := 0x003FFCFF, prv := all32,
      act := .emtTblCfg },
    { name := "EMT_PORT_CFG", perPort := true, off := 0x10080, count := 32, reset := 1, rw := 0x1FFF, prv := all32, act := .keep 0 } ] ++
  ringRegs 0x10100 8 all32 ++
  [ { name := "EMT_OCC", off := 0x10200, prv := all32 },
    { name := "EMT_CNT", off := 0x10300, count := 14 },
    { name := "EMT_KEY_HDR", off := 0x10400, count := 128, reset := 0xF0, rw := 0xF7, prv := all32, act := .staged },
    { name := "EMT_KEY_BYTES", off := 0x10800, count := 384, reset := 0x7F7F7F7F, rw := 0x7F7F7F7F, prv := all32,
      act := .staged },
    { name := "EMT_KEY_COMMIT", off := 0x10E00, prv := all32, act := .emtKeyCommit },
    { name := "EMT_KEY_COMMIT_STAT", off := 0x10E04, prv := all32 } ]

/-! ### LPM and TCM (R190) -/

def regsLpm : List RegDesc := [
  { name := "LPM_OCC", off := 0x20000 },
  { name := "LPM_NH_SEED", off := 0x20004, reset := 0xFFFFFFFF, rw := all32, prv := all32 },
  { name := "LPM_PORT_VRF", perPort := true, off := 0x20080, count := 32, rw := 0xFF, prv := all32, act := .keep 0 },
  { name := "LPM_CNT", off := 0x20300, count := 4 },
  { name := "LPM_KEY_CFG", off := 0x20400, count := 64, rw := 0x007FFF0F, prv := all32, act := .staged } ]

def regsTcm : List RegDesc := [
  { name := "TCM_GEN", off := 0x30000 },
  { name := "TCM_OCC", off := 0x30004 },
  { name := "TCM_SCRUB_CFG", off := 0x30008, reset := 0xA, rw := 0xFFFF, prv := all32 },
  { name := "TCM_PORT_CLASS", perPort := true, off := 0x30080, count := 32, rw := 0xFF, prv := all32 },
  { name := "TCM_CNT", off := 0x30300, count := 6 },
  { name := "TCM_KEY_HDR", off := 0x30400, count := 64, rw := 0xFF1, prv := all32, act := .staged },
  { name := "TCM_KEY_BYTES", off := 0x31000, count := 1280, reset := 0x7F7F7F7F, rw := 0x7F7F7F7F, prv := all32,
    act := .staged } ]

/-! ### STM and POL (R221) -/

def regsStm : List RegDesc := [
  { name := "STM_OCC", off := 0x40000, w1c := 0x80000000 },
  { name := "STM_HASH_SEED", off := 0x40004, reset := 0xFFFFFFFF, rw := all32, prv := all32, act := .stmSeed },
  { name := "STM_PORT_CFG", perPort := true, off := 0x40080, count := 32, rw := all32, prv := all32, act := .keep 0 },
  { name := "STM_CNT", off := 0x40300, count := 6 },
  { name := "STM_KEY_CFG", off := 0x40400, count := 64, rw := 0x1FFF1FFF, prv := all32, act := .staged } ]

def regsPol : List RegDesc := [
  { name := "POL_STG_ADDR", off := 0x50000, rw := 0x00017FFF, prv := all32, act := .staged },
  { name := "POL_STG_DATA", off := 0x50010, count := 4, rw := all32, prv := all32, act := .staged },
  { name := "POL_STG_COMMIT", off := 0x50020, prv := all32, act := .polStgCommit },
  { name := "POL_STG_STAT", off := 0x50024, prv := all32 },
  { name := "POL_PCP_MAP", off := 0x50040, count := 16, rw := all32, prv := all32 },
  { name := "POL_DSCP_MAP", off := 0x50080, count := 64, rw := all32, prv := all32 },
  { name := "POL_CNT_PROVISIONAL", off := 0x50300 } ]

/-! ### BPM (R249) -/

def regsBpm : List RegDesc := [
  { name := "BPM_CAPS", off := 0x0000, reset := 0x00266000, prv := all32 },
  { name := "BPM_POOL_CFG", off := 0x0010, rst := .poolCfg, count := 4, reset := 0x1000, rw := 0x7FFF, prv := all32, act := .staged },
  { name := "BPM_LAYOUT_COMMIT", off := 0x0020, prv := all32, act := .bpmLayoutCommit },
  { name := "BPM_LAYOUT_STAT", off := 0x0024, prv := all32 },
  { name := "BPM_YEL_KEEP", off := 0x0030, count := 4, rw := 0x7FFFF, prv := all32 },
  { name := "BPM_BUDGET_A", off := 0x0040, reset := 0x08002000, rw := 0x7FFF7FFF, prv := all32, act := .staged },
  { name := "BPM_BUDGET_B", off := 0x0044, reset := 0xC8000800, rw := 0x7FFF, prv := all32, act := .staged },
  { name := "BPM_BUDGET_COMMIT", off := 0x0048, prv := all32, act := .bpmBudgetCommit },
  { name := "BPM_BUDGET_STAT", off := 0x004C, prv := all32 },
  { name := "BPM_EPOCH", off := 0x0050, reset := 1, rw := 0xFF, prv := all32, act := .bpmEpoch },
  { name := "BPM_POOL_STAT", off := 0x0080, count := 4 },
  { name := "BPM_OWN_STAT", off := 0x00C0 },
  { name := "BPM_BF_CAP_PTR", off := 0x0100, prv := all32 },
  { name := "BPM_BF_CAP_INFO", off := 0x0104, w1c := 0x80000000, prv := all32 },
  { name := "BPM_QUOTA_MIN", off := 0x1000, count := 152, rw := 0x7FFFF, prv := all32, act := .staged },
  { name := "BPM_QUOTA_MAX", off := 0x1400, count := 152, rw := 0x7FFFF, prv := all32, act := .staged },
  { name := "BPM_QUOTA_COMMIT", off := 0x1800, prv := all32, act := .bpmQuotaCommit },
  { name := "BPM_QUOTA_STAT", off := 0x1804, prv := all32 },
  { name := "BPM_REQ_USE", off := 0x2000, count := 152 },
  { name := "BPM_CNT_ZERO", off := 0x3000, count := 38 },
  { name := "BPM_CNT_BAD_FREE", off := 0x3100, count := 38 },
  { name := "BPM_CNT_ADM_REFUSE", off := 0x3200, count := 38 },
  { name := "BPM_CNT_POOL_SPILL", off := 0x3300, count := 4 },
  { name := "BPM_CNT_OUTGROW", off := 0x3310 },
  { name := "BPM_CNT_OWN_EXH", off := 0x3314 },
  { name := "BPM_CNT_QUAR_REL", off := 0x3318 } ]

/-! ### SCH (R279) -/

def regsSch : List RegDesc := [
  { name := "SCH_CAPS", off := 0x0000, reset := 0x80000080 },
  { name := "SCH_BUDGET_A", off := 0x0040, reset := 0x04000800, rw := 0x7FFF7FFF, prv := all32, act := .staged },
  { name := "SCH_BUDGET_B", off := 0x0044, reset := 0x98800300, rw := 0x7FFF, prv := all32, act := .staged },
  { name := "SCH_BUDGET_COMMIT", off := 0x0048, prv := all32, act := .schBudgetCommit },
  { name := "SCH_BUDGET_STAT", off := 0x004C, prv := all32 },
  { name := "SCH_SHP_STG_ADDR", off := 0x0100, rw := 0xFFFFF, prv := all32, act := .staged },
  { name := "SCH_SHP_STG_DATA", off := 0x0110, count := 3, rw := all32, prv := all32, act := .staged },
  { name := "SCH_SHP_COMMIT", off := 0x0120, prv := all32, act := .schShpCommit },
  { name := "SCH_SHP_STAT", off := 0x0124, prv := all32 },
  { name := "SCH_PORT_CFG", perPort := true, off := 0x1000, count := 128, rst := .schPortCfg, reset := 0x00540000, rw := 0x7F7FFF,
    prv := all32, act := .keep 0 },
  { name := "SCH_SAMP_CFG", off := 0x2000, stride := 8, count := 8, rw := 0x3FFFFF, prv := all32 },
  { name := "SCH_SAMP_RANGE", off := 0x2004, stride := 8, count := 8, rw := all32, prv := all32 },
  { name := "SCH_CNT", off := 0x3000, count := 4 } ]

/-! ### TIM and GAT (R306) -/

def regsTim : List RegDesc := [
  { name := "TIM_CFG", off := 0x0000, reset := 0x000186A0, rw := 0x3FFFFF, prv := all32, act := .timCfg },
  { name := "TIM_STAT", off := 0x0004, w1c := 0x18 },
  { name := "TIM_RATE_ADJ", off := 0x0008, rw := all32, prv := all32, act := .timRateAdj },
  { name := "TIM_READ_FRAC", off := 0x0010, rd := .timFrac },
  { name := "TIM_READ_NS", off := 0x0014 },
  { name := "TIM_READ_SEC_LO", off := 0x0018 },
  { name := "TIM_READ_SEC_HI", off := 0x001C },
  { name := "TIM_STEP", off := 0x0020, rw := all32, sec := all32 },
  { name := "TIM_STEP_SEC", off := 0x0024, rw := all32, prv := all32 },
  { name := "TIM_STEP_GO", off := 0x0028, prv := all32, act := .timStepGo },
  { name := "TIM_SLEW_LEFT", off := 0x002C, prv := all32 },
  { name := "TIM_PPS_CFG", off := 0x0040, rw := all32, prv := all32 },
  { name := "TIM_PPS_WIDTH", off := 0x0044, rw := 0xFFFFF, prv := all32 },
  { name := "TIM_PPS_CAP", off := 0x0050, rd := .ppsCap },
  { name := "TIM_PPS_CAP_SEC", off := 0x0054, count := 3 },
  { name := "TIM_CNT_TS_LOST", off := 0x0060 },
  { name := "TIM_PORT_ADJ", perPort := true, off := 0x0400, stride := 8, count := 256, n2 := 2, rw := all32, prv := all32 },
  { name := "TIM_PORT_CFG", perPort := true, off := 0x0C00, count := 256, rw := 1, prv := all32 } ]

def regsGat : List RegDesc := [
  { name := "GAT_PORT_CFG", perPort := true, off := 0x1000, stride := 0x40, count := 128, reset := 0xFF00, rw := 0x7FFFF, prv := all32,
    act := .gatPortCfg },
  { name := "GAT_ADMIN_LEN", perPort := true, off := 0x1004, stride := 0x40, count := 128, rw := all32, prv := all32, act := .gatStaged },
  { name := "GAT_ADMIN_BASE_NS", perPort := true, off := 0x1008, stride := 0x40, count := 128, rw := all32, prv := all32,
    act := .gatStaged },
  { name := "GAT_ADMIN_BASE_SEC_LO", perPort := true, off := 0x100C, stride := 0x40, count := 128, rw := all32, prv := all32,
    act := .gatStaged },
  { name := "GAT_ADMIN_BASE_SEC_HI", perPort := true, off := 0x1010, stride := 0x40, count := 128, rw := 0xFFFF, prv := all32,
    act := .gatStaged },
  { name := "GAT_ADMIN_CYCLE", perPort := true, off := 0x1014, stride := 0x40, count := 128, rw := all32, prv := all32,
    act := .gatStaged },
  { name := "GAT_ADMIN_EXT", perPort := true, off := 0x1018, stride := 0x40, count := 128, rw := all32, prv := all32, act := .gatStaged },
  { name := "GAT_LIST_COMMIT", perPort := true, off := 0x101C, stride := 0x40, count := 128, prv := all32, act := .gatListCommit },
  { name := "GAT_LIST_STAT", perPort := true, off := 0x1020, stride := 0x40, count := 128, w1c := 0xC0 },
  { name := "GAT_HOLD_ADV", perPort := true, off := 0x1024, stride := 0x40, count := 128, rw := 0xFFFF, prv := all32 },
  { name := "GAT_CHANGE", perPort := true, off := 0x1028, stride := 0x40, count := 128, n2 := 3 },
  { name := "GAT_CNT", perPort := true, off := 0x1034, stride := 0x40, count := 128, n2 := 2 } ]

/-! ### RWE and FRE (R334) -/

def regsRwe : List RegDesc := [
  { name := "RWE_ROM_ID", off := 0x8000, reset := 0x00930304 },
  { name := "RWE_CTL", off := 0x8004, reset := 0x40, rw := 0xFF, prv := all32 },
  { name := "RWE_BANK", off := 0x8008, w1c := 0x18, sec := all32, act := .rweBank },
  { name := "RWE_STAT", off := 0x800C },
  { name := "RWE_PATCH_ADDR", off := 0x8010, rw := 0x100FF, sec := all32, act := .rwePatchAddr },
  { name := "RWE_PATCH_DATA", off := 0x8020, count := 6, rw := all32, sec := all32, act := .rwePatchData },
  { name := "RWE_PORT_PROF", perPort := true, off := 0x8040, count := 8, rst := .ringProf, rw := 0xFF, w1c := 0x100, prv := all32,
    act := .keep 2 },
  { name := "RWE_MATCH_ENT", off := 0x8100, count := 32, rw := 0x80FF0FFF, sec := all32, act := .keep 6 },
  { name := "RWE_PROF_ENT", off := 0x8200, count := 32, rw := 0x80FF1FFF, sec := all32, act := .keep 7 },
  { name := "RWE_CNT_LO", off := 0x8300, stride := 8, count := 6, rd := .lo64 },
  { name := "RWE_CNT_HI", off := 0x8304, stride := 8, count := 6, rd := .hi64 } ]

def regsFre : List RegDesc := [
  { name := "FRE_CAPS", off := 0x0000, reset := 0x40001000, prv := all32 },
  { name := "FRE_DUP_CFG", off := 0x0010, reset := 0x190, rw := 0xFFFF, prv := all32 },
  { name := "FRE_DUP_SEED", off := 0x0014, reset := 0xFFFFFFFF, rw := all32, prv := all32, act := .freDupSeed },
  { name := "FRE_DUP_STAT", off := 0x0018 },
  { name := "FRE_OWN_MAC_LO", off := 0x0040, stride := 8, count := 4, rw := all32, prv := all32 },
  { name := "FRE_OWN_MAC_HI", off := 0x0044, stride := 8, count := 4, rw := 0x8000FFFF, prv := all32 },
  { name := "FRE_PORT_CFG", perPort := true, off := 0x1000, count := 128, reset := 0x10000000, rw := 0x1FFFCFFF, prv := all32,
    act := .keep 0 },
  { name := "FRE_CNT", off := 0x2000, count := 5 } ]

/-! ### FIO (R358) -/

def regsFio : List RegDesc :=
  [ { name := "FIO_CAPS", off := 0x0000, reset := 0x40081020, prv := all32 },
    { name := "FIO_FI_STAT", off := 0x0010 },
    { name := "FIO_FI_RAW", off := 0x0014, prv := all32 },
    { name := "FIO_FO_STAT", off := 0x0018, w1c := 0xFFFF0000 },
    { name := "FIO_FO_FORCE_EN", off := 0x001C, rw := 0xFFFF, sec := all32, act := .foForceEn },
    { name := "FIO_FO_FORCE_VAL", off := 0x0020, rw := 0xFFFF, sec := all32, act := .foForceVal },
    { name := "FIO_EVT_ETYPE", off := 0x0024, reset := 0x88B5, rw := 0xFFFF, prv := all32, act := .fioEtype },
    { name := "FIO_SRC_MAC_LO", off := 0x0028, rst := .macLo, rw := all32, prv := all32 },
    { name := "FIO_SRC_MAC_HI", off := 0x002C, rst := .macHi, rw := 0xFFFF, prv := all32 },
    { name := "FIO_UTC_OFF", off := 0x0030, rw := 0x8000FFFF, prv := all32 } ] ++
  ringRegs 0x0040 8 all32 ++
  [ { name := "FIO_FI_CFG", off := 0x0100, count := 32, reset := 0x00E30D40, rw := 0xFFFFFF, prv := all32, act := .keep 9 },
    { name := "FIO_FI_COUNT", off := 0x0200, count := 32, prv := all32 },
    { name := "FIO_FO_CFG", off := 0x0300, count := 16, reset := 0x080186A0, rw := 0x1FFFFFFF, sec := all32,
      act := .keep 8 },
    { name := "FIO_CNT", off := 0x0400, count := 7 } ]

/-! ### CAS (R384) -/

def regsCas : List RegDesc := [
  { name := "CAS_CAPS", off := 0x0000, reset := 0x01000206 },
  { name := "CAS_CFG", off := 0x0004, reset := 0x2A0, rw := 0xFFFF03FF, prv := all32, act := .casCfg },
  { name := "CAS_STAT", off := 0x0008, w1c := 0x180 },
  { name := "CAS_DEV_ID", off := 0x000C, rw := 0xFFFFF, prv := all32, act := .casDevId },
  { name := "CAS_ETYPE", off := 0x0010, reset := 0x9C2D, rw := 0xFFFF, prv := all32, act := .casEtype },
  { name := "CAS_CTRL_DA_LO", off := 0x0014, reset := 0x4E000002, rw := all32, prv := all32 },
  { name := "CAS_CTRL_DA_HI", off := 0x0018, reset := 0x034D, rw := 0xFFFF, prv := all32 },
  { name := "CAS_TIMING", off := 0x001C, reset := 0x000500C8, rw := 0xFFFFF, prv := all32, act := .casTiming },
  { name := "CAS_BUDGET", off := 0x0020, count := 2, rw := all32, prv := all32 },
  { name := "CAS_PORT_CFG", perPort := true, off := 0x1000, count := 256, reset := 4, rw := 0x7, prv := all32, act := .keep 3 },
  { name := "CAS_CNT", off := 0x2000, count := 8 } ]

/-! ### HBM (R470) -/

def regsHbm : List RegDesc := [
  { name := "HBM_CAPS", off := 0x0000, reset := 0x10 },
  { name := "HBM_STAT", off := 0x0004 },
  { name := "HBM_TRAIN_STAT", off := 0x0008 },
  { name := "HBM_RETIRE_STAT", off := 0x0010 },
  { name := "HBM_CNT", off := 0x0020, count := 2 } ]

/-! ### SEC (R535) -/

def regsSec : List RegDesc := [
  { name := "SEC_STAT", off := 0x0000, rd := .secStat },
  { name := "SEC_CFG", off := 0x0004, reset := 1, rw := 1, sec := all32, act := .secCfg },
  { name := "SEC_DBG_REQ", off := 0x0008, act := .secDbgReq },
  { name := "SEC_DBG_NONCE", off := 0x0020, count := 8 },
  { name := "SEC_CNT", off := 0x0040, count := 2 } ]

/-! ### Blocks and addresses (R419, R420) -/

def regsGlen : List RegDesc := regsGln ++ regsEmt ++ regsLpm ++ regsTcm ++ regsStm ++ regsPol

/-- The registers of a block. -/
def blockRegs : Blk → List RegDesc
  | .glb => regsGlb
  | .mbx => regsMbx
  | .fcl => regsFcl
  | .pmc => regsPmc
  | .tim => regsTim
  | .pwi => regsPwi
  | .col => regsCol
  | .fio => regsFio
  | .cas => regsCas
  | .sec => regsSec
  | .pip _ => regsPip ++ regsPrs ++ regsRwe
  | .gln _ => regsGlen
  | .sch _ => regsSch
  | .gat _ => regsGat
  | .bpm _ => regsBpm
  | .fre _ => regsFre
  | .pg _ => regsPg
  | .hbm _ => regsHbm
  | .sad _ => regsSad
  | .win _ => regsWin

/-- The base address of a block's range. -/
def dieBase (d : Nat) : Nat := 0x01000000 * (d + 1)
def pipBase (n : Nat) : Nat :=
  if n < 32 then dieBase (n / 16) + 0x10000 * (n % 16) else dieBase (n - 32) + 0x100000
def glnBase (g : Nat) : Nat := dieBase (g / 4) + 0x200000 + 0x80000 * (g % 4)
def schBase (d : Nat) : Nat := dieBase d + 0x600000
def gatBase (d : Nat) : Nat := dieBase d + 0x700000
def bpmBase (d : Nat) : Nat := dieBase d + 0x780000
def freBase (d : Nat) : Nat := dieBase d + 0x7C0000
def pgBase (n : Nat) : Nat := dieBase (n / 16) + 0x800000 + 0x10000 * (n % 16)
def hbmBase (d : Nat) : Nat := dieBase d + 0xA00000
def sadBase (d : Nat) : Nat := dieBase d + 0xB00000
def winBase (w : Nat) : Nat := 0x03000000 + 0x1000 * w
def glbBase : Nat := 0x0
def mbxBase : Nat := 0x10000
def fclBase : Nat := 0x20000
def pmcBase : Nat := 0x30000
def timBase : Nat := 0x40000
def pwiBase : Nat := 0x50000
def colBase : Nat := 0x60000
def fioBase : Nat := 0x70000
def casBase : Nat := 0x80000
def secBase : Nat := 0x90000

/-- The block and the offset within it that a die-relative address names (R420). -/
def decodeDie (d r : Nat) : Option (Blk × Nat) :=
  if r < 0x110000 then
    some (.pip (if r / 0x10000 = 16 then 32 + d else 16 * d + r / 0x10000), r % 0x10000)
  else if r < 0x200000 then none
  else if r < 0x400000 then some (.gln (4 * d + (r - 0x200000) / 0x80000), (r - 0x200000) % 0x80000)
  else if r < 0x600000 then none
  else if r < 0x700000 then some (.sch d, r - 0x600000)
  else if r < 0x780000 then some (.gat d, r - 0x700000)
  else if r < 0x7C0000 then some (.bpm d, r - 0x780000)
  else if r < 0x800000 then some (.fre d, r - 0x7C0000)
  else if r < 0x900000 then some (.pg (16 * d + (r - 0x800000) / 0x10000), (r - 0x800000) % 0x10000)
  else if r < 0xA00000 then none
  else if r < 0xB00000 then some (.hbm d, r - 0xA00000)
  else if r < 0xC00000 then some (.sad d, r - 0xB00000)
  else none

/-- The block and the offset within it that a BAR0 address names; none outside the map (R419, R420). -/
def decodeAddr (a : Nat) : Option (Blk × Nat) :=
  if a < 0x10000 then some (.glb, a)
  else if a < 0xA0000 then
    let b : Blk := match a / 0x10000 with
      | 1 => .mbx | 2 => .fcl | 3 => .pmc | 4 => .tim | 5 => .pwi | 6 => .col | 7 => .fio | 8 => .cas | _ => .sec
    some (b, a % 0x10000)
  else if a < 0x01000000 then none
  else if a < 0x02000000 then decodeDie 0 (a - 0x01000000)
  else if a < 0x03000000 then decodeDie 1 (a - 0x02000000)
  else if a < 0x03004000 then some (.win ((a - 0x03000000) / 0x1000), a % 0x1000)
  else none

/-- A row of a register table covers an offset: its instance indices. -/
def RegDesc.at? (d : RegDesc) (off : Nat) : Option (Nat × Nat) :=
  if off < d.off then none else
    let r := off - d.off
    let i := r / d.stride
    let q := r % d.stride
    if i < d.count ∧ q % d.st2 = 0 ∧ q / d.st2 < d.n2 then some (i, q / d.st2) else none

/-- The row of a block's table that lists an offset, with the instance indices. -/
def findReg : List RegDesc → Nat → Option (RegDesc × Nat × Nat)
  | [], _ => none
  | d :: ds, off => match d.at? off with
    | some (i, j) => some (d, i, j)
    | none => findReg ds off

/-- The register at a BAR0 address. -/
def regAt (a : Nat) : Option (Blk × RegDesc × Nat × Nat) :=
  match decodeAddr a with
  | none => none
  | some (b, off) => (findReg (blockRegs b) off).map (fun p => (b, p.1, p.2.1, p.2.2))

/-- The reset value of instance i of a register. -/
def resetOfInst (b : Blk) (d : RegDesc) (i : Nat) : Word :=
  match d.rst, b with
  | .fixed, _ => BitVec.ofNat 32 d.reset
  | .glnCaps, .gln g => BitVec.ofNat 32 (d.reset + 0x01000000 * g)
  | .hashFn, .gln g => BitVec.ofNat 32 (2 * g)
  | .macCaps, .pg n => BitVec.ofNat 32 (d.reset + 0x100 * n)
  | .pipCtl, .pip n => if n < 32 then 0 else 2
  | .poolCfg, _ => BitVec.ofNat 32 (if i = 2 then 0x3000 else 0x1000)
  | .srcCfg, _ => BitVec.ofNat 32 (srcCfgReset i)
  | .nbrMask, _ => BitVec.ofNat 32 (nbrMaskReset (i / 4) / 2 ^ (32 * (i % 4)))
  | .glbRev, _ => BitVec.ofNat 32 (d.reset + 0x100 * Config.gradeFuse)
  | .serialLo, _ => Config.serialLo
  | .serialHi, _ => Config.serialHi
  | .macLo, _ => BitVec.ofNat 32 Config.baseMac
  | .macHi, _ => BitVec.ofNat 32 (Config.baseMac / 2 ^ 32)
  | .colCfg, _ => BitVec.ofNat 32 (cellCfgReset i)
  | .colStat, _ => BitVec.ofNat 32 (cellStatReset i)
  | .schPortCfg, _ => BitVec.ofNat 32 (d.reset + i)
  | .ringProf, .pip n => if (n = 0 ∨ n = 16) ∧ i = 7 then 5 else 0
  | _, _ => BitVec.ofNat 32 d.reset

/-- The reset value of the register at an address; an address that lists no register reads 0. -/
def resetOf (a : Nat) : Word :=
  match regAt a with
  | none => 0
  | some (b, d, i, _) => resetOfInst b d i

end Sys2Proof.Machine
end

