-- ==== Sys2Proof/Machine/Tables.lean ====
section
/-! DEFINITION. The sparse tables of the machine and the two operations over them. A table is a list of keys
with strictly rising keys in which no record equals the unwritten one, so equal tables are equal data. -/

namespace Sys2Proof.Machine
open Sys2Proof

/-- The record at key `k`, `d` where the table lists none. -/
def tget {α : Type} (d : α) : Sparse α → Nat → α
  | [], _ => d
  | (j, v) :: rest, k => if j = k then v else tget d rest k

/-- Key `k` taken out of a table. -/
def tdrop {α : Type} (m : Sparse α) (k : Nat) : Sparse α := m.filter (fun q => q.1 != k)

/-- Key `k` put into a table with the record `x`. -/
def tput {α : Type} : Sparse α → Nat → α → Sparse α
  | [], k, x => [(k, x)]
  | (j, v) :: rest, k, x =>
    if j = k then (k, x) :: rest else if k < j then (k, x) :: (j, v) :: rest else (j, v) :: tput rest k x

/-- A write of `x` at key `k`: a record equal to the unwritten one leaves the list. -/
def tset {α : Type} [DecidableEq α] (d : α) (m : Sparse α) (k : Nat) (x : α) : Sparse α :=
  if x = d then tdrop m k else tput m k x

/-- A record changed in place. -/
def tmod {α : Type} [DecidableEq α] (d : α) (m : Sparse α) (k : Nat) (f : α → α) : Sparse α :=
  tset d m k (f (tget d m k))

/-- The keys of a table strictly rise from above `lo`, and no listed record is the unwritten one. -/
def risesFrom {α : Type} [DecidableEq α] (d : Nat → α) : Option Nat → Sparse α → Bool
  | _, [] => true
  | lo, (j, v) :: rest =>
    (match lo with | none => true | some l => decide (l < j)) && !(decide (v = d j)) && risesFrom d (some j) rest

/-- The canonical form of a table whose unwritten record is `d`. -/
def canonical {α : Type} [DecidableEq α] (d : Nat → α) (m : Sparse α) : Bool := risesFrom d none m

/-- A composite key: unit `u`, index `i` below 2^32. -/
def key (u i : Nat) : Nat := u * 2 ^ 32 + i

/-- The records of a table whose unit is `u`, with their index. -/
def ofUnit {α : Type} (m : Sparse α) (u : Nat) : Sparse α :=
  (m.filter (fun p => p.1 / 2 ^ 32 == u)).map (fun p => (p.1 % 2 ^ 32, p.2))

/-- A table without the records of unit `u`. -/
def clearUnit {α : Type} (m : Sparse α) (u : Nat) : Sparse α := m.filter (fun p => p.1 / 2 ^ 32 != u)

/-- Element `i` of a list replaced; a list that has no element `i` is unchanged. -/
def lset {α : Type} (l : List α) (i : Nat) (x : α) : List α := l.set i x

/-- The first key whose record meets `p`. -/
def tfind {α : Type} (m : Sparse α) (p : Nat → α → Bool) : Option (Nat × α) := m.find? (fun q => p q.1 q.2)

end Sys2Proof.Machine
end

