-- ==== Sys2Proof/Machine/Ops.lean ====
section
/-! DEFINITION. The operations that every family of commands is written over: registers in force and staged, counters,
fault raises, interrupts, record rings, access budgets, time, and the ports. -/

namespace Sys2Proof.Machine
open Sys2Proof

/-! ### Registers -/

/-- The pipeline that an index reaches while a spare replaces another pipeline (R6, R421): the replaced pipeline's
index reaches the spare, and block 16 of the die reaches the replaced pipeline. -/
def physPip (s : State) (n : Nat) : Nat :=
  if n < 32 then
    if s.bus.spareOf.getD (n / 16) 0 = n % 16 + 1 then 32 + n / 16 else n
  else
    match s.bus.spareOf.getD (n - 32) 0 with
    | 0 => n
    | k + 1 => if k < 16 then 16 * (n - 32) + k else n

/-- The register that an address reaches (R421). -/
def physAddr (s : State) (a : Nat) : Nat :=
  match decodeAddr a with
  | some (.pip n, off) => pipBase (physPip s n) + off
  | _ => a

/-- The value in force of the register at an address. -/
def rd (s : State) (a : Nat) : Word := tget (resetOf (physAddr s a)) s.regs (physAddr s a)

/-- A register given a value. -/
def wr (a : Nat) (v : Word) (s : State) : State :=
  { s with regs := tset (resetOf (physAddr s a)) s.regs (physAddr s a) v }

/-- A field of a register, and a register with one field changed. -/
def rdF (s : State) (a lo n : Nat) : Nat := fld (rd s a) lo n
def rdBit (s : State) (a i : Nat) : Bool := bit (rd s a) i
def wrF (a lo n v : Nat) (s : State) : State := wr a (setFld (rd s a) lo n v) s
def wrBit (a i : Nat) (b : Bool) (s : State) : State := wr a (setBit (rd s a) i b) s

/-- A register whose fields of type RW are those of `m`: a write changes them alone. -/
def wrM (a m : Nat) (v : Word) (s : State) : State := wr a ((rd s a &&& ~~~(wd m)) ||| (v &&& wd m)) s

/-- A 32-bit counter that wraps, rising by `k` (R495). -/
def incBy (a k : Nat) (s : State) : State := wr a (rd s a + wd k) s
def inc (a : Nat) (s : State) : State := incBy a 1 s

/-- A field that counts and saturates at its width. -/
def incSat (a lo n : Nat) (s : State) : State := wrF a lo n (satAdd (2 ^ n - 1) (rdF s a lo n) 1) s

/-- A 64-bit counter in two registers, low word first, changed by a signed amount (R495, R510). -/
def add64 (a : Nat) (k : Int) (s : State) : State :=
  let v := unsgn 64 ((w64 (rd s a) (rd s (a + 4)) : Int) + k)
  wr (a + 4) (hiW v) (wr a (loW v) s)

/-- The staged copy of a staged register, which is the value in force where nothing has been staged (R431). -/
def rdStg (s : State) (a : Nat) : Word := (tget none s.bus.staged (physAddr s a)).getD (rd s a)

/-- A write to a staged copy. -/
def wrStg (a : Nat) (v : Word) (s : State) : State :=
  { s with bus := { s.bus with staged := tset none s.bus.staged (physAddr s a) (some v),
                               badStg := s.bus.badStg.filter (fun x => x != physAddr s a) } }

/-- A staged copy written, its reserved and RO bits kept. -/
def stgM (a m : Nat) (v : Word) (s : State) : State := wrStg a ((rdStg s a &&& ~~~(wd m)) ||| (v &&& wd m)) s

/-- Fields of a staged copy. -/
def stgF (s : State) (a lo n : Nat) : Nat := fld (rdStg s a) lo n
def stgBit (s : State) (a i : Nat) : Bool := bit (rdStg s a) i

/-- Every staged value of a group taken into force (R431). -/
def commitStaged (p : Nat → Bool) (s : State) : State :=
  let s' := s.bus.staged.foldl (fun t q => match q.2 with
    | some v => if p q.1 then { t with regs := tset (resetOf q.1) t.regs q.1 v } else t
    | none => t) s
  { s' with bus := { s'.bus with staged := s.bus.staged.filter (fun q => !p q.1) } }

/-- A group's staged values copied into its armed copy (R433). -/
def armStaged (p : Nat → Bool) (s : State) : State :=
  let mine := s.bus.staged.filter (fun q => p q.1)
  { s with bus := { s.bus with
      armed := mine.foldl (fun m q => tset none m q.1 q.2) (s.bus.armed.filter (fun q => !p q.1)) } }

/-- A group's armed copy taken into force. -/
def applyArmed (p : Nat → Bool) (s : State) : State :=
  let s' := s.bus.armed.foldl (fun t q => match q.2 with
    | some v => if p q.1 then { t with regs := tset (resetOf q.1) t.regs q.1 v } else t
    | none => t) s
  { s' with bus := { s'.bus with armed := s.bus.armed.filter (fun q => !p q.1) } }

/-- A group's staged copies returned to the values in force. -/
def discardStaged (p : Nat → Bool) (s : State) : State :=
  { s with bus := { s.bus with staged := s.bus.staged.filter (fun q => !p q.1),
                               badStg := s.bus.badStg.filter (fun a => !p a) } }

/-- Something of the group is staged: a commit without it has no effect (R431). -/
def anyStaged (p : Nat → Bool) (s : State) : Bool := s.bus.staged.any (fun q => p q.1)

/-- A staged copy of the group has bad parity (R430). -/
def stagedBad (p : Nat → Bool) (s : State) : Bool := s.bus.badStg.any p

/-- The 1 ms rule's timer stopped for the group of a commit register, and started or kept running by a write (R432). -/
def closeGroup (commit : Nat) (s : State) : State :=
  { s with bus := { s.bus with open_ := tset none s.bus.open_ commit none } }
def openGroup (commit master : Nat) (s : State) : State :=
  let u := match tget none s.bus.open_ commit with
    | some u => { u with lastMaster := master }
    | none => ⟨false, master, s.tim.cnt⟩
  { s with bus := { s.bus with open_ := tset none s.bus.open_ commit (some u) } }

/-- A commit of a staged group (R431): refused with the lowest REASON that fails, 7 for a staged copy with bad parity
(R430), or taken, which also ends the group's uncommitted period. -/
def commitGroup (stat commit : Nat) (p : Nat → Bool) (fails : List Nat) (take : State → State) (s : State) : State :=
  match (fails ++ (if stagedBad p s then [7] else [])).min? with
  | none => closeGroup commit (wr stat 1 (take s))
  | some r => wr stat (wd (2 + 4 * r)) s

/-- A discard of a staged group. -/
def discardGroup (stat commit : Nat) (p : Nat → Bool) (s : State) : State :=
  closeGroup commit (wr stat 3 (discardStaged p s))

/-- The REASON with which the last commit of a group was refused. -/
def refusedWith (s : State) (stat : Nat) : Option Nat := if rdF s stat 0 2 = 2 then some (rdF s stat 2 3) else none

/-! ### Free values, faults, what leaves the block -/

/-- A value the spec leaves open: the next free value (the state's counter only tells one from the next). -/
def freeW (s : State) : Word × State := (Config.freeWord s.freeCtr, { s with freeCtr := s.freeCtr + 1 })

/-- A fault source raised toward the collector with its address and unit; MASTER 7 and ACCESS 0, as every source that
is no register access has them (R471, R473). -/
def raise (src addr kind idx : Nat) (s : State) : State :=
  { s with fcl := { s.fcl with raised := s.fcl.raised ++ [⟨src, addr, kind, idx, 7, 0, false⟩] } }

/-- A fault source raised by a register access of a master (R473). -/
def raiseAcc (src addr master access : Nat) (s : State) : State :=
  { s with fcl := { s.fcl with raised := s.fcl.raised ++ [⟨src, addr, 0, 0, master, access, false⟩] } }

/-- Something handed to the outside. -/
def emit (o : Out) (s : State) : State := { s with out := s.out ++ [o] }

/-- A counter that lies in no register, wrapping at its width (R495, R507). -/
def cntKey (kind idx pos : Nat) : Nat := (kind * 2 ^ 32 + idx) * 64 + pos
def bump (kind idx pos width k : Nat) (s : State) : State :=
  { s with cnt := tset 0 s.cnt (cntKey kind idx pos) ((tget 0 s.cnt (cntKey kind idx pos) + k) % 2 ^ width) }
def cntOf (s : State) (kind idx pos : Nat) : Nat := tget 0 s.cnt (cntKey kind idx pos)

/-! ### Time -/

/-- A nanosecond in the units of `Tim.now`. -/
abbrev tick : Nat := 2 ^ 48

/-- Nanoseconds of network time since the PTP epoch, its seconds and its nanoseconds fields (R280). -/
def netNs (s : State) : Nat := s.tim.now / tick
def netSec (s : State) : Nat := netNs s / 10 ^ 9
def netNanos (s : State) : Nat := netNs s % 10 ^ 9

/-- TIM_STAT.VALID. -/
def timValid (s : State) : Bool := rdBit s (timBase + 0x0004) 0

/-! ### Ports (R4, R5) -/

def portRec (s : State) (p : Nat) : Option PortRec := tget none s.ports.ports p
def portExists (s : State) (p : Nat) : Bool := (portRec s p).isSome
def pgOf (p : Nat) : Nat := p / 8
def glenOf (p : Nat) : Nat := p / 32
def dieOf (p : Nat) : Nat := p / 128

/-- The port that holds a lane. -/
def portOfLane (s : State) (l : Nat) : Option Nat :=
  (List.range 8).foldl (fun acc i =>
    let p := l / 8 * 8 + i
    match portRec s p with
    | some r => if p ≤ l ∧ l < p + r.width then some p else acc
    | none => acc) none

/-- A port number whose lane belongs to a wider port: it is unused while that port exists (R5). -/
def portUnused (s : State) (p : Nat) : Bool := (portOfLane s p).any (fun q => q != p)

/-- A port's rate in Mb/s: lane rate times width (R415). -/
def portRate (r : PortRec) : Nat :=
  r.width * (match r.rate with | 0 => 10000 | 1 => 25000 | 2 => 50000 | _ => 100000)

/-- The die that holds a glen, and the registers of a port in its glen. -/
def dieOfGlen (g : Nat) : Nat := g / 4
def emtPortCfg (p : Nat) : Nat := glnBase (glenOf p) + 0x10080 + 4 * (p % 32)
def lpmPortVrf (p : Nat) : Nat := glnBase (glenOf p) + 0x20080 + 4 * (p % 32)
def stmPortCfg (p : Nat) : Nat := glnBase (glenOf p) + 0x40080 + 4 * (p % 32)

/-! ### Units (R482, R488) -/

def unitKey (kind idx : Nat) : Nat := key kind idx
def unitRest : UnitSt := ⟨0, false, false, false, 0, 0⟩
def unitOf (s : State) (kind idx : Nat) : UnitSt := tget unitRest s.fcl.units (unitKey kind idx)
def setUnit (kind idx : Nat) (u : UnitSt) (s : State) : State :=
  { s with fcl := { s.fcl with units := tset unitRest s.fcl.units (unitKey kind idx) u } }

/-- A register block's index: BAR0 address [25:16] of its base (R482). -/
def blockIndex (a : Nat) : Nat :=
  match decodeAddr a with
  | some (_, off) => (a - off) / 65536
  | none => a / 65536

/-- The index's pipeline is being replaced by its die's spare (R6). -/
def spareServes (s : State) (n : Nat) : Bool := n < 32 && s.bus.spareOf.getD (n / 16) 0 == n % 16 + 1

/-- A unit is out of service: isolated, under test, replaced by a spare, or held in reset (R475). -/
def outOfService (s : State) (kind idx : Nat) : Bool :=
  let u := unitOf s kind idx
  decide (2 ≤ u.state) || u.inReset

/-! ### Ports that forward (R444, R453, R454, R482, R487, R490) -/

/-- The Primrose ring ports, and whether the Primrose plan has one. -/
def ringPort (p : Nat) : Bool := p == 7 || p == 135
def primrosePort (s : State) (p : Nat) : Bool := ringPort p && !s.start.handedOver

/-- A port held down: in reset or without rails; after a drop to Primrose; at level 5; with its port group or, while no spare can serve it, its
pipeline out of service; with the spare that serves it; for a PLAN 1 test of its glen; a ring port whose BIST failed. -/
def portHeld (s : State) (p : Nat) : Bool :=
  let n := pgOf p
  s.start.inReset || !s.start.rails || (s.start.dropped && !ringPort p) || s.fcl.hold == 5 || outOfService s 4 n ||
  (outOfService s 1 n && !spareServes s n && !s.fcl.rehome.contains n && !(unitOf s 1 n).inReset) ||
  (spareServes s n && outOfService s 1 (32 + n / 16)) ||
  ((unitOf s 2 (glenOf p)).state == 3 && (unitOf s 2 (glenOf p)).plan == 1) ||
  (ringPort p && s.start.bistFail)

def portUp (s : State) (p : Nat) : Bool :=
  match portRec s p with
  | some r => r.admin && r.link && !portHeld s p
  | none => false

/-- The port group's clock runs: without it no segment moves either way (R61, R70). -/
def pgRuns (s : State) (p : Nat) : Bool := !s.col.stopped.contains (pgOf p)

/-! ### Access budgets (R26 to R32) -/

/-- Budgeted memories: memory m of glen g is 3 g + m, the Plain of die d 24 + d, the scheduler's state memory 26 + d. -/
def glenMem (g m : Nat) : Nat := 3 * g + m
def plainMem (d : Nat) : Nat := 24 + d
def schMem (d : Nat) : Nat := 26 + d

/-- An activity's slots per period in force: updates 0, learning 1, scrub 2, dump 3, debug 4 of a glen (R146); spill 0,
DMA 1, mirror 2 of the Plain (R240); configuration 0, sampling 1, dump 2 of the scheduler (R273). -/
def budgetOf (s : State) (u a : Nat) : Nat :=
  if u < 24 then
    let b := glnBase (u / 3)
    match a with
    | 0 => rdF s (b + 0x100) 0 15
    | 1 => rdF s (b + 0x100) 16 15
    | 2 => rdF s (b + 0x104) 0 15
    | 3 => rdF s (b + 0x104) 16 15
    | _ => rdF s (b + 0x108) 0 15
  else if u < 26 then
    let b := bpmBase (u - 24)
    match a with
    | 0 => rdF s (b + 0x40) 0 15
    | 1 => rdF s (b + 0x40) 16 15
    | _ => rdF s (b + 0x44) 0 15
  else
    let b := schBase (u - 26)
    match a with
    | 0 => rdF s (b + 0x40) 0 15
    | 1 => rdF s (b + 0x40) 16 15
    | _ => rdF s (b + 0x44) 0 15

def budKey (u a : Nat) : Nat := u * 8 + a
def usedOf (s : State) (u a : Nat) : Nat := tget 0 s.bud.used (budKey u a)

/-- The activity still has a slot in the present period (R27, R30).  An operation of several slots starts on one and
takes the rest from the following periods when it runs out (R31). -/
def hasSlot (s : State) (u a : Nat) : Bool := decide (usedOf s u a < budgetOf s u a)

/-- Counters of a memory's budget use (R507): pos 0 slots of its work, 1 + a granted to activity a, 8 + a requests of it
that waited, 16 the longest wait in periods; 24 + a the periods a request of it has waited, 32 + a the last of them. -/
abbrev kBudget : Nat := 21

/-- Slots charged to an activity, and counted for the budget-use dump record: a request that waited has got them. -/
def charge (u a n : Nat) (s : State) : State :=
  let s1 := bump kBudget u (1 + a) 32 n
    { s with bud := { s.bud with used := tset 0 s.bud.used (budKey u a) (usedOf s u a + n) } }
  { s1 with cnt := tset 0 s1.cnt (cntKey kBudget u (24 + a)) 0 }

/-- A request that finds its activity's budget spent waits; each period is counted once. -/
def waited (u a : Nat) (s : State) : State :=
  let per := s.tim.cnt / 1024 + 1
  if cntOf s kBudget u (32 + a) = per then s
  else
    let n := cntOf s kBudget u (24 + a) + 1
    let s1 := if n = 1 then bump kBudget u (8 + a) 32 1 s else s
    let top := max n (cntOf s kBudget u 16)
    let c1 := tset 0 (tset 0 s1.cnt (cntKey kBudget u (24 + a)) n) (cntKey kBudget u (32 + a)) per
    { s1 with cnt := tset 0 c1 (cntKey kBudget u 16) top }

/-! ### Rows with bad parity (R36, R148) -/

/-- SPARE_EXHAUSTED with what has been retired and the capacity lost (R148, R183, R241, R275): the spec does not lay ADDR
down; this model's is [19:0] the row, page, node or slice, [31:20] the capacity.  DESIGN CHOICE (log entry 70) -/
def raiseLost (what lost kind idx : Nat) (s : State) : State := raise srcSpareExhausted (what + lost * 2 ^ 20) kind idx s

/-- A row flagged under R36.  The third flag remaps it to a spare row of its macro, or retires it when none is left. -/
def flagRow (cls mac row spares : Nat) (retire : State → State) (s : State) : State :=
  let k := key cls (mac * 2 ^ 20 + row)
  let n := tget 0 s.bud.rowFlags k + 1
  if n < 3 then { s with bud := { s.bud with rowFlags := tset 0 s.bud.rowFlags k n } }
  else
    let used := tget 0 s.bud.sparesUsed (key cls mac)
    let s1 := { s with bud := { s.bud with rowFlags := tset 0 s.bud.rowFlags k 0 } }
    if used < spares then
      raise srcSpareRemap row 8 mac
        { s1 with bud := { s1.bud with sparesUsed := tset 0 s1.bud.sparesUsed (key cls mac) (used + 1) } }
    else retire s1

/-- Memory classes of `flagRow`: exact-match rows, prefix rows, rule memory, stream memory, scheduler state, gate
lists, rows of the Plain, overflow entries. -/
abbrev clsEm : Nat := 0
abbrev clsPfx : Nat := 1
abbrev clsRule : Nat := 2
abbrev clsStm : Nat := 3
abbrev clsSch : Nat := 4
abbrev clsGat : Nat := 5
abbrev clsPlain : Nat := 6
abbrev clsOvf : Nat := 7
abbrev clsCnt : Nat := 8

/-- A row flagged of a memory whose spare rows the spec does not count: with none left the row is retired, which
SPARE_EXHAUSTED reports (R36). -/
def flagSpare (cls mac row kind idx : Nat) (s : State) : State :=
  flagRow cls mac row (Config.rowSpares cls) (raise srcSpareExhausted row kind idx) s

/-! ### Record rings (R140, R141, R143, R502) -/

/-- The event ring's registers in the FIO block (R358). -/
abbrev fioEventRing : Nat := 0x0040

def ringRest : RingSt := ⟨none, false, false⟩
def ringSt (s : State) (b : Nat) : RingSt := tget ringRest s.rings b
def setRing (b : Nat) (r : RingSt) (s : State) : State := { s with rings := tset ringRest s.rings b r }

/-- The base register of a ring, and the rings that there are. -/
def ringBase : RingName → Nat
  | .learn g => glnBase g + 0x10100
  | .dump i => pmcBase + 0x200 + 0x20 * i
  | .queueSample d => pmcBase + 0x300 + 0x20 * d
  | .packetSample => pmcBase + 0x340
  | .event => fioBase + fioEventRing
  | .response m => mbxBase + 0x120 + 0x40 * m
def ringExists : RingName → Bool
  | .learn g => decide (g < 8)
  | .dump i => decide (i < 4)
  | .queueSample d => decide (d < 2)
  | .response m => decide (m < 2)
  | _ => true

/-- Records or blocks that a ring holds: `unit` × 2^SIZE. -/
def ringSize (s : State) (b unit : Nat) : Nat := unit * 2 ^ rdF s (b + 8) 2 4

/-- Units of a ring in use: PROD − CONS modulo 2^32. -/
def ringFill (s : State) (b : Nat) : Nat := (rd s (b + 0xC) - rd s (b + 0x10)).toNat

/-- A ring's interrupt: PF0's message for a host-owned ring, the MP's for an MP-owned one (R143). -/
def ringIrq (b : Nat) (s : State) : State :=
  setRing b { ringSt s b with lastIrq := some s.tim.cnt, advanced := false }
    (emit (if rdBit s (b + 8) 1 then .msix 0 b else .irqMp b) s)

/-- PROD has advanced: the interrupt at once, or moderated (R143). -/
def ringAdvance (b : Nat) (s : State) : State :=
  let due := match (ringSt s b).lastIrq with
    | none => true
    | some t => decide (rdF s (b + 8) 16 8 * 1000 ≤ s.tim.cnt - t)
  if due then ringIrq b s else setRing b { ringSt s b with advanced := true } s

/-- Where the record with an index lies: slot index mod ring size from the ring's base on, in units of `bytes` (R140). -/
def ringAddr (s : State) (b unit bytes i : Nat) : Nat := w64 (rd s b) (rd s (b + 4)) + i % ringSize s b unit * bytes

/-- A record of `n` units posted to a ring, in MP memory or in host memory as OWNER says: written and visible before PROD
advances past it, or lost when the ring has no room for it (R140, R141, R503).  The Bool says that it was written. -/
def ringPost (b unit n : Nat) (words : List Word) (s : State) : Bool × State :=
  if rdBit s (b + 8) 0 ∧ ringFill s b + n ≤ ringSize s b unit then
    let i := (rd s (b + 0xC)).toNat
    let s1 := emit (.ring b i (rdBit s (b + 8) 1) (ringAddr s b unit (4 * words.length / n) i) words) s
    let s2 := wr (b + 0xC) (rd s1 (b + 0xC) + wd n) s1
    (true, ringAdvance b (setRing b { ringSt s2 b with loss := false } s2))
  else (false, setRing b { ringSt s b with loss := true } s)

/-- A write of a ring's configuration register (R151): OWNER only while EN is 0, a SIZE above its codes dropped, CONS_BAD
cleared by a 1; EN from 0 to 1 sets PROD to CONS. -/
def ringCfgWrite (b szTop : Nat) (v : Word) (s : State) : State :=
  let old := rd s (b + 8)
  let size := if fld v 2 4 ≤ szTop then fld v 2 4 else fld old 2 4
  let owner := if bit old 0 then bit old 1 else bit v 1
  let bad := bit old 8 && !bit v 8
  let new := wd (b2n (bit v 0) + 2 * b2n owner + 4 * size + 256 * b2n bad + 2 ^ 16 * fld v 16 8)
  let s1 := wr (b + 8) new s
  if bit v 0 && !bit old 0 then wr (b + 0xC) (rd s1 (b + 0x10)) s1 else s1

/-- A write of a ring's CONS by its owner: dropped when PROD − CONS would exceed the ring, setting CONS_BAD (R141). -/
def ringConsWrite (b unit : Nat) (v : Word) (s : State) : State :=
  if ringSize s b unit < (rd s (b + 0xC) - v).toNat then wrBit (b + 8) 8 true s else wr (b + 0x10) v s

/-! ### Outcomes -/

/-- The command has its effect. -/
abbrev Out3 := Host.Outcome State Fault Refusal
def done (s : State) : Out3 := .next s

/-- A command whose operands must name something the spec has. -/
def needs (ok : Bool) (s : State) : Out3 := if ok then .next s else .fault .illFormed

end Sys2Proof.Machine
end

