-- ==== Sys2Proof/Machine/Cells.lean ====
section
/-! DEFINITION. The col cells themselves (R65 to R80): transfers, pulses, FIFO words and their pointers, clocks, and resets
of one side. -/

namespace Sys2Proof.Machine
open Sys2Proof

/-! ### Registers -/

def colStallPend (w : Nat) : Nat := colBase + 0x40 + 4 * w
def colOvfPend (w : Nat) : Nat := colBase + 0x80 + 4 * w
def domStat (d : Nat) : Nat := colBase + 0x100 + 4 * d
def cellCfg (c : Nat) : Nat := colBase + 0x1000 + 4 * c
def cellStat (c : Nat) : Nat := colBase + 0x2000 + 4 * c
def cellDisc (c : Nat) : Nat := colBase + 0x3000 + 4 * c
def cellXfer (c : Nat) : Nat := colBase + 0x4000 + 4 * c

def idleCell : ColCell := ⟨false, false, false, 0, 0, 0, 0, false, [], 0, 0, [], 0, 0, false, 0, 0, 0, false⟩
def cellOf (s : State) (c : Nat) : ColCell := tget idleCell s.col.cells c

/-- STATE: 2 partner absent, unless both sides are in reset together (R80), 3 in RESYNC, 4 stalled, 1 a transfer in
progress or words in it, 0 idle. -/
def cellState (x : ColCell) : Nat :=
  if x.rst ≠ 0 then (if x.both then 0 else 2)
  else if x.sync ≠ 0 then 3
  else if x.stalled then 4
  else if x.flag || x.fifo != [] then 1 else 0

/-- A cell changed, with its STATE. -/
def setCell (c : Nat) (x : ColCell) (s : State) : State :=
  wrF (cellStat c) 0 3 (cellState x) { s with col := { s.col with cells := tset idleCell s.col.cells c x } }

/-- Both sides of a cell work: none is in reset or awaits resynchronisation. -/
def joined (x : ColCell) : Bool := x.rst == 0 && x.sync == 0

/-- The clock of a side runs: a clockless side always does.  A cell whose two clocks run moves; while either is absent it
holds its state (R70). -/
def clockRuns (s : State) (d : Nat) : Bool := d == clockless || !s.col.stopped.contains d
def bothRun (s : State) (c : Nat) : Bool := clockRuns s (cellSrc c) && clockRuns s (cellDst c)

/-- Both clock bits of a cell (R82). -/
def cellClocks (c : Nat) (s : State) : State :=
  let on := fun d => d == clockless || rdBit s (domStat d) 0
  wrBit (cellStat c) 6 (on (cellSrc c)) (wrBit (cellStat c) 7 (on (cellDst c)) s)
def allClocks (d : Nat) (s : State) : State :=
  ((List.range cellCount).filter (fun c => cellSrc c == d || cellDst c == d)).foldl (fun t c => cellClocks c t) s

/-! ### Transfers (R65, R70, R72, R73) -/

/-- A transfer begins. -/
def begin_ (x : ColCell) (v now : Nat) : ColCell := { x with flag := true, captured := false, val := v, since := now, stalled := false }

/-- A value cell's source places a value.  It starts a transfer unless one is in progress; while the other side is absent
or in RESYNC it only has the value. -/
def transferStart (c v : Nat) (s : State) : State :=
  let x := cellOf s c
  if x.rst == 1 || x.rst == 3 || !clockRuns s (cellSrc c) then s
  else if !joined x then setCell c { x with cur := v } s
  else if x.flag then s
  else setCell c (begin_ { x with cur := v } v s.tim.cnt) s

/-- A pulse cell's accumulator overflows: OVF, its pending bit and COL_PULSE_LOST, until OVF is cleared (R73). -/
def pulseLost (c : Nat) (s : State) : State :=
  if rdBit s (cellStat c) 9 then s
  else raise srcColPulseLost c 0 0 (wrBit (colOvfPend (c / 32)) (c % 32) true (wrBit (cellStat c) 9 true s))

/-- A pulse reaches a pulse cell's source. -/
def pulseArrives (c : Nat) (s : State) : State :=
  let x := cellOf s c
  if !clockRuns s (cellSrc c) || x.rst == 1 || x.rst == 3 then s
  else if !x.flag && joined x then setCell c (begin_ { x with ovfIn := x.accOvf } 1 s.tim.cnt) s
  else if x.acc < 15 then setCell c { x with acc := x.acc + 1 } s
  else pulseLost c (setCell c { x with accOvf := true } s)

/-- The destination captures: a value, a count that adds to the receiver's, or a FIFO cell's write pointer. -/
def capture (c : Nat) (s : State) : State :=
  let x := cellOf s c
  if !joined x || !bothRun s c then s
  else if cellType c = cellF then setCell c { x with seen := x.fifo.length } s
  else if !x.flag || x.captured then s
  else inc (cellXfer c) (setCell c { x with captured := true, last := if cellType c = cellP then x.last + x.val else x.val } s)

/-- The words that a FIFO cell's source keeps are written into its free entries. -/
def fifoFill (c now : Nat) (x : ColCell) : ColCell :=
  let n := cellDepth c - x.fifo.length
  let f := x.fifo ++ x.kept.take n
  { x with fifo := f, kept := x.kept.drop n, since := if x.fifo = [] ∧ f ≠ [] then now else x.since,
           fullAt := if x.fifo.length < cellDepth c ∧ f.length = cellDepth c then now else x.fullAt }

/-- The source sees the acknowledge: a count in the accumulator starts the next transfer at once.  A FIFO cell's source
sees the read pointer, which frees the entries read. -/
def ackSeen (c : Nat) (s : State) : State :=
  let x := cellOf s c
  if !joined x || !bothRun s c then s
  else if cellType c = cellF then
    let y := { x with fifo := x.fifo.drop x.read, seen := x.seen - x.read, read := 0, stalled := x.stalled && x.read == 0 }
    setCell c (fifoFill c s.tim.cnt y) s
  else if !x.flag || !x.captured then s
  else if 0 < x.acc then setCell c (begin_ { x with ovfIn := x.accOvf, acc := 0 } x.acc s.tim.cnt) s
  else setCell c { x with flag := false, captured := false, ovfIn := false, stalled := false } s

/-- A FIFO cell's source writes a word into a free entry, or keeps it in its own block (R70, R76). -/
def fifoWrite (c w : Nat) (s : State) : State :=
  let x := cellOf s c
  if x.rst = 1 ∨ x.rst = 3 ∨ clockRuns s (cellSrc c) = false then s
  else
    let y := { x with kept := x.kept ++ [w] }
    setCell c (if joined x then fifoFill c s.tim.cnt y else y) s

/-- Its destination reads the oldest word whose write it has seen. -/
def fifoRead (c : Nat) (s : State) : State :=
  let x := cellOf s c
  if x.read < x.seen ∧ joined x = true ∧ bothRun s c = true then
    inc (cellXfer c) (setCell c { x with read := x.read + 1, last := x.fifo.getD x.read 0, since := s.tim.cnt,
                                         stalled := x.stalled && x.fifo.length == cellDepth c } s)
  else s

/-! ### Stalls (R71) -/

/-- More than `lim` µs have passed since a count; while domain 36 is stopped no count of State tells, and the row trusts its
sender (log entry 8). -/
def stalledFor (s : State) (lim since : Nat) : Bool := s.col.stopped.contains 36 || decide (lim * 1000 < s.tim.cnt - since)

/-- A cell whose transfer is in its acknowledge phase, that is full, or whose words nothing reads. -/
def stallHolds (s : State) (c lim : Nat) (x : ColCell) : Bool :=
  if cellType c = cellF then
    (x.fifo.length == cellDepth c && stalledFor s lim x.fullAt) || (x.fifo != [] && stalledFor s lim x.since)
  else x.flag && stalledFor s lim x.since

/-- Such a cell raises COL_STALL once STALL_TIME has passed, and once only. -/
def stallCheck (c : Nat) (s : State) : State :=
  let x := cellOf s c
  let lim := rdF s (cellCfg c) 0 16
  if stallHolds s c lim x && lim != 0 && !rdBit s (cellStat c) 8 then
    raise srcColStall c 0 0
      (wrBit (colStallPend (c / 32)) (c % 32) true (wrBit (cellStat c) 8 true (setCell c { x with stalled := true } s)))
  else s

/-! ### Reset of a side (R75 to R80) -/

/-- What the reset of a side takes with it: a source its flag, accumulator, value, and the words not yet visible or not yet
in the cell; a destination nothing that the source does not hold. -/
def sideLost (m : Nat) (x : ColCell) : ColCell :=
  if m = 1 then { x with flag := false, captured := false, ovfIn := false, val := 0, cur := 0, acc := 0, accOvf := false,
                         fifo := x.fifo.take x.seen, kept := [] }
  else x

/-- A side enters reset: the other side goes to PARTNER_ABSENT; with both in reset the cell is empty (R80). -/
def partnerReset (c : Nat) (ofSource : Bool) (s : State) : State :=
  let x := cellOf s c
  let m := if ofSource then 1 else 2
  if x.rst = 3 ∨ x.rst = m then s
  else if x.rst ≠ 0 ∨ (x.sync ≠ 0 ∧ x.sync ≠ m) then
    setCell c { idleCell with rst := x.rst ||| m, sync := if x.rst = 0 then x.sync else 0, both := true, rel := x.rel } s
  else setCell c { sideLost m x with rst := m, sync := 0, stalled := false } s

/-- A side is released once its clock runs, and comes up in RESYNC, or the cell comes up empty when both sides were in
reset. -/
def sideReleased (c : Nat) (ofSource : Bool) (s : State) : State :=
  let x := cellOf s c
  let m := if ofSource then 1 else 2
  if x.rst ≠ m ∧ x.rst ≠ 3 then s
  else if !clockRuns s (if ofSource then cellSrc c else cellDst c) then setCell c { x with rel := x.rel ||| m } s
  else if x.rst = 3 then setCell c { x with rst := 3 - m, rel := x.rel ^^^ (x.rel &&& m) } s
  else if x.both then setCell c idleCell s
  else setCell c { x with rst := 0, sync := m, rel := 0 } s

/-- The releases that waited for a domain's clock. -/
def releaseWaiting (d : Nat) (s : State) : State :=
  (List.range cellCount).foldl (fun t c =>
    let go := fun (m : Nat) (src : Bool) (u : State) => if (cellOf u c).rel &&& m = 0 then u else sideReleased c src u
    let t1 := if cellSrc c = d then go 1 true t else t
    if cellDst c = d then go 2 false t1 else t1) s

/-- COL_CELL_DISC rises by n and saturates. -/
def discard (c n : Nat) (s : State) : State := wr (cellDisc c) (wd (satAdd (2 ^ 32 - 1) (rd s (cellDisc c)).toNat n)) s

/-- What a resynchronisation discards (R76, R79): a surviving writer's words whose read it has not seen; a surviving reader's
whose write it has seen and that it has not read; the pulses in flight, acknowledged or not, and accumulated, of a cell whose
destination was reset.  DEDUCED (log entry 67) -/
def lostWords (c : Nat) (x : ColCell) : Nat :=
  if cellType c = cellF then (if x.sync = 2 then x.fifo.length else x.seen - x.read)
  else if cellType c = cellP ∧ x.sync = 2 then (if x.flag then x.val else 0) + x.acc
  else 0

/-- The cell afterwards: FIFO cells take up the words their source kept; a value cell delivers its source's present value,
which is its reset value where the source was reset (R78). -/
def resynced (c now : Nat) (x : ColCell) : ColCell :=
  let y := { x with sync := 0, stalled := false }
  if cellType c = cellF then fifoFill c now { y with fifo := [], read := 0, seen := 0 }
  else if cellType c = cellP then { idleCell with last := if x.sync = 2 then 0 else x.last }
  else begin_ y x.cur now

/-- A cell in RESYNC whose clocks run. -/
def canResync (s : State) (c : Nat) : Bool := (cellOf s c).rst == 0 && (cellOf s c).sync != 0 && bothRun s c

/-- Resynchronisation completes: what is lost is counted, RESYNC_SEEN set, COL_RESYNC raised. -/
def resync (c : Nat) (s : State) : State :=
  let x := cellOf s c
  if !canResync s c then s
  else raise srcColResync c 0 0 (wrBit (cellStat c) 10 true (setCell c (resynced c s.tim.cnt x) (discard c (lostWords c x) s)))

/-- The cells with a side in a domain, and whether it is the source. -/
def domainCells (d : Nat) : List (Nat × Bool) :=
  (List.range cellCount).flatMap (fun c => (if cellSrc c = d then [(c, true)] else []) ++ (if cellDst c = d then [(c, false)] else []))
def domainReset (d : Nat) (s : State) : State := (domainCells d).foldl (fun t q => partnerReset q.1 q.2 t) s
def domainReleased (d : Nat) (s : State) : State := (domainCells d).foldl (fun t q => sideReleased q.1 q.2 t) s

/-! ### Doorbells (R64, R74) -/

/-- The pulse cell that carries a mailbox's doorbell to the MP. -/
def doorbellCell (m : Nat) : Option Nat :=
  match m with
  | 0 => some 279
  | 1 => some 280
  | 3 => some 293
  | 4 => some 296
  | _ => none

/-- A doorbell that reaches the MP at once: one transfer of its cell. -/
def rung (m : Nat) (s : State) : State :=
  match doorbellCell m with
  | some c =>
    inc (cellXfer c) { s with col := { s.col with
      cells := tset idleCell s.col.cells c { cellOf s c with last := (cellOf s c).last + 1 } } }
  | none => s

/-- A doorbell while the MP's clock is stopped: its cell counts it. -/
def rings (m : Nat) (s : State) : State :=
  match doorbellCell m with
  | some c => pulseArrives c s
  | none => s

/-- The MP's clock returns: the doorbells counted meanwhile are delivered. -/
def ringsDelivered (s : State) : State :=
  [279, 280, 293, 296].foldl (fun t c => ackSeen c (capture c (ackSeen c (capture c t)))) s

end Sys2Proof.Machine
end

