-- ==== Sys2Proof/Machine/Shadow.lean ====
section
/-! DEFINITION. The configuration shadow (R405 to R407): what a write command changes in the tables that it restores is
recorded; entries learned by hardware, counters, status and buckets are not. -/

namespace Sys2Proof.Machine
open Sys2Proof

/-- A table's shadow after a change from `old` to `new`: the records that changed take their new value, those that went
are gone. -/
def tdiff {α : Type} [DecidableEq α] (old new sh : Sparse α) : Sparse α :=
  let gone := old.filter (fun q => !new.any (fun r => r.1 == q.1))
  let put := new.filter (fun q => !old.contains q)
  put.foldl (fun m q => tput m q.1 q.2) (gone.foldl (fun m q => tdrop m q.1) sh)

/-- The same of a set of records. -/
def ldiff {α : Type} [DecidableEq α] (old new sh : List α) : List α :=
  sh.filter (fun x => !(old.contains x && !new.contains x)) ++
    (new.filter (fun x => !old.contains x)).filter (fun x => !sh.contains x)

/-- The exact-match entries of a state, without their ages and places. -/
def emRecs (s : State) : List EmRec :=
  (s.glens.em.filter (fun q => q.2.valid)).map (fun q => ⟨q.1 / 2 ^ 32, q.2.table, q.2.key, q.2.action, q.2.isStatic⟩) ++
  (s.glens.ovf.filter (fun q => q.2.e.valid)).map
    (fun q => ⟨q.1 / 2 ^ 32, q.2.e.table, q.2.e.key, q.2.e.action, q.2.e.isStatic⟩)
def routeRecs (s : State) : List (Nat × Route) := s.glens.routes.flatMap (fun q => q.2.map (fun r => (q.1, r)))

/-- A configuration register: software writes its fields, and it is no pointer, doorbell or area of a mailbox or ring. -/
def configReg (a : Nat) : Bool :=
  match regAt a with
  | some (.mbx, _, _, _) | some (.sec, _, _, _) | some (.win _, _, _, _) => false
  | some (_, d, _, _) => d.rw != 0 && d.act != .tune && d.act != .ringCons && d.act != .prsPatchAddr && d.act != .prsPatchData &&
      d.act != .rwePatchAddr && d.act != .rwePatchData
  | none => false

/-- Records whose status is not the shadow's. -/
def plainPorts (m : Sparse (Option PortRec)) : Sparse (Option PortRec) :=
  m.map (fun q => (q.1, q.2.map (fun r => { r with link := false })))

def regShadow (old new : Sparse Word) (sh : Sparse (Option Word)) : Sparse (Option Word) :=
  let keys := (old.map (·.1)) ++ (new.map (·.1))
  (keys.filter (fun a => configReg a && tget (resetOf a) old a != tget (resetOf a) new a)).foldl
    (fun m a => tset none m a (some (tget (resetOf a) new a))) sh

/-- The shadow's records (R405).  A drop to Primrose leaves the shadow as it is (R454). -/
def shadowOf (h : Shadow) (old new : State) : Shadow :=
  if new.start.dropped && !old.start.dropped then h
  else
  { any := true
    regs := regShadow old.regs new.regs h.regs
    ports := tdiff (plainPorts old.ports.ports) (plainPorts new.ports.ports) h.ports
    mcast := tdiff old.ports.mcast new.ports.mcast h.mcast
    mirrors := tdiff old.ports.mirrors new.ports.mirrors h.mirrors
    em := ldiff (emRecs old) (emRecs new) h.em
    learnPol := tdiff old.glens.learnPol new.glens.learnPol h.learnPol
    routes := ldiff (routeRecs old) (routeRecs new) h.routes
    nextHop := tdiff old.glens.nextHop new.glens.nextHop h.nextHop
    rules := tdiff old.glens.rules new.glens.rules h.rules
    ids := tdiff old.streams.ids new.streams.ids h.ids
    ctx := tdiff old.streams.ctx new.streams.ctx h.ctx
    gates := tdiff old.streams.gates new.streams.gates h.gates
    meters := tdiff old.streams.meters new.streams.meters h.meters
    tenMap := tdiff old.streams.tenMap new.streams.tenMap h.tenMap
    edges := tdiff old.streams.edges new.streams.edges h.edges
    tmap := tdiff old.sch.tmap new.sch.tmap h.tmap
    nodes := tdiff old.sch.nodes new.sch.nodes h.nodes
    queues := tdiff old.sch.queues new.sch.queues h.queues
    shp := tdiff old.sch.shp new.sch.shp h.shp
    gat := tdiff old.gat new.gat h.gat
    handles := tdiff old.fre.handles new.fre.handles h.handles
    gens := tdiff old.fre.gens new.fre.gens h.gens
    rcv := tdiff old.fre.rcv new.fre.rcv h.rcv
    pubs := tdiff old.fio.pubs new.fio.pubs h.pubs
    tmpl := tdiff old.fio.tmpl new.fio.tmpl h.tmpl
    tev := tdiff old.fio.tev new.fio.tev h.tev
    ptp := tdiff old.tim.ptp new.tim.ptp h.ptp
    sets := tdiff old.ucode.sets new.ucode.sets h.sets
    casJoin := if old.cas.join = new.cas.join then h.casJoin else new.cas.join
    casPrio := if old.cas.prio = new.cas.prio then h.casPrio else new.cas.prio
    casAllow := if old.cas.allow = new.cas.allow then h.casAllow else new.cas.allow
    handedOver := if old.start.handedOver = new.start.handedOver then h.handedOver else new.start.handedOver
    held := if old.start.held = new.start.held then h.held else new.start.held }

/-- The shadow after a write command, or a queued element of one, that changed the state from `old` to `new` (R405). -/
def keepShadow (old new : State) : State := { new with shadow := shadowOf new.shadow old new }

/-- The shadow of one register, as the shadow log gives it (R406). -/
def shadowReg (a : Nat) (s : State) : State :=
  if configReg a then
    { s with shadow := { s.shadow with any := true, regs := tset none s.shadow.regs a (some (tget (resetOf a) s.regs a)) } }
  else s

/-- A register of a staged group, and an act that commits one: what such a group's writes leave in the shadow is the
value in force, after a commit as before it (R429). -/
def stagedReg (a : Nat) : Bool :=
  match regAt a with
  | some (_, d, _, _) => d.act == .staged || d.act == .gatStaged
  | none => false
def commitAct : WrAct → Bool
  | .pwiCommit | .gatListCommit | .glnBudgetCommit | .emtKeyCommit | .polStgCommit | .bpmLayoutCommit | .bpmQuotaCommit
  | .bpmBudgetCommit | .schBudgetCommit | .schShpCommit => true
  | _ => false
def commitReg (a : Nat) : Bool :=
  match regAt a with
  | some (_, d, _, _) => commitAct d.act
  | none => false

/-- Firmware reads back the staged registers of a block. -/
def shadowStaged (blk : Nat) (s : State) : State :=
  let own := fun (a : Nat) => a / 65536 == blk && stagedReg a
  (((s.regs.map (·.1)) ++ (s.shadow.regs.map (·.1))).filter own).foldl (fun t a => shadowReg a t) s

/-- A register's shadow value (R407). -/
def shadowValue (s : State) (a : Nat) : Word := (tget none s.shadow.regs a).getD (resetOf a)

end Sys2Proof.Machine
end

