-- ==== Sys2Proof/WellFormed.lean ====
section
/-! DEFINITION. Which commands a sender can send: a frame whose header fields have the widths of R388 and whose payload
is the words that LENGTH announces.  A command that is not well formed names nothing the spec has. -/

namespace Sys2Proof

/-- A frame that a mailbox can hold (R386, R388); only MB2 has a second partner (R377). -/
def Frame.wf (f : Frame) : Bool :=
  decide (f.mb ≤ 4) && decide (f.partner ≤ 1) && (decide (f.mb = 2) || decide (f.partner = 0)) &&
  decide (f.length < 4096) && decide (f.tag < 65536) && decide (f.opts < 256) && decide (f.scope < 256) &&
  decide (f.payload.length = f.length / 4)

end Sys2Proof
end

