-- ==== Sys2Proof/Machine/Mailbox.lean ====
section
/-! DEFINITION. The mailboxes (R386 to R403): frames, the checks every command passes, element results, responses, and
a command's way through a mailbox in register mode, in ring mode and on MB2. -/

namespace Sys2Proof.Machine
open Sys2Proof

/-! ### Frames (R388, R389) -/

/-- The words of a command in a mailbox area or a ring entry. -/
def frameWords (op : Nat) (f : Frame) : List Word :=
  [wd (op + f.length * 2 ^ 16), wd (f.tag + f.opts * 2 ^ 16), f.session,
   wd (f.scope + (if f.rsvd then 2 ^ 31 else 0))] ++ f.payload

/-- The opcode and the command that words spell. -/
def frameOf (m p : Nat) (ws : List Word) : Nat × Frame :=
  let w0 := ws.getD 0 0
  let w1 := ws.getD 1 0
  let w3 := ws.getD 3 0
  (fld w0 0 16,
   { mb := m, partner := p, rsvd := fld w0 28 4 != 0 || fld w1 24 8 != 0 || fld w3 8 24 != 0,
     length := fld w0 16 12, tag := fld w1 0 16, opts := fld w1 16 8, session := ws.getD 2 0, scope := fld w3 0 8,
     payload := (List.range (fld w0 16 12 / 4)).map (fun i => ws.getD (4 + i) 0) })

/-- Payload word i; words beyond LENGTH read zero. -/
def pw (f : Frame) (i : Nat) : Word := f.payload.getD i 0
def pf (f : Frame) (i lo n : Nat) : Nat := fld (pw f i) lo n

/-! ### Results (R391, R392) -/

/-- What a command's execution answers: STATUS, DETAIL, payload, and the state it leaves. -/
structure CmdRes where
  status : Nat
  detail : Nat
  words : List Word
  st : State

abbrev stOk : Nat := 0x00
abbrev stPartial : Nat := 0x01
abbrev stPending : Nat := 0x02
abbrev eFormat : Nat := 0x10
abbrev eOpcode : Nat := 0x11
abbrev eNoSession : Nat := 0x12
abbrev eVersion : Nat := 0x13
abbrev ePriv : Nat := 0x14
abbrev eLength : Nat := 0x15
abbrev eRange : Nat := 0x16
abbrev eUnsupported : Nat := 0x17
abbrev eBusy : Nat := 0x18
abbrev eStandby : Nat := 0x19
abbrev eNoRoom : Nat := 0x1A
abbrev eAuth : Nat := 0x1B
abbrev eState : Nat := 0x1C
abbrev eRestarted : Nat := 0x1D

/-- The statuses of a command whose response comes later, which no response carries: it is with a worker (R383); its
access waits for a slot of a budget, with nothing done yet (R27, R30). -/
abbrev stLater : Nat := 0xFF
abbrev stWait : Nat := 0xFE
def later (c : Nat) : Bool := decide (stWait ≤ c)

def ok (ws : List Word) (s : State) : CmdRes := ⟨stOk, 0, ws, s⟩
def err (c d : Nat) (s : State) : CmdRes := ⟨c, d, [], s⟩

/-- What a command does after the common checks: its chapter's part of checks 6 to 8 of R390 and its effect, given the
session's agreed version. -/
abbrev Body := Nat → Frame → State → CmdRes

/-- Check 6: LENGTH against the layout. -/
def lenIs (f : Frame) (n : Nat) (s : State) (k : CmdRes) : CmdRes := if f.length = n then k else err eLength 0 s
def lenOk (b : Bool) (s : State) (k : CmdRes) : CmdRes := if b then k else err eLength 0 s

/-- Check 7: a field in payload word `w` lies in its range. -/
def inRange (b : Bool) (w : Nat) (s : State) (k : CmdRes) : CmdRes := if b then k else err eRange (min w 255) s

/-- The command's access needs a slot of activity `a` of each memory listed: while one of them has none, the command waits
where it lies, and firmware takes it up again (R27, R30, R438). -/
def needSlot (us : List Nat) (a : Nat) (s : State) (k : CmdRes) : CmdRes :=
  match us.find? (fun u => !hasSlot s u a) with
  | some u => ⟨stWait, 0, [], waited u a s⟩
  | none => k

/-- Any other check, with its status. -/
def refuse (b : Bool) (c : Nat) (s : State) (k : CmdRes) : CmdRes := if b then err c 0 s else k

/-- Check 7 of a scoped command: SCOPE names a unit, or exactly one (R559). -/
def scopeSome (f : Frame) (s : State) (k : CmdRes) : CmdRes := if f.scope = 0 then err eRange 0 s else k
def scopeOne (f : Frame) (n : Nat) (s : State) (k : Nat → CmdRes) : CmdRes :=
  match bitsOf n f.scope with
  | [u] => k u
  | _ => err eRange 0 s

/-- Element result codes (R392). -/
abbrev rDone : Nat := 0x00
abbrev rInserted : Nat := 0x01
abbrev rInsertedOvf : Nat := 0x02
abbrev rUpdated : Nat := 0x03
abbrev rDeleted : Nat := 0x04
abbrev rNotFound : Nat := 0x05
abbrev rFull : Nat := 0x06
abbrev rFailed : Nat := 0x07
abbrev rPending : Nat := 0x08
abbrev rOos : Nat := 0x09

/-- STATUS of a set of element results (R392). -/
def elemStatus (codes : List Nat) : Nat :=
  if codes.any (fun c => c == rFull || c == rFailed || c == rOos) then stPartial
  else if codes.any (fun c => c == rPending) then stPending else stOk

/-- Result bytes, four to a word. -/
def packBytes : List Nat → List Word
  | a :: b :: c :: d :: rest => wd (a + b * 2 ^ 8 + c * 2 ^ 16 + d * 2 ^ 24) :: packBytes rest
  | [] => []
  | [a] => [wd a]
  | [a, b] => [wd (a + b * 2 ^ 8)]
  | [a, b, c] => [wd (a + b * 2 ^ 8 + c * 2 ^ 16)]

/-- One action on every unit that a mask names, in ascending order; 0xFF for a unit not named.  A glen under test is
OUT_OF_SERVICE.  `base` is the index of the first result byte. -/
def runUnits (die : Bool) (mask base : Nat) (act : Nat → Ticket → State → Nat × State) (id : Nat) (s : State) :
    List Nat × State :=
  (List.range (if die then 2 else 8)).foldl (fun acc u =>
    if nbit mask u then
      if !die && outOfService acc.2 2 u then (acc.1 ++ [rOos], acc.2)
      else let r := act u ⟨id, base + u⟩ acc.2; (acc.1 ++ [r.1], r.2)
    else (acc.1 ++ [0xFF], acc.2)) ([], s)

/-- The result bytes of dies, padded to a word (R392). -/
def padDie (die : Bool) (codes : List Nat) : List Nat := if die then codes ++ [0xFF, 0xFF] else codes

/-- A mailbox's key. -/
def mbKey (f : Frame) : Nat := f.mb + 8 * f.partner

/-- A PENDING command recorded; the last 64 of a mailbox are kept (R402). -/
def keepPend (r : PendRec) (s : State) : State :=
  let mine := (s.mbx.pend.filter (fun q => q.mb == r.mb)).length
  let old := if mine < 64 then s.mbx.pend else
    match s.mbx.pend.find? (fun q => q.mb == r.mb) with
    | some q => s.mbx.pend.filter (fun x => x.id != q.id)
    | none => s.mbx.pend
  { s with mbx := { s.mbx with pend := old ++ [r] } }

/-- A scoped write command's element results, from one list of result bytes per entry. -/
def elemAnswer (die : Bool) (f : Frame) (codes : List Nat) (s : State) : CmdRes :=
  let st := elemStatus codes
  let s1 := { s with mbx := { s.mbx with nextPend := s.mbx.nextPend + 1 } }
  ⟨st, 0, packBytes codes,
    if codes.any (fun c => c == rPending) then keepPend ⟨s.mbx.nextPend, mbKey f, f.tag, die, codes⟩ s1 else s1⟩

/-- A scoped write command on the glens, or the dies, that SCOPE names. -/
def onUnits (die : Bool) (f : Frame) (act : Nat → Ticket → State → Nat × State) (s : State) : CmdRes :=
  scopeSome f s <|
    let r := runUnits die f.scope 0 act s.mbx.nextPend s
    elemAnswer die f (padDie die r.1) r.2
def onGlens (f : Frame) (act : Nat → State → Nat × State) (s : State) : CmdRes :=
  onUnits false f (fun g _ t => act g t) s
def onDies (f : Frame) (act : Nat → State → Nat × State) (s : State) : CmdRes :=
  onUnits true f (fun d _ t => act d t) s

/-- A scoped write that only changes registers or records of each unit: DONE. -/
def eachGlen (f : Frame) (act : Nat → State → State) (s : State) : CmdRes := onGlens f (fun g t => (rDone, act g t)) s
def eachDie (f : Frame) (act : Nat → State → State) (s : State) : CmdRes := onDies f (fun d t => (rDone, act d t)) s

/-- A scoped command of several entries: result bytes entry by entry, in entry order (R412). -/
def onEntries (die : Bool) (f : Frame) (n : Nat) (act : Nat → Nat → Ticket → State → Nat × State) (s : State) : CmdRes :=
  scopeSome f s <|
    let w := if die then 4 else 8
    let r := (List.range n).foldl (fun acc i =>
      let q := runUnits die f.scope (w * i) (fun u t x => act i u t x) s.mbx.nextPend acc.2
      (acc.1 ++ padDie die q.1, q.2)) (([] : List Nat), s)
    elemAnswer die f r.1 r.2

/-- A read command that carries a mask answers its words once for each unit named, ascending (R559). -/
def readUnits (n : Nat) (f : Frame) (rdr : Nat → List Word) (s : State) : CmdRes :=
  scopeSome f s <| ok ((bitsOf n f.scope).flatMap rdr) s

/-- A scoped command that stages words in each glen and commits a group of it: a refusal by the hardware is E_RANGE with
the REASON plus 0x80 (R391). -/
def commitOn (die : Bool) (f : Frame) (act : Nat → State → State) (stat : Nat → Nat) (s : State) : CmdRes :=
  let r := onUnits die f (fun u _ t => (rDone, act u t)) s
  match (bitsOf (if die then 2 else 8) f.scope).findSome? (fun u =>
    if !die && outOfService s 2 u then none else refusedWith r.st (stat u)) with
  | some c => err eRange (0x80 + c) s
  | none => r

/-- The indices that a mask of n words names. -/
def maskBits (f : Frame) (i n : Nat) : List Nat := (List.range n).flatMap (fun w => (bitsOf 32 (pw f (i + w)).toNat).map (32 * w + ·))

/-- An unscoped command that commits a staged group: a refusal is E_RANGE with the REASON plus 0x80. -/
def commitOne (stat : Nat) (ws : State → List Word) (s t : State) : CmdRes :=
  match refusedWith t stat with
  | some r => err eRange (0x80 + r) s
  | none => ok (ws t) t

/-- An element reported PENDING gets its result (R402). -/
def completeElem (t : Option Ticket) (code : Nat) (s : State) : State :=
  match t with
  | none => s
  | some k =>
    let f := fun (r : PendRec) => if r.id = k.id then { r with elems := lset r.elems k.elem code } else r
    { s with mbx := { s.mbx with pend := s.mbx.pend.map f } }

/-! ### The common checks (R390) -/

abbrev mbxFwStat : Nat := mbxBase + 0x04
def mbxReg (m off : Nat) : Nat := mbxBase + 0x100 + 0x40 * m + off
abbrev mbxDoorbellOff : Nat := 0x00
abbrev mbxStatOff : Nat := 0x04
abbrev mbxIrqOff : Nat := 0x08
abbrev mbxSeqOff : Nat := 0x0C
abbrev mbxRspBaseOff : Nat := 0x18
abbrev mbxRingCfgOff : Nat := 0x20
abbrev mbxCmdProdOff : Nat := 0x24
abbrev mbxCmdConsOff : Nat := 0x28
abbrev mbxRspProdOff : Nat := 0x2C
abbrev mbxRspConsOff : Nat := 0x30

def fwUp (s : State) : Bool := rdBit s mbxFwStat 0
def fwStage (s : State) : Nat := rdF s mbxFwStat 1 2
def fwRestored (s : State) : Bool := rdBit s mbxFwStat 3

/-- Firmware, or the boot ROM loader on MB0 and MB3 (R467), takes commands of mailbox m (R403) while the MP clock runs
(R74). -/
def fwTakes (s : State) (m : Nat) : Bool := fwUp s && !s.col.stopped.contains 35 && (fwStage s != 0 || m == 0 || m == 3)

def sessOf (s : State) (f : Frame) : Session := tget ⟨0, 0, 0⟩ s.mbx.sess (mbKey f)

/-- Debug is unlocked: SEC_STAT.DBG_UNLOCKED (R535). -/
def dbgUnlocked (s : State) : Bool := rdBit s secBase 2

/-- CAS_STAT (R384): a worker's session A or B is up, and which of them is the active one (R377). -/
def casSessUp (s : State) (partner : Nat) : Bool := rdBit s (casBase + 8) (4 + partner)
def casActive (s : State) : Nat := rdF s (casBase + 8) 6 1

/-- The mailbox has privileged standing (R386). -/
def mbPrivileged (s : State) (f : Frame) : Bool :=
  f.mb == 0 || f.mb == 3 || (f.mb == 2 && casSessUp s f.partner) || (f.mb == 4 && dbgUnlocked s)

/-- The command's own chapter admits the mailbox. -/
def chapterAdmits (a : Admits) (s : State) (f : Frame) : Bool :=
  match a with
  | .any => true
  | .mb034 => f.mb == 0 || f.mb == 3 || (f.mb == 4 && dbgUnlocked s)
  | .mb0234 => f.mb == 0 || f.mb == 3 || (f.mb == 2 && casSessUp s f.partner) || (f.mb == 4 && dbgUnlocked s)
  | .mb4Only => f.mb == 4
  | .mb034any => f.mb == 0 || f.mb == 3 || f.mb == 4
  | .mb03 => f.mb == 0 || f.mb == 3

/-- The standing admits the command (R387): DEBUG_UNLOCK alone takes its standing from its record (R527). -/
def admitted (ci : CmdInfo) (s : State) (f : Frame) : Bool :=
  chapterAdmits ci.admits s f &&
  (!ci.write || mbPrivileged s f || ci.admits == .mb4Only || ci.admits == .mb034any)

def isDieScope : ScopeKind → Bool
  | .dieMask | .oneDie => true
  | _ => false

/-- Check 1: the header is malformed. -/
def formatBad (ci : CmdInfo) (f : Frame) : Bool :=
  f.rsvd || decide (4080 < f.length) || decide (f.length % 4 ≠ 0) || decide (f.opts ≠ f.opts &&& ci.opts) ||
  (ci.scope == .none && decide (f.scope ≠ 0)) || (isDieScope ci.scope && decide (4 ≤ f.scope))

/-- Checks 1 and 3 to 5 of R390: the status that refuses the command, if one does. -/
def headerFault (ci : CmdInfo) (f : Frame) (s : State) : Option Nat :=
  if formatBad ci f then some eFormat
  else if ci.op ≠ 0 ∧ ((sessOf s f).number = 0 ∨ f.session ≠ (sessOf s f).number) then some eNoSession
  else if ci.op ≠ 0 ∧ (sessOf s f).agreed < ci.ver then some eVersion
  else if !admitted ci s f then some ePriv
  else if ci.write ∧ f.mb = 2 ∧ casActive s ≠ f.partner then some eStandby
  else none

/-- The start stage forbids the command (R403, R467). -/
def stageBars (ci : CmdInfo) (s : State) : Bool :=
  if fwStage s = 0 then !([0x0000, 0x0001, 0x0003, 0x0F00, 0x0F02, 0x0F06].contains ci.op)
  else ci.write && !fwRestored s && !([0x00, 0x0D, 0x0F, 0x10].contains (ci.op / 256))

/-- The MRAM shadow's bytes (R409). -/
abbrev shadowBytes : Nat := 40 * 2 ^ 20

/-- The journal transaction of a write command, ended by its commit record (R408).  The spec does not give a record's
size, so the bytes it takes are a free value. -/
def journal (s : State) : State :=
  let r := freeW s
  { r.2 with mbx := { r.2.mbx with txn := r.2.mbx.txn + 1, shUsed := min shadowBytes (r.2.mbx.shUsed + r.1.toNat) } }

/-- The groups whose locks a command takes (R401). -/
def lockGroups (op : Nat) : List Nat := if op = 0x0C02 then [0x0A, 0x0C] else [op / 256]

/-- A command taken before it, of another mailbox, holds a lock that the command of mailbox `k` takes. -/
def lockedOut (s : State) (k op : Nat) : Bool :=
  (s.mbx.waits.takeWhile (fun w => w.1 != k)).any (fun w => (lockGroups w.2).any (lockGroups op).contains)

/-- A command stays taken without an answer; it has its answer. -/
def holdsOn (k op : Nat) (s : State) : State :=
  if s.mbx.waits.any (fun w => w.1 == k) then s else { s with mbx := { s.mbx with waits := s.mbx.waits ++ [(k, op)] } }
def answered (k : Nat) (s : State) : State :=
  { s with mbx := { s.mbx with waits := s.mbx.waits.filter (fun w => w.1 != k) } }

/-- A result of checks 6 or 7, which come before the checks of state. -/
def earlyError (c : Nat) : Bool := c == eLength || c == eRange || c == eUnsupported || c == eAuth

/-- Firmware executes one command: checks 1 to 8 of R390, the effect, the shadow and the journal.  A refused command
changes nothing, but for what the identity unit does with a record or an image that fails (R109, R525, R526). -/
def firmwareRun (ci : CmdInfo) (body : Body) (f : Frame) (s : State) : CmdRes :=
  match headerFault ci f s with
  | some c => err c 0 s
  | none =>
    let r := body (sessOf s f).agreed f s
    if stageBars ci s && !earlyError r.status then err eState 0 s
    else if ci.write && decide (shadowBytes ≤ s.mbx.shUsed) && decide (r.status < 0x10) then err eNoRoom 0 s
    else if later r.status then r
    else if r.status < 0x10 then
      if ci.write then { r with st := journal (keepShadow s r.st) } else r
    else if r.status = eAuth then r
    else { r with st := s }

/-- Firmware takes one command of a mailbox: it waits for the locks of its groups, and a command whose answer comes later
goes on holding them (R401). -/
def takeCommand (ci : CmdInfo) (body : Body) (f : Frame) (s : State) : CmdRes :=
  if lockedOut s (mbKey f) ci.op then ⟨stWait, 0, [], holdsOn (mbKey f) ci.op s⟩
  else
    let r := firmwareRun ci body f s
    if later r.status then { r with st := holdsOn (mbKey f) ci.op r.st } else r

/-! ### Responses (R389, R393, R394) -/

/-- The words of a response. -/
def responseWords (op tag seq time : Nat) (r : CmdRes) : List Word :=
  [wd (op + 4 * r.words.length * 2 ^ 16), wd (tag + r.status * 2 ^ 16 + r.detail * 2 ^ 24), wd seq, wd time] ++ r.words

/-- A mailbox's completion signal (R386). -/
def completionSignal (m : Nat) (s : State) : State :=
  if rdBit s (mbxReg m mbxIrqOff) 0 then
    if m = 0 then emit (.msix 0 0) s
    else if m = 1 then emit (.msix 1 0) s
    else if m = 3 then emit (.hostNotify (rdF s (mbxReg 3 mbxIrqOff) 16 7)) s
    else s
  else s

/-- The moderated completion signal of a mailbox in ring mode (R143, R394). -/
def ringSignal (m : Nat) (s : State) : State :=
  let b := mbxReg m mbxRingCfgOff
  let due := match (ringSt s b).lastIrq with
    | none => true
    | some t => decide (rdF s (mbxReg m mbxIrqOff) 8 8 * 1000 ≤ s.tim.cnt - t)
  if due then completionSignal m (setRing b { ringSt s b with lastIrq := some s.tim.cnt, advanced := false } s)
  else setRing b { ringSt s b with advanced := true } s

/-- SEQ of the next response, taken (R389). -/
def nextSeq (m : Nat) (s : State) : Nat × State := ((rd s (mbxReg m mbxSeqOff) + 1).toNat, inc (mbxReg m mbxSeqOff) s)

/-- The response of a command in register mode: the response area, RESP_SEQ, BUSY clear, DONE set, the signal. -/
def respondRegister (op : Nat) (f : Frame) (r : CmdRes) : State :=
  let q := nextSeq f.mb (answered (mbKey f) r.st)
  let ws := responseWords op f.tag q.1 (netNanos q.2) r
  let s1 := { q.2 with mbx := { q.2.mbx with resp := tset [] q.2.mbx.resp f.mb ws } }
  completionSignal f.mb (wrBit (mbxReg f.mb mbxStatOff) 1 true (wrBit (mbxReg f.mb mbxStatOff) 0 false s1))

/-- Where a response ring's entry of an index lies in host memory (R394). -/
def rspAddr (s : State) (m i : Nat) : Nat :=
  w64 (rd s (mbxReg m mbxRspBaseOff)) (rd s (mbxReg m (mbxRspBaseOff + 4))) + i % (8 * 2 ^ rdF s (mbxReg m mbxRingCfgOff) 1 3) * 4096

/-- The response of a command of a ring, in the response ring. -/
def respondRing (op : Nat) (f : Frame) (r : CmdRes) : State :=
  let q := nextSeq f.mb (answered (mbKey f) r.st)
  let ws := responseWords op f.tag q.1 (netNanos q.2) r
  let prod := mbxReg f.mb mbxRspProdOff
  let i := (rd q.2 prod).toNat
  ringSignal f.mb (inc prod (emit (.ring (mbxReg f.mb mbxRspBaseOff) i true (rspAddr q.2 f.mb i) ws) q.2))

/-- The response of a command of MB2, handed to the cascade unit, which sends it in RESPONSE frames (R374, R395). -/
def respondSession (op : Nat) (f : Frame) (r : CmdRes) : State :=
  let q := nextSeq 2 (answered (mbKey f) r.st)
  { q.2 with cas := { q.2.cas with
      resp := q.2.cas.resp ++ [(f.partner, responseWords op f.tag q.1 (netNanos q.2) r)] } }

/-! ### A command's way through its mailbox -/

def mbBusy (s : State) (m : Nat) : Bool := rdBit s (mbxReg m mbxStatOff) 0
def mbRing (s : State) (m : Nat) : Bool := rdBit s (mbxReg m mbxStatOff) 4

/-- Entries of a mailbox's rings, commands waiting, and room for a response (R394). -/
def mbRingSize (s : State) (m : Nat) : Nat := 8 * 2 ^ rdF s (mbxReg m mbxRingCfgOff) 1 3
def cmdWaiting (s : State) (m : Nat) : Nat := (rd s (mbxReg m mbxCmdProdOff) - rd s (mbxReg m mbxCmdConsOff)).toNat
def rspRoom (s : State) (m : Nat) : Bool :=
  decide ((rd s (mbxReg m mbxRspProdOff) - rd s (mbxReg m mbxRspConsOff)).toNat < mbRingSize s m)

/-- The key of a word of a mailbox's command area, and words written into it. -/
def areaKey (m i : Nat) : Nat := key m i
def writeArea (m : Nat) (ws : List Word) (s : State) : State :=
  let a := ws.zipIdx.foldl (fun a p => tset 0 a (areaKey m p.2) p.1) s.mbx.area
  { s with mbx := { s.mbx with area := a } }
def readArea (m : Nat) (s : State) : List Word := (List.range 1024).map (fun i => tget 0 s.mbx.area (areaKey m i))

/-- A ring slot written in host memory by its owner. -/
def writeSlot (m idx : Nat) (ws : List Word) (s : State) : State :=
  { s with mbx := { s.mbx with ringMem := tset [] s.mbx.ringMem (key m (idx % mbRingSize s m)) ws } }
def readSlot (m idx : Nat) (s : State) : List Word := tget [] s.mbx.ringMem (key m (idx % mbRingSize s m))

/-- A doorbell counted while firmware does not take commands (R403), in its pulse cell while the MP's clock is stopped
(R74). -/
def countEarly (m : Nat) (s : State) : State :=
  if s.col.stopped.contains 35 then rings m s
  else rung m { s with mbx := { s.mbx with early := tmod 0 s.mbx.early m (· + 1) } }

/-- A command of the mailbox waits for a worker's response (CAS_FORWARD, R383): the mailbox executes nothing behind it. -/
def forwards (s : State) (m : Nat) : Bool := s.cas.fwd.any (fun w => w.mb == m)

/-- Firmware takes the command that a register-mode mailbox holds. -/
def runRegister (ci : CmdInfo) (body : Body) (f : Frame) (s : State) : State :=
  let r := takeCommand ci body f s
  if later r.status then r.st else respondRegister ci.op f r

/-- A mailbox in register mode takes a command: the area is written and the doorbell rung (R393). -/
def registerCommand (ci : CmdInfo) (body : Body) (f : Frame) (s : State) : State :=
  if mbBusy s f.mb then wrBit (mbxReg f.mb mbxStatOff) 2 true (wrBit (mbxReg f.mb mbxStatOff) 3 true s)
  else
    let s1 := wrBit (mbxReg f.mb mbxStatOff) 0 true (writeArea f.mb (frameWords ci.op f) s)
    if fwTakes s1 f.mb then runRegister ci body f (rung f.mb s1) else countEarly f.mb s1

/-- What a command of a ring leaves whose response comes later: one that waits for a slot stays in the ring. -/
def ringLater (m : Nat) (r : CmdRes) : State :=
  if r.status = stWait then wr (mbxReg m mbxCmdConsOff) (rd r.st (mbxReg m mbxCmdConsOff) - 1) r.st else r.st

/-- A mailbox in ring mode takes a command: an entry written and CMD_PROD advanced past it; firmware executes it at once
when nothing waits before it and the response ring has room (R394). -/
def ringCommand (ci : CmdInfo) (body : Body) (f : Frame) (s : State) : State :=
  if mbRingSize s f.mb ≤ cmdWaiting s f.mb then wrBit (mbxReg f.mb mbxStatOff) 5 true s
  else
    let prod := mbxReg f.mb mbxCmdProdOff
    let s1 := inc prod (writeSlot f.mb (rd s prod).toNat (frameWords ci.op f) s)
    if fwTakes s1 f.mb ∧ cmdWaiting s f.mb = 0 ∧ rspRoom s1 f.mb ∧ !forwards s1 f.mb then
      let r := takeCommand ci body f (inc (mbxReg f.mb mbxCmdConsOff) s1)
      if later r.status then ringLater f.mb r else respondRing ci.op f r
    else s1

/-- Commands of an MB2 session that wait. -/
def mb2Of (s : State) (p : Nat) : List (List Word) := tget [] s.mbx.mb2 p
def setMb2 (p : Nat) (l : List (List Word)) (s : State) : State :=
  { s with mbx := { s.mbx with mb2 := tset [] s.mbx.mb2 p l } }

/-- What a command of MB2 leaves whose response comes later: one that waits for a slot stays the session's first. -/
def sessionLater (p : Nat) (ws : List Word) (r : CmdRes) : State :=
  if r.status = stWait then setMb2 p (ws :: mb2Of r.st p) r.st else r.st

/-- MB2 takes a command; a ninth unanswered one is answered with E_BUSY (R395). -/
def sessionCommand (ci : CmdInfo) (body : Body) (f : Frame) (s : State) : State :=
  if fwTakes s 2 ∧ mb2Of s f.partner = [] then
    let r := takeCommand ci body f s
    if later r.status then sessionLater f.partner (frameWords ci.op f) r else respondSession ci.op f r
  else if (mb2Of s f.partner).length < 8 then setMb2 f.partner (mb2Of s f.partner ++ [frameWords ci.op f]) s
  else respondSession ci.op f (err eBusy 0 s)

/-- One command of the catalogue through its mailbox. -/
def mailboxCommand (ci : CmdInfo) (body : Body) (f : Frame) (s : State) : State :=
  if f.mb = 2 then sessionCommand ci body f s
  else if mbRing s f.mb then ringCommand ci body f s
  else registerCommand ci body f s

/-- The meaning of a mailbox row. -/
def mailboxRow (ci : CmdInfo) (body : Body) (f : Frame) (s : State) : Out3 :=
  if f.wf then .next (mailboxCommand ci body f s) else .fault .illFormed

end Sys2Proof.Machine
end

