-- ==== Sys2Proof/Machine/Bpm.lean ====
section
/-! DEFINITION. The Plain and the buffer pool manager (chapter 8): pools, quotas, allocation, owners, release, transfer,
parity, draining and retirement, audit and commits. -/

namespace Sys2Proof.Machine
open Sys2Proof

/-! ### Registers and records -/

def bpmPoolCfg (d k : Nat) : Nat := bpmBase d + 0x10 + 4 * k
def bpmLayoutCommitReg (d : Nat) : Nat := bpmBase d + 0x20
def bpmLayoutStat (d : Nat) : Nat := bpmBase d + 0x24
def bpmYelKeep (d k : Nat) : Nat := bpmBase d + 0x30 + 4 * k
def bpmBudgetCommitReg (d : Nat) : Nat := bpmBase d + 0x48
def bpmBudgetStat (d : Nat) : Nat := bpmBase d + 0x4C
def bpmEpochReg (d : Nat) : Nat := bpmBase d + 0x50
def bpmPoolStat (d k : Nat) : Nat := bpmBase d + 0x80 + 4 * k
def bpmOwnStat (d : Nat) : Nat := bpmBase d + 0xC0
def bpmCapPtr (d : Nat) : Nat := bpmBase d + 0x100
def bpmCapInfo (d : Nat) : Nat := bpmBase d + 0x104
def bpmMin (d r k : Nat) : Nat := bpmBase d + 0x1000 + 4 * (4 * r + k)
def bpmMax (d r k : Nat) : Nat := bpmBase d + 0x1400 + 4 * (4 * r + k)
def bpmQuotaCommitReg (d : Nat) : Nat := bpmBase d + 0x1800
def bpmQuotaStat (d : Nat) : Nat := bpmBase d + 0x1804
def bpmUse (d r k : Nat) : Nat := bpmBase d + 0x2000 + 4 * (4 * r + k)
def bpmCntZero (d r : Nat) : Nat := bpmBase d + 0x3000 + 4 * r
def bpmCntBadFree (d r : Nat) : Nat := bpmBase d + 0x3100 + 4 * r
def bpmCntAdmRefuse (d r : Nat) : Nat := bpmBase d + 0x3200 + 4 * r
def bpmCntSpill (d k : Nat) : Nat := bpmBase d + 0x3300 + 4 * k
def bpmCntOutgrow (d : Nat) : Nat := bpmBase d + 0x3310
def bpmCntOwnExh (d : Nat) : Nat := bpmBase d + 0x3314
def bpmCntQuarRel (d : Nat) : Nat := bpmBase d + 0x3318

def freeCell : CellRec := ⟨.free, [], [], 0, 0, 0, false⟩
def cellGet (s : State) (d a : Nat) : CellRec := tget freeCell s.bpm.cells (key d a)
def cellPut (d a : Nat) (c : CellRec) (s : State) : State :=
  { s with bpm := { s.bpm with cells := tset freeCell s.bpm.cells (key d a) c } }
def noPool : PoolSt := ⟨0, 0, 0, [], []⟩
def poolGet (s : State) (d k : Nat) : PoolSt := tget noPool s.bpm.pools (key d k)
def poolPut (d k : Nat) (p : PoolSt) (s : State) : State :=
  { s with bpm := { s.bpm with pools := tset noPool s.bpm.pools (key d k) p } }
def goodPage : PageSt := ⟨0, false, false⟩
def pageGet (s : State) (d p : Nat) : PageSt := tget goodPage s.bpm.pages (key d p)
def pagePut (d p : Nat) (x : PageSt) (s : State) : State :=
  { s with bpm := { s.bpm with pages := tset goodPage s.bpm.pages (key d p) x } }

/-- A cell of pool k in 256-byte units, and in bytes (R222). -/
def cellUnits (k : Nat) : Nat := 4 ^ k
def cellBytes (k : Nat) : Nat := 256 * 4 ^ k

/-- The address of cell i of a pool, and the pages a cell covers. -/
def cellAddr (p : PoolSt) (k i : Nat) : Nat := p.first + cellUnits k * i
def pagesOfCell (k a : Nat) : List Nat := if k = 3 then (List.range 4).map (fun i => a / 16 + i) else [a / 16]

/-- The cell of the part never allocated is to be passed over: it has left that part, its page drains or is retired, or it
is not FREE. -/
def cellBarred (s : State) (d k a : Nat) : Bool :=
  (poolGet s d k).left.contains a || (pagesOfCell k a).any (fun p => (pageGet s d p).draining || (pageGet s d p).retired) || (cellGet s d a).st != .free

/-- The first cells of a pool not allocated since the layout was committed, past those that are barred. -/
def skipBarred (s : State) (d k : Nat) (p : PoolSt) : Nat → Nat → Nat
  | 0, i => i
  | n + 1, i => if i < p.cells ∧ cellBarred s d k (cellAddr p k i) then skipBarred s d k p n (i + 1) else i

/-- Barred cells among those never allocated since the commit. -/
def barredFresh (s : State) (d k : Nat) (p : PoolSt) : Nat :=
  let lo := cellAddr p k p.next
  let hi := cellAddr p k p.cells
  let byState := ((ofUnit s.bpm.cells d).filter (fun q =>
    decide (lo ≤ q.1) && decide (q.1 < hi) && q.2.st != .free)).map (·.1)
  let byPage := ((ofUnit s.bpm.pages d).filter (fun q => q.2.draining || q.2.retired)).flatMap (fun q =>
    (if k = 3 then [q.1 / 4 * 64] else (List.range (16 / cellUnits k)).map (fun i => 16 * q.1 + cellUnits k * i)).filter
      (fun a => decide (lo ≤ a) && decide (a < hi)))
  (byState ++ byPage ++ p.left.filter (fun a => decide (lo ≤ a) && decide (a < hi))).dedup.length

/-- Free cells of a pool. -/
def freeCells (s : State) (d k : Nat) : Nat :=
  let p := poolGet s d k
  p.cells - p.next - barredFresh s d k p + p.freed.length

def useOf (s : State) (d r k : Nat) : Nat := rdF s (bpmUse d r k) 0 19
def minOf (s : State) (d r k : Nat) : Nat := rdF s (bpmMin d r k) 0 19
/-- A MAX above the pool's cell count acts as the cell count (R246). -/
def maxOf (s : State) (d r k : Nat) : Nat := min (rdF s (bpmMax d r k) 0 19) (poolGet s d k).cells

/-- The reserve and the shared free count of a pool (R225). -/
def reserveOf (s : State) (d k : Nat) : Nat :=
  (List.range 38).foldl (fun n r => n + (minOf s d r k - useOf s d r k)) 0
def sharedFree (s : State) (d k : Nat) : Nat := freeCells s d k - reserveOf s d k

/-- BPM_POOL_STAT of a pool as it stands. -/
def poolStatUpdate (d k : Nat) (s : State) : State :=
  wr (bpmPoolStat d k) (wd (freeCells s d k + (reserveOf s d k + 63) / 64 * 2 ^ 19)) s

/-- Owner records in use (R230). -/
def ownUsed (s : State) (d : Nat) : Nat := rdF s (bpmOwnStat d) 0 17
def setOwnUsed (d n : Nat) (s : State) : State := wr (bpmOwnStat d) (wd n) s

/-! ### Owners and allocation (R226 to R231) -/

/-- COLLECT, the BPM's own release collector. -/
abbrev collectId : Nat := 510

/-- An owner ID that is valid on a die (R230). -/
def ownerValid (s : State) (d o : Nat) : Bool :=
  if o < 256 then dieOf o == d && portExists s o else decide (o ≤ 293) || o == collectId

/-- An owner list that an allocation may name: a port set in ascending order, then up to eight named owners. -/
def ownersValid (s : State) (d : Nat) (ports named : List Nat) : Bool :=
  (ports ++ named).all (ownerValid s d) && (ports ++ named).Nodup && decide (named.length ≤ 8) &&
  decide (0 < ports.length + named.length)

/-- Why an allocation is refused (R227). -/
inductive AllocErr where
  | zeroSize | tooLarge | badOwner | owners | yellow | quota | empty
  deriving DecidableEq, Repr

/-- A free cell taken from a pool, first in, first out (R236). -/
def takeCell (d k : Nat) (s : State) : Nat × State :=
  let p := poolGet s d k
  let i := skipBarred s d k p (barredFresh s d k p) p.next
  if i < p.cells then (cellAddr p k i, poolPut d k { p with next := i + 1 } s)
  else (p.freed.headD 0, poolPut d k { p with next := p.cells, freed := p.freed.drop 1 } s)

/-- What an allocation asks for. -/
structure AllocReq where
  req : Nat
  size : Nat
  yel : Bool
  ports : List Nat
  named : List Nat

/-- The epoch count a cell state word carries (R243). -/
def epochNow (s : State) (d : Nat) : Nat := s.tim.cnt / (10 ^ 6 * max 1 (rdF s (bpmEpochReg d) 0 8))

/-- A cell of pool k given to a requester. -/
def grantCell (d k : Nat) (q : AllocReq) (s : State) : Nat × State :=
  let t := takeCell d k s
  let multi := decide (1 < q.ports.length + q.named.length)
  let s1 := cellPut d t.1 ⟨.allocated, q.ports ++ q.named, q.ports, q.req, k, epochNow s d, multi⟩ t.2
  let s2 := wr (bpmUse d q.req k) (wd (useOf s1 d q.req k + 1)) s1
  (t.1 + d * 2 ^ 19, poolStatUpdate d k (if multi then setOwnUsed d (ownUsed s2 d + 1) s2 else s2))

/-- The pools from k on, in order, under R227. -/
def allocFrom (d : Nat) (q : AllocReq) : Nat → Nat → State → Except AllocErr Nat × State
  | 0, _, s => (.error .empty, s)
  | n + 1, k, s =>
    if freeCells s d k = 0 ∨ maxOf s d q.req k = 0 then
      let s1 := inc (bpmCntSpill d k) s
      allocFrom d q n (k + 1) (if freeCells s d k = 0 then raise srcBpmPoolEmpty 0 7 (bpmBase d / 2 ^ 16) s1 else s1)
    else if q.yel then
      if useOf s d q.req k < maxOf s d q.req k ∧ rdF s (bpmYelKeep d k) 0 19 < sharedFree s d k then
        let r := grantCell d k q s; (.ok r.1, r.2)
      else (.error .yellow, s)
    else if useOf s d q.req k < minOf s d q.req k ∨
        (useOf s d q.req k < maxOf s d q.req k ∧ 0 < sharedFree s d k) then
      let r := grantCell d k q s; (.ok r.1, r.2)
    else (.error .quota, s)

/-- The smallest pool whose cell holds a size. -/
def poolFor (size : Nat) : Nat := if size ≤ 256 then 0 else if size ≤ 1024 then 1 else if size ≤ 4096 then 2 else 3

/-- An allocation on a die (R227). -/
def allocate (d : Nat) (q : AllocReq) (s : State) : Except AllocErr Nat × State :=
  let refuse := fun (e : AllocErr) (t : State) => (Except.error e, inc (bpmCntAdmRefuse d q.req) t)
  if q.size = 0 then refuse .zeroSize (inc (bpmCntZero d q.req) s)
  else if 16384 < q.size then refuse .tooLarge s
  else if !ownersValid s d q.ports q.named then refuse .badOwner s
  else if 1 < q.ports.length + q.named.length ∧ 65536 ≤ ownUsed s d then
    refuse .owners (raise srcBpmOwnExh 0 7 (bpmBase d / 2 ^ 16) (inc (bpmCntOwnExh d) s))
  else
    let k := poolFor q.size
    match allocFrom d q (4 - k) k s with
    | (.ok a, t) => (.ok a, t)
    | (.error e, t) => refuse e t

/-! ### Release and transfer (R232 to R234) -/

/-- The pool whose region an ADDR lies in. -/
def poolOfAddr (s : State) (d a : Nat) : Option Nat :=
  (List.range 4).find? (fun k =>
    let p := poolGet s d k
    decide (p.first ≤ a) && decide (a < p.first + cellUnits k * p.cells))

abbrev bfRange : Nat := 1
abbrev bfAlign : Nat := 2
abbrev bfState : Nat := 3
abbrev bfNotOwner : Nat := 4
abbrev bfLastEarly : Nat := 5
abbrev bfOwners : Nat := 6
abbrev bfBadOwner : Nat := 7

def stCode : CellSt → Nat
  | .free => 0
  | .allocated => 1
  | .retired => 2
  | .quarantined => 3

/-- A refused release or transfer counted, captured and raised (R233). -/
def badFree (d reason owner req : Nat) (transfer : Bool) (ptr : Word) (s : State) : State :=
  let st := if reason ≤ 2 then 0 else stCode (cellGet s d (fld ptr 0 19)).st
  let s1 := inc (bpmCntBadFree d req) s
  let s2 := if rdBit s1 (bpmCapInfo d) 31 then s1 else
    wr (bpmCapInfo d) (wd (reason + st * 8 + owner * 32 + req * 2 ^ 14 + b2n transfer * 2 ^ 20 + 2 ^ 31))
      (wr (bpmCapPtr d) ptr s1)
  raise srcBpmBadFree ptr.toNat 0 0 s2

/-- Checks 1 to 4 of R232: the reason that refuses, or the pool. -/
def ptrCheck (s : State) (d owner : Nat) (ptr : Word) : Except Nat Nat :=
  let a := fld ptr 0 19
  if fld ptr 20 12 ≠ 0 ∨ fld ptr 19 1 ≠ d then .error bfRange
  else match poolOfAddr s d a with
    | none => .error bfRange
    | some k =>
      if (a - (poolGet s d k).first) % cellUnits k ≠ 0 then .error bfAlign
      else if (cellGet s d a).st ≠ .allocated then .error bfState
      else if !(cellGet s d a).owners.contains owner then .error bfNotOwner
      else .ok k

/-- The release names a QUARANTINED cell. -/
def namesQuarantined (s : State) (d : Nat) (ptr : Word) : Bool :=
  match ptrCheck s d 0 ptr with
  | .error e => e == bfState && (cellGet s d (fld ptr 0 19)).st == .quarantined
  | .ok _ => false

/-- The cells that a page lies in. -/
def cellsOfPage (s : State) (d p : Nat) : List Nat :=
  match poolOfAddr s d (16 * p) with
  | some 3 => [p / 4 * 64]
  | some k => (List.range (16 / cellUnits k)).map (fun i => 16 * p + cellUnits k * i)
  | none => []

/-- Free cells of a pool that join the tail of its free list, those that are on it or whose page drains apart (R236, R241). -/
def rejoin (d k : Nat) (cells : List Nat) (s : State) : State :=
  let p := poolGet s d k
  let back := cells.filter (fun a => (cellGet s d a).st == .free && !p.freed.contains a &&
    (pagesOfCell k a).all (fun q => !(pageGet s d q).draining && !(pageGet s d q).retired))
  let fresh := back.filter (fun a => decide (cellAddr p k p.next ≤ a) && !p.left.contains a)
  poolStatUpdate d k (poolPut d k { p with left := p.left ++ fresh, freed := p.freed ++ back } s)

/-- A draining page that holds no allocated cell (R241): its row takes a spare of its macro group and its cells rejoin
their free list, or the page is retired. -/
def pageDrained (d p : Nat) (s : State) : State :=
  let cells := cellsOfPage s d p
  if !(pageGet s d p).draining || cells.any (fun a => (cellGet s d a).st == .allocated) then s
  else
    let grp := key d (Config.plainGroup p)
    let used := tget 0 s.bpm.sparesUsed grp
    match poolOfAddr s d (16 * p) with
    | none => s
    | some k =>
      if used < Config.plainSpares then
        raise srcSpareRemap p 8 d (rejoin d k cells (pagePut d p goodPage
          { s with bpm := { s.bpm with sparesUsed := tset 0 s.bpm.sparesUsed grp (used + 1) } }))
      else
        let pages := if k = 3 then (List.range 4).map (fun i => p / 4 * 4 + i) else [p]
        let s1 := pages.foldl (fun t q => pagePut d q ⟨0, false, true⟩ t) s
        let s2 := cells.foldl (fun t a => cellPut d a { freeCell with st := .retired } t) s1
        raiseLost p cells.length 8 d (poolStatUpdate d k s2)

/-- A cell freed: to the tail of its free list, or off its list when its page drains. -/
def freeCellAt (d k a : Nat) (s : State) : State :=
  let c := cellGet s d a
  let s1 := wr (bpmUse d c.req k) (wd (useOf s d c.req k - 1)) (cellPut d a freeCell s)
  let s2 := if c.record then setOwnUsed d (ownUsed s1 d - 1) s1 else s1
  let draining := (pagesOfCell k a).filter (fun p => (pageGet s2 d p).draining)
  if draining = [] then
    let p := poolGet s2 d k
    poolStatUpdate d k (poolPut d k { p with freed := p.freed ++ [a] } s2)
  else draining.foldl (fun t p => pageDrained d p t) (poolStatUpdate d k s2)

/-- An owner taken off a cell's list. -/
def dropOwner (c : CellRec) (o : Nat) : CellRec :=
  { c with owners := c.owners.erase o, ports := c.ports.erase o }

/-- Nothing holds the buffer any more: its list is empty, or COLLECT is left alone (R231). -/
def ownerless (c : CellRec) : Bool := c.owners.isEmpty || c.owners == [collectId]

/-- A release (R232): the Bool says that it passed. -/
def release (d req owner : Nat) (ptr : Word) (s : State) : Bool × State :=
  if namesQuarantined s d ptr then (false, inc (bpmCntQuarRel d) s)
  else
    match ptrCheck s d owner ptr with
    | .error e => (false, badFree d e owner req false ptr s)
    | .ok k =>
      let a := fld ptr 0 19
      let c := cellGet s d a
      if c.owners.getLast? = some owner ∧ c.owners ≠ [owner] then (false, badFree d bfLastEarly owner req false ptr s)
      else
        (true, if ownerless (dropOwner c owner) then freeCellAt d k a s else cellPut d a (dropOwner c owner) s)

/-- A named owner placed immediately before the owner named last. -/
def insertBeforeLast (l : List Nat) (x : Nat) : List Nat :=
  match l.getLast? with
  | none => [x]
  | some y => l.dropLast ++ [x, y]

/-- The buffer's list with a new owner in the old one's place; one of the port set gives way to a named owner. -/
def swapOwner (c : CellRec) (old new : Nat) : CellRec :=
  if c.ports.contains old then { c with owners := insertBeforeLast (c.owners.erase old) new, ports := c.ports.erase old }
  else { c with owners := c.owners.map (fun o => if o = old then new else o) }

/-- A transfer (R234); one that leaves COLLECT alone frees the buffer (R231). -/
def transfer (d req old new : Nat) (ptr : Word) (s : State) : Bool × State :=
  let a := fld ptr 0 19
  let c := cellGet s d a
  match ptrCheck s d old ptr with
  | .error e => (false, badFree d e old req true ptr s)
  | .ok k =>
    if !ownerValid s d new || c.owners.contains new then (false, badFree d bfBadOwner old req true ptr s)
    else if c.ports.contains old ∧ 8 ≤ c.owners.length - c.ports.length then (false, badFree d bfOwners old req true ptr s)
    else (true, if ownerless (swapOwner c old new) then freeCellAt d k a s else cellPut d a (swapOwner c old new) s)

/-! ### Parity of the state memory and of frame data (R241, R242) -/

/-- A cell quarantined. -/
def quarantine (d a : Nat) (s : State) : State :=
  let c := cellGet s d a
  let s1 := cellPut d a { c with st := .quarantined } s
  match poolOfAddr s d a with
  | some k =>
    let p := poolGet s1 d k
    poolStatUpdate d k (poolPut d k { p with freed := p.freed.filter (fun x => x != a) } s1)
  | none => s1

/-- A pool's free list: the cells never allocated, then those freed. -/
def freeList (s : State) (d k : Nat) : List Nat :=
  let p := poolGet s d k
  (((List.range (p.cells - p.next)).map (fun i => cellAddr p k (p.next + i))).filter (fun a => !cellBarred s d k a)) ++ p.freed

/-- State memory read with bad parity twice (R242); firmware then owes an audit. -/
def bpmParity (d : Nat) (e : BpmErr) (s : State) : State :=
  let r := fun (t : State) => raise srcBpmStateParity 0 7 (bpmBase d / 2 ^ 16)
    { t with bpm := { t.bpm with audits := t.bpm.audits.filter (fun x => x != d) ++ [d] } }
  match e with
  | .none => s
  | .cell a => r (quarantine d a s)
  | .link k n => r (((freeList s d k).drop n).foldl (fun t a => quarantine d a t) s)
  | .use q k => r (poolStatUpdate d k (wr (bpmUse d q k) 0 s))

/-- A page's row flagged by a parity error in frame data; the third flag drains the page (R241). -/
def flagPage (d p : Nat) (s : State) : State :=
  let pg := pageGet s d p
  if pg.draining || pg.retired then s
  else if pg.flags + 1 < 3 then pagePut d p { pg with flags := pg.flags + 1 } s
  else
    let s1 := pagePut d p { pg with flags := 3, draining := true } s
    match poolOfAddr s1 d (16 * p) with
    | none => s1
    | some k =>
      let pl := poolGet s1 d k
      let mine := fun (a : Nat) => (pagesOfCell k a).contains p
      pageDrained d p (poolStatUpdate d k (poolPut d k { pl with freed := pl.freed.filter (fun a => !mine a) } s1))

/-! ### Commits (R245, R246, R249) and the audit (R243) -/

def layoutGroup (d a : Nat) : Bool := decide (bpmPoolCfg d 0 ≤ a) && decide (a < bpmLayoutCommitReg d)
def quotaGroup (d a : Nat) : Bool := decide (bpmMin d 0 0 ≤ a) && decide (a < bpmQuotaCommitReg d)
def plainBudgetGroup (d a : Nat) : Bool := decide (bpmBase d + 0x40 ≤ a) && decide (a < bpmBudgetCommitReg d)

def layoutFails (s : State) (d : Nat) : List Nat :=
  let pg := fun k => fld (rdStg s (bpmPoolCfg d k)) 0 15
  (if (List.range 4).any (fun k => pg k % 4 != 0) then [1] else []) ++
  (if 24576 < pg 0 + pg 1 + pg 2 + pg 3 then [2] else []) ++
  (if (ofUnit s.bpm.cells d).any (fun q => q.2.st == .allocated || q.2.st == .quarantined) then [3] else [])

/-- The cells of every retired page marked RETIRED, in whichever region they fall (R245). -/
def remarkRetired (d : Nat) (s : State) : State :=
  ((ofUnit s.bpm.pages d).filter (fun q => q.2.retired)).foldl
    (fun t q => (cellsOfPage t d q.1).foldl (fun u a => cellPut d a { freeCell with st := .retired } u) t) s

/-- Free lists rebuilt from BPM_POOL_CFG: the regions in pool order from page 0 (R222, R245). -/
def rebuildPools (d : Nat) (s : State) : State :=
  let pg := fun k => rdF s (bpmPoolCfg d k) 0 15
  let first := fun k => 16 * ((List.range k).foldl (fun n j => n + pg j) 0)
  let s1 := (List.range 4).foldl (fun t k => poolPut d k ⟨first k, pg k * 16 / cellUnits k, 0, [], []⟩ t)
    { s with bpm := { s.bpm with cells := clearUnit s.bpm.cells d } }
  (List.range 4).foldl (fun t k => poolStatUpdate d k t) (remarkRetired d s1)

def layoutCommit (d : Nat) (s : State) : State :=
  commitGroup (bpmLayoutStat d) (bpmLayoutCommitReg d) (layoutGroup d) (layoutFails s d)
    (fun t => rebuildPools d (commitStaged (layoutGroup d) t)) s
def layoutDiscard (d : Nat) (s : State) : State :=
  discardGroup (bpmLayoutStat d) (bpmLayoutCommitReg d) (layoutGroup d) s

/-- Cells of a pool that are not retired. -/
def liveCells (s : State) (d k : Nat) : Nat :=
  let p := poolGet s d k
  p.cells - ((ofUnit s.bpm.cells d).filter (fun q => q.2.st == .retired && poolOfAddr s d q.1 == some k)).length

def quotaFails (s : State) (d : Nat) : List Nat :=
  let mn := fun r k => fld (rdStg s (bpmMin d r k)) 0 19
  let mx := fun r k => fld (rdStg s (bpmMax d r k)) 0 19
  let rs := List.range 38
  let ks := List.range 4
  (if rs.any (fun r => ks.any (fun k => decide (mx r k < mn r k))) then [1] else []) ++
  (if rs.any (fun r => ks.any (fun k => decide (393216 < mx r k))) then [2] else []) ++
  (if ks.any (fun k => decide (liveCells s d k < rs.foldl (fun n r => n + mn r k) 0)) then [3] else [])

def poolStatsUpdate (d : Nat) (s : State) : State := (List.range 4).foldl (fun t k => poolStatUpdate d k t) s

def quotaCommit (d : Nat) (s : State) : State :=
  commitGroup (bpmQuotaStat d) (bpmQuotaCommitReg d) (quotaGroup d) (quotaFails s d)
    (fun t => poolStatsUpdate d (commitStaged (quotaGroup d) t)) s
def quotaDiscard (d : Nat) (s : State) : State := discardGroup (bpmQuotaStat d) (bpmQuotaCommitReg d) (quotaGroup d) s

def plainBudgetFails (s : State) (d : Nat) : List Nat :=
  let a := rdStg s (bpmBase d + 0x40)
  let b := rdStg s (bpmBase d + 0x44)
  if 12800 < fld a 0 15 + fld a 16 15 + fld b 0 15 then [1] else []
/-- The commit arms the budgets, which take effect at the next period boundary (R29, R433). -/
def plainBudgetCommit (d : Nat) (s : State) : State :=
  commitGroup (bpmBudgetStat d) (bpmBudgetCommitReg d) (plainBudgetGroup d) (plainBudgetFails s d)
    (armStaged (plainBudgetGroup d)) s
def plainBudgetDiscard (d : Nat) (s : State) : State :=
  discardGroup (bpmBudgetStat d) (bpmBudgetCommitReg d) (plainBudgetGroup d) s

/-- What the audit rebuilds for one use count. -/
def rebuiltUse (s : State) (d r k : Nat) : Nat :=
  ((ofUnit s.bpm.cells d).filter (fun q => q.2.st == .allocated && q.2.req == r && q.2.pool == k)).length

/-- Requesters and pools whose stored count differs from the rebuilt one. -/
def useDiffs (s : State) (d : Nat) : List (Nat × Nat) :=
  ((List.range 38).flatMap (fun r => (List.range 4).map (fun k => (r, k)))).filter
    (fun q => useOf s d q.1 q.2 != rebuiltUse s d q.1 q.2)

/-- The audit of a die: counts rebuilt, ownerless quarantined cells freed (R243). -/
def auditDie (d : Nat) (s : State) : State :=
  let diffs := useDiffs s d
  let s1 := diffs.foldl (fun t q => wr (bpmUse d q.1 q.2) (wd (rebuiltUse s d q.1 q.2)) t) s
  let s2 := if diffs = [] then s1 else raise srcBpmLeak 0 7 (bpmBase d / 2 ^ 16) s1
  let quar := (ofUnit s2.bpm.cells d).filter (fun q => q.2.st == .quarantined && q.2.owners == [])
  let s3 := quar.foldl (fun t q =>
    match poolOfAddr t d q.1 with
    | some k => rejoin d k [q.1] (cellPut d q.1 freeCell t)
    | none => t) s2
  poolStatsUpdate d s3

/-- The audits that firmware owes (R242). -/
def auditsDue (s : State) : State :=
  (s.bpm.audits.foldl (fun t d => auditDie d t) { s with bpm := { s.bpm with audits := [] } })

/-- Cells allocated for longer than a threshold in ms: pointer, count of owners, owners. -/
def oldCells (s : State) (d ms : Nat) : List Word :=
  ((ofUnit s.bpm.cells d).filter (fun q => q.2.st == .allocated &&
    decide (ms < (epochNow s d - q.2.epoch) * max 1 (rdF s (bpmEpochReg d) 0 8)))).flatMap
    (fun q => [wd (q.1 + d * 2 ^ 19), wd q.2.owners.length] ++ q.2.owners.map wd)

end Sys2Proof.Machine
end

