-- ==== Sys2Proof/Machine/BpmCmd.lean ====
section
/-! DEFINITION. The commands on the buffer pool managers (R248, R412), and releases and transfers. -/

namespace Sys2Proof.Machine
open Sys2Proof

/-- The payload of BPM_POOL_LAYOUT follows R410: words 0 to 3 the PAGES of pools 0 to 3. -/
def bodyBpmPoolLayout : Body := fun _ f s =>
  lenIs f 16 s <|
  match (List.range 4).find? (fun k => decide (pf f k 15 17 ≠ 0)) with
  | some k => err eRange k s
  | none => commitOn true f (fun d t =>
      layoutCommit d ((List.range 4).foldl (fun x k => stgM (bpmPoolCfg d k) 0x7FFF (pw f k) x) t)) bpmLayoutStat s

/-- The payload of BPM_QUOTA_SET is not laid down; this model's is entries of three words: [5:0] requester and [9:8]
pool, MIN, MAX.  DESIGN CHOICE (log entry 31) -/
def bodyBpmQuotaSet : Body := fun _ f s =>
  lenOk (decide (f.length % 12 = 0) && decide (12 ≤ f.length)) s <|
  let n := f.length / 12
  let bad := fun i =>
    let w := pw f (3 * i)
    if 38 ≤ fld w 0 6 ∨ fld w 6 2 ≠ 0 ∨ fld w 10 22 ≠ 0 then some (3 * i)
    else if pf f (3 * i + 1) 19 13 ≠ 0 then some (3 * i + 1)
    else if pf f (3 * i + 2) 19 13 ≠ 0 then some (3 * i + 2) else none
  match (List.range n).findSome? bad with
  | some w => err eRange (min w 255) s
  | none => commitOn true f (fun d t => quotaCommit d ((List.range n).foldl (fun x i =>
      let r := pf f (3 * i) 0 6
      let k := pf f (3 * i) 8 2
      stgM (bpmMin d r k) 0x7FFFF (pw f (3 * i + 1)) (stgM (bpmMax d r k) 0x7FFFF (pw f (3 * i + 2)) x)) t)) bpmQuotaStat s

/-- A pool's retired and quarantined cells. -/
def lostCells (s : State) (d k : Nat) (c : CellSt) : Nat :=
  ((ofUnit s.bpm.cells d).filter (fun q => q.2.st == c && poolOfAddr s d q.1 == some k)).length

/-- Per die, for each pool, free, reserved and retired cells; then the use counts of every requester. -/
def bodyBpmStatus : Body := fun _ f s =>
  lenIs f 0 s <| readUnits 2 f (fun d =>
    ((List.range 4).flatMap (fun k => [wd (freeCells s d k), wd (reserveOf s d k), wd (lostCells s d k .retired)])) ++
    ((List.range 38).flatMap (fun r => (List.range 4).map (fun k => wd (useOf s d r k))))) s

def bodyBpmBudgetSet : Body := fun _ f s =>
  lenIs f 8 s <|
  inRange (decide (pf f 0 15 1 = 0) && decide (pf f 0 31 1 = 0)) 0 s <| inRange (decide (pf f 1 15 1 = 0)) 1 s <|
  commitOn true f (fun d t => plainBudgetCommit d (stgM (bpmBase d + 0x40) 0x7FFF7FFF (pw f 0)
    (stgM (bpmBase d + 0x44) 0x7FFF (pw f 1) t))) bpmBudgetStat s

/-- The payload of BPM_YELLOW_KEEP follows R410: BPM_YEL_KEEP of pools 0 to 3. -/
def bodyBpmYellowKeep : Body := fun _ f s =>
  lenIs f 16 s <|
  match (List.range 4).find? (fun k => decide (pf f k 19 13 ≠ 0)) with
  | some k => err eRange k s
  | none => eachDie f (fun d t => (List.range 4).foldl (fun x k => wrM (bpmYelKeep d k) 0x7FFFF (pw f k) x) t) s

/-- Word 0 the age threshold in ms.  The answer: the die results, then for each die named the number of use counts
corrected and the cells held longer than the threshold, as many as a response holds. -/
def bodyBpmAudit : Body := fun _ f s =>
  lenIs f 4 s <|
  let r := eachDie f (fun d t => auditDie d t) s
  let more := (bitsOf 2 f.scope).flatMap (fun d => wd (useDiffs s d).length :: oldCells s d (pw f 0).toNat)
  if r.status < 0x10 then { r with words := (r.words ++ more).take 1020 } else r

def bodyBpmCapacity : Body := fun _ f s =>
  lenIs f 0 s <| readUnits 2 f (fun d =>
    (List.range 4).flatMap (fun k => [wd (lostCells s d k .retired), wd (lostCells s d k .quarantined)])) s

/-- A release by an owner (R232), after what a read of the state memory found. -/
def execBpmRelease (d req owner : Nat) (ptr : Word) (bad : BpmErr) (s : State) : Out3 :=
  if d < 2 ∧ req < 38 ∧ owner < 512 then .next (release d req owner ptr (bpmParity d bad s)).2 else .fault .illFormed

/-- A transfer from one owner to another (R234). -/
def execBpmTransfer (d req old new : Nat) (ptr : Word) (bad : BpmErr) (s : State) : Out3 :=
  if d < 2 ∧ req < 38 ∧ old < 512 ∧ new < 512 then .next (transfer d req old new ptr (bpmParity d bad s)).2
  else .fault .illFormed

end Sys2Proof.Machine
end

