-- ==== Sys2Proof/Machine/Identity.lean ====
section
/-! DEFINITION. The identity unit (R519 to R535): measurements, signatures, authority records, the nonce, debug unlock and
SPDM. -/

namespace Sys2Proof.Machine
open Sys2Proof

abbrev secCfg : Nat := secBase + 0x04
def secNonce (w : Nat) : Nat := secBase + 0x20 + 4 * w
abbrev secCntUnlockFail : Nat := secBase + 0x40
abbrev secCntSpdmFail : Nat := secBase + 0x44
abbrev sbKeyOk : Nat := 0
abbrev sbOwner : Nat := 1
abbrev sbUnlocked : Nat := 2
abbrev sbNonceValid : Nat := 3
abbrev sbLockout : Nat := 4

/-! ### Bytes of words (R12) -/

def wordBytes (w : Word) : List Byte := (List.range 4).map (fun i => BitVec.ofNat 8 (fld w (8 * i) 8))
def bytesOf (ws : List Word) : List Byte := ws.flatMap wordBytes
def word32 : List Byte → List Word
  | a :: b :: c :: d :: rest => wd (a.toNat + b.toNat * 2 ^ 8 + c.toNat * 2 ^ 16 + d.toNat * 2 ^ 24) :: word32 rest
  | [] => []
  | [a] => [wd a.toNat]
  | [a, b] => [wd (a.toNat + b.toNat * 2 ^ 8)]
  | [a, b, c] => [wd (a.toNat + b.toNat * 2 ^ 8 + c.toNat * 2 ^ 16)]

/-- Payload words from word i on, as n bytes. -/
def payloadBytes (f : Frame) (i n : Nat) : List Byte := (bytesOf (f.payload.drop i)).take n

/-- n free bytes: nonces, keys, signatures. -/
def freeBytes (n : Nat) (s : State) : List Byte × State :=
  ((List.range n).map (Config.freeByte s.freeCtr), { s with freeCtr := s.freeCtr + 1 })

/-! ### Measurements (R530) -/

/-- A 384-bit digest. -/
def digest (bs : List Byte) : Nat := Config.sha384 bs % 2 ^ 384
def digestOf (s : State) (i : Nat) : Nat := if i = 1 then Config.romDigest % 2 ^ 384 else tget 0 s.sec.digests i

/-- A measurement takes a value; its count rises when that changes it. -/
def measure (i v : Nat) (s : State) : State :=
  if digestOf s i = v then s
  else { s with sec := { s.sec with digests := tset 0 s.sec.digests i v, changes := tmod 0 s.sec.changes i (· + 1) } }

/-- Index 6: straps, grade, SVN_MIN, VENDOR_UNLOCK, DBG_UNLOCKED. -/
def measurePolicy (s : State) : State :=
  measure 6 (digest ((beBytes 4 (rd s (glbBase + 0x20)).toNat) ++
    [BitVec.ofNat 8 (rdF s (glbBase + 4) 8 8), BitVec.ofNat 8 s.sec.svn, BitVec.ofNat 8 (b2n (rdBit s secCfg 0)),
     BitVec.ofNat 8 (b2n (dbgUnlocked s))])) s

/-- Index 5: the owner certificate. -/
def measureOwner (s : State) : State := measure 5 (if s.sec.owner.isEmpty then 0 else digest s.sec.owner) s

/-- The twelve words of a digest, its first byte first. -/
def digestWords (v : Nat) : List Word := word32 (beBytes 48 v)

/-! ### Signatures (R522) -/

/-- A signature by Moennum (0) or the owner key (1) over some bytes. -/
def sigOk (s : State) (signer : Nat) (covered sig : List Byte) : Bool :=
  if signer = 0 then Config.sigMoennum covered sig
  else decide (signer = 1) && !s.sec.owner.isEmpty && Config.sigOwner s.sec.owner covered sig

/-! ### The nonce (R525) and authority records (R524 to R526) -/

/-- A nonce issued: not while LOCKOUT is set. -/
def issueNonce (s : State) : State :=
  if rdBit s secBase sbLockout then s
  else
    let r := freeBytes 32 s
    let s1 := (List.range 8).foldl (fun t w => wr (secNonce w) (wd (beAt r.1 (4 * w) 4)) t) r.2
    wrBit secBase sbNonceValid true { s1 with sec := { s1.sec with nonceAt := s1.tim.cnt } }

/-- The nonce lapses: 60 s after its issue (R525), or when a record is checked against it. -/
def lapseNonce (s : State) : State :=
  wrBit secBase sbNonceValid false ((List.range 8).foldl (fun t w => wr (secNonce w) 0 t) s)

/-- 60 s have passed since a count was taken. -/
def minutePast (start : Nat) (s : State) : Bool := decide (start + 60 * 10 ^ 9 ≤ s.tim.cnt)
def nonceLapse (s : State) : State :=
  if rdBit s secBase sbNonceValid && minutePast s.sec.nonceAt s then lapseNonce s else s
def execNonceLapse (s : State) : Out3 := .next (nonceLapse s)

def nonceBytes (s : State) : List Byte := (List.range 8).flatMap (fun w => beBytes 4 (rd s (secNonce w)).toNat)
def serialBytes (s : State) : List Byte := beBytes 4 (rd s (glbBase + 0xC)).toNat ++ beBytes 4 (rd s (glbBase + 8)).toNat

/-- A record passes for an action; `cert` is the certificate that comes with an action 2 record. -/
def recordPasses (s : State) (action : Nat) (cert r : List Byte) : Bool :=
  let b := fun i => (r.getD i 0).toNat
  let dur := beAt r 48 4
  decide (r.length = 200) && decide (bytesAt r 0 4 = [0x41, 0x55, 0x54, 0x48]) && b 4 == 1 && decide (b 5 ≤ 1) &&
  b 6 == action && b 7 == 0 && beAt r 100 4 == 0 &&
  decide (bytesAt r 8 8 = serialBytes s) && rdBit s secBase sbNonceValid && decide (bytesAt r 16 32 = nonceBytes s) &&
  (if action = 1 then decide (1 ≤ dur) && decide (dur ≤ 86400) else dur == 0) &&
  (if action = 2 then beAt r 52 48 == digest cert else beAt r 52 48 == 0) &&
  !(b 5 == 1 && s.sec.owner.isEmpty) && !(action == 1 && b 5 == 0 && !rdBit s secCfg 0) && !(action != 1 && b 5 == 0) &&
  sigOk s (b 5) (r.take 104) (r.drop 104)

/-- A refused action 1 record: raised, counted; the third within 60 s sets LOCKOUT. -/
def unlockRefused (s : State) : State :=
  let mine := (s.sec.refused.filter (fun t => decide (s.tim.cnt < t + 60 * 10 ^ 9))) ++ [s.tim.cnt]
  let s1 := raise srcSecUnlockFail 0 0 0 (inc secCntUnlockFail { s with sec := { s.sec with refused := mine } })
  if 3 ≤ mine.length then
    wrBit secBase sbLockout true { s1 with sec := { s1.sec with refused := [], lockAt := s1.tim.cnt } }
  else s1

/-- A record checked: nothing is checked under LOCKOUT; the first check of a nonce consumes it. -/
def checkRecord (action : Nat) (cert r : List Byte) (s : State) : Bool × State :=
  if rdBit s secBase sbLockout then (false, s)
  else
    let good := recordPasses s action cert r
    let s1 := lapseNonce s
    if good then (true, s1) else (false, if action = 1 then unlockRefused s1 else s1)

/-- LOCKOUT ends 60 s after it was set (R526). -/
def lockoutEnd (s : State) : State :=
  if rdBit s secBase sbLockout && minutePast s.sec.lockAt s then wrBit secBase sbLockout false s else s
def execLockoutEnd (s : State) : Out3 := .next (lockoutEnd s)

/-! ### Debug unlock (R527, R528) -/

def debugLock (s : State) : State :=
  measurePolicy (wrBit secBase sbUnlocked false { s with sec := { s.sec with unlockEnd := 0 } })

/-- SEC_STAT as it reads: UNLOCK_LEFT counts the seconds left. -/
def secStat (s : State) : Word :=
  if dbgUnlocked s then setFld (rd s secBase) 16 16 (min 65535 ((s.sec.unlockEnd - s.tim.cnt + 10 ^ 9 - 1) / 10 ^ 9))
  else rd s secBase

/-- The unlock ends when its duration has passed (R527). -/
def unlockExpiry (s : State) : State :=
  if dbgUnlocked s && decide (s.sec.unlockEnd ≤ s.tim.cnt) then debugLock s else s
def execUnlockExpiry (s : State) : Out3 := .next (unlockExpiry s)

/-- What the identity unit's own timers do as time passes. -/
def secService (s : State) : State := unlockExpiry (lockoutEnd (nonceLapse s))

def bodyDebugUnlock : Body := fun _ f s =>
  lenIs f 200 s <|
  let r := payloadBytes f 0 200
  let q := checkRecord 1 [] r s
  if q.1 then
    let s1 := { q.2 with sec := { q.2.sec with unlockEnd := q.2.tim.cnt + beAt r 48 4 * 10 ^ 9 } }
    ok [] (measurePolicy (raise srcSecDebugUnlock 0 0 0 (wrBit secBase sbUnlocked true s1)))
  else err eAuth 0 q.2

def bodyDebugLock : Body := fun _ f s => lenIs f 0 s <| ok [] (debugLock s)

/-- Word 0: [0] VENDOR_UNLOCK; the record follows while an owner certificate is installed (R529).  DESIGN CHOICE (log entry 37) -/
def bodyDebugPolicy : Body := fun _ f s =>
  let set := fun (t : State) => ok [] (measurePolicy (wr secCfg (wd (pf f 0 0 1))
    { t with sec := { t.sec with vendor := bit (pw f 0) 0 } }))
  if s.sec.owner.isEmpty then lenIs f 4 s <| inRange (decide (pf f 0 1 31 = 0)) 0 s <| set s
  else lenIs f 204 s <| inRange (decide (pf f 0 1 31 = 0)) 0 s <|
    let r := payloadBytes f 1 200
    let good := checkRecord 1 [] r s
    if !good.1 then err eAuth 0 good.2
    else if (r.getD 5 0).toNat = 1 then set good.2
    else err eAuth 0 (unlockRefused good.2)

/-! ### Reading the chain and the measurements -/

/-- Word 0: [0] 0 the device chain, 1 the owner certificate; word 1 the first byte, word 2 the number of bytes, at most
4,072.  The response: the length of the whole, then the bytes.  DESIGN CHOICE (log entry 37) -/
def bodyIdCertRead : Body := fun _ f s =>
  lenIs f 12 s <| inRange (decide ((pw f 0).toNat ≤ 1)) 0 s <|
  let bs := if bit (pw f 0) 0 then s.sec.owner else Config.deviceChain
  inRange (decide ((pw f 1).toNat ≤ bs.length)) 1 s <| inRange (decide ((pw f 2).toNat ≤ 4072)) 2 s <|
  ok (wd bs.length :: word32 ((bs.drop (pw f 1).toNat).take (pw f 2).toNat)) s

/-- Word 0: the index of R530.  The response: twelve words of digest, and the count.  DESIGN CHOICE (log entry 37) -/
def bodyMeasurementRead : Body := fun _ f s =>
  lenIs f 4 s <| inRange (decide (1 ≤ (pw f 0).toNat ∧ (pw f 0).toNat ≤ 8)) 0 s <|
  ok (digestWords (digestOf s (pw f 0).toNat) ++ [wd (tget 0 s.sec.changes (pw f 0).toNat)]) s

/-- SVN_MIN rises to the active image's security version. -/
def bodySvnCommit : Body := fun _ f s =>
  lenIs f 0 s <|
  let v := max s.sec.svn (Config.imageSvn s.start.image % 256)
  ok [] (measurePolicy (wrF secBase 8 8 v { s with sec := { s.sec with svn := v } }))

/-! ### SPDM (R531, R532) -/

/-- One exchange on a path, 0 PF0 and 1 the mailbox; the measurements as they stand when the unit answers. -/
def spdmExchange (path : Nat) (req : List Word) (s : State) : List Word × State :=
  let p := tget 0 s.sec.spdm path
  let s1 := { s with sec := { s.sec with spdm := tset 0 s.sec.spdm path (Config.spdmNext p req) } }
  let s2 := if Config.spdmFails p req then raise srcSpdmFail 0 0 0 (inc secCntSpdmFail s1) else s1
  ((Config.spdmAnswer p req ((List.range 8).map (fun i => digestOf s (i + 1)))).take 1020, s2)

def bodySpdmMsg : Body := fun _ f s =>
  lenOk (decide (0 < f.length)) s <|
  let r := spdmExchange 1 f.payload s
  ok r.1 r.2
def execSpdmDoeRequest (words : List Word) (s : State) : Out3 :=
  let r := spdmExchange 0 words s
  .next (emit (.doe r.1) r.2)

end Sys2Proof.Machine
end

