-- ==== Sys2Proof/Machine/GateArith.lean ====
section
/-! DEFINITION. The arithmetic of gate lists, shared by port gates and stream gates (R293, R295, R296). -/

namespace Sys2Proof.Machine
open Sys2Proof

/-- The offset of a time within the gate cycle that it falls in. -/
def cycleOffset (base cycle t : Nat) : Nat := (((t : Int) - base) % (cycle : Int)).toNat

/-- The last entry whose interval is not zero. -/
def lastNonZero (ivs : List Nat) : Option Nat :=
  ((ivs.zipIdx).filter (fun p => p.1 != 0)).getLast?.map (·.2)

/-- The entry in force at an offset: entries of interval 0 are skipped, and past the last the last non-zero one stays. -/
def entryAt (ivs : List Nat) (offset : Nat) : Option Nat :=
  let r := ivs.zipIdx.foldl (fun (acc : Nat × Option Nat) p =>
    match acc.2 with
    | some _ => acc
    | none => if p.1 ≠ 0 ∧ offset < acc.1 + p.1 then (acc.1, some p.2) else (acc.1 + p.1, none)) (0, none)
  match r.2 with
  | some i => some i
  | none => lastNonZero ivs

/-- The entry in force at a time, with a change to come at `tc` whose last old cycle may be extended by `ext`: the cycle
before it continues with the entry that was in force at its end. -/
def entryInForce (ivs : List Nat) (base cycle ext : Nat) (tc : Option Nat) (t : Nat) : Option Nat :=
  match tc with
  | some c =>
    let left := cycleOffset base cycle c
    if 0 < left ∧ left < ext ∧ c ≤ t + left then entryAt ivs (cycle - 1) else entryAt ivs (cycleOffset base cycle t)
  | none => entryAt ivs (cycleOffset base cycle t)

/-- The change time of a list committed at `now` (R293): its base, or the first cycle boundary 4 µs from now. -/
def changeTime (now base cycle : Nat) : Nat :=
  let tmin := now + 4000
  if tmin ≤ base then base
  else if cycle = 0 then tmin
  else base + (tmin - base + cycle - 1) / cycle * cycle

end Sys2Proof.Machine
end

