-- ==== Sys2Proof/Machine/Gates.lean ====
section
/-! DEFINITION. The gate lists of the egress ports (R291 to R303): the staged group, its commit and discard, the change
time, the list in force, the fit of a frame before a close, W_c, and holds. -/

namespace Sys2Proof.Machine
open Sys2Proof

/-! ### Registers -/

def gatReg (p off : Nat) : Nat := gatBase (dieOf p) + 0x1000 + 0x40 * (p % 128) + off
def gatPortCfg (p : Nat) : Nat := gatReg p 0x00
def gatAdmin (p i : Nat) : Nat := gatReg p (0x04 + 4 * i)
def gatCommit (p : Nat) : Nat := gatReg p 0x1C
def gatStat (p : Nat) : Nat := gatReg p 0x20
def gatHoldAdv (p : Nat) : Nat := gatReg p 0x24
def gatChange (p i : Nat) : Nat := gatReg p (0x28 + 4 * i)
def gatCntOverrun (p : Nat) : Nat := gatReg p 0x34
def gatCntStep (p : Nat) : Nat := gatReg p 0x38

/-- The staged registers of a port's group. -/
def gatGroup (p a : Nat) : Bool := decide (gatAdmin p 0 ≤ a) && decide (a ≤ gatAdmin p 5)

def emptyBank : GateBank := ⟨0, 0, 0, 0, []⟩
def restGate : GatePort := ⟨[], [], emptyBank, false, none, 0xFF, false, false, none⟩
def gatOf (s : State) (p : Nat) : GatePort := tget restGate s.gat p
def setGat (p : Nat) (x : GatePort) (s : State) : State := { s with gat := tset restGate s.gat p x }

def bankEntry (m : Sparse (Word × Word)) (i : Nat) : Word × Word := tget (0, 0) m i

/-! ### Entries (R291, R295) -/

def entryInterval (e : Word × Word) : Nat := fld e.1 0 24
def entryGates (e : Word × Word) : Nat := fld e.2 0 8
def entryOp (e : Word × Word) : Nat := fld e.2 8 2
def entryBad (e : Word × Word) : Bool := decide (fld e.1 24 8 ≠ 0) || decide (fld e.2 10 22 ≠ 0) || decide (entryOp e = 3)

def bankIntervals (b : GateBank) : List Nat := (List.range b.len).map (fun i => entryInterval (bankEntry b.entries i))

/-- The list that is in force at a time: the operational one, or from its fixed change time on the pending one. -/
def adminBank (s : State) (p : Nat) : GateBank :=
  ⟨(rd s (gatAdmin p 0)).toNat,
   w64 (rd s (gatAdmin p 2)) (rd s (gatAdmin p 3)) * 10 ^ 9 + (rd s (gatAdmin p 1)).toNat,
   (rd s (gatAdmin p 4)).toNat, (rd s (gatAdmin p 5)).toNat, (gatOf s p).admin⟩
def listAt (s : State) (p t : Nat) : GateBank × Option Nat :=
  match (gatOf s p).tc with
  | some c => if c ≤ t then (adminBank s p, none) else ((gatOf s p).oper, some c)
  | none => ((gatOf s p).oper, none)

/-- The entry in force at a time; none while the list's LENGTH is 0. -/
def gateEntryAt (s : State) (p t : Nat) : Option (Word × Word) :=
  let q := listAt s p t
  if q.1.len = 0 then none
  else (entryInForce (bankIntervals q.1) q.1.base q.1.cycle q.1.ext q.2 t).map (bankEntry q.1.entries)

/-- The gates that a port's list and the validity of network time give at a time (R297, R303). -/
def gatesAt (s : State) (p t : Nat) : Nat :=
  if (listAt s p t).1.len = 0 then 0xFF
  else if !timValid s then rdF s (gatPortCfg p) 8 8
  else match gateEntryAt s p t with
    | some e => entryGates e
    | none => 0xFF

/-- The first time after t at which the entry in force may change. -/
def nextBoundary (s : State) (p t : Nat) : Option Nat :=
  let q := listAt s p t
  if q.1.len = 0 then q.2
  else
    let ivs := bankIntervals q.1
    let off := cycleOffset q.1.base q.1.cycle t
    let ends := ((List.range ivs.length).map (fun i => (ivs.take (i + 1)).sum)).filter (fun e => decide (off < e))
    let b := t - off + min ((ends.min?).getD q.1.cycle) q.1.cycle
    some (match q.2 with | some c => min b c | none => b)

/-! ### The fit of a frame (R298, R299) -/

/-- The gate of class c stays open from t on at least until `till`, both in ns. -/
def openUntil (s : State) (p c : Nat) : Nat → Nat → Nat → Bool
  | 0, _, _ => true
  | fuel + 1, t, till =>
    nbit (gatesAt s p t) c &&
    (match nextBoundary s p t with
      | none => true
      | some b => decide (till ≤ b) || openUntil s p c fuel b till)

/-- A span of `bits` bits plus `more` ns on a port, in units of 2^-48 ns, rounded up. -/
def spanOf (rate bits more : Nat) : Nat := (bits * 1000 * tick + rate - 1) / rate + more * tick

/-- The gate of a class is open now and stays open for the span of a frame of `b` bytes plus 4 ns. -/
def gateFits (s : State) (p c b : Nat) : Bool :=
  match portRec s p with
  | none => false
  | some r =>
    nbit (gatOf s p).gates c &&
    (if (listAt s p (netNs s)).1.len = 0 ∧ (gatOf s p).tc = none then true
     else if !timValid s then nbit (gatesAt s p (netNs s)) c
     else
       let till := (s.tim.now + spanOf (portRate r) (8 * b) 4 + tick - 1) / tick
       openUntil s p c (till - netNs s + 1) (netNs s) till)

/-- The longest run of open bits in the gates of a list's cycle, from segments of (length, open), wrapping. -/
def longestRun : List (Nat × Bool) → Nat → Nat → Nat
  | [], _, best => best
  | (n, true) :: r, cur, best => longestRun r (cur + n) (max best (cur + n))
  | (_, false) :: r, _, best => longestRun r 0 best

/-- The segments of a list's cycle: each entry's part of it, the last non-zero entry to the cycle's end. -/
def cycleSegs (b : GateBank) : List (Nat × Nat) :=
  let ivs := bankIntervals b
  let segs := (List.range b.len).map (fun i =>
    let start := (ivs.take i).sum
    let stop := if lastNonZero ivs = some i then max b.cycle start else start + ivs.getD i 0
    (min stop b.cycle - min start b.cycle, entryGates (bankEntry b.entries i)))
  segs.filter (fun x => x.1 != 0)

/-- W_c of a list in ns; none is unbounded. -/
def windowOf (b : GateBank) (c : Nat) : Option Nat :=
  if b.len = 0 then none
  else
    let segs := (cycleSegs b).map (fun x => (x.1, nbit x.2 c))
    if segs.all (fun x => x.2) then none else some (longestRun (segs ++ segs) 0 0)

/-- A head frame that can never fit: W_c is not 0 and shorter than its transmission time plus 4 ns. -/
def gateLong (s : State) (p c b : Nat) : Bool :=
  match portRec s p, windowOf (gatOf s p).oper c with
  | some r, some w => decide (w ≠ 0) && decide (w * tick < spanOf (portRate r) (8 * b) 4)
  | _, _ => false

/-! ### Preemption and holds (R300) -/

/-- Preemption is active on a port, and a class is preemptable. -/
def preemptActive (s : State) (p : Nat) : Bool := rdBit s (gatPortCfg p) 16 && rdBit s (gatPortCfg p) 19
def preemptable (s : State) (p c : Nat) : Bool := preemptActive s p && nbit (rdF s (gatPortCfg p) 0 8) c
def holdAsserted (s : State) (p : Nat) : Bool :=
  preemptActive s p && ((gatOf s p).holdOp || (gatOf s p).holdClose)

/-- Bytes of a first fragment with its overhead, and of the tail. -/
def firstFragment (s : State) (p : Nat) : Nat := (rdF s (gatPortCfg p) 17 2 + 1) * 64 + 24
def tailBytes (s : State) (p : Nat) : Nat := (rdF s (gatPortCfg p) 17 2 + 1) * 64 + 87

/-- An entry that asserts a hold starts before a time, or the gate of a preemptable class closes then: the next hold. -/
def holdBefore (s : State) (p : Nat) : Nat → Nat → Nat → Bool
  | 0, _, _ => false
  | fuel + 1, t, till =>
    match nextBoundary s p t with
    | none => false
    | some b =>
      let op1 := match gateEntryAt s p b with | some e => entryOp e == 1 | none => false
      let adv := if op1 then rdF s (gatHoldAdv p) 0 16 else 0
      let closes := (List.range 8).any (fun c => preemptable s p c && nbit (gatesAt s p t) c && !nbit (gatesAt s p b) c)
      let tail := match portRec s p with
        | some r => (spanOf (portRate r) (8 * tailBytes s p) 0 + tick - 1) / tick
        | none => 0
      let lead := max (if op1 then adv else 0) (if closes then tail else 0)
      ((op1 || closes) && decide (b < till + lead)) ||
      (decide (b < till + 65536) && holdBefore s p fuel b till)

/-- A class's frame of charge `b` may begin on a port now: its gate, and for a preemptable class the holds. -/
def gateEligible (s : State) (p c b : Nat) : Bool :=
  if preemptable s p c then
    nbit (gatOf s p).gates c && !holdAsserted s p && gateFits s p c (min b (firstFragment s p)) &&
    (match portRec s p with
     | none => false
     | some r =>
       let till := (s.tim.now + spanOf (portRate r) (8 * min b (firstFragment s p)) 4 + tick - 1) / tick
       !(timValid s) || !holdBefore s p 1024 (netNs s) till)
  else gateFits s p c b

/-! ### Gates as they change (R294, R301 to R303) -/

/-- The gates set to those of the present; a frame on the wire whose gate has closed is an overrun, but for a preemptable
frame, whose fragment the hold ahead of the close has ended (R300, R301). -/
def gateRefresh (p : Nat) (s : State) : State :=
  let x := gatOf s p
  let g := gatesAt s p (netNs s)
  let s1 := setGat p { x with gates := g } s
  match x.wire with
  | some c => if nbit x.gates c && !nbit g c && !(preemptable s p c && holdAsserted s p) then raise srcGatOverrun p 0 0 (inc (gatCntOverrun p) s1) else s1
  | none => s1

def bankWords (b : GateBank) : List Word :=
  [wd b.len, wd (b.base % 10 ^ 9), loW (b.base / 10 ^ 9), hiW (b.base / 10 ^ 9), wd b.cycle, wd b.ext]

/-- GAT_CHANGE shows T_c of the pending list, 0 when there is none. -/
def showChange (p : Nat) (tc : Option Nat) (s : State) : State :=
  let t := tc.getD 0
  wr (gatChange p 2) (hiW (t / 10 ^ 9)) (wr (gatChange p 1) (loW (t / 10 ^ 9)) (wr (gatChange p 0) (wd (t % 10 ^ 9)) s))

/-- The banks exchange: the pending list becomes operational, the former operational bank the admin bank. -/
def gateSwitch (p : Nat) (s : State) : State :=
  let x := gatOf s p
  let new := adminBank s p
  let s1 := (bankWords x.oper).zipIdx.foldl (fun t q => wr (gatAdmin p q.2) q.1 t) s
  let s2 := setGat p { x with admin := x.oper.entries, oper := new, pending := false, tc := none } s1
  let s3 := wrF (gatStat p) 8 11 new.len (wrBit (gatStat p) 6 true (wrBit (gatStat p) 5 false s2))
  let s4 := gateRefresh p (showChange p none s3)
  setGat p { gatOf s4 p with holdOp := false, holdClose := false } s4

/-- A pending list whose change time has come. -/
def gateDue (p : Nat) (s : State) : State :=
  match (gatOf s p).tc with
  | some c => if (gatOf s p).pending ∧ c ≤ netNs s then gateSwitch p s else s
  | none => s

/-- The change time of a pending list fixed at the present (R293). -/
def fixChange (p : Nat) (s : State) : State :=
  let b := adminBank s p
  let t := changeTime (netNs s) b.base (if b.len = 0 then 0 else b.cycle)
  showChange p (some t) (setGat p { gatOf s p with tc := some t } s)

/-- The ports that exist. -/
def allPorts (s : State) : List Nat := (s.ports.ports.filter (fun q => q.2.isSome)).map (·.1)
/-- The ports whose gates differ from their rest. -/
def gatedPorts (s : State) : List Nat := s.gat.map (·.1)

/-- A step of network time: every port's position is computed anew and counted, and a pending list that time has passed
becomes operational (R302). -/
def gatesStepped (s : State) : State :=
  let s1 := (allPorts s).foldl (fun t p => raise srcGatStep p 0 0 (inc (gatCntStep p) t)) s
  (gatedPorts s1).foldl (fun t p => gateRefresh p (gateDue p t)) s1

/-- Network time becomes valid: pending lists get their change time, lists resume (R303). -/
def gatesValid (s : State) : State :=
  (gatedPorts s).foldl (fun t p =>
    gateRefresh p (if (gatOf t p).pending ∧ (gatOf t p).tc = none then fixChange p t else t)) s

/-- Network time becomes invalid: gates at INV_GATES, no hold; pending lists stay pending, their change time to be fixed
anew. -/
def gatesInvalid (s : State) : State :=
  (gatedPorts s).foldl (fun t p =>
    gateRefresh p (showChange p none (setGat p { gatOf t p with tc := none, holdOp := false, holdClose := false } t))) s

/-! ### The staged group (R292, R293) -/

/-- A write to an admin parameter: dropped while a list is pending. -/
def gatStagedWrite (p i : Nat) (v : Word) (m : Nat) (s : State) : State :=
  if (gatOf s p).pending then wrBit (gatStat p) 7 true s else stgM (gatAdmin p i) m v s

/-- A write to an admin entry. -/
def gatEntryWrite (p i : Nat) (e : Word × Word) (s : State) : State :=
  if (gatOf s p).pending then wrBit (gatStat p) 7 true s
  else
    let x := gatOf s p
    let old := bankEntry x.admin i
    setGat p { x with stg := tset none x.stg i (if e = old then none else some e) } s

/-- The admin bank as a commit would make it. -/
def stagedBank (s : State) (p : Nat) : GateBank :=
  let x := gatOf s p
  let v := fun i => rdStg s (gatAdmin p i)
  ⟨(v 0).toNat, w64 (v 2) (v 3) * 10 ^ 9 + (v 1).toNat, (v 4).toNat, (v 5).toNat,
   x.stg.foldl (fun m q => match q.2 with | some e => tset (0, 0) m q.1 e | none => m) x.admin⟩

/-- The REASONs that refuse a commit, of those that apply. -/
def gateFaults (b : GateBank) (baseNs : Nat) : List Nat :=
  let es := (List.range (min b.len 1024)).map (bankEntry b.entries)
  (if 1024 < b.len then [1] else []) ++
  (if b.len ≠ 0 ∧ b.cycle < 256 then [2] else []) ++
  (if b.len ≠ 0 ∧ es.all (fun e => entryInterval e == 0) = true then [3] else []) ++
  (if es.any entryBad then [4] else []) ++
  (if 10 ^ 9 ≤ baseNs then [5] else [])

/-- RESULT and REASON of GAT_LIST_STAT. -/
def gatResult (p res reason : Nat) (s : State) : State := wrF (gatStat p) 0 5 (res + 4 * reason) s

/-- GAT_LIST_COMMIT: the group is checked, becomes pending and its change time is fixed, or waits for valid time. -/
def gatListCommit (p : Nat) (s : State) : State :=
  let b := stagedBank s p
  match (gateFaults b (rdStg s (gatAdmin p 1)).toNat ++ (if stagedBad (gatGroup p) s then [7] else [])).min? with
  | some r => gatResult p 2 r s
  | none =>
    let s1 := closeGroup (gatCommit p) (commitStaged (gatGroup p) s)
    let s2 := setGat p { gatOf s1 p with admin := b.entries, stg := [], pending := true, tc := none } s1
    let s3 := gatResult p 1 0 (wrBit (gatStat p) 5 true s2)
    if timValid s3 then fixChange p s3 else showChange p none s3

/-- GAT_LIST_COMMIT.DISCARD: staged values go, and a pending change ends. -/
def gatListDiscard (p : Nat) (s : State) : State :=
  let s1 := closeGroup (gatCommit p) (discardStaged (gatGroup p) s)
  let s2 := setGat p { gatOf s1 p with stg := [], pending := false, tc := none } s1
  showChange p none (gatResult p 3 0 (wrBit (gatStat p) 5 false s2))

/-- A write of GAT_PORT_CFG: ignored for a port that does not exist; clearing PREEMPT_EN ends preemption. -/
def gatPortCfgWrite (p : Nat) (v : Word) (s : State) : State :=
  if portExists s p then
    let s1 := wrM (gatPortCfg p) 0x7FFFF v s
    let s2 := if bit v 16 then s1 else setGat p { gatOf s1 p with holdOp := false, holdClose := false }
      (wrBit (gatPortCfg p) 19 false s1)
    gateRefresh p s2
  else s

/-! ### Events -/

/-- The pending list's change time. -/
def execGateChangeTime (p : Nat) (s : State) : Out3 := needs (decide (p < 256)) (if p < 256 then gateDue p s else s)

/-- The entry in force starts: its gates, and for OP 2 the release of the hold (R295, R300).  `bad` says that its row
was read with bad parity twice: the row is flagged, and firmware rewrites it (R36). -/
def entryStart (p : Nat) (bad : Bool) (s : State) : State :=
  if bad then raise srcGatParity p 8 0 (flagSpare clsGat (p / 16) (p % 16) 8 0 s)
  else if !timValid s then s
  else match gateEntryAt s p (netNs s) with
    | none => s
    | some e =>
      let s1 := gateRefresh p s
      let x := gatOf s1 p
      setGat p { x with holdClose := false, holdOp := if entryOp e = 2 then false else x.holdOp } s1
def execGateEntryStart (p : Nat) (bad : Bool) (s : State) : Out3 :=
  needs (decide (p < 256)) (if p < 256 then entryStart p bad s else s)

/-- A hold is asserted ahead of an OP 1 entry, or ahead of a close of a preemptable class's gate (R300). -/
def holdAssert (p : Nat) (op1 : Bool) (s : State) : State :=
  let x := gatOf s p
  if preemptActive s p && timValid s && decide ((listAt s p (netNs s)).1.len ≠ 0) then
    setGat p (if op1 then { x with holdOp := true } else { x with holdClose := true }) s
  else s
def execGateHoldAssert (p : Nat) (op1 : Bool) (s : State) : Out3 :=
  needs (decide (p < 256)) (if p < 256 then holdAssert p op1 s else s)

/-- IEEE 802.3br verification ends on a port. -/
def verifyDone (p : Nat) (good : Bool) (s : State) : State :=
  if !rdBit s (gatPortCfg p) 16 then s
  else if good then gateRefresh p (wrBit (gatPortCfg p) 19 true s)
  else raise srcPreemptVerifyFail p 0 0 (wrBit (gatPortCfg p) 19 false s)
def execPreemptVerifyDone (p : Nat) (good : Bool) (s : State) : Out3 :=
  needs (portExists s p) (if portExists s p then verifyDone p good s else s)

/-! ### Commands (R413; payloads of GATE_LIST_READ, GATE_PORT_CFG and GATE_LIST_DISCARD are this model's) -/

def gateStgOf (s : State) (p : Nat) : List (Word × Word) := tget [] s.mbx.gateStg p
def setGateStg (p : Nat) (l : List (Word × Word)) (s : State) : State :=
  { s with mbx := { s.mbx with gateStg := tset [] s.mbx.gateStg p l } }

/-- Entries written into a staging list from index `first` on; it grows with zero entries as far as it must. -/
def stageEntries (first : Nat) (es l : List (Word × Word)) : List (Word × Word) :=
  let l1 := l ++ List.replicate (first + es.length - l.length) (0, 0)
  l1.take first ++ es ++ l1.drop (first + es.length)

/-- The entries and parameters written into the admin group, a list that is pending ended before; and committed. -/
def gateSetStage (p : Nat) (f : Frame) (s : State) : State :=
  let s1 := if (gatOf s p).pending then gatListDiscard p s else s
  let s2 := (gateStgOf s p).zipIdx.foldl (fun t q => gatEntryWrite p q.2 q.1 t) s1
  (List.range 6).foldl (fun t i => wrStg (gatAdmin p i) (if i = 3 then pw f 6 &&& 0xFFFF else pw f (3 + i)) t) s2
def gateSetCommit (p : Nat) (f : Frame) (s : State) : State := gatListCommit p (gateSetStage p f s)

def bodyGateListSet : Body := fun _ f s =>
  let n := (pw f 2).toNat
  inRange (decide (f.length < 12) || decide (n ≤ 505)) 2 s <| lenIs f (36 + 8 * n) s <|
  inRange (decide (pf f 0 8 24 = 0) && portExists s (pf f 0 0 8)) 0 s <|
  inRange (decide ((pw f 1).toNat + n ≤ 1024)) 1 s <|
  let p := pf f 0 0 8
  let es := (List.range n).map (fun i => (pw f (9 + 2 * i), pw f (10 + 2 * i)))
  let s1 := setGateStg p (stageEntries (pw f 1).toNat es (gateStgOf s p)) s
  if !nbit f.opts 0 then ok [wd (rdF s1 (gatStat p) 0 5), rd s1 (gatChange p 0), rd s1 (gatChange p 1), rd s1 (gatChange p 2)] s1
  else
    let t := gateSetCommit p f s1
    if rdF t (gatStat p) 0 2 = 2 then err eRange (0x80 + rdF t (gatStat p) 2 3) s
    else ok [wd (rdF t (gatStat p) 0 5), rd t (gatChange p 0), rd t (gatChange p 1), rd t (gatChange p 2)] t

def bodyGateListRead : Body := fun _ f s =>
  lenIs f 16 s <| inRange (decide ((pw f 0).toNat < 256) && portExists s (pw f 0).toNat) 0 s <|
  inRange (decide ((pw f 1).toNat ≤ 1)) 1 s <|
  inRange (decide ((pw f 2).toNat + (pw f 3).toNat ≤ 1024) && decide ((pw f 3).toNat ≤ 501)) 3 s <|
  let p := (pw f 0).toNat
  let b := if pw f 1 = 0 then adminBank s p else (gatOf s p).oper
  let w := fun c => match windowOf (gatOf s p).oper c with | some n => wd n | none => 0xFFFFFFFF
  ok (bankWords b ++ [rd s (gatStat p), rd s (gatChange p 0), rd s (gatChange p 1), rd s (gatChange p 2)] ++
    (List.range 8).map w ++
    (List.range (pw f 3).toNat).flatMap (fun i =>
      let e := bankEntry b.entries ((pw f 2).toNat + i)
      [e.1, e.2])) s

def bodyGatePortCfg : Body := fun _ f s =>
  lenIs f 12 s <| inRange (decide ((pw f 0).toNat < 256) && portExists s (pw f 0).toNat) 0 s <|
  inRange (decide (pf f 1 19 13 = 0)) 1 s <| inRange (decide (pf f 2 16 16 = 0)) 2 s <|
  let p := (pw f 0).toNat
  ok [] (wrM (gatHoldAdv p) 0xFFFF (pw f 2) (gatPortCfgWrite p (pw f 1) s))

def bodyGateListDiscard : Body := fun _ f s =>
  lenIs f 4 s <| inRange (decide ((pw f 0).toNat < 256) && portExists s (pw f 0).toNat) 0 s <|
  ok [] (setGateStg (pw f 0).toNat [] (gatListDiscard (pw f 0).toNat s))

end Sys2Proof.Machine
end

