-- ==== Sys2Proof/Machine/ExactMatch.lean ====
section
/-! DEFINITION. Exact-match tables and learning (chapter 5): the hash, searches, inserts, deletes, promotion, eviction,
learning, aging, the learn ring, repair, and the commands and events of the family. -/

namespace Sys2Proof.Machine
open Sys2Proof

/-! ### Entries, registers and counters -/

def emptyEm : EmEntry := ⟨0, 0, 0, false, false, 0⟩
def emptyOvf : OvfEntry := ⟨emptyEm, 0⟩

/-- Offsets of the EMT registers in a glen's block (R151). -/
def emtHashCfg (g : Nat) : Nat := glnBase g + 0x10004
def emtSeed (g : Nat) : Nat := glnBase g + 0x10008
def emtAgeCfg (g : Nat) : Nat := glnBase g + 0x10010
def emtAgeStat (g : Nat) : Nat := glnBase g + 0x10014
def emtFilter (g : Nat) : Nat := glnBase g + 0x10020
def emtTblCfg (g t : Nat) : Nat := glnBase g + 0x10040 + 4 * t
def emtRing (g : Nat) : Nat := glnBase g + 0x10100
def emtOcc (g : Nat) : Nat := glnBase g + 0x10200
def emtCnt (g i : Nat) : Nat := glnBase g + 0x10300 + 4 * i
def emtKeyHdr (g k srch : Nat) : Nat := glnBase g + 0x10400 + 4 * (2 * k + srch)
def emtKeyBytes (g k srch w : Nat) : Nat := glnBase g + 0x10800 + 4 * (6 * k + 3 * srch + w)
def emtKeyCommit (g : Nat) : Nat := glnBase g + 0x10E00
def emtKeyStat (g : Nat) : Nat := glnBase g + 0x10E04

/-- Indices of the EMT counters (R151). -/
abbrev cHitDst : Nat := 0
abbrev cMissDst : Nat := 1
abbrev cMissDrop : Nat := 2
abbrev cHitSrc : Nat := 3
abbrev cBadAct : Nat := 4
abbrev cStaticMove : Nat := 5
abbrev cEvict : Nat := 6
abbrev cAged : Nat := 7
abbrev cLost : Nat := 8
abbrev cFull : Nat := 9
abbrev cLrnSuppr : Nat := 10
abbrev cLrnQdrop : Nat := 11
abbrev cLrnLost : Nat := 12
abbrev cAgeQdrop : Nat := 13

def ageNow (s : State) (g : Nat) : Nat := rdF s (emtAgeStat g) 0 12

/-- The fields of EMT_TBL_CFG. -/
def tblEn (s : State) (g t : Nat) : Bool := rdBit s (emtTblCfg g t) 0
def tblLearn (s : State) (g t : Nat) : Nat := rdF s (emtTblCfg g t) 1 2
def tblEvict (s : State) (g t : Nat) : Nat := rdF s (emtTblCfg g t) 3 2
def tblNotifyAged (s : State) (g t : Nat) : Bool := rdBit s (emtTblCfg g t) 5
def tblMissAct (s : State) (g t : Nat) : Nat := rdF s (emtTblCfg g t) 6 2
def tblAgeLimit (s : State) (g t : Nat) : Nat := rdF s (emtTblCfg g t) 10 12

/-- The action word of R118: its TYPE and a TYPE 0 port. -/
def actType (a : Word) : Nat := fld a 30 2
def actPort (a : Word) : Nat := fld a 14 8
def actToPort (p : Nat) : Word := wd (p * 2 ^ 14)

def bktGet (s : State) (g b i : Nat) : EmEntry := tget emptyEm s.glens.em (key g (4 * b + i))
def bktPut (g b i : Nat) (e : EmEntry) (s : State) : State :=
  { s with glens := { s.glens with em := tset emptyEm s.glens.em (key g (4 * b + i)) e } }
def bktRetired (s : State) (g b : Nat) : Bool := tget false s.glens.bktRetired (key g b)

/-- Valid overflow entries of a glen, in index order. -/
def ovfValid (s : State) (g : Nat) : List (Nat × OvfEntry) := (ofUnit s.glens.ovf g).filter (fun p => p.2.e.valid)

/-- EMT_OCC as the store and the retired buckets stand. -/
def occUpdate (g : Nat) (s : State) : State :=
  wr (emtOcc g) (wd ((ovfValid s g).length + 2 ^ 14 * ((ofUnit s.glens.bktRetired g).length))) s

def ovfPut (g i : Nat) (e : OvfEntry) (s : State) : State :=
  occUpdate g { s with glens := { s.glens with ovf := tset emptyOvf s.glens.ovf (key g i) e } }

/-- An entry with VALID clear (R131). -/
def invalid (e : EmEntry) : EmEntry := { e with valid := false }

/-- The operations that wait for a memory of the glens. -/
def updQueue (s : State) (u : Nat) : List QueuedOp := tget [] s.glens.updQ u
def setUpdQueue (u : Nat) (l : List QueuedOp) (s : State) : State :=
  { s with glens := { s.glens with updQ := tset [] s.glens.updQ u l } }

/-- A row found bad waits for firmware to rewrite it, kind 0 a bucket, 1 a prefix bucket; packets whose lookup reads it
meanwhile are discarded (R36). -/
def awaitsFix (s : State) (g kind i : Nat) : Bool := (updQueue s (glenMem g 0)).any (fun q => decide (q.op = .rowFix kind i))
def queueFix (g kind i : Nat) (s : State) : State :=
  if awaitsFix s g kind i then s
  else setUpdQueue (glenMem g 0) (updQueue s (glenMem g 0) ++ [⟨.rowFix kind i, none, [0]⟩]) s

/-! ### The hash (R121) -/

/-- One bit, one byte and a message of the reflected CRC-32C. -/
def crcBit (c : Nat) : Nat := if c % 2 = 1 then (c / 2) ^^^ 0x82F63B78 else c / 2
def crcByte (c b : Nat) : Nat :=
  crcBit (crcBit (crcBit (crcBit (crcBit (crcBit (crcBit (crcBit (c ^^^ b))))))))
def crc32c (seed : Nat) (msg : List Nat) : Nat := msg.foldl crcByte seed ^^^ 0xFFFFFFFF

def rotr32 (x r : Nat) : Nat := (x / 2 ^ r + x * 2 ^ (32 - r)) % 2 ^ 32

/-- A number's bytes, highest first. -/
def natBytes (n v : Nat) : List Nat := (List.range n).map (fun i => v / 256 ^ (n - 1 - i) % 256)

/-- The home bucket of a key in a glen. -/
def homeBucket (s : State) (g table k : Nat) : Nat :=
  rotr32 (crc32c (rd s (emtSeed g)).toNat (table :: natBytes 12 k)) (rdF s (emtHashCfg g) 0 5) % 2 ^ 17

/-! ### Searching (R120, R123) -/

/-- An entry found: where it lies, and the entry. -/
structure EmHit where
  inOvf : Bool
  idx : Nat
  e : EmEntry
  deriving DecidableEq, Repr

def emMatches (table k : Nat) (e : EmEntry) : Bool := e.valid && e.table == table && e.key == k

def ovfFind (s : State) (g table k : Nat) : Option EmHit :=
  ((ovfValid s g).find? (fun p => emMatches table k p.2.e)).map (fun p => ⟨true, p.1, p.2.e⟩)

/-- The slot of a bucket that holds a key. -/
def bktFind (s : State) (g b table k : Nat) : Option EmHit :=
  ((List.range 4).find? (fun i => emMatches table k (bktGet s g b i))).map (fun i => ⟨false, i, bktGet s g b i⟩)

/-- A search: the overflow store first, then the home bucket unless it is retired. -/
def emFind (s : State) (g table k : Nat) : Option EmHit :=
  match ovfFind s g table k with
  | some h => some h
  | none =>
    let b := homeBucket s g table k
    if bktRetired s g b then none else bktFind s g b table k

/-- A found entry rewritten where it lies. -/
def emRewrite (g b : Nat) (h : EmHit) (e : EmEntry) (s : State) : State :=
  if h.inOvf then ovfPut g h.idx ⟨e, b⟩ s else bktPut g b h.idx e s

/-! ### The learn ring (R140 to R142) -/

/-- The entry a record concerns. -/
structure LrnRec where
  reason : Nat
  table : Nat
  key : Nat
  isStatic : Bool
  port : Nat
  oldPort : Nat
  age : Nat
  act : Word
  bucket : Nat
  inOvf : Bool

def lrnWords (s : State) (g : Nat) (r : LrnRec) : List Word :=
  let b := emtRing g
  [wd (r.reason + r.table * 2 ^ 8 + b2n r.isStatic * 2 ^ 10 + b2n (ringSt s b).loss * 2 ^ 11 + g * 2 ^ 12 +
       (rd s (b + 0xC)).toNat % 2 ^ 16 * 2 ^ 16),
   wd (r.port + r.oldPort * 2 ^ 8 + r.age * 2 ^ 16), r.act, wd (r.bucket + b2n r.inOvf * 2 ^ 17),
   wd r.key, wd (r.key / 2 ^ 32), wd (r.key / 2 ^ 64), wd (netNanos s)]

/-- A record posted: with EN clear NEW and MOVED are not posted and another record is counted lost; one that finds the
ring full is lost, counted and raises LRN_RING_LOST. -/
def postRecord (g : Nat) (r : LrnRec) (s : State) : State :=
  let b := emtRing g
  if !rdBit s (b + 8) 0 then (if r.reason ≤ 2 then s else inc (emtCnt g cLrnLost) s)
  else
    let q := ringPost b 256 1 (lrnWords s g r) s
    if q.1 then q.2 else raise srcLrnRingLost 0 2 g (inc (emtCnt g cLrnLost) q.2)

/-- The record of an entry that leaves the table or is hit from another port: EVICTED, AGED, LOST or MOVED. -/
def entryRec (s : State) (g reason port : Nat) (e : EmEntry) (inOvf : Bool) : LrnRec :=
  ⟨reason, e.table, e.key, e.isStatic, port, if actType e.action = 0 then actPort e.action else 0,
   if reason = 2 then ageNow s g else e.age, e.action, homeBucket s g e.table e.key, inOvf⟩

abbrev lrNew : Nat := 1
abbrev lrMoved : Nat := 2
abbrev lrInserted : Nat := 3
abbrev lrEvicted : Nat := 4
abbrev lrAged : Nat := 5
abbrev lrLost : Nat := 6
abbrev lrInsertFailed : Nat := 7

/-! ### Changing the table (R126 to R132) -/

/-- A promotion into a bucket queued, when an overflow entry has it as HOME and the bucket is not retired (R132, R148). -/
def queuePromotion (g b : Nat) (s : State) : State :=
  let q := tget [] s.glens.promo g
  if (ovfValid s g).any (fun p => p.2.home == b) && !q.contains b && !bktRetired s g b then
    { s with glens := { s.glens with promo := tset [] s.glens.promo g (q ++ [b]) } }
  else s

/-- The next value of a glen's LFSR, polynomial x^16 + x^14 + x^13 + x^11 + 1; it starts from SEED[15:0], or 1 for a
zero (R130). -/
def lfsrState (s : State) (g : Nat) : Nat :=
  match tget 0 s.glens.lfsr g with
  | 0 => let v := (resetOf (emtSeed g)).toNat % 2 ^ 16; if v = 0 then 1 else v
  | v + 1 => v + 1
def lfsrNext (x : Nat) : Nat :=
  let f := (x + x / 4 + x / 8 + x / 32) % 2
  x / 2 + f * 2 ^ 15

/-- Candidates for eviction: non-static entries of the home bucket, then of the overflow store with that HOME. -/
def victims (s : State) (g b : Nat) : List EmHit :=
  ((List.range 4).filterMap (fun i =>
    let e := bktGet s g b i
    if e.valid && !e.isStatic then some ⟨false, i, e⟩ else none)) ++
  ((ovfValid s g).filterMap (fun p => if p.2.home == b && !p.2.e.isStatic then some ⟨true, p.1, p.2.e⟩ else none))

/-- The first candidate of the largest age. -/
def oldest (now : Nat) : List EmHit → Option EmHit
  | [] => none
  | h :: t => match oldest now t with
    | none => some h
    | some o => if (now + 4096 - o.e.age) % 4096 ≤ (now + 4096 - h.e.age) % 4096 then some h else some o

/-- The victim the table's EVICT policy chooses, and the LFSR advanced by RANDOM (R130). -/
def chooseVictim (s : State) (g b table : Nat) : Option EmHit × State :=
  let c := victims s g b
  match tblEvict s g table with
  | 1 =>
    if c.isEmpty then (none, s) else
      let n := lfsrNext (lfsrState s g)
      ((c.drop (n % c.length)).head?, { s with glens := { s.glens with lfsr := tset 0 s.glens.lfsr g n } })
  | 2 => (oldest (ageNow s g) c, s)
  | _ => (none, s)

/-- The lowest free overflow entry. -/
def ovfFree (s : State) (g : Nat) : Option Nat :=
  let used := (ovfValid s g).map (·.1) ++ (ofUnit s.glens.ovfRetired g).map (·.1)
  (List.range 8192).find? (fun i => !used.contains i)

/-- The lowest free slot of a bucket. -/
def bktFree (s : State) (g b : Nat) : Option Nat := (List.range 4).find? (fun i => !(bktGet s g b i).valid)

/-- What an operation of the update unit answers: its result code and the access slots it took. -/
structure OpRes where
  code : Nat
  slots : Nat
  st : State

/-- The insert of R127. -/
def emInsert (g table k : Nat) (act : Word) (isStatic : Bool) (s : State) : OpRes :=
  let b := homeBucket s g table k
  let e : EmEntry := ⟨k, act, ageNow s g, isStatic, true, table⟩
  match ovfFind s g table k with
  | some h => ⟨rUpdated, 0, ovfPut g h.idx ⟨e, b⟩ s⟩
  | none =>
    match bktFind s g b table k with
    | some h => ⟨rUpdated, 3, bktPut g b h.idx e s⟩
    | none =>
      match (if bktRetired s g b then none else bktFree s g b) with
      | some i => ⟨rInserted, 4, bktPut g b i e s⟩
      | none =>
        match ovfFree s g with
        | some i => ⟨rInsertedOvf, 1, ovfPut g i ⟨e, b⟩ s⟩
        | none =>
          match chooseVictim s g b table with
          | (none, s1) => ⟨rFull, 1, inc (emtCnt g cFull) s1⟩
          | (some v, s1) =>
            ⟨rInserted, 4, postRecord g (entryRec s1 g lrEvicted 0 v.e v.inOvf)
              (inc (emtCnt g cEvict) (emRewrite g b v e s1))⟩

/-- An entry's VALID cleared where it lies; a freed bucket slot queues a promotion (R131, R132). -/
def emRemove (g b : Nat) (h : EmHit) (s : State) : State :=
  if h.inOvf then ovfPut g h.idx ⟨invalid h.e, b⟩ s else queuePromotion g b (bktPut g b h.idx (invalid h.e) s)

/-- The delete of R131. -/
def emDelete (g table k : Nat) (s : State) : OpRes :=
  let b := homeBucket s g table k
  match ovfFind s g table k with
  | some h => ⟨rDeleted, 0, emRemove g b h s⟩
  | none =>
    match bktFind s g b table k with
    | some h => ⟨rDeleted, 3, emRemove g b h s⟩
    | none => ⟨rNotFound, 1, s⟩

/-- The valid entries of a glen with where they lie: buckets first, then the overflow store. -/
def emAll (s : State) (g : Nat) : List (Nat × EmHit) :=
  ((ofUnit s.glens.em g).filterMap (fun p => if p.2.valid then some (p.1 / 4, ⟨false, p.1 % 4, p.2⟩) else none)) ++
  ((ovfValid s g).map (fun p => (p.2.home, ⟨true, p.1, p.2.e⟩)))

/-- The entries that TBL_FLUSH names: those of a table, of a port's TYPE 0 action when a port is selected, static or not. -/
def flushed (s : State) (g table : Nat) (portEn : Bool) (port : Nat) (selStatic selOther : Bool) : List (Nat × EmHit) :=
  (emAll s g).filter (fun p => p.2.e.table == table &&
    (!portEn || (actType p.2.e.action == 0 && actPort p.2.e.action == port)) &&
    (if p.2.e.isStatic then selStatic else selOther))
def removeAll (g : Nat) (l : List (Nat × EmHit)) (s : State) : State := l.foldl (fun t p => emRemove g p.1 p.2 t) s

/-- The deletes of TBL_FLUSH. -/
def emFlush (g table : Nat) (portEn : Bool) (port : Nat) (selStatic selOther : Bool) (s : State) : OpRes :=
  let sel := flushed s g table portEn port selStatic selOther
  ⟨rDone, sel.foldl (fun n p => n + if p.2.inOvf then 0 else 3) 0, removeAll g sel s⟩

/-- The overflow entry that a promotion moves, and the slot it takes: the bucket's lowest-index one into its lowest free
slot; none when the slot is taken or the bucket retired (R132, R148). -/
def promotable (s : State) (g b : Nat) : Option (Nat × OvfEntry × Nat) :=
  if bktRetired s g b then none
  else match bktFree s g b, (ovfValid s g).find? (fun p => p.2.home == b) with
    | some i, some (j, o) => some (j, o, i)
    | _, _ => none

/-- One promotion: the bucket slot written and validated, then the overflow entry cleared. -/
def promote (g b j : Nat) (o : OvfEntry) (i : Nat) (s : State) : State :=
  ovfPut g j { o with e := invalid o.e } (bktPut g b i o.e s)

/-! ### Repair and retirement (R148, R149) -/

/-- A bucket's entries moved to free overflow entries in slot order, or deleted and posted LOST. -/
def moveOut (g b : Nat) : List Nat → State → State
  | [], s => s
  | i :: is, s =>
    let e := bktGet s g b i
    if e.valid then
      match ovfFree s g with
      | some j => moveOut g b is (bktPut g b i (invalid e) (ovfPut g j ⟨e, b⟩ s))
      | none => moveOut g b is (postRecord g (entryRec s g lrLost 0 e false)
          (inc (emtCnt g cLost) (bktPut g b i (invalid e) s)))
    else moveOut g b is s

/-- The macro that holds a bucket row, as UNIT kind 3 and as `flagRow` number it (R482). -/
def bktMacro (g b : Nat) : Nat := 80 * g + 5 * (b / 8192) + (b % 8192) / 2048
def bktFlagMac (g b : Nat) : Nat := g * 64 + b / 2048

/-- A bucket retired: its entries moved, the bucket listed, no promotion into it, SPARE_EXHAUSTED raised with the row and
the four entries lost. -/
def retireBucket (g b : Nat) (s : State) : State :=
  let s1 := moveOut g b (List.range 4) s
  raiseLost (b % 2048) 4 3 (bktMacro g b)
    (occUpdate g { s1 with glens := { s1.glens with
      bktRetired := tset false s1.glens.bktRetired (key g b) true,
      promo := tmod [] s1.glens.promo g (fun q => q.filter (fun x => x != b)) } })

/-- Bad parity in a bucket's row on the replay too: EMT_PARITY raised, the row flagged (R36, R148).  An age stamp that
reads bad does no more. -/
def flagBucket (g b : Nat) (s : State) : State :=
  flagRow clsEm (bktFlagMac g b) (b % 2048) 16 (retireBucket g b) (raise srcEmtParity b 8 (bktMacro g b) s)

/-- A bucket that reads bad: its row flagged, its rewrite by firmware queued. -/
def badBucket (g b : Nat) (s : State) : State := queueFix g 0 b (flagBucket g b s)

/-- A verify read that finds bad data twice: as after a second parity error, and the operation reports FAILED (R129). -/
def verifyFailed (g b : Nat) (s : State) : State := raise srcGlnUpdateFail 0 2 g (badBucket g b s)

/-! ### Learning (R133 to R136, R145) -/

/-- The key is in the glen's filter, posted less than HOLD ago (R135). -/
def inFilter (s : State) (g table k : Nat) : Bool :=
  let hold := rdF s (emtFilter g) 0 16 * 1000
  (tget [] s.glens.filter g).any (fun f => f.table == table && f.key == k && decide (s.tim.cnt - f.time < hold))

/-- A key posted as NEW or MOVED enters the filter; the least recently posted of 256 gives way. -/
def filterAdd (g table k : Nat) (s : State) : State :=
  let rest := (tget [] s.glens.filter g).filter (fun f => !(f.table == table && f.key == k))
  let kept := if rest.length < 256 then rest else rest.drop 1
  { s with glens := { s.glens with filter := tset [] s.glens.filter g (kept ++ [⟨table, k, s.tim.cnt⟩]) } }

/-- A NEW or MOVED joins the pending queue of 64, or is dropped and counted (R136). -/
def learnQueue (g : Nat) (p : LearnPend) (s : State) : State :=
  let q := tget [] s.glens.pend g
  if q.length < 64 then { s with glens := { s.glens with pend := tset [] s.glens.pend g (q ++ [p]) } }
  else inc (emtCnt g cLrnQdrop) s

/-- A frame's FCS result reaches the notifications that wait for it: withdrawn, suppressed by the filter, or released
(R133, R135). -/
def learnFcs (g pkt : Nat) (good : Bool) (s : State) : State :=
  let q := tget [] s.glens.pend g
  let mine := q.filter (fun p => p.pkt == pkt && !p.good)
  let supp := mine.filter (fun p => good && inFilter s g p.table p.key)
  let q' := q.filterMap (fun p =>
    if p.pkt == pkt && !p.good then
      if !good || inFilter s g p.table p.key then none else some { p with good := true }
    else some p)
  incBy (emtCnt g cLrnSuppr) supp.length { s with glens := { s.glens with pend := tset [] s.glens.pend g q' } }

/-- A record posted, and its key put into the filter, unless EN is clear (R135, R151). -/
def postFiltered (g : Nat) (r : LrnRec) (s : State) : State :=
  if rdBit s (emtRing g + 8) 0 then filterAdd g r.table r.key (postRecord g r s) else s

/-- The hardware insert of AUTO and its record, INSERTED or INSERT_FAILED (R134, R142); nothing for a key that is static by
now.  `fails`: its verify read finds bad data twice. -/
def autoInsert (g : Nat) (p : LearnPend) (fails : Bool) (s : State) : Nat × State :=
  let b := homeBucket s g p.table p.key
  if (emFind s g p.table p.key).any (fun h => h.e.isStatic) then (1, s)
  else
    let r := emInsert g p.table p.key (actToPort p.port) false s
    if fails && decide (3 ≤ r.slots) then (r.slots, verifyFailed g b s)
    else
      let full := decide (r.code = rFull)
      (r.slots, postRecord g ⟨if full then lrInsertFailed else lrInserted, p.table, p.key, false, p.port, 0, ageNow s g,
        if full then 0 else actToPort p.port, b, (ovfFind r.st g p.table p.key).isSome⟩ r.st)

/-- The hardware rewrite of AUTO: the entry as it stands now; nothing when it is gone, static, of another TYPE or at the
port already (R134). -/
def autoMove (g : Nat) (p : LearnPend) (fails : Bool) (s : State) : Nat × State :=
  let b := homeBucket s g p.table p.key
  match emFind s g p.table p.key with
  | some h =>
    if h.e.isStatic || actType h.e.action != 0 || actPort h.e.action == p.port then (1, s)
    else if fails && !h.inOvf then (4, verifyFailed g b s)
    else (4, postFiltered g (entryRec s g lrMoved p.port h.e h.inOvf)
      (emRewrite g b h { h.e with action := setFld h.e.action 14 8 p.port } s))
  | none => (1, s)

/-- A NEW or MOVED posted under the table's LEARN field (R134), and the access slots it takes. -/
def learnPost (g : Nat) (p : LearnPend) (fails : Bool) (s : State) : Nat × State :=
  let b := homeBucket s g p.table p.key
  let auto := tblLearn s g p.table == 2
  if p.reason = lrNew then
    if auto then autoInsert g p fails s
    else (1, postFiltered g ⟨lrNew, p.table, p.key, false, p.port, 0, ageNow s g, 0, b, false⟩ s)
  else if auto && !p.isStatic then autoMove g p fails s
  else (1, postFiltered g
    ⟨lrMoved, p.table, p.key, p.isStatic, p.port, actPort p.act, ageNow s g, p.act, b, p.inOvf⟩ s)

/-- Takes the first released notification out of the queue. -/
def takeGood : List LearnPend → Option (LearnPend × List LearnPend)
  | [] => none
  | p :: ps => if p.good then some (p, ps) else (takeGood ps).map (fun q => (q.1, p :: q.2))

abbrev actUpdate : Nat := 0
abbrev actLearn : Nat := 1
abbrev actScrub : Nat := 2
abbrev actDump : Nat := 3
abbrev actDebug : Nat := 4
/-- The scanner's reads of a period against SCAN_SLOTS are counted beside the budgets. -/
abbrev actScan : Nat := 5

/-- One released notification gets its slot (R134 to R136). -/
def learnService (g : Nat) (fails : Bool) (s : State) : State :=
  let u := glenMem g 0
  match takeGood (tget [] s.glens.pend g) with
  | none => s
  | some (p, rest) =>
    if hasSlot s u actLearn then
      let s1 := { s with glens := { s.glens with pend := tset [] s.glens.pend g rest } }
      if tblLearn s g p.table = 0 then s1
      else if inFilter s g p.table p.key then inc (emtCnt g cLrnSuppr) s1
      else let r := learnPost g p fails s1; charge u actLearn r.1 r.2
    else waited u actLearn s

/-! ### Aging (R137 to R139) -/

/-- A refresh joins the queue of 256, or is dropped and counted (R138). -/
def ageQueue (g table k : Nat) (s : State) : State :=
  let q := tget [] s.glens.ageQ g
  if q.length < 256 then { s with glens := { s.glens with ageQ := tset [] s.glens.ageQ g (q ++ [(table, k)]) } }
  else inc (emtCnt g cAgeQdrop) s

/-- The next refresh gets its slot. -/
def ageRefresh (g : Nat) (s : State) : State :=
  let u := glenMem g 0
  match tget [] s.glens.ageQ g with
  | [] => s
  | (table, k) :: rest =>
    if hasSlot s u actLearn then
      let s1 := charge u actLearn 1 { s with glens := { s.glens with ageQ := tset [] s.glens.ageQ g rest } }
      match emFind s1 g table k with
      | some h => if h.e.isStatic then s1 else
          emRewrite g (homeBucket s1 g table k) h { h.e with age := ageNow s1 g } s1
      | none => s1
    else waited u actLearn s

/-- A pass starts: from the first bucket. -/
def scanStart (g : Nat) (s : State) : State :=
  { s with glens := { s.glens with scanPos := tset 0 s.glens.scanPos g 0, scanIdle := tset false s.glens.scanIdle g false } }

/-- AGE_NOW advances, PASS_DONE clears and a pass starts. -/
def ageAdvance (g : Nat) (s : State) : State :=
  scanStart g (wr (emtAgeStat g) (wd ((ageNow s g + 1) % 4096)) s)

/-- The count at which a glen's next tick falls due, and whether it has come. -/
def nextTick (s : State) (g : Nat) : Nat := tget 0 s.glens.tickAt g + rdF s (emtAgeCfg g) 0 16 * 10 ^ 6
def tickDue (s : State) (g : Nat) : Bool := rdF s (emtAgeCfg g) 0 16 != 0 && decide (nextTick s g ≤ s.tim.cnt)
def tickFrom (g t : Nat) (s : State) : State := { s with glens := { s.glens with tickAt := tset 0 s.glens.tickAt g t } }

/-- An aging tick, every TICK: AGE_NOW advances when a pass has completed, or the tick is deferred and counted (R137). -/
def ageTick (g : Nat) (s0 : State) : State :=
  let s := tickFrom g (nextTick s0 g) s0
  if !tickDue s0 g then s0
  else if rdBit s (emtAgeStat g) 12 then ageAdvance g s
  else { s with glens := { s.glens with tickLate := tmod 0 s.glens.tickLate g (· + 1),
                                        tickLateCnt := tmod 0 s.glens.tickLateCnt g (fun n => (n + 1) % 2 ^ 32) } }

/-- The entry is aged out (R139). -/
def agedOut (s : State) (g : Nat) (e : EmEntry) : Bool :=
  e.valid && !e.isStatic && decide (tblAgeLimit s g e.table ≠ 0) &&
  decide (tblAgeLimit s g e.table ≤ (ageNow s g + 4096 - e.age) % 4096)

/-- The scanner deletes an aged entry; a verify read of a bucket that fails leaves it (R129). -/
def ageDelete (g b : Nat) (h : EmHit) (fails : Bool) (s : State) : State :=
  if fails && !h.inOvf then charge (glenMem g 0) actLearn 2 (verifyFailed g b s) else
  let s1 := charge (glenMem g 0) actLearn 2 (inc (emtCnt g cAged) (emRemove g b h s))
  if tblNotifyAged s g h.e.table then postRecord g (entryRec s g lrAged 0 h.e h.inOvf) s1 else s1

/-- The scanner's position moves on; a pass that ends sets PASS_DONE, and one deferred tick is then taken. -/
def scanAdvance (g : Nat) (s : State) : State :=
  let p := tget 0 s.glens.scanPos g + 1
  if p < 131072 + 8192 then { s with glens := { s.glens with scanPos := tset 0 s.glens.scanPos g p } }
  else
    let s1 := wrBit (emtAgeStat g) 12 true
      { s with glens := { s.glens with scanPos := tset 0 s.glens.scanPos g 0, scanIdle := tset false s.glens.scanIdle g true } }
    if tget 0 s1.glens.tickLate g = 0 then s1
    else ageAdvance g { s1 with glens := { s1.glens with tickLate := tmod 0 s1.glens.tickLate g (· - 1) } }

/-- What the scanner deletes of a bucket: an entry whose age stamp reads bad has the current age (R36); a row that reads
bad shows none. -/
def scanAged (s : State) (g b : Nat) (bad : ScanBad) : List Nat :=
  if bad = .row ∨ bktRetired s g b then []
  else (List.range 4).filter (fun i => agedOut s g (bktGet s g b i) && bad != .age i)
def scanFlags (g b : Nat) (bad : ScanBad) (s : State) : State :=
  match bad with
  | .row => badBucket g b s
  | .age _ => flagBucket g b s
  | _ => s

/-- The scanner reads one bucket, or one overflow entry, and deletes what has aged (R139). -/
def ageScan (g : Nat) (bad : ScanBad) (s : State) : State :=
  let u := glenMem g 0
  let p := tget 0 s.glens.scanPos g
  if rdF s (emtAgeCfg g) 0 16 = 0 ∨ tget false s.glens.scanIdle g then s
  else if p < 131072 then
    if hasSlot s u actLearn ∧ usedOf s u actScan < rdF s (emtAgeCfg g) 16 12 then
      let s1 := charge u actLearn 1 { s with bud := { s.bud with used := tmod 0 s.bud.used (budKey u actScan) (· + 1) } }
      scanAdvance g (scanFlags g p bad
        ((scanAged s1 g p bad).foldl (fun t i => ageDelete g p ⟨false, i, bktGet s1 g p i⟩ (bad == .verify) t) s1))
    else waited u actLearn s
  else
    let i := p - 131072
    let o := tget emptyOvf s.glens.ovf (key g i)
    scanAdvance g (if agedOut s g o.e then ageDelete g o.home ⟨true, i, o.e⟩ false s else s)


/-! ### Key layouts (R115, R151) -/

/-- The staged group of a glen's key layouts (R434). -/
def keyGroup (g a : Nat) : Bool :=
  let b := glnBase g
  (decide (b + 0x10400 ≤ a) && decide (a < b + 0x10E00)) || (decide (b + 0x20400 ≤ a) && decide (a < b + 0x20500)) ||
  (decide (b + 0x30400 ≤ a) && decide (a < b + 0x30500)) || (decide (b + 0x31000 ≤ a) && decide (a < b + 0x32400)) ||
  (decide (b + 0x40400 ≤ a) && decide (a < b + 0x40500))

/-- The twelve key bytes of a search (R115): the VID, a byte of the key buffer, or zero. -/
def emKeyOf (s : State) (g k srch vid : Nat) (kb : List Byte) : Nat :=
  let pos := rdF s (emtKeyHdr g k srch) 4 4
  (List.range 12).foldl (fun acc j =>
    let sel := rdF s (emtKeyBytes g k srch (j / 4)) (8 * (j % 4)) 7
    let v := if pos ≤ 10 ∧ j = pos then vid / 256 else if pos ≤ 10 ∧ j = pos + 1 then vid % 256
      else if sel < 80 then (kb.getD sel 0).toNat else 0
    acc * 256 + v) 0

/-- The VID of a lookup: the low 12 bits of key bytes 12 and 13, the port's default VID for zero (R115). -/
def vidOf (s : State) (port : Nat) (kb : List Byte) : Nat :=
  let v := beAt kb 12 2 % 4096
  if v = 0 then rdF s (emtPortCfg port) 0 12 else v

end Sys2Proof.Machine
end

