-- ==== Sys2Proof/Machine/PrefixTcam.lean ====
section
/-! DEFINITION. Prefix routes and TCAM classification (chapter 6): routes, next hops, rules, searches, soft errors, the
update units' queues, and the commit of key layouts. -/

namespace Sys2Proof.Machine
open Sys2Proof

/-! ### Registers -/

def lpmOcc (g : Nat) : Nat := glnBase g + 0x20000
def lpmSeed (g : Nat) : Nat := glnBase g + 0x20004
def lpmCnt (g i : Nat) : Nat := glnBase g + 0x20300 + 4 * i
def lpmKeyCfg (g k : Nat) : Nat := glnBase g + 0x20400 + 4 * k
def tcmGen (g : Nat) : Nat := glnBase g + 0x30000
def tcmOcc (g : Nat) : Nat := glnBase g + 0x30004
def tcmScrubCfg (g : Nat) : Nat := glnBase g + 0x30008
def tcmPortClass (p : Nat) : Nat := glnBase (glenOf p) + 0x30080 + 4 * (p % 32)
def tcmCnt (g i : Nat) : Nat := glnBase g + 0x30300 + 4 * i
def tcmKeyHdr (g k : Nat) : Nat := glnBase g + 0x30400 + 4 * k
def tcmKeyBytes (g k w : Nat) : Nat := glnBase g + 0x31000 + 4 * (20 * k + w)
def stmKeyCfg (g k : Nat) : Nat := glnBase g + 0x40400 + 4 * k

/-! ### Routes and next hops (R155 to R163) -/

def famBits (fam : Nat) : Nat := if fam = 0 then 32 else 64
def famMax (fam : Nat) : Nat := famBits fam
def routeCost (fam : Nat) : Nat := if fam = 0 then 1 else 3

/-- The route is one that R157 admits. -/
def routeOk (r : Route) : Bool :=
  decide (r.len ≤ famMax r.fam) && decide (r.pfx % 2 ^ (famBits r.fam - r.len) = 0) && decide (1 ≤ r.count) &&
  decide (r.count ≤ 16) && decide (r.nh + r.count ≤ 65536)

def routesOf (s : State) (g : Nat) : List Route := tget [] s.glens.routes g
def routeUnits (l : List Route) : Nat := l.foldl (fun n r => n + routeCost r.fam) 0
def rowsRetired (s : State) (g : Nat) : Nat := (ofUnit s.glens.pfxRetired g).length

/-- LPM_OCC as the routes and the retired rows stand. -/
def lpmOccUpdate (g : Nat) (s : State) : State := wr (lpmOcc g) (wd (routeUnits (routesOf s g) + 2 ^ 19 * rowsRetired s g)) s

/-- Routes of a glen replaced. -/
def setRoutes (g : Nat) (l : List Route) (s : State) : State :=
  lpmOccUpdate g { s with glens := { s.glens with routes := tset [] s.glens.routes g l } }

/-- A prefix bucket row retired: it gives up 12 units (R161). -/
def retirePrefix (g i : Nat) (s : State) : State :=
  raiseLost (i % 2048) 12 3 (80 * g + 5 * (i / 2048) + 4)
    (lpmOccUpdate g { s with glens := { s.glens with pfxRetired := tset false s.glens.pfxRetired (key g i) true } })

/-- A prefix bucket row with bad parity on the replay too: as an exact-match row (R36, R161). -/
def badPrefix (g i : Nat) (s : State) : State :=
  queueFix g 1 i (flagRow clsPfx (g * 16 + i / 2048) (i % 2048) 16 (retirePrefix g i)
    (raise srcLpmParity i 8 (80 * g + 5 * (i / 2048) + 4) s))

def sameRoute (a b : Route) : Bool := a.vrf == b.vrf && a.fam == b.fam && a.pfx == b.pfx && a.len == b.len

/-- Slots of the table memory that a route change takes (R163): 2, or 6 for an insert with rebalance, and 2 for each bucket
whose cover records change, of those that the route encloses.  Which buckets those are depends on the balancing, which
the spec does not lay down: both are free. -/
def routeSlots (r : Route) (insert : Bool) (s : State) : Nat × State :=
  let a := freeW s
  let b := freeW a.2
  ((if insert && bit b.1 0 then 6 else 2) + 2 * (a.1.toNat % (min 32768 (2 ^ (famBits r.fam - r.len)) + 1)), b.2)

/-- A route insert or update (R157, R159). -/
def routeInsert (g : Nat) (r : Route) (s : State) : OpRes :=
  let l := routesOf s g
  if l.any (sameRoute r) then
    let q := routeSlots r false s
    ⟨rUpdated, q.1, setRoutes g (l.map (fun x => if sameRoute r x then r else x)) q.2⟩
  else if 393216 - 12 * rowsRetired s g < routeUnits l + routeCost r.fam then ⟨rFull, 2, s⟩
  else let q := routeSlots r true s; ⟨rInserted, q.1, setRoutes g (l ++ [r]) q.2⟩

def routeRemove (g : Nat) (r : Route) (s : State) : OpRes :=
  let l := routesOf s g
  if l.any (sameRoute r) then
    let q := routeSlots r false s
    ⟨rDeleted, q.1, setRoutes g (l.filter (fun x => !sameRoute r x)) q.2⟩
  else ⟨rNotFound, 2, s⟩

/-- The route covers the address. -/
def covers (vrf fam addr : Nat) (r : Route) : Bool :=
  r.vrf == vrf && r.fam == fam && r.pfx / 2 ^ (famBits fam - r.len) == addr / 2 ^ (famBits fam - r.len)

/-- The longest route of a VRF and family that covers an address (R156). -/
def longest (vrf fam addr : Nat) (l : List Route) : Option Route :=
  l.foldl (fun best r => if covers vrf fam addr r then
    match best with
    | some b => if b.len < r.len then some r else best
    | none => some r
    else best) none

/-- A next-hop entry; unwritten ones drop (R158). -/
abbrev nhReset : Word := 0x80000000
def nhGet (s : State) (g i : Nat) : Word := tget nhReset s.glens.nextHop (key g i)
def nhSet (g i : Nat) (w : Word) (s : State) : State :=
  { s with glens := { s.glens with nextHop := tset nhReset s.glens.nextHop (key g i) w } }

/-- The member of a next-hop group that a flow takes (R158). -/
def nhMember (s : State) (g : Nat) (r : Route) (kb : List Byte) : Nat :=
  if r.count = 1 then r.nh
  else
    let msg := ((kb.getD 20 0) :: bytesAt kb 24 36).map (·.toNat)
    r.nh + crc32c (rd s (lpmSeed g)).toNat msg % r.count

/-! ### Rules (R164, R165, R167 to R176) -/

def emptyRule : Rule := ⟨false, false, 0, 0, 0, [], [], 0, 0, 0⟩
def ruleGet (s : State) (g i : Nat) : Rule := tget emptyRule s.glens.rules (key g i)
def sliceBad (s : State) (g i : Nat) : Bool := tget false s.glens.sliceRetired (key g i)

/-- Rules of a glen that hold their slices: VALID or EXCLUDE set. -/
def heldRules (s : State) (g : Nat) : List (Nat × Rule) :=
  (ofUnit s.glens.rules g).filter (fun p => p.2.valid || p.2.exclude)

/-- TCM_OCC as the rules and the retired slices stand. -/
def tcmOccUpdate (g : Nat) (s : State) : State :=
  wr (tcmOcc g) (wd ((heldRules s g).foldl (fun n p => n + p.2.width) 0 + 2 ^ 16 * (ofUnit s.glens.sliceRetired g).length)) s

/-- The header word of a rule (R165). -/
def ruleHdr (r : Rule) : Word :=
  wd (r.width + r.group * 16 + b2n r.valid * 256 + b2n r.exclude * 512 + r.prio * 2 ^ 16)

/-- A rule with the header that a header word spells. -/
def withHdr (h : Word) (r : Rule) : Rule :=
  { r with width := fld h 0 4, group := fld h 4 4, valid := bit h 8, exclude := bit h 9, prio := fld h 16 16 }

/-- A rule as it lies in the array, and a rule written, whose header goes into its mirror or firmware's record too. -/
def ruleRaw (g i : Nat) (r : Rule) (s : State) : State :=
  tcmOccUpdate g { s with glens := { s.glens with rules := tset emptyRule s.glens.rules (key g i) r } }
def ruleSet (g i : Nat) (r : Rule) (s : State) : State := ruleRaw g i { r with hdr := ruleHdr r } s

def genUp (g n : Nat) (s : State) : State := incBy (tcmGen g) n s

/-- A rule of width w may be placed at INDEX i (R164): within one aligned group of eight, overlapping no other rule
that is held and no retired slice. -/
def placeOk (s : State) (g i w : Nat) : Bool :=
  decide (1 ≤ w) && decide (i % 8 + w ≤ 8) &&
  (heldRules s g).all (fun p => p.1 == i || decide (p.1 + p.2.width ≤ i) || decide (i + w ≤ p.1)) &&
  (List.range w).all (fun j => !sliceBad s g (i + j))

/-- VALUE and MASK of w slices from a command's words, six a slice (R412). -/
def sliceWords (ws : List Word) (w : Nat) : List (Nat × Nat) :=
  (List.range w).map (fun j =>
    let v := fun i => (ws.getD (6 * j + i) 0).toNat
    (v 0 + v 1 * 2 ^ 32 + v 2 % 2 ^ 16 * 2 ^ 64, v 3 + v 4 * 2 ^ 32 + v 5 % 2 ^ 16 * 2 ^ 64))

/-- The six words of a slice. -/
def sliceOut (p : Nat × Nat) : List Word :=
  [wd p.1, wd (p.1 / 2 ^ 32), wd (p.1 / 2 ^ 64), wd p.2, wd (p.2 / 2 ^ 32), wd (p.2 / 2 ^ 64)]

/-- An action that R169 accepts at a write. -/
def actionOk (a0 a1 : Word) : Bool :=
  fld a1 28 2 != 3 && !bit a1 31 &&
  (!bit a1 0 || (if actType a0 = 0 then fld a0 22 8 == 0 else if actType a0 = 1 then true else fld a0 14 16 == 0))

/-- A rule with VALID clear from header bits, slice words and action words. -/
def ruleOf (hdr : Nat) (ws : List Word) : Rule :=
  let w := hdr % 16
  let sl := sliceWords ws w
  ⟨false, false, w, hdr / 16 % 16, hdr / 2 ^ 16 % 2 ^ 16, sl, sl, ws.getD (6 * w) 0, ws.getD (6 * w + 1) 0, 0⟩

/-- A rule written with VALID clear, then validated in one header write (R173); the slices of a rule whose VALID is set are
not written.  The rewrite clears EXCLUDE. -/
def ruleInstall (g i : Nat) (r : Rule) (s : State) : OpRes :=
  let old := ruleGet s g i
  if old.valid || !placeOk s g i r.width then ⟨rFailed, 0, s⟩
  else ⟨rDone, r.width + 2, genUp g (1 + b2n old.exclude) (ruleSet g i { r with valid := true } s)⟩

/-- A rule's VALID cleared (R173). -/
def ruleDelete (g i : Nat) (s : State) : OpRes :=
  let r := ruleGet s g i
  if r.valid then ⟨rDeleted, 1, genUp g 1 (ruleSet g i { r with valid := false } s)⟩ else ⟨rNotFound, 0, s⟩

/-- A new rule written and exchanged with an old one between two searches (R174). -/
def ruleReplace (g old i : Nat) (r : Rule) (s : State) : OpRes :=
  if !(ruleGet s g old).valid then ⟨rNotFound, 0, s⟩
  else if (ruleGet s g i).valid || !placeOk s g i r.width then ⟨rFailed, 0, s⟩
  else
    let s1 := ruleSet g i { r with valid := true } s
    ⟨rDone, r.width + 2, genUp g (1 + b2n (ruleGet s g i).exclude) (ruleSet g old { ruleGet s1 g old with valid := false } s1)⟩

/-- A rule's action or PRIO changed in place (R173, R175). -/
def ruleAction (g i : Nat) (setAct setPrio : Bool) (prio : Nat) (a0 a1 : Word) (s : State) : OpRes :=
  let r := ruleGet s g i
  if !r.valid then ⟨rNotFound, 0, s⟩
  else
    let r1 := if setAct then { r with act0 := a0, act1 := a1 } else r
    let r2 := if setPrio then { r1 with prio := prio } else r1
    ⟨rDone, b2n setPrio, ruleSet g i r2 s⟩

/-- Every slice satisfies (key AND MASK) = (VALUE AND MASK). -/
def slicesMatch (k : List Nat) (l : List (Nat × Nat)) : Bool :=
  (l.zipIdx).all (fun p => (k.getD p.2 0) &&& p.1.2 == p.1.1 &&& p.1.2)

/-- A key of 10 bytes a slice as the numbers the slices compare. -/
def keySlices (kb : List Byte) (w : Nat) : List Nat := (List.range w).map (fun j => beAt kb (10 * j) 10)

/-- The rules of a glen that match a search, in index order (R167). -/
def matching (s : State) (g w grp : Nat) (k : List Nat) : List (Nat × Rule) :=
  (ofUnit s.glens.rules g).filter (fun p =>
    p.2.valid && !p.2.exclude && p.2.width == w && p.2.group == grp && slicesMatch k p.2.array)

/-- The lowest PRIO, then the lowest index (R168). -/
def winner : List (Nat × Rule) → Option (Nat × Rule)
  | [] => none
  | p :: ps => match winner ps with
    | some q => if p.2.prio ≤ q.2.prio then some p else some q
    | none => some p

/-! ### Soft errors (R178 to R183) -/

/-- False hits or scrub fixes of a slice, with the times of those within the last 24 h. -/
def sliceEvent (g i : Nat) (s : State) : State :=
  let l := (tget [] s.glens.sliceHits (key g i)).filter (fun t => decide (s.tim.cnt - t < 24 * 3600 * 10 ^ 9))
  { s with glens := { s.glens with sliceHits := tset [] s.glens.sliceHits (key g i) (l ++ [s.tim.cnt]) } }

/-- The winner of a search passes its check with the search key (R178, R179): its stored slices; for a wide rule the mirror
of its slices, and of its header, which must be valid, not excluded, and of the search's WIDTH and GROUP. -/
def checkOk (w grp : Nat) (k : List Nat) (r : Rule) : Bool :=
  slicesMatch k r.slices &&
  (decide (w ≤ 2) || (bit r.hdr 8 && !bit r.hdr 9 && decide (fld r.hdr 0 4 = w) && decide (fld r.hdr 4 4 = grp)))

/-- A winner that fails its check: EXCLUDE set, counted, TCM_FALSE_HIT raised with the rule's index (R180). -/
def falseHit (g i : Nat) (s : State) : State :=
  let r := ruleGet s g i
  let s1 := genUp g 1 (ruleRaw g i { r with exclude := true, hdr := setBit r.hdr 9 true } s)
  let bad := (List.range r.width).filter (fun j => r.array[j]? != r.slices[j]?)
  let s2 := bad.foldl (fun t j => sliceEvent g (i + j) t) s1
  raise srcTcmFalseHit i 2 g (inc (tcmCnt g 4) s2)

/-- A checked search: `waits` are the false hits met when its repeat has found no slot, 0 when it has ended. -/
structure TcamRes where
  win : Option (Nat × Rule)
  tie : Bool
  multi : Bool
  discard : Bool
  waits : Nat
  st : State

/-- False hits are excluded and the search repeated, at one scrub slot each, as long as fewer than `n` have been met; the
last gives no winner and discards (R180). -/
def checkedSearch (g w grp : Nat) (k : List Nat) : Nat → State → TcamRes
  | 0, s => ⟨none, false, false, true, 0, inc (tcmCnt g 5) s⟩
  | n + 1, s =>
    let m := matching s g w grp k
    match winner m with
    | none => ⟨none, false, false, false, 0, s⟩
    | some p =>
      if checkOk w grp k p.2 then
        ⟨some p, m.any (fun q => q.1 != p.1 && q.2.prio == p.2.prio), decide (1 < m.length), false, 0, s⟩
      else
        let s1 := falseHit g p.1 s
        let u := glenMem g 1
        if n = 0 then checkedSearch g w grp k n s1
        else if hasSlot s1 u actScrub then checkedSearch g w grp k n (charge u actScrub 1 s1)
        else ⟨none, false, false, false, 3 - n, waited u actScrub s1⟩

/-- A rule restored: its slices and header rewritten from its mirror or from firmware's record, EXCLUDE cleared; TCM_GEN
counts it twice (R181). -/
def ruleRestore (g i : Nat) (s : State) : State :=
  let r := ruleGet s g i
  genUp g 2 (ruleSet g i { withHdr r.hdr r with array := r.slices, exclude := false } s)

/-- Array slots that a restoration takes: its slices and header rewritten, then EXCLUDE cleared (R177). -/
def restoreSlots (r : Rule) : Nat := r.slices.length + 2

/-- Slices whose location gave three events within 24 h. -/
def failingSlices (s : State) (g i w : Nat) : List Nat :=
  (List.range w).filter (fun j => decide (3 ≤ (tget [] s.glens.sliceHits (key g (i + j))).length))

/-- The lowest INDEX with room for a rule of width w. -/
def freePlace (s : State) (g w : Nat) : Option Nat := (List.range 16384).find? (fun i => placeOk s g i w && !(ruleGet s g i).valid)

/-- The failing slices of the rule at INDEX i marked unusable, SPARE_EXHAUSTED raised with their number. -/
def sliceLost (g i : Nat) (bad : List Nat) (s : State) : State :=
  raiseLost (i + bad.headD 0) bad.length 2 g (tcmOccUpdate g (bad.foldl (fun t b => { t with glens := { t.glens with
    sliceRetired := tset false t.glens.sliceRetired (key g (i + b)) true,
    sliceHits := tset [] t.glens.sliceHits (key g (i + b)) [] } }) s))

/-- A rule that lies on a slice retired under it. -/
def onRetired (s : State) (g i : Nat) : Bool := (List.range (ruleGet s g i).width).any (fun j => sliceBad s g (i + j))

/-- A rule moved to other slices by an exchange, written from its mirror or record. -/
def moveRule (g i j : Nat) (s : State) : State :=
  let r := ruleGet s g i
  genUp g (b2n r.exclude) (ruleRaw g i emptyRule (ruleReplace g i j { r with array := r.slices, exclude := false } s).st)

/-- A rule with a failing slice is moved to free slices with an exchange, at the slots of both (R177), and its failing
slices are marked unusable (R183).  A rule for which no free slices are left stays where it is and takes part in no
search until there are some: DESIGN CHOICE (log entry 71).  While the update activity has no slot, firmware comes back to
it. -/
def retireSlices (g i : Nat) (s : State) : State :=
  let r := ruleGet s g i
  let bad := failingSlices s g i r.width
  let lost := fun (t : State) => if bad.isEmpty then t else sliceLost g i bad t
  if bad.isEmpty && !onRetired s g i then s
  else if !r.valid then lost s
  else match freePlace s g r.width with
    | some j =>
      if hasSlot s (glenMem g 1) actUpdate ∧ hasSlot s (glenMem g 2) actUpdate then
        charge (glenMem g 2) actUpdate 2 (charge (glenMem g 1) actUpdate (r.width + 2) (lost (moveRule g i j s)))
      else waited (glenMem g 1) actUpdate s
    | none => genUp g (b2n !r.exclude) (lost (ruleSet g i { r with exclude := true } s))

/-- A rule restored, and retired or moved where its slices fail (R181, R183). -/
def restoreOrMove (g i : Nat) (s : State) : State :=
  retireSlices g i (if onRetired s g i then s else ruleRestore g i s)

/-! ### The update units' queues (R27, R126, R154) -/

/-- The memories of a glen whose slots an operation needs, in the order in which it waits for them: 0 table, 1 TCAM array,
2 rule (R154, R163, R177). -/
def opMems : GlenOp → List Nat
  | .nextHop .. => [2]
  | .tcamWrite .. | .tcamReplace .. => [1, 2]
  | .tcamDelete .. => [1]
  | .tcamAction _ setAct setPrio _ _ _ => if setAct then (if setPrio then [1, 2] else [2]) else [1]
  | _ => [0]

/-- An operation's outcome: its result, its slots of the table memory or the TCAM array, the state it leaves. -/
def opRun (g : Nat) (op : GlenOp) (s : State) : OpRes :=
  match op with
  | .emInsert t k a st => emInsert g t k a st s
  | .emDelete t k => emDelete g t k s
  | .emFlush t pe p ss so => emFlush g t pe p ss so s
  | .routeAdd v f p l n c => routeInsert g ⟨v, f, p, l, n, c⟩ s
  | .routeDel v f p l => routeRemove g ⟨v, f, p, l, 0, 0⟩ s
  | .nextHop i a => ⟨rDone, 0, nhSet g i a s⟩
  | .tcamWrite i h ws => ruleInstall g i (ruleOf h ws) s
  | .tcamDelete i => ruleDelete g i s
  | .tcamReplace o i h ws => ruleReplace g o i (ruleOf h ws) s
  | .tcamAction i sa sp pr a0 a1 => ruleAction g i sa sp pr a0 a1 s
  | .rowFix _ _ => ⟨rDone, 1, s⟩

/-- Slots of the rule memory that an operation with that result takes (R163, R177). -/
def ruleSlots (op : GlenOp) (code : Nat) : Nat :=
  match op with
  | .nextHop .. => 2
  | .tcamWrite .. | .tcamReplace .. => if code = rDone then 2 else 0
  | .tcamAction _ setAct _ _ _ _ => if setAct && decide (code = rDone) then 2 else 0
  | _ => 0

/-- The slots that an operation takes of memory m, as the tables stand. -/
def opCost (g m : Nat) (op : GlenOp) (s : State) : Nat :=
  let r := opRun g op s
  if m = 2 then ruleSlots op r.code else r.slots

/-- An operation waits at the tail of a memory's queue. -/
def joinUpd (g m : Nat) (q : QueuedOp) (s : State) : State :=
  waited (glenMem g m) actUpdate (setUpdQueue (glenMem g m) (updQueue s (glenMem g m) ++ [q]) s)

/-- An operation on its way through the memories that it still needs, in turn: it takes its slots of each where none waits
before it and the activity has one left, and waits there otherwise (R27, R30, R154); with the last it is carried out. -/
def opPass (g : Nat) (op : GlenOp) (t : Option Ticket) : List Nat → State → Nat × State
  | [], s => let r := opRun g op s; (r.code, r.st)
  | m :: ms, s =>
    if updQueue s (glenMem g m) = [] ∧ hasSlot s (glenMem g m) actUpdate then
      opPass g op t ms (charge (glenMem g m) actUpdate (opCost g m op s) s)
    else (rPending, joinUpd g m ⟨op, t, m :: ms⟩ s)

/-- An operation whose slots are there, of a table window's write (R438). -/
def opNow (g : Nat) (op : GlenOp) (s : State) : Nat × State :=
  let r := opRun g op s
  (r.code, (opMems op).foldl (fun t m => charge (glenMem g m) actUpdate (opCost g m op s) t) r.st)

/-- An operation handed to the update unit. -/
def opSubmit (g : Nat) (op : GlenOp) (t : Option Ticket) (s : State) : Nat × State := opPass g op t (opMems op) s

/-- The bucket whose verify read fails for an operation, and the state that it leaves then: the row is as it was, for
firmware to rewrite (R129).  Operations that write no bucket are not verified. -/
def opBad (g : Nat) (op : GlenOp) (s : State) : Option (Nat × State) :=
  match op with
  | .emInsert t k a st => if 3 ≤ (emInsert g t k a st s).slots then some (homeBucket s g t k, s) else none
  | .emDelete t k => if 3 ≤ (emDelete g t k s).slots then some (homeBucket s g t k, s) else none
  | .emFlush t pe p ss so =>
    let l := flushed s g t pe p ss so
    match l.find? (fun x => !x.2.inOvf) with
    | some x => some (x.1, removeAll g (l.filter (fun y => y.2.inOvf || y.1 != x.1)) s)
    | none => none
  | _ => none

/-- An operation carried out whose verify read may fail. -/
def opFinish (g : Nat) (op : GlenOp) (t : Option Ticket) (ms : List Nat) (fails : Bool) (s : State) : Nat × State :=
  match if fails then opBad g op s else none with
  | some (b, u) => (rFailed, verifyFailed g b u)
  | none => opPass g op t ms s

/-- The operation at the head of a memory's queue gets its slots there, goes on to the next memory or is carried out, and
then completes its element (R154, R402); `p` says which operations this unit serves, `fails` that the verify read failed
twice, which reports FAILED (R129). -/
def opServe (g m : Nat) (p : GlenOp → Bool) (fails : Bool) (s : State) : State :=
  let u := glenMem g m
  match updQueue s u with
  | [] => s
  | q :: rest =>
    if !p q.op then s
    else if hasSlot s u actUpdate then
      let r := opFinish g q.op q.ticket (q.mems.drop 1) fails
        (charge u actUpdate (opCost g m q.op s) (setUpdQueue u rest s))
      if r.1 = rPending then r.2
      else
        let s2 := completeElem q.ticket r.1 r.2
        if q.ticket.isSome then keepShadow s s2 else s2
    else waited u actUpdate s

def isRouteOp : GlenOp → Bool
  | .routeAdd .. | .routeDel .. | .nextHop .. => true
  | _ => false

/-! ### The commit of a glen's key layouts (R151, R153, R190, R221) -/

/-- A staged stream definition that R221 refuses: TAGGED 3, or METHOD 3 with IPMASK 0, with EN set. -/
def stmKeyBad (s : State) (g k : Nat) : Bool :=
  [0, 16].any (fun b => stgBit s (stmKeyCfg g k) b &&
    (stgF s (stmKeyCfg g k) (b + 3) 2 == 3 ||
      (stgF s (stmKeyCfg g k) (b + 1) 2 == 3 && stgF s (stmKeyCfg g k) (b + 5) 8 == 0)))

/-- The REASONs for which a commit of the glen's key layouts fails: 1 VID_POS, 2 table, 3 three table-memory reads,
4 a prefix or TCAM definition, 5 a stream definition. -/
def keyFails (s : State) (g : Nat) : List Nat :=
  let ks := List.range 64
  let badVid := fun k srch => let v := stgF s (emtKeyHdr g k srch) 4 4; decide (11 ≤ v) && decide (v ≤ 14)
  let en := fun k srch => stgBit s (emtKeyHdr g k srch) 0
  let badTbl := fun k srch => en k srch && !tblEn s g (stgF s (emtKeyHdr g k srch) 1 2)
  let lpm := fun k => stgBit s (lpmKeyCfg g k) 0
  let badLpm := fun k => lpm k && (stgF s (lpmKeyCfg g k) 2 2 == 3 ||
    (stgF s (lpmKeyCfg g k) 2 2 == 2 && decide (79 < stgF s (lpmKeyCfg g k) 16 7)))
  let w := fun k => stgF s (tcmKeyHdr g k) 4 4
  let badTcm := fun k => stgBit s (tcmKeyHdr g k) 0 && (w k == 0 || decide (8 < w k))
  (if ks.any (fun k => badVid k 0 || badVid k 1) then [1] else []) ++
  (if ks.any (fun k => badTbl k 0 || badTbl k 1) then [2] else []) ++
  (if ks.any (fun k => en k 0 && en k 1 && lpm k) then [3] else []) ++
  (if ks.any (fun k => badLpm k || badTcm k) then [4] else []) ++
  (if ks.any (fun k => stmKeyBad s g k) then [5] else [])

/-- The commit and the discard of a glen's key layouts. -/
def keyCommit (g : Nat) (s : State) : State :=
  commitGroup (emtKeyStat g) (emtKeyCommit g) (keyGroup g) (keyFails s g) (commitStaged (keyGroup g)) s
def keyDiscard (g : Nat) (s : State) : State := discardGroup (emtKeyStat g) (emtKeyCommit g) (keyGroup g) s

end Sys2Proof.Machine
end

