-- ==== Sys2Proof/Machine/Streams.lean ====
section
/-! DEFINITION. Streams, per-stream filtering and policing (chapter 7): identification, contexts, gates, meters,
policers, colour maps, histograms and the filter stage. -/

namespace Sys2Proof.Machine
open Sys2Proof

/-! ### Registers and records -/

def stmOcc (g : Nat) : Nat := glnBase g + 0x40000
def stmSeed (g : Nat) : Nat := glnBase g + 0x40004
def stmCnt (g i : Nat) : Nat := glnBase g + 0x40300 + 4 * i
def polAddr (g : Nat) : Nat := glnBase g + 0x50000
def polData (g w : Nat) : Nat := glnBase g + 0x50010 + 4 * w
def polCommitReg (g : Nat) : Nat := glnBase g + 0x50020
def polStat (g : Nat) : Nat := glnBase g + 0x50024
def polPcp (g m : Nat) : Nat := glnBase g + 0x50040 + 4 * m
def polDscp (g m w : Nat) : Nat := glnBase g + 0x50080 + 4 * (4 * m + w)
def polCntProv (g : Nat) : Nat := glnBase g + 0x50300

def emptyId : StreamId := ⟨0, 0, false⟩
def idGet (s : State) (g i : Nat) : StreamId := tget emptyId s.streams.ids (key g i)
def idUsed (s : State) (g : Nat) : Nat := ((ofUnit s.streams.ids g).filter (fun p => p.2.valid)).length
def idPut (g i : Nat) (e : StreamId) (s : State) : State :=
  let s1 := { s with streams := { s.streams with ids := tset emptyId s.streams.ids (key g i) e } }
  wrF (stmOcc g) 0 16 (idUsed s1 g) s1

def emptyCtx : List Word := [0, 0, 0, 0]
def ctxGet (s : State) (g i : Nat) : List Word := tget emptyCtx s.streams.ctx (key g i)
def ctxPut (g i : Nat) (c : List Word) (s : State) : State :=
  { s with streams := { s.streams with ctx := tset emptyCtx s.streams.ctx (key g i) c } }
def cw (c : List Word) (i : Nat) : Word := c.getD i 0

def emptySet : GateSet := ⟨0, 0, 0, 0, []⟩
def emptyGate : StreamGate := ⟨emptySet, emptySet, emptySet, 0, none, false, false, false⟩
def gateGet (s : State) (g i : Nat) : StreamGate := tget emptyGate s.streams.gates (key g i)
def gatePut (g i : Nat) (x : StreamGate) (s : State) : State :=
  { s with streams := { s.streams with gates := tset emptyGate s.streams.gates (key g i) x } }

def emptyMeter : Meter := ⟨0, 0, 0, 0, 0, 0, 0⟩
def meterGet (s : State) (g i : Nat) : Meter := tget emptyMeter s.streams.meters (key g i)
def meterPut (g i : Nat) (m : Meter) (s : State) : State :=
  { s with streams := { s.streams with meters := tset emptyMeter s.streams.meters (key g i) m } }

def edgesGet (s : State) (g i : Nat) : List Word := tget (List.replicate 15 0) s.streams.edges (key g i)
def edgesPut (g i : Nat) (e : List Word) (s : State) : State :=
  { s with streams := { s.streams with edges := tset (List.replicate 15 0) s.streams.edges (key g i) e } }
def tenMapGet (s : State) (g t : Nat) : Word := tget 0 s.streams.tenMap (key g t)
def tenMapPut (g t : Nat) (w : Word) (s : State) : State :=
  { s with streams := { s.streams with tenMap := tset 0 s.streams.tenMap (key g t) w } }

/-- Counters of a context (R200, R218) and of a meter (R412). -/
abbrev kCtx : Nat := 30
abbrev kMeter : Nat := 40
def ctxIdx (g i : Nat) : Nat := g * 32768 + i
def meterIdx (g i : Nat) : Nat := g * 65536 + i
abbrev xMatch : Nat := 0
abbrev xPassGreen : Nat := 1
abbrev xPassYellow : Nat := 2
abbrev xPassBytes : Nat := 3
abbrev xDropBlocked : Nat := 4
abbrev xDropSdu : Nat := 5
abbrev xDropGate : Nat := 6
abbrev xDropRed : Nat := 7
abbrev xBins : Nat := 8
def bumpCtx (g i pos k : Nat) (s : State) : State := bump kCtx (ctxIdx g i) pos (if pos = xPassBytes then 64 else 32) k s

/-! ### Identification (R194 to R196) -/

/-- A definition of a layout, A or B: its 13 bits of STM_KEY_CFG. -/
def stmDef (s : State) (g k d : Nat) : Nat := rdF s (stmKeyCfg g k) (16 * d) 13

/-- Whether the definition searches a frame of this VID and EtherType, and the VID of its key (R195). -/
def stmSearches (s : State) (port dfn : Nat) (kb : List Byte) : Bool × Nat :=
  let vid := beAt kb 12 2 % 4096
  let ethType := beAt kb 18 2
  let en := dfn % 2 == 1
  let method := dfn / 2 % 4
  let tagged := dfn / 8 % 4
  let ipOk := method != 3 || ethType == 0x0800 || ethType == 0x86DD
  match tagged with
  | 0 => (en && ipOk, if vid = 0 then rdF s (emtPortCfg port) 0 12 else vid)
  | 1 => (en && ipOk && vid != 0, vid)
  | 2 => (en && ipOk && vid == 0, 0)
  | _ => (false, 0)

/-- The 48 key bytes of a definition (R194) as one number, byte 0 highest. -/
def stmKey (dfn vid : Nat) (kb : List Byte) : Nat :=
  let method := dfn / 2 % 4
  let mask := dfn / 32 % 256
  let on := fun i => decide (method ≠ 3) || nbit mask i
  let ip := fun i => method == 3 && nbit mask i
  let sel := fun (b : Bool) (off n : Nat) => if b then bytesAt kb off n else List.replicate n 0
  beNat ([BitVec.ofNat 8 method,
    BitVec.ofNat 8 (if ip 4 then (kb.getD 21 0).toNat / 4 * 4 else 0),
    if ip 5 then kb.getD 20 0 else 0, 0] ++
    (if on 1 then beBytes 2 vid else [0, 0]) ++
    (if method = 1 then bytesAt kb 6 6 else sel (on 0) 0 6) ++
    sel (ip 2) 24 16 ++ sel (ip 3) 40 16 ++ sel (ip 6) 56 2 ++ sel (ip 7) 58 2)

def stmBucket (s : State) (g k : Nat) : Nat := crc32c (rd s (stmSeed g)).toNat (natBytes 48 k) % 8192

/-- The slot of an identification key. -/
def idFind (s : State) (g k : Nat) : Option Nat :=
  let b := stmBucket s g k
  ((List.range 4).map (fun i => 4 * b + i)).find? (fun i => (idGet s g i).valid && (idGet s g i).key == k)

/-- Insert, update or refuse (R196). -/
def idInsert (g k ctx : Nat) (s : State) : Nat × State :=
  match idFind s g k with
  | some i => (rUpdated, idPut g i ⟨k, ctx, true⟩ s)
  | none =>
    match ((List.range 4).map (fun i => 4 * stmBucket s g k + i)).find? (fun i => !(idGet s g i).valid) with
    | some i => (rInserted, idPut g i ⟨k, ctx, true⟩ s)
    | none => (rFull, s)

def idDelete (g k : Nat) (s : State) : Nat × State :=
  match idFind s g k with
  | some i => (rDeleted, idPut g i emptyId s)
  | none => (rNotFound, s)

/-! ### Stream gates (R203 to R206) -/

def sgIntervals (x : GateSet) : List Nat := (x.entries.take x.len).map (fun w => fld w 8 24)

/-- The list in force at a time, and the change still to come. -/
def sgList (x : StreamGate) (t : Nat) : GateSet × Option Nat :=
  match x.tc with
  | some c => if c ≤ t then (x.admin, none) else if t < x.since then (x.prev, some x.since) else (x.oper, some c)
  | none => if t < x.since then (x.prev, some x.since) else (x.oper, none)

/-- The entry of a gate in force at a time; none for an empty list, which keeps the gate open (R204). -/
def sgEntry (x : StreamGate) (t : Nat) : Option Word :=
  let q := sgList x t
  if q.1.len = 0 then none
  else (entryInForce (sgIntervals q.1) q.1.base q.1.cycle q.1.ext q.2 t).bind (fun i => q.1.entries[i]?)

/-- The gate is open at a time, and the traffic class it gives (R205, R206). -/
def sgOpen (x : StreamGate) (t : Nat) : Bool × Option Nat :=
  if x.closedInv then (false, none)
  else match sgEntry x t with
    | none => (true, none)
    | some w => (bit w 0, if bit w 4 then some (fld w 1 3) else none)

/-- A committed list becomes operational (R203). -/
def sgSwitch (g i : Nat) (s : State) : State :=
  let x := gateGet s g i
  match x.tc with
  | some c => if c ≤ netNs s then
      gatePut g i { x with oper := x.admin, prev := x.oper, since := c, tc := none } s else s
  | none => s

/-- The change time of a committed list, fixed at the present; while network time is not valid it waits (R293, R203). -/
def sgFix (s : State) (x : StreamGate) : StreamGate :=
  if timValid s then { x with tc := some (changeTime (netNs s) x.admin.base x.admin.cycle), waits := false }
  else { x with tc := none, waits := true }

/-- Every stream gate that holds something. -/
def eachGate (f : Nat → Nat → State → State) (s : State) : State :=
  s.streams.gates.foldl (fun t q => f (q.1 / 2 ^ 32) (q.1 % 2 ^ 32) t) s

/-- Before network time is stepped, or loses its validity, the changes whose time has come are complete. -/
def sgComplete (s : State) : State := eachGate sgSwitch s

/-- A step of network time reverts no completed change, and completes the changes that it passes (R302, R203). -/
def sgStepped (s : State) : State :=
  eachGate sgSwitch (eachGate (fun g i t => gatePut g i { gateGet t g i with since := 0 } t) s)

/-- Network time has become valid, or not valid: a pending list's change time is fixed, or waits to be (R303, R203). -/
def sgValidity (s : State) : State :=
  eachGate (fun g i t =>
    let x := gateGet t g i
    if timValid t then (if x.waits then gatePut g i (sgFix t x) t else t)
    else if x.tc.isSome then gatePut g i (sgFix t x) t else t) s

/-! ### Metering (R207 to R212) -/

/-- The rate of a code in units of 7.8125 b/s (R208). -/
def rateOf (c : Nat) : Nat := if c / 1024 = 0 then 0 else (1024 + c % 1024) * 2 ^ (c / 1024 - 1)
def rateBad (c : Nat) : Bool := decide (27 < c / 1024) || (decide (c / 1024 = 27) && decide (502 < c % 1024))

/-- Tokens per ns in units of 2^-32 byte, rounded down (R210). -/
def perNs (c : Nat) : Nat := rateOf c * 125 * 2 ^ 32 / (16 * 8 * 10 ^ 9)

/-- Bytes in bucket units. -/
abbrev unitB : Int := 2 ^ 32

def mCir (m : Meter) : Nat := fld m.w0 0 16
def mPir (m : Meter) : Nat := fld m.w0 16 16
def mCbs (m : Meter) : Nat := fld m.w1 0 25
def mPbs (m : Meter) : Nat := fld m.w2 0 25
def mRfc4115 (m : Meter) : Bool := bit m.w3 0
def mAdj (m : Meter) : Int := sgn 6 (fld m.w3 11 6)
def mDecLen (m : Meter) : Nat := if fld m.w3 17 14 = 0 then 1518 else fld m.w3 17 14

/-- The charge of a length (R209). -/
def chargeOf (m : Meter) (len : Nat) : Int := max 1 ((len : Int) + mAdj m)

abbrev green : Nat := 0
abbrev yellow : Nat := 1
abbrev red : Nat := 2

/-- A meter's last update on the full count: the latest one up to now that its 32 bits name, since the elapsed time stays
below 2^32 ns and no arrival lies ahead of the count (R212). -/
def meterLast (m : Meter) (now : Nat) : Nat := now - (now + 2 ^ 32 - m.last) % 2 ^ 32

/-- Both buckets refilled up to an arrival, which may be earlier than the last update; the last-update time is kept in
32 bits (R210, R212). -/
def meterRefill (m : Meter) (now arrival : Nat) : Meter :=
  let dt := arrival - meterLast m now
  let c := m.tc + (perNs (mCir m) * dt : Nat)
  let cbs := (mCbs m : Int) * unitB
  let spill := if cbs < c then c - cbs else 0
  { m with last := if 0 < dt then arrival % 2 ^ 32 else m.last, tc := min c cbs,
           tp := min (m.tp + (perNs (mPir m) * dt : Nat) + (if mRfc4115 m && bit m.w3 7 then spill else 0))
             ((mPbs m : Int) * unitB) }

/-- A meter whose buckets are read with bad parity twice: they are taken as full (R36). -/
def meterBad (g : Nat) (bad : StmBad) (s : State) : State :=
  match bad with
  | .meter i =>
    let m := meterGet s g i
    flagSpare clsStm (16 * g + 9) i 8 g
      (raise srcStmParity i 8 g (meterPut g i { m with tc := (mCbs m : Int) * unitB, tp := (mPbs m : Int) * unitB } s))
  | _ => s

/-- A meter's answer: the colour, and what each bucket was charged. -/
structure MeterRes where
  m : Meter
  colour : Nat
  tcTaken : Bool
  tpTaken : Bool

/-- The evaluation of R210. -/
def meterEval (m0 : Meter) (b : Int) (now arrival colourIn : Nat) : MeterRes :=
  let m := meterRefill m0 now arrival
  if bit m.w3 10 then ⟨m, red, false, false⟩
  else
    let cin := if bit m.w3 1 then colourIn else green
    let need := b * unitB
    let r : MeterRes :=
      if !mRfc4115 m then
        if cin = red ∨ m.tp < need then ⟨m, red, false, false⟩
        else if cin = yellow ∨ m.tc < need then ⟨{ m with tp := m.tp - need }, yellow, false, true⟩
        else ⟨{ m with tp := m.tp - need, tc := m.tc - need }, green, true, true⟩
      else
        if cin = green ∧ need ≤ m.tc then ⟨{ m with tc := m.tc - need }, green, true, false⟩
        else if cin ≠ red ∧ need ≤ m.tp then ⟨{ m with tp := m.tp - need }, yellow, false, true⟩
        else ⟨m, red, false, false⟩
    let col := if r.colour = yellow ∧ bit m.w3 8 then red else r.colour
    let m' := if col = red ∧ bit m.w3 9 then { r.m with w3 := setBit r.m.w3 10 true } else r.m
    ⟨m', col, r.tcTaken, r.tpTaken⟩

/-- The length correction of R211 on the buckets a decision charged. -/
def meterCorrect (m : Meter) (tcTaken tpTaken : Bool) (diff : Int) : Meter :=
  let fix := fun (t : Int) (burst : Nat) => max (-16777216 * unitB) (min (t + diff * unitB) ((burst : Int) * unitB))
  { m with tc := if tcTaken then fix m.tc (mCbs m) else m.tc, tp := if tpTaken then fix m.tp (mPbs m) else m.tp }

/-- The REASONs for which a meter commit is refused (R213): 1 rate code, 2 burst, 3 PIR below CIR, 4 index, 5 reserved. -/
def meterFails (addr w0 w1 w2 w3 : Word) : List Nat :=
  (if rateBad (fld w0 0 16) || rateBad (fld w0 16 16) then [1] else []) ++
  (if 16777216 < fld w1 0 25 ∨ 16777216 < fld w2 0 25 then [2] else []) ++
  (if !bit w3 0 && decide (rateOf (fld w0 16 16) < rateOf (fld w0 0 16)) then [3] else []) ++
  (if bit addr 16 && decide (16383 < fld addr 0 15) then [4] else []) ++
  (if fld w1 25 7 ≠ 0 ∨ fld w2 25 7 ≠ 0 ∨ bit w3 31 then [5] else [])

/-- The meter that POL_STG_ADDR names: tenant-ingress policer i is 32,768 + i. -/
def meterOfAddr (addr : Word) : Nat := fld addr 0 15 + (if bit addr 16 then 32768 else 0)

/-- An accepted commit of a meter record (R213): buckets kept and capped, or set to the bursts; MARK_RED cleared. -/
def meterCommit (g i : Nat) (w0 w1 w2 w3 : Word) (resetBkt : Bool) (s : State) : State :=
  let m := meterGet s g i
  let cbs := (fld w1 0 25 : Int) * unitB
  let pbs := (fld w2 0 25 : Int) * unitB
  meterPut g i ⟨w0, w1, w2, setBit w3 10 false, if resetBkt then cbs else min m.tc cbs,
    if resetBkt then pbs else min m.tp pbs, m.last⟩ s

/-- The staged group of a glen's meter record (R434), its commit and its discard. -/
def polGroup (g a : Nat) : Bool := decide (polAddr g ≤ a) && decide (a < polCommitReg g)
def polCommit (g : Nat) (resetBkt : Bool) (s : State) : State :=
  let addr := rdStg s (polAddr g)
  let w := fun i => rdStg s (polData g i)
  if anyStaged (polGroup g) s then
    commitGroup (polStat g) (polCommitReg g) (polGroup g) (meterFails addr (w 0) (w 1) (w 2) (w 3))
      (fun t => commitStaged (polGroup g) (meterCommit g (meterOfAddr addr) (w 0) (w 1) (w 2) (w 3) resetBkt t)) s
  else closeGroup (polCommitReg g) (wr (polStat g) 1 s)
def polDiscard (g : Nat) (s : State) : State := discardGroup (polStat g) (polCommitReg g) (polGroup g) s

/-- One meter of the sweep: an evaluation with b = 0 (R212). -/
def meterSweep (g i : Nat) (s : State) : State :=
  meterPut g i (meterRefill (meterGet s g i) s.tim.cnt s.tim.cnt) s

/-! ### Colours (R215) -/

/-- A frame's priority bits and DEI: of its outer tag, or the port's default priority. -/
structure Prio where
  pcp : Nat
  dei : Nat
  deriving DecidableEq, Repr

def colourOf (v : Nat) : Nat := if 2 ≤ v then red else v
def mapColour (s : State) (g : Nat) (m : Meter) (p : Prio) (kb : List Byte) : Nat :=
  let mi := fld m.w3 3 4
  if bit m.w3 2 then
    let et := beAt kb 18 2
    if et = 0x0800 ∨ et = 0x86DD then
      let d := (kb.getD 21 0).toNat / 4
      colourOf (rdF s (polDscp g mi (d / 16)) (2 * (d % 16)) 2)
    else green
  else colourOf (rdF s (polPcp g mi) (2 * (2 * p.pcp + p.dei)) 2)

/-! ### Histograms (R217, R218) -/

/-- The bin of a residence time. -/
def binOf (edges : List Word) (t : Nat) : Nat := (edges.filter (fun e => decide (e.toNat ≤ t))).length

/-- A report joins its die's queue of 256, or is lost and counted. -/
def histReport (g ctx : Nat) (residence : Int) (s : State) : State :=
  let d := dieOfGlen g
  let q := tget [] s.streams.histQ d
  if q.length < 256 then
    { s with streams := { s.streams with histQ := tset [] s.streams.histQ d (q ++ [⟨g, ctx, residence⟩]) } }
  else inc (stmCnt g 4) s

/-- The management port serves the oldest report of a die (R193, R217). -/
def histServe (d : Nat) (s : State) : State :=
  match tget [] s.streams.histQ d with
  | [] => s
  | r :: rest =>
    let s1 := { s with streams := { s.streams with histQ := tset [] s.streams.histQ d rest } }
    if r.residence < 0 then inc (stmCnt r.glen 5) s1
    else bumpCtx r.glen r.ctx (xBins + binOf (edgesGet s r.glen (fld (cw (ctxGet s r.glen r.ctx) 2) 3 6)) r.residence.toNat) 1 s1

/-! ### The filter stage (R197 to R202, R216) -/

/-- What the filter stage is given: the glen, the port, the layout, the key buffer, the TCAM winner's action word 1, the
frame's length (as received, FCS included) when its last byte has arrived, its SDU length, arrival count and ingress
timestamp in ns, its priority. -/
structure FilterIn where
  glen : Nat
  port : Nat
  layout : Nat
  kb : List Byte
  tcam1 : Word
  len : Nat
  sdu : Nat
  complete : Bool
  arrival : Nat
  ingressNs : Nat
  prio : Prio

/-- What it answers: whether the packet passes, its colour, context, tenant, a traffic class from a gate, and the meters
charged (index, decision charge, which buckets). -/
structure FilterOut where
  pass : Bool
  colour : Nat
  ctx : Option Nat
  tenant : Nat
  ipv : Option Nat
  charged : List (Nat × Int × Bool × Bool)
  st : State

/-- A definition's search, counted (R197). -/
def stmSearch (f : FilterIn) (d : Nat) (s : State) : Option Nat × State :=
  let dfn := stmDef s f.glen f.layout d
  let q := stmSearches s f.port dfn f.kb
  if q.1 then
    match idFind s f.glen (stmKey dfn q.2 f.kb) with
    | some i => (some (idGet s f.glen i).ctx, inc (stmCnt f.glen 0) s)
    | none => (none, inc (stmCnt f.glen 1) s)
  else (none, s)

/-- The context of a packet (R197, R198). -/
def chooseCtx (f : FilterIn) (s : State) : Option Nat × State :=
  let a := stmSearch f 0 s
  let b := stmSearch f 1 a.2
  let pc := rd s (stmPortCfg f.port)
  let c := if bit f.tcam1 7 then some (fld f.tcam1 8 15)
    else match a.1 with
      | some x => some x
      | none => match b.1 with
        | some x => some x
        | none => if bit pc 15 then some (fld pc 0 15) else none
  match c with
  | none => (none, b.2)
  | some x =>
    let w := cw (ctxGet s f.glen x) 0
    if !bit w 0 then (none, inc (stmCnt f.glen 3) b.2)
    else if !bit w 4 && fld w 1 3 != f.prio.pcp then (none, inc (stmCnt f.glen 2) b.2)
    else (some x, b.2)

/-- A meter evaluated for a packet; its colour counters (R210, R211). -/
def runMeter (f : FilterIn) (i colourIn : Nat) (s : State) : Nat × (Nat × Int × Bool × Bool) × State :=
  let m := meterGet s f.glen i
  let b := chargeOf m (if f.complete then f.len else mDecLen m)
  let r := meterEval m b s.tim.cnt f.arrival colourIn
  let s1 := meterPut f.glen i r.m s
  let s2 := bump kMeter (meterIdx f.glen i) r.colour 32 1 s1
  let s3 := if r.colour = red then s2 else
    bump kMeter (meterIdx f.glen i) (3 + r.colour) 64 b.toNat s2
  (r.colour, (i, b, r.tcTaken, r.tpTaken), s3)

/-- The oversize consequence of R200 step 2 for BLOCKED. -/
def oversize (g c : Nat) (s : State) : State :=
  let x := ctxGet s g c
  if bit (cw x 0) 14 then ctxPut g c (x.set 0 (setBit (cw x 0) 15 true)) s else s

/-- The tenant-ingress policer (R216). -/
def tenantPolice (f : FilterIn) (tenant : Nat) (meterColour : Option Nat) (s : State) :
    Nat × List (Nat × Int × Bool × Bool) × State :=
  let e := tenMapGet s f.glen tenant
  if bit e 15 then
    let i := 32768 + fld e 0 14
    let cin := match meterColour with
      | some c => c
      | none => mapColour s f.glen (meterGet s f.glen i) f.prio f.kb
    let r := runMeter f i cin s
    (r.1, [r.2.1], r.2.2)
  else (meterColour.getD green, [], s)

/-- The filter stage of one packet. -/
def filterStage (f : FilterIn) (s : State) : FilterOut :=
  let q := chooseCtx f s
  match q.1 with
  | none =>
    let tenant := fld (rd s (stmPortCfg f.port)) 16 16
    let r := tenantPolice f tenant none q.2
    ⟨r.1 != red, r.1, none, tenant, none, r.2.1, r.2.2⟩
  | some c =>
    let x := ctxGet q.2 f.glen c
    let w0 := cw x 0
    let w1 := cw x 1
    let w2 := cw x 2
    let s0 := bumpCtx f.glen c xMatch 1 q.2
    let tenant := if bit w2 0 then fld w1 16 16 else fld (rd s (stmPortCfg f.port)) 16 16
    let drop := fun (pos : Nat) (l : List (Nat × Int × Bool × Bool)) (t : State) =>
      (⟨false, red, some c, tenant, none, l, bumpCtx f.glen c pos 1 t⟩ : FilterOut)
    if bit w0 15 then drop xDropBlocked [] s0
    else if f.complete ∧ fld w0 16 14 ≠ 0 ∧ fld w0 16 14 < f.sdu then drop xDropSdu [] (oversize f.glen c s0)
    else
      let gate := gateGet s0 f.glen (fld w0 6 8)
      let o := if bit w0 5 then sgOpen gate f.ingressNs else (true, none)
      if !o.1 then
        drop xDropGate [] (if gate.invRxEn then gatePut f.glen (fld w0 6 8) { gate with closedInv := true } s0 else s0)
      else
        let mres := if bit w1 15 then
            let m := meterGet s0 f.glen (fld w1 0 15)
            let r := runMeter f (fld w1 0 15) (mapColour s0 f.glen m f.prio f.kb) s0
            (some r.1, [r.2.1], r.2.2)
          else (none, [], s0)
        if mres.1 = some red then drop xDropRed mres.2.1 mres.2.2
        else
          let t := tenantPolice f tenant mres.1 mres.2.2
          if t.1 = red then drop xDropRed (mres.2.1 ++ t.2.1) t.2.2
          else
            let s1 := bumpCtx f.glen c (if t.1 = yellow then xPassYellow else xPassGreen) 1 t.2.2
            ⟨true, t.1, some c, tenant, o.2, mres.2.1 ++ t.2.1, bumpCtx f.glen c xPassBytes f.len s1⟩

/-- The corrections of an incomplete frame when its last byte arrives (R211). -/
def correctMeters (g len : Nat) : List (Nat × Int × Bool × Bool) → State → State
  | [], s => s
  | (i, b, ct, pt) :: rest, s =>
    let m := meterGet s g i
    correctMeters g len rest
      (if ct || pt then inc (polCntProv g) (meterPut g i (meterCorrect m ct pt (b - chargeOf m len)) s) else s)

end Sys2Proof.Machine
end

