-- ==== Sys2Proof/Machine/Time.lean ====
section
/-! DEFINITION. The time base (R280 to R290): the 1 GHz cycle, steps, sets and slews, the source of domain 36, PPS, the
timestamp ring, and the commands on them. -/

namespace Sys2Proof.Machine
open Sys2Proof

/-! ### Registers -/

abbrev timCfg : Nat := timBase
abbrev timStat : Nat := timBase + 0x04
abbrev timRateAdj : Nat := timBase + 0x08
abbrev timReadFrac : Nat := timBase + 0x10
abbrev timStep : Nat := timBase + 0x20
abbrev timStepSec : Nat := timBase + 0x24
abbrev timSlewLeft : Nat := timBase + 0x2C
abbrev timPpsCfg : Nat := timBase + 0x40
abbrev timPpsWidth : Nat := timBase + 0x44
abbrev timPpsCap : Nat := timBase + 0x50
abbrev timCntTsLost : Nat := timBase + 0x60
def timPortAdj (p i : Nat) : Nat := timBase + 0x400 + 8 * p + 4 * i
def timPortCfg (p : Nat) : Nat := timBase + 0xC00 + 4 * p

/-- Network time wraps with SEC at 2^48 seconds. -/
abbrev timeSpan : Nat := 2 ^ 48 * 10 ^ 9 * tick

/-- The 16 fraction bits that software sees. -/
def netFrac (s : State) : Nat := s.tim.now / 2 ^ 32 % 2 ^ 16

/-- The network time that a port's timestamps carry: its offset is in units of 2^-8 ns (R285). -/
def stampNow (s : State) (p : Nat) (egress : Bool) : Nat :=
  (((s.tim.now : Int) + sgn 32 (rd s (timPortAdj p (b2n egress))).toNat * 2 ^ 40) % (timeSpan : Int)).toNat / tick

/-! ### Counting (R280, R281, R282) -/

/-- TIM_SLEW_LEFT shows what is left, in ns, toward zero. -/
def showSlew (s : State) : State := wr timSlewLeft (wd (unsgn 32 (s.tim.slewLeft.tdiv (10 ^ 9)))) s

/-- What a slew applies in one cycle, in units of 10^-9 ns. -/
def slewStep (s : State) : Int :=
  if !rdBit s timStat 5 then 0
  else
    let p : Int := rdF s timCfg 0 20
    if 0 ≤ s.tim.slewLeft then min p s.tim.slewLeft else max (-p) s.tim.slewLeft

/-- TIM_SLEW_LEFT follows a slew in progress; with its whole offset applied the slew ends. -/
def slewEnd (s : State) : State :=
  if rdBit s timStat 5 then showSlew (if s.tim.slewLeft = 0 then wrBit timStat 5 false s else s) else s

/-- One cycle of domain 36: 1 ns, the rate adjustment and the slew. -/
def timeTick (s : State) : State :=
  let a := slewStep s
  let num : Int := sgn 32 (rd s timRateAdj).toNat * 2 ^ 32 + a * 2 ^ 48 + (s.tim.rateRem : Int)
  let now := ((s.tim.now : Int) + 2 ^ 48 + num / 10 ^ 9) % (timeSpan : Int)
  let left := s.tim.slewLeft - a
  let s1 := { s with tim := { s.tim with now := now.toNat, cnt := s.tim.cnt + 1, rateRem := (num % 10 ^ 9).toNat,
                                         slewLeft := left } }
  slewEnd s1

/-- What passes while no command waits: one cycle of the 1 GHz clock, none while it is stopped. -/
def idle (s : State) : State := if s.col.stopped.contains 36 then s else timeTick s

/-! ### Steps, sets and slews (R282, R283) -/

/-- A slew in progress is abandoned; TIM_SLEW_LEFT keeps what it had not applied. -/
def abandonSlew (s : State) : State := if rdBit s timStat 5 then wrBit timStat 5 false (showSlew s) else s

/-- Network time becomes valid after the clock has returned: the accepted levels are taken from the pins anew (R337). -/
def inputsAfresh (s : State) : State :=
  if s.fio.stale then
    { s with fio := { s.fio with stale := false, ins := s.fio.ins.map (fun q =>
        (q.1, { q.2 with acc := none, first := none, moves := 0, since := s.tim.cnt })) } }
  else s

/-- The dump sets take note of a step: the next boundary is the first multiple after the new time (R497). -/
def noSetSt : SetSt := ⟨0, none, false, false, 0, [], 0, 0, [], []⟩
def stepNoted (s : State) : State :=
  { s with dmp := { s.dmp with sets := (List.range 11).foldl (fun m k =>
      tset noSetSt m k { tget noSetSt m k with stepped := true, mark := netNs s }) s.dmp.sets } }

/-- The list changes whose time has come are complete before network time moves or loses its validity (R302). -/
def timeChanges (s : State) : State := sgComplete ((gatedPorts s).foldl (fun t p => gateDue p t) s)

/-- Network time set to a value in one cycle. -/
def timeLoad (now : Nat) (s : State) : State :=
  let s0 := timeChanges (abandonSlew s)
  let s1 := { s0 with tim := { s0.tim with now := now % timeSpan, rateRem := 0 } }
  let s2 := if timValid s1 then s1 else sgValidity (gatesValid (inputsAfresh (wrBit timStat 0 true s1)))
  sgStepped (gatesStepped (stepNoted s2))

/-- A step by a signed number of ns. -/
def timeStepBy (ns : Int) (s : State) : State :=
  timeLoad (((s.tim.now : Int) + ns * 2 ^ 48) % (timeSpan : Int)).toNat s

/-- A slew by a signed number of ns. -/
def timeSlew (ns : Int) (s : State) : State :=
  let s0 := abandonSlew s
  let s1 := { s0 with tim := { s0.tim with slewLeft := ns * 10 ^ 9 } }
  showSlew (wrBit timStat 5 (decide (ns ≠ 0)) s1)

/-- A slew that has applied its whole offset ends; one that has not goes on, cycle by cycle (R282). -/
def execSlewComplete (s : State) : Out3 := .next (slewEnd s)

/-- TIM_STEP_GO: the step of TIM_STEP ns and TIM_STEP_SEC seconds. -/
def timStepGo (s : State) : State :=
  timeStepBy (sgn 32 (rd s timStep).toNat + sgn 32 (rd s timStepSec).toNat * 10 ^ 9) s

/-! ### The source of domain 36 (R284) -/

/-- A write of TIM_CFG: a change of SRC switches the PLL, which relocks. -/
def timCfgWrite (v : Word) (s : State) : State :=
  let s1 := wrM timCfg 0x3FFFFF v s
  if rdBit s timCfg 20 = bit v 20 then s1 else wrBit timStat 2 (bit v 20) (wrBit timStat 1 false s1)

/-- The PLL relocks; TIME_10M_IN is lost while it is the source. -/
def execPllRelockDone (s : State) : Out3 := .next (wrBit timStat 1 true s)
def srcLoss (s : State) : State :=
  if rdBit s timStat 2 then
    raise srcTimeSrcLost 0 0 0 (wrBit timStat 3 true (wrBit timStat 2 false (wrBit timStat 1 false s)))
  else s
def execTimeSrcLoss (s : State) : Out3 := .next (srcLoss s)

/-- The clock of domain 36 has been absent and returns: VALID clears (R284, R303). -/
def timeInvalid (s : State) : State :=
  if timValid s then
    let s1 := sgValidity (gatesInvalid (wrBit timStat 0 false (timeChanges s)))
    let s2 := if rdBit s1 timCfg 21 then s1 else { s1 with tim := { s1.tim with ppsHigh := false } }
    raise srcTimeInvalid 0 0 0 { s2 with fio := { s2.fio with stale := true } }
  else s

/-! ### PPS and 10 MHz (R289, R290) -/

/-- The time outputs run. -/
def timeOutsOn (s : State) : Bool := timValid s || rdBit s timCfg 21
/-- The level of TIME_10M_OUT: high in the first half of each 100 ns of NS. -/
def out10M (s : State) : Bool := timeOutsOn s && decide (netNanos s % 100 < 50)

/-- NS lies within the pulse that began as it passed TIM_PPS_CFG.OFFSET. -/
def inPulse (s : State) : Bool := decide ((netNanos s + 10 ^ 9 - (rd s timPpsCfg).toNat % 10 ^ 9) % 10 ^ 9 < rdF s timPpsWidth 0 20 * 1000)
def pulsing (s : State) : Bool := timeOutsOn s && inPulse s
/-- The level of PPS_OUT, low without a width and while the outputs are off. -/
def ppsOut (s : State) : Bool := s.tim.ppsHigh && timeOutsOn s && rdF s timPpsWidth 0 20 != 0
def ppsLevel (high : Bool) (s : State) : State := { s with tim := { s.tim with ppsHigh := high } }
def execPpsOutRise (s : State) : Out3 := .next (if pulsing s then ppsLevel true s else s)
def execPpsOutFall (s : State) : Out3 := .next (if pulsing s then s else ppsLevel false s)

/-- A rising edge of PPS_IN is stamped and latched with its sequence count; with discipline on firmware steers the rate
by its servo, whose result the spec does not give: a free value. -/
def ppsIn (s : State) : State :=
  let s1 := if s.tim.ppsUnread then wrBit timStat 4 true s else s
  let s2 := wr timPpsCap (wd (netNanos s)) (wr (timPpsCap + 4) (loW (netSec s)) (wr (timPpsCap + 8) (hiW (netSec s)) s1))
  let s3 := inc (timPpsCap + 12) { s2 with tim := { s2.tim with ppsUnread := true, ppsSeen := s2.tim.cnt } }
  if s3.tim.discipline && fwUp s3 then
    let r := freeW s3
    wr timRateAdj r.1 r.2
  else s3
def execPpsInEdge (s : State) : Out3 := .next (ppsIn s)
/-- No edge for 2 s with discipline on. -/
def ppsLost (s : State) : Bool := s.tim.discipline && decide (s.tim.ppsSeen + 2 * 10 ^ 9 ≤ s.tim.cnt)
def execPpsInTimeout (s : State) : Out3 := .next (if ppsLost s then raise srcTimePpsLost 0 0 0 s else s)

/-- A read of TIM_READ_FRAC latches the time read registers; one of TIM_PPS_CAP takes the capture. -/
def latchTime (s : State) : State :=
  wr timReadFrac (wd (netFrac s)) (wr (timReadFrac + 4) (wd (netNanos s))
    (wr (timReadFrac + 8) (loW (netSec s)) (wr (timReadFrac + 12) (hiW (netSec s)) s)))
def takeCapture (s : State) : State := { s with tim := { s.tim with ppsUnread := false } }

/-! ### Egress timestamps (R286) -/

/-- A record of an egress timestamp posted to its die's ring: the port, with the INVALID bit in [16] while network time is
not valid (R283), the 80-bit time, sequenceId and messageType, the sender's cookie.  The spec does not give the ring's capacity: whether it has room is a free value. -/
def postStamp (p : Nat) (t : Nat) (seqId msgType cookie : Nat) (s : State) : State :=
  let r := freeW s
  let d := dieOf p
  let rec_ := [wd (p + b2n (!timValid s) * 2 ^ 16), wd (t % 10 ^ 9), loW (t / 10 ^ 9), hiW (t / 10 ^ 9), wd (seqId + msgType * 2 ^ 16), wd cookie]
  if bit r.1 0 then
    let l := tget [] r.2.tim.tsRing d
    { r.2 with tim := { r.2.tim with tsRing := tset [] r.2.tim.tsRing d (l ++ [rec_]) } }
  else raise srcTsRingLost 0 0 0 (inc timCntTsLost r.2)

/-! ### Commands (R305; their payloads, and the one of PTP_INSTANCE_SET, are this model's) -/

def bodyTimeGet : Body := fun _ f s =>
  lenIs f 0 s <| ok [wd (netNanos s), loW (netSec s), hiW (netSec s), wd (netFrac s), rd s timStat] s

def bodyTimeSet : Body := fun _ f s =>
  lenIs f 12 s <| inRange (decide ((pw f 0).toNat < 10 ^ 9)) 0 s <| inRange (decide (pf f 2 16 16 = 0)) 2 s <|
  ok [] (timeLoad ((w64 (pw f 1) (pw f 2) * 10 ^ 9 + (pw f 0).toNat) * tick) s)

def bodyTimeStep : Body := fun _ f s =>
  lenIs f 8 s <| ok [] (timeStepBy (sgn 32 (pw f 0).toNat + sgn 32 (pw f 1).toNat * 10 ^ 9) s)

def bodyTimeSlew : Body := fun _ f s =>
  lenIs f 4 s <| inRange (decide ((sgn 32 (pw f 0).toNat).natAbs ≤ 10 ^ 9)) 0 s <|
  ok [] (timeSlew (sgn 32 (pw f 0).toNat) s)

def bodyTimeSource : Body := fun _ f s =>
  lenIs f 4 s <| inRange (decide (pf f 0 2 30 = 0)) 0 s <|
  let s1 := timCfgWrite (setBit (rd s timCfg) 20 (bit (pw f 0) 0)) s
  ok [] { s1 with tim := { s1.tim with discipline := bit (pw f 0) 1, ppsSeen := if s.tim.discipline then s.tim.ppsSeen else s.tim.cnt } }

def bodyTimePpsCfg : Body := fun _ f s =>
  lenIs f 12 s <| inRange (decide ((pw f 0).toNat < 10 ^ 9)) 0 s <| inRange (decide ((pw f 1).toNat ≤ 999999)) 1 s <|
  inRange (decide (pf f 2 1 31 = 0)) 2 s <|
  ok [] (wrBit timCfg 21 (bit (pw f 2) 0) (wr timPpsWidth (pw f 1) (wr timPpsCfg (pw f 0) s)))

def bodyTimePortAdj : Body := fun _ f s =>
  lenIs f 12 s <| inRange (decide ((pw f 0).toNat < 256) && !portUnused s (pw f 0).toNat) 0 s <|
  ok [] (wr (timPortAdj (pw f 0).toNat 1) (pw f 2) (wr (timPortAdj (pw f 0).toNat 0) (pw f 1) s))

/-- Word 0: [1:0] the instance, [15:8] its domain, [16] PTP, [17] 802.1AS, [18] C37.238; word 1: the options of R288
that are not supported, in the order of its table, of which none may be set.  DESIGN CHOICE (log entry 32) -/
def bodyPtpInstanceSet : Body := fun v f s =>
  lenIs f 8 s <| inRange (decide (pf f 0 2 6 = 0) && decide (pf f 0 19 13 = 0)) 0 s <|
  inRange (decide (0x0300 ≤ v) || !bit (pw f 0) 18) 0 s <|
  refuse (pw f 1 != 0) eUnsupported s <|
  ok [] { s with tim := { s.tim with ptp := tset [] s.tim.ptp (pf f 0 0 2) [pw f 0, pw f 1] } }

end Sys2Proof.Machine
end

