-- ==== Sys2Proof/Machine/PathBase.lean ====
section
/-! DEFINITION. Packets and their egress copies (R18, R23, R252): the numbered tables that hold them, the port counters
of R508, packet sample records (R513), and how a copy and a packet end. -/

namespace Sys2Proof.Machine
open Sys2Proof

def getPkt (s : State) (k : Nat) : Option Pkt := tget none s.path.pkts k
def setPkt (k : Nat) (x : Pkt) (s : State) : State :=
  { s with path := { s.path with pkts := tset none s.path.pkts k (some x) } }
def endPkt (k : Nat) (s : State) : State :=
  { s with path := { s.path with pkts := tset none s.path.pkts k none } }
def modPkt (k : Nat) (f : Pkt → Pkt) (s : State) : State :=
  match getPkt s k with
  | some x => setPkt k (f x) s
  | none => s

def getCopy (s : State) (c : Nat) : Option Copy := tget none s.path.copies c
def setCopy (c : Nat) (x : Copy) (s : State) : State :=
  { s with path := { s.path with copies := tset none s.path.copies c (some x) } }
def endCopy (c : Nat) (s : State) : State :=
  { s with path := { s.path with copies := tset none s.path.copies c none } }
def modCopy (c : Nat) (f : Copy → Copy) (s : State) : State :=
  match getCopy s c with
  | some x => setCopy c (f x) s
  | none => s

/-- The copies of a packet. -/
def copiesOf (s : State) (k : Nat) : List (Nat × Copy) :=
  s.path.copies.filterMap (fun q => match q.2 with
    | some x => if x.pkt = k then some (q.1, x) else none
    | none => none)

/-- A packet's length with its FCS, and its bytes so far. -/
def frameLen (x : Pkt) : Nat := x.bytes.length + 4

/-! ### Requests for slots of the Plain (R27, R30, R240) -/

abbrev actDma : Nat := 1
abbrev actMirror : Nat := 2
def memKey (d a : Nat) : Nat := 2 * d + a
def memQueue (s : State) (d a : Nat) : List MemReq := tget [] s.path.memQ (memKey d a)
def setMemQueue (d a : Nat) (l : List MemReq) (s : State) : State :=
  { s with path := { s.path with memQ := tset [] s.path.memQ (memKey d a) l } }

/-- The activity grants a new request at once: none waits before it and a slot is left. -/
def memFree (s : State) (d a : Nat) : Bool := (memQueue s d a).isEmpty && hasSlot s (plainMem d) a
def memWait (d a : Nat) (r : MemReq) (s : State) : State := setMemQueue d a (memQueue s d a ++ [r]) (waited (plainMem d) a s)

/-- A packet that a waiting request needs. -/
def memNeeds (s : State) (k : Nat) : Bool :=
  s.path.memQ.any (fun q => q.2.any (fun r => match r with
    | .frame j _ _ _ _ | .mirror j _ _ => j == k
    | .sample _ _ _ => false))

/-! ### Port counters (R508): the position is the counter's first word -/

abbrev kPort : Nat := 0
abbrev pcRxOk : Nat := 0
abbrev pcRxOctets : Nat := 2
abbrev pcTxOk : Nat := 4
abbrev pcTxOctets : Nat := 6
abbrev pcRxMc : Nat := 8
abbrev pcRxBc : Nat := 10
abbrev pcTxMc : Nat := 12
abbrev pcTxBc : Nat := 14
abbrev pcFcsErr : Nat := 16
abbrev pcTooLong : Nat := 18
abbrev pcFifoDrop : Nat := 24
abbrev pcInvFcs : Nat := 25
def bumpPort (p pos k : Nat) (s : State) : State := bump kPort p pos (if pos < 24 then 64 else 32) k s

/-- A frame is a broadcast, and a multicast that is none. -/
def isBroadcast (bs : List Byte) : Bool := beAt bs 0 6 == 2 ^ 48 - 1
def isMulticast (bs : List Byte) : Bool := (beAt bs 0 1) % 2 == 1 && !isBroadcast bs

/-! ### Slots of R510 -/

/-- The slot counters of a pipeline index (R518). -/
def slotReg (pip i : Nat) : Nat := pipBase pip + 0x100 + 8 * i
abbrev slTotal : Nat := 0
abbrev slRetired : Nat := 1
abbrev slWasted : Nat := 2
abbrev slFront : Nat := 3
abbrev slBack : Nat := 4

/-- Overflow sampling (R515): the registers of a pipeline, and an event counted while MODE is 1 and the pipeline counts
it.  Events are 0 RETIRED, 1 WASTED, 2 FRONT, 3 BACK, 4 parse discards, 5 packets discarded anywhere. -/
def pmcOvf (pip off : Nat) : Nat := pmcBase + 0x1000 + 0x20 * pip + off
abbrev pmcTagCfg : Nat := pmcBase + 0x04
def ovfEvent (pip ev : Nat) (s : State) : State :=
  if rdBit s pmcTagCfg 24 && rdBit s (pmcOvf pip 0) 27 && rdF s (pmcOvf pip 0) 24 3 == ev then
    wrF (pmcOvf pip 4) 0 24 ((rdF s (pmcOvf pip 4) 0 24 + 1) % 2 ^ 24) s
  else s

/-- A packet none of whose copies reached an egress MAC or the MP moves its slot at its last discard. -/
def moveSlot (pip : Nat) (s : State) : State :=
  ovfEvent pip 5 <| add64 (slotReg pip slWasted) 1 (add64 (slotReg pip slRetired) (-1) s)

/-- A packet with nothing left to send: its slot moves when no copy was sent, once, and the packet is over when its FCS
is known (R510).  `sent` marks a packet whose slot is settled. -/
def reapPkt (k : Nat) (s : State) : State :=
  match getPkt s k with
  | some x =>
    if x.phase = .admitted ∧ x.dies = [] ∧ (copiesOf s k).isEmpty ∧ memNeeds s k = false then
      let s1 := if x.sent then s else moveSlot x.pip (setPkt k { x with sent := true } s)
      if x.complete ∧ x.fcs.isSome then endPkt k s1 else s1
    else s
  | none => s

/-! ### Packet sample records (R513, R514) -/

abbrev pmcPring : Nat := pmcBase + 0x340
def pmcQring (d : Nat) : Nat := pmcBase + 0x300 + 0x20 * d
abbrev pmcPsampLost : Nat := pmcBase + 0x488
def pmcQsampLost (d : Nat) : Nat := pmcBase + 0x480 + 4 * d

/-- A sample record posted to its ring, or lost and counted. -/
def sampleWrite (ring lost : Nat) (ws : List Word) (s : State) : State :=
  let r := ringPost ring 256 1 ws s
  if r.1 then r.2 else raise srcSampleRingLost lost 0 0 (inc lost r.2)

/-- A sample record on its way to its ring: one in host memory takes an access of the Plain's host DMA (R25), and waits
for it. -/
def postSample (ring lost : Nat) (ws : List Word) (s : State) : State :=
  if !rdBit s (ring + 8) 1 then sampleWrite ring lost ws s
  else if memFree s 0 actDma then sampleWrite ring lost ws (charge (plainMem 0) actDma 1 s)
  else memWait 0 actDma (.sample ring lost ws) s

/-- A stage time in its field, saturating. -/
def satF (n x : Nat) : Nat := min x (2 ^ n - 1)

/-- What a sample record says of the copy, where there is one: port, class, queue, rewrite steps, flags, times. -/
structure SampleCopy where
  port : Nat
  tc : Nat
  cut : Bool
  spilled : Bool
  steps : Nat
  vEnd : Nat
  queue : Nat
  residence : Int
  times : List Nat

def noCopy : SampleCopy := ⟨0, 0, false, false, 0, 0, 0, 0, []⟩
def sampleOf (c : Copy) (residence : Int) : SampleCopy :=
  ⟨c.port, c.tc, c.cut, c.spilled, c.ctx.steps, c.vEnd, 262144 * dieOf c.port + c.queue, residence, c.times⟩

/-- The sixteen words of a packet sample record, the `seq`th since reset. -/
def sampleWords (x : Pkt) (c : SampleCopy) (fate seq : Nat) : List Word :=
  let t := fun i => x.times.getD i 0
  let u := fun i => wd (satF 32 (c.times.getD i 0))
  [wd (x.port + c.port * 2 ^ 8 + fate * 2 ^ 16 + c.tc * 2 ^ 20 + x.colour * 2 ^ 23 + b2n c.cut * 2 ^ 25 +
      b2n c.spilled * 2 ^ 26 + b2n (decide (c.residence < 0)) * 2 ^ 27),
   wd (frameLen x % 2 ^ 16 + satF 9 x.ctx.steps * 2 ^ 16),
   wd (satF 9 c.steps + x.vParse * 2 ^ 9 + c.vEnd * 2 ^ 15 + x.pip * 2 ^ 21 + pgOf c.port * 2 ^ 26),
   wd (x.handle.getD 0 + b2n x.handle.isSome * 2 ^ 18),
   wd c.queue,
   wd (x.stamp % 10 ^ 9), wd (x.stamp / 10 ^ 9),
   wd (satF 16 (t 0) + satF 16 (t 1) * 2 ^ 16), wd (satF 16 (t 2) + satF 16 (t 3) * 2 ^ 16),
   u 0, u 1, u 2, wd (min c.residence.toNat (2 ^ 32 - 1)), wd seq, 0, 0]

/-- The counter of packet sample records since reset. -/
abbrev kSample : Nat := 99

/-- The sample record of a tagged packet for one copy, or for the packet before it was replicated. -/
def samplePkt (x : Pkt) (c : SampleCopy) (fate : Nat) (s : State) : State :=
  if x.tagged then
    let s1 := bump kSample 0 0 32 1 s
    postSample pmcPring pmcPsampLost (sampleWords x c fate (cntOf s1 kSample 0 0)) s1
  else s

/-! ### How copies and packets end -/

/-- A packet discarded before it was replicated: sampled, its slot moved.  It is gone once its FCS is known.  One that the
filter stage discards (fate 4) owes its context nothing more: it is counted in the counter of its discard only (R200). -/
def discardPkt (k fate : Nat) (s : State) : State :=
  match getPkt s k with
  | some x => reapPkt k (setPkt k { x with phase := .admitted, dies := [], handle := if fate = 4 then none else x.handle } (samplePkt x noCopy fate s))
  | none => s

/-- A copy's buffer released by its port (R232); a copy whose frame lies in HBM holds no cell. -/
def releaseCopy (x : Copy) (s : State) : State :=
  if x.inHbm then s else (release (dieOf x.port) (pgOf x.port) x.port x.ptr s).2

/-- A copy discarded: its buffer released, sampled, gone. -/
def discardCopy (c fate : Nat) (s : State) : State :=
  match getCopy s c with
  | some x =>
    let s1 := releaseCopy x s
    let s2 := match getPkt s1 x.pkt with
      | some p => samplePkt p (sampleOf x 0) fate s1
      | none => s1
    reapPkt x.pkt (endCopy c s2)
  | none => s

end Sys2Proof.Machine
end

