-- ==== Sys2Proof/Machine/Ucode.lean ====
section
/-! DEFINITION. What parse and rewrite engines share (R84 to R95, R103 to R106, R112, R307 to R310, R316, R334):
registers, contexts, fetching through the match bank, patch memory, bank switches, faults of microcode. -/

namespace Sys2Proof.Machine
open Sys2Proof

/-! ### Registers.  Engine 0 is the parse engine, engine 1 the rewrite engine -/

def engReg (e pip off : Nat) : Nat := pipBase pip + (if e = 0 then 0x4000 else 0x8000) + off
def engCtl (e pip : Nat) : Nat := engReg e pip 0x04
def engBank (e pip : Nat) : Nat := engReg e pip 0x08
def engStat (e pip : Nat) : Nat := engReg e pip 0x0C
def engPatchAddr (e pip : Nat) : Nat := engReg e pip 0x10
def engPatchData (e pip w : Nat) : Nat := engReg e pip (0x20 + 4 * w)
def engPortProf (e p : Nat) : Nat := engReg e (pgOf p) (0x40 + 4 * (p % 8))
def engMatch (e pip n : Nat) : Nat := engReg e pip (0x100 + 4 * n)
def engProf (e pip n : Nat) : Nat := engReg e pip (0x200 + 4 * n)
def engCnt (e pip n : Nat) : Nat := engReg e pip (0x300 + 8 * n)
abbrev pcDone : Nat := 0
abbrev pcTrunc : Nat := 1
abbrev pcShort : Nat := 2
abbrev pcDrop : Nat := 3
abbrev pcUfault : Nat := 4
abbrev pcSteps : Nat := 5
abbrev rcDone : Nat := 0
abbrev rcDrop : Nat := 1
abbrev rcUfault : Nat := 2
abbrev rcOversize : Nat := 3
abbrev rcGnoyrDrop : Nat := 4
abbrev rcNegRes : Nat := 5
def countEng (e pip n : Nat) (k : Nat) (s : State) : State := add64 (engCnt e pip n) k s

/-- Words of a bank's match table, of patch memory, of a microword; the ROM's size. -/
def matchEnts (e : Nat) : Nat := if e = 0 then 32 else 16
def patchWords (e : Nat) : Nat := if e = 0 then 512 else 256
def wordWords (e : Nat) : Nat := if e = 0 then 8 else 6
def romSize (e : Nat) : Nat := if e = 0 then 0x2000 else 0x1000

/-- The step limit: 0 stands for 256 (R94). -/
def stepLimit (s : State) (e pip : Nat) : Nat :=
  let v := rdF s (engCtl e pip) 0 8
  if v = 0 then 256 else v

def activeBank (s : State) (e pip : Nat) : Nat := rdF s (engBank e pip) 0 1

/-! ### Patch memory (R103, R112) -/

def patchTable (s : State) (e : Nat) : Sparse Nat := if e = 0 then s.ucode.prs else s.ucode.rwe
def patchKey (s : State) (pip i : Nat) : Nat := key (physPip s pip) i
def patchWord (s : State) (e pip i : Nat) : Nat := tget 0 (patchTable s e) (patchKey s pip i)
def setPatchWord (e pip i v : Nat) (s : State) : State :=
  if e = 0 then { s with ucode := { s.ucode with prs := tset 0 s.ucode.prs (patchKey s pip i) v } }
  else { s with ucode := { s.ucode with rwe := tset 0 s.ucode.rwe (patchKey s pip i) v } }

/-- A write of PATCH_ADDR loads the word that it addresses into PATCH_DATA. -/
def patchAddrWrite (e pip : Nat) (v : Word) (s : State) : State :=
  let s1 := wrM (engPatchAddr e pip) (if e = 0 then 0x101FF else 0x100FF) v s
  let w := patchWord s1 e pip (rdF s1 (engPatchAddr e pip) 0 9)
  (List.range (wordWords e)).foldl (fun t i => wr (engPatchData e pip i) (wd (w / 2 ^ (32 * i))) t) s1

/-- A write of PATCH_DATA; of word 0, all words are stored at ADDR, which AUTO_INC then moves on. -/
def patchDataWrite (e pip w : Nat) (v : Word) (s : State) : State :=
  let s1 := wr (engPatchData e pip w) v s
  if w ≠ 0 then s1
  else
    let a := rdF s1 (engPatchAddr e pip) 0 9
    let x := (List.range (wordWords e)).foldl (fun n i => n + (rd s1 (engPatchData e pip i)).toNat * 2 ^ (32 * i)) 0
    let s2 := setPatchWord e pip a x s1
    if rdBit s2 (engPatchAddr e pip) 16 then wrF (engPatchAddr e pip) 0 9 ((a + 1) % patchWords e) s2 else s2

/-! ### Contexts (R84, R86, R307) -/

/-- The contexts taken on an engine: the packets that it parses, the copies that it rewrites. -/
def parsing (s : State) (pip : Nat) : List Pkt :=
  s.path.pkts.filterMap (fun q => match q.2 with
    | some x => if x.pip = pip ∧ x.phase = .parsing then some x else none
    | none => none)
def rewriting (s : State) (pip : Nat) : List Copy :=
  s.path.copies.filterMap (fun q => match q.2 with
    | some x => if pgOf x.port = pip ∧ x.phase = .rewriting then some x else none
    | none => none)
def takenCtx (s : State) (e pip : Nat) : List UCtx :=
  if e = 0 then (parsing s pip).map (·.ctx) else (rewriting s pip).map (·.ctx)

/-- A context at HP waits for segment data: its window includes bytes that have not arrived (R85, R87). -/
def windowWaits (e len got hp : Nat) : Bool := decide (got < min (hp + 32) (min (if e = 0 then 512 else 1055) len))
def waitingCtx (s : State) (e pip : Nat) : Nat :=
  if e = 0 then ((parsing s pip).filter (fun x => windowWaits 0 x.bytes.length x.got x.ctx.hp)).length
  else ((rewriting s pip).filter (fun x => match getPkt s x.pkt with
    | some p => windowWaits 1 p.bytes.length p.got x.ctx.hp
    | none => false)).length

/-- The occupancy register, and BUSY, which clears when the last context of the other bank has ended (R104). -/
def ctxUpdate (e pip : Nat) (s : State) : State :=
  let l := takenCtx s e pip
  let s1 := wr (engStat e pip) (wd (l.length + waitingCtx s e pip * 2 ^ 8)) s
  if rdBit s1 (engBank e pip) 2 && l.all (fun c => c.bank == activeBank s1 e pip) then wrBit (engBank e pip) 2 false s1 else s1

/-- A switch of banks, refused while BUSY is set (R104). -/
def bankSwitch (e pip : Nat) (s : State) : State :=
  if rdBit s (engBank e pip) 2 then wrBit (engBank e pip) 3 true s
  else
    let b := activeBank s e pip
    ctxUpdate e pip (wrBit (engBank e pip) 2 true (wrF (engBank e pip) 0 1 (1 - b) s))

/-- A write of the bank register: the W1C flags, then SWITCH. -/
def bankWrite (e pip : Nat) (v : Word) (s : State) : State :=
  let s1 := wr (engBank e pip) (rd s (engBank e pip) &&& ~~~(v &&& 0x18)) s
  if bit v 1 then bankSwitch e pip s1 else s1

/-- A write to a match or profile entry: dropped, and flagged, for the active bank (R103). -/
def entWrite (e pip bank a m : Nat) (v : Word) (s : State) : State :=
  if bank = activeBank s e pip then wrBit (engBank e pip) 4 true s else wrM a m v s
def matchWrite (e pip n : Nat) (v : Word) (s : State) : State :=
  entWrite e pip (n / matchEnts e) (engMatch e pip n) (if e = 0 then 0x81FF1FFF else 0x80FF0FFF) v s
def profWrite (e pip n : Nat) (v : Word) (s : State) : State :=
  entWrite e pip (n / 16) (engProf e pip n) (if e = 0 then 0x80FF3FFF else 0x80FF1FFF) v s

/-- Profiles that a port register accepts. -/
def profOk (e v : Nat) : Bool :=
  decide (v ≤ 2) || v == 5 || (decide (0x10 ≤ v) && decide (v ≤ 0x1F)) || (e == 0 && decide (v ≤ 5))

/-- A write of a port's profile: ignored for an absent port, dropped for an ID that names none. -/
def portProfWrite (e p : Nat) (v : Word) (s : State) : State :=
  let a := engPortProf e p
  if !portExists s p then s
  else
    let s1 := if bit v 8 then wrBit a 8 false s else s
    if profOk e (fld v 0 8) then wrF a 0 8 (fld v 0 8) s1 else wrBit a 8 true s1

/-! ### Fetching (R92, R105) -/

/-- A match entry is in force: enabled, and its parity has not been found bad. -/
def matchOn (s : State) (e pip n : Nat) : Bool :=
  rdBit s (engMatch e pip n) 31 && !s.bus.restoreQ.contains (physAddr s (engMatch e pip n))

/-- ROM addresses that no entry redirects: the Primrose profile's. -/
def romGuarded (e a : Nat) : Bool :=
  if e = 0 then decide (0x1400 ≤ a) && decide (a ≤ 0x14FF) else decide (0x0A00 ≤ a) && decide (a ≤ 0x0AFF)

/-- The patch word that a bank puts in the place of a ROM address. -/
def redirected (s : State) (e pip bank a : Nat) : Option Nat :=
  if romGuarded e a then none
  else ((List.range (matchEnts e)).map (matchEnts e * bank + ·)).findSome? (fun n =>
    if matchOn s e pip n ∧ rdF s (engMatch e pip n) 0 13 = a then some (rdF s (engMatch e pip n) 16 9) else none)

/-- The patch word is firmware's copy of the ROM word at `a` (R95). -/
def coversRom (s : State) (e pip i a : Nat) : Bool := s.ucode.covers.contains ⟨e, physPip s pip, i, a⟩

/-- The address that is executed for a sequencer address; a copy of a ROM word acts as the ROM word. -/
def effective (s : State) (e pip bank a : Nat) : Nat :=
  if a < romSize e then
    (match redirected s e pip bank a with
      | some i => if coversRom s e pip i a then a else romSize e + i
      | none => a)
  else a

/-- A bank redirects a ROM address other than those of a list: the shipped routines may then be left half way. -/
def patchedElsewhere (s : State) (e pip bank : Nat) (known : List Nat) : Bool :=
  (List.range (matchEnts e)).any (fun i =>
    let n := matchEnts e * bank + i
    let a := rdF s (engMatch e pip n) 0 13
    matchOn s e pip n && !known.contains a && !romGuarded e a && !coversRom s e pip (rdF s (engMatch e pip n) 16 9) a)

/-! ### Regions and the sequencer (R90, R310) -/

/-- The region of a sequencer address: 0 ROM, 1 patch memory, 2 none. -/
def region (e a : Nat) : Nat := if a < romSize e then 0 else if a < romSize e + patchWords e then 1 else 2

/-- A field of a microword. -/
def mf (w lo n : Nat) : Nat := w / 2 ^ lo % 2 ^ n

/-- What the sequencer does with a microword at `cur`: the next address with the address whose region it must share, a
call, a return, END, DROP, or an illegal encoding. -/
inductive Seq where
  | goto (a base : Nat) | call | ret | stop | drop | illegal
  deriving DecidableEq, Repr

/-- The sequencer field: `sel` is the selected field, `vs` the compare values. -/
def sequencer (e op target cur sel mask shift limit : Nat) (vs : List Nat) : Seq :=
  let m := Nat.land sel mask
  let v := fun i => Nat.land (vs.getD i 0) mask
  let br := fun (b : Bool) => if b then Seq.goto target target else .goto (cur + 1) cur
  match op with
  | 0 => .goto (cur + 1) cur
  | 1 => .goto target target
  | 2 => br (m == v 0)
  | 3 => br (m != v 0)
  | 4 => br (decide (m < v 0))
  | 5 => br (decide (v 0 ≤ m))
  | 6 => .goto (target + min (m / 2 ^ shift) limit) target
  | 7 => if e = 0 then .goto (target + ((List.range 4).find? (fun i => m == v i)).getD 4) target else .illegal
  | 8 => .call
  | 9 => .ret
  | 10 => .stop
  | 11 => .drop
  | _ => .illegal

/-- A byte of a context's window (R87). -/
def winByte (bs : List Byte) (hp i : Nat) : Nat := if hp + i < 512 then (bs.getD (hp + i) 0).toNat else 0
def winField (bs : List Byte) (hp i : Nat) : Nat :=
  winByte bs hp i * 256 + (if i = 31 then 0 else winByte bs hp (i + 1))

/-- The scratch registers after a step: SCR_OP on the shifted field. -/
def scratch (op a b x : Nat) : Nat × Nat :=
  match op with
  | 1 => (x, b)
  | 2 => (a, x)
  | 3 => ((a + 1) % 65536, b)
  | 4 => (a, (b + 1) % 65536)
  | 5 => (0, b)
  | 6 => (a, 0)
  | _ => (a, b)

/-- The sequencer's outcome resolved against the micro-stack. -/
inductive SeqEnd where
  | next (pc : Nat) (stack : List Nat) | stop | drop | stackFault | illegal
  deriving DecidableEq, Repr

def resolve (e : Nat) (q : Seq) (target cur : Nat) (stack : List Nat) : SeqEnd :=
  match q with
  | .goto a base => if region e a = region e base ∧ region e a ≠ 2 then .next a stack else .illegal
  | .call => if 4 ≤ stack.length then .stackFault else if region e target = 2 then .illegal else .next target ((cur + 1) :: stack)
  | .ret => match stack with
    | [] => .stackFault
    | a :: rest => if region e a = 2 then .illegal else .next a rest
  | .stop => .stop
  | .drop => .drop
  | .illegal => .illegal

/-! ### Microcode faults (R91, R94, R95) -/

/-- The address field of a microcode fault's record. -/
def ucodeAddr (s : State) (e pip a : Nat) : Nat :=
  a % 2 ^ 14 + pip % 32 * 2 ^ 16 + b2n (spareServes s pip) * 2 ^ 21 + e * 2 ^ 22
def raiseUcode (src e pip a : Nat) (s : State) : State := raise src (ucodeAddr s e pip a) 1 pip s

/-- Firmware's cover of a ROM word that fails twice (R95): a match entry free in both banks points at a copy of the word in
a patch word that no set takes.  DESIGN CHOICE (log entry 69) -/
def romCover (e pip a : Nat) (s : State) : State :=
  let used := fun (i : Nat) => s.ucode.sets.any (fun q => (q.1 == e + 1 || q.1 == e + 3) &&
      decide (q.2.base ≤ i) && decide (i < q.2.base + beAt q.2.image 12 2)) ||
    s.ucode.covers.any (fun c => c.e == e && c.pip == physPip s pip && c.word == i)
  let free := fun (n : Nat) => !rdBit s (engMatch e pip n) 31 && !rdBit s (engMatch e pip (matchEnts e + n)) 31
  match (List.range (matchEnts e)).find? free, (List.range (patchWords e)).reverse.find? (fun i => !used i) with
  | some n, some i =>
    let w := wd (a + i * 2 ^ 16 + 2 ^ 31)
    let s1 := wr (engMatch e pip (matchEnts e + n)) w (wr (engMatch e pip n) w s)
    { s1 with ucode := { s1.ucode with covers := s1.ucode.covers ++ [⟨e, physPip s pip, i, a⟩] } }
  | _, _ => s

/-- A microword read with bad parity twice: a patch word's row is flagged, a ROM word covered by firmware. -/
def patchParity (e pip a : Nat) (s : State) : State :=
  if region e a = 1 then
    flagRow (10 + e) pip (a - romSize e) Config.patchSpares (raise srcSpareExhausted (ucodeAddr s e pip a) 8 pip) s
  else if region e a = 0 && fwUp s && !romGuarded e a && (redirected s e pip 0 a).isNone && (redirected s e pip 1 a).isNone then
    romCover e pip a s
  else s

end Sys2Proof.Machine
end

