-- ==== Sys2Proof/Machine/ParseRom.lean ====
section
/-! DEFINITION. The shipped parse routines (R98 to R102, R558).  The spec gives what they deliver, where they reach the
hooks and the step counts of some paths, not their words, so a routine runs whole from an entry or a hook's default up to
the next hook or the end, and counts the steps of every header that it follows (DESIGN CHOICE, log entry 40). -/

namespace Sys2Proof.Machine
open Sys2Proof

/-- How a step, or a routine, leaves a context: it goes on; it ends with END_ACT, and `why` 1 HDR_SHORT or 2
TRUNC_PARSE; DROP; a microcode fault.  A context, and DROP, carries the steps executed so far. -/
inductive StepEnd where
  | go (c : UCtx)
  | fin (c : UCtx) (act why : Nat)
  | drop (steps : Nat)
  | fault (src addr : Nat)

/-- A routine's state, or its end. -/
abbrev Rom := Except StepEnd UCtx

def setFlag (c : UCtx) (i : Nat) : UCtx := { c with flags := setNbit c.flags i true }
def setOff (c : UCtx) (i v : Nat) : UCtx := { c with offs := c.offs.set i v }
def setCls (c : UCtx) (v : Nat) : UCtx := { c with cls := v }

/-- Steps counted: those that R101 gives the paths that it names, each header at the same cost on every path (log entry
40); the headers of no such path cost what the ROM build gives them. -/
def took (n : Nat) (c : UCtx) : UCtx := { c with steps := c.steps + n }
def romCost (h : Nat) : Nat := 1 + Config.romCost h % 4

/-- Key bytes written from `pos` on, those beyond byte 79 discarded. -/
def setKey (c : UCtx) (pos : Nat) (bs : List Byte) : UCtx := { c with kb := overwrite c.kb pos bs }

/-- n bytes of the parse window's part of a frame from offset `off` on. -/
def hdrBytes (bs : List Byte) (off n : Nat) : List Byte :=
  (List.range n).map (fun i => BitVec.ofNat 8 (winByte bs off i))
def hdrByte (bs : List Byte) (off : Nat) : Nat := winByte bs off 0
def hdr16 (bs : List Byte) (off : Nat) : Nat := winByte bs off 0 * 256 + winByte bs off 1

/-- HP moved, with the checks of R93; `deep` is the depth check. -/
def hpCheck (bs : List Byte) (n : Nat) (deep : Bool) (c : UCtx) : Nat × UCtx :=
  let hp := min n 1023
  let c1 := { c with hp := hp }
  if bs.length ≤ hp then (1, setFlag c1 1)
  else if 512 ≤ hp then (2, setFlag c1 0)
  else if deep ∧ min c.depthLimit 512 < hp - c.depthBase then (2, setFlag c1 0)
  else (0, c1)
def hpTo (bs : List Byte) (n : Nat) (c : UCtx) (deep : Bool := false) : Rom :=
  let r := hpCheck bs n deep c
  if r.1 = 0 then .ok r.2 else .error (.fin r.2 0 r.1)

def endCls (v : Nat) (c : UCtx) : Rom := .error (.fin (setCls c v) 0 0)
def toHook (a : Nat) (c : UCtx) : Rom := .error (.go { c with pc := a })

abbrev hookL2 : Nat := 0x1FF0
abbrev hookL3 : Nat := 0x1FF2
abbrev hookUdp : Nat := 0x1FF4
abbrev hookTcp : Nat := 0x1FF6
abbrev hookAppid : Nat := 0x1FF8
abbrev hookPtp : Nat := 0x1FFA
abbrev hookGnoyr : Nat := 0x1FFC
abbrev hookInner : Nat := 0x1FFE

/-! ### Transport -/

/-- A tunnel header at `h`: the VNI, the offset entry, the flag. -/
def tunnelAt (bs : List Byte) (h : Nat) (c : UCtx) : UCtx :=
  setFlag (setOff (setKey c 60 (hdrBytes bs (h + 4) 3)) 7 h) 16

def vxlan (bs : List Byte) (c : UCtx) : Rom := do
  let c ← hpTo bs (c.hp + 8) (took 2 c)
  let c ← hpTo bs (c.hp + 8) (tunnelAt bs c.hp c)
  toHook hookInner (setOff c 8 c.hp)

def geneve (bs : List Byte) (c : UCtx) : Rom := do
  let c ← hpTo bs (c.hp + 8) (took (romCost 1) c)
  let h := c.hp
  if hdr16 bs (h + 2) ≠ 0x6558 then endCls 0x13 (tunnelAt bs h c)
  else do
    let c ← hpTo bs (h + 8 + 4 * (hdrByte bs h % 64)) (tunnelAt bs h c)
    toHook hookInner (setOff c 8 c.hp)

/-- An IEEE 1588 header at HP: the offset entry, the message type, the event or general flag. -/
def ptpAt (bs : List Byte) (c0 : UCtx) : Rom :=
  let c := took (romCost 0) c0
  let t := hdrByte bs c.hp % 16
  toHook hookPtp (setFlag (setKey (setOff c 11 c.hp) 63 [BitVec.ofNat 8 t]) (if t < 4 then 9 else 10))

/-- The transport header of protocol `proto` at HP; an inner one writes no key byte and is followed no further.  SCTP
ends in as many steps as an unrecognised UDP port does with its hook and default. -/
def transport (bs : List Byte) (inner : Bool) (proto : Nat) (c : UCtx) : Rom :=
  let p0 := took (if proto = 132 then 3 else 1) c
  let ports := if inner then p0 else setKey p0 56 (hdrBytes bs c.hp 4)
  let dst := hdr16 bs (c.hp + 2)
  match proto with
  | 6 => toHook hookTcp ports
  | 17 =>
    if !inner && dst == 4789 then vxlan bs ports
    else if !inner && dst == 6081 then geneve bs ports
    else if !inner && (dst == 319 || dst == 320) then do
      let c ← hpTo bs (ports.hp + 8) ports
      ptpAt bs c
    else toHook hookUdp ports
  | 132 => endCls 0x12 ports
  | _ => toHook hookL3 c

/-! ### IP -/

/-- An IPv4 header at HP.  An inner header sets IP_FRAG, and neither IPV4_OPT nor TTL_LOW; a fragment that ends the parse
ends it with HP at its IP header.  DESIGN CHOICE (log entry 69) -/
def ipv4 (bs : List Byte) (inner : Bool) (c0 : UCtx) : Rom := do
  let h := c0.hp
  let ihl := hdrByte bs h % 16
  let fw := hdr16 bs (h + 6)
  let c1 := setOff (took (if !inner && decide (5 < ihl) then 2 else 1) c0) (if inner then 9 else 5) h
  let c2 := if inner then c1 else
    setKey (setKey (setKey (setKey c1 20 (hdrBytes bs (h + 9) 1)) 21 (hdrBytes bs (h + 1) 1))
      36 (hdrBytes bs (h + 12) 4)) 52 (hdrBytes bs (h + 16) 4)
  let c3 := if !inner && decide (5 < ihl) then setFlag c2 5 else c2
  let c4 := if !inner && decide (hdrByte bs (h + 8) ≤ 1) then setFlag c3 8 else c3
  let c5 := if fw % 8192 ≠ 0 ∨ nbit fw 13 then setFlag c4 6 else c4
  if fw % 8192 ≠ 0 then endCls 0x03 c5
  else do
    let c ← hpTo bs (h + 4 * ihl) c5
    transport bs inner (hdrByte bs (h + 9)) (setOff c (if inner then 10 else 6) c.hp)

/-- The IPv6 extension headers that are followed. -/
def isExt (n : Nat) : Bool := [0, 43, 60, 135, 139, 140, 253, 254, 44, 51].contains n

/-- IPv6 extension headers from HP on, one step each; the first sets the depth base, every further one is checked.  Key byte
20 holds the next-header value followed last. -/
def extHeaders (bs : List Byte) : Nat → Bool → Nat → UCtx → Rom
  | 0, _, nh, c => transport bs false nh c
  | fuel + 1, first, nh, c0 =>
    if !isExt nh then
      let c := setKey c0 20 [BitVec.ofNat 8 nh]
      transport bs false nh (setOff c 6 c.hp)
    else do
      let h := c0.hp
      let ck := took 1 (setKey c0 20 [BitVec.ofNat 8 nh])
      let c1 := setFlag (if first then { setOff ck 13 h with depthBase := h } else ck) 7
      let next := hdrByte bs h
      let len := if nh = 44 then 8 else if nh = 51 then 4 * (hdrByte bs (h + 1) + 2) else 8 * (hdrByte bs (h + 1) + 1)
      let fw := hdr16 bs (h + 2)
      if nh = 44 ∧ fw / 8 ≠ 0 then endCls 0x03 (setFlag (setKey c1 20 [BitVec.ofNat 8 next]) 6)
      else do
        let c2 := if nh = 44 ∧ fw % 2 = 1 then setFlag c1 6 else c1
        let c ← hpTo bs (h + len) c2 (!first)
        extHeaders bs fuel false next c

/-- An IPv6 header at HP.  The steps of an outer one are what R101's worst path leaves for it.  An inner one with extension
headers, which are not followed, reaches hook 0x1FF2 with HP at the first of them.  DESIGN CHOICE (log entry 69) -/
def ipv6 (bs : List Byte) (inner : Bool) (c0 : UCtx) : Rom := do
  let h := c0.hp
  let c1 := setOff (took (if inner then 1 else 11) c0) (if inner then 9 else 5) h
  let c2 := if inner then c1 else
    setKey (setKey (setKey c1 21 [BitVec.ofNat 8 (hdr16 bs h / 16)]) 24 (hdrBytes bs (h + 8) 16)) 40 (hdrBytes bs (h + 24) 16)
  let c3 := if !inner && decide (hdrByte bs (h + 7) ≤ 1) then setFlag c2 8 else c2
  let nh := hdrByte bs (h + 6)
  let c ← hpTo bs (h + 40) c3
  if inner then
    if isExt nh then toHook hookL3 (setFlag c 17) else transport bs true nh (setOff c 10 c.hp)
  else extHeaders bs 128 true nh c

/-! ### Layer 2 -/

def isVlan (t : Nat) : Bool := t == 0x8100 || t == 0x88A8 || t == 0x9100

/-- The APPID of a GOOSE or sampled-value frame at HP. -/
def appid (bs : List Byte) (flag : Nat) (c : UCtx) : Rom :=
  toHook hookAppid (setFlag (setKey (setOff (took 1 c) 12 c.hp) 64 (hdrBytes bs c.hp 2)) flag)

/-- The EtherType after all tags, at HP. -/
def etherType (bs : List Byte) (l2 : Bool) (c0 : UCtx) : Rom :=
  let t := hdr16 bs c0.hp
  let c := setOff (setKey (took (if l2 then 4 else 1) c0) 18 (hdrBytes bs c0.hp 2)) 2 c0.hp
  let inside := fun (k : UCtx → Rom) => do
    let c ← hpTo bs (c.hp + 2) c
    k c
  if l2 then endCls 0x00 c
  else match t with
    | 0x0800 => inside (ipv4 bs false)
    | 0x86DD => inside (ipv6 bs false)
    | 0x88F7 => inside (ptpAt bs)
    | 0x88B8 => inside (appid bs 11)
    | 0x88BA => inside (appid bs 12)
    | _ => toHook hookL2 c

/-- One HSR tag or R-TAG at HP. -/
def redundancyTag (bs : List Byte) (l2 : Bool) (c : UCtx) : Rom :=
  let t := hdr16 bs c.hp
  if t = 0x892F ∨ t = 0xF1C1 then do
    let c ← hpTo bs (c.hp + 6) (setFlag (setOff (took 1 c) 3 c.hp) (if t = 0x892F then 13 else 14))
    etherType bs l2 c
  else etherType bs l2 c

/-- VLAN tags from HP on: three are followed, a fourth ends the parse. -/
def vlanTags (bs : List Byte) (l2 : Bool) : Nat → Nat → UCtx → Rom
  | 0, _, c => redundancyTag bs l2 c
  | fuel + 1, n, c0 =>
    let h := c0.hp
    if !isVlan (hdr16 bs h) then redundancyTag bs l2 c0
    else if n = 3 then endCls 0x04 (setFlag (setOff (setKey (took 1 c0) 18 (hdrBytes bs h 2)) 2 h) 2)
    else do
      let c1 := setKey (took 1 (if n = 0 then setOff c0 1 h else c0)) (12 + 2 * n) (hdrBytes bs (h + 2) 2)
      let c ← hpTo bs (h + 4) c1
      vlanTags bs l2 fuel (n + 1) c

/-- The addresses, from an entry point on.  Every shipped profile selects key layout 1, the station layout.  DESIGN CHOICE
(log entry 69) -/
def addresses (bs : List Byte) (c : UCtx) : Rom :=
  hpTo bs 12 (setKey (setOff { took 1 c with prof := 1 } 0 0) 0 (hdrBytes bs 0 12))

/-- The Gnoyr tag at HP (R362). -/
def gnoyrTag (bs : List Byte) (etype : Nat) (c0 : UCtx) : Rom :=
  let c := took (romCost 2) c0
  let h := c.hp
  if hdr16 bs h ≠ etype then .error (.drop c.steps)
  else toHook hookGnoyr (setFlag (setOff (setKey c 66 (hdrBytes bs (h + 3) 4)) 4 h) 15)

/-- VLAN tags of an inner frame, of which up to three are followed, then its EtherType. -/
def innerTags (bs : List Byte) : Nat → UCtx → Rom
  | 0, c => innerType c
  | fuel + 1, c => if isVlan (hdr16 bs c.hp) then do
      let c ← hpTo bs (c.hp + 4) (took 1 c)
      innerTags bs fuel c
    else innerType (took 1 c)
where
  innerType (c : UCtx) : Rom :=
    match hdr16 bs c.hp with
    | 0x0800 => do
      let c ← hpTo bs (c.hp + 2) c
      ipv4 bs true c
    | 0x86DD => do
      let c ← hpTo bs (c.hp + 2) c
      ipv6 bs true c
    | _ => toHook hookL2 c

/-- The routines of the ROM by the address that enters them: the entries of the profiles, and the defaults that jump on.
PRIMROSE's examines tags and EtherType as ETH_L2 does.  DESIGN CHOICE (log entry 69) -/
def romRoutine (bs : List Byte) (etype a : Nat) (c : UCtx) : Option Rom :=
  match a with
  | 0x0010 => some (addresses bs c >>= vlanTags bs false 4 0)
  | 0x0020 => some (addresses bs c >>= gnoyrTag bs etype)
  | 0x0030 => some (addresses bs c >>= vlanTags bs false 4 0)
  | 0x0040 => some (addresses bs c >>= vlanTags bs true 4 0)
  | 0x1400 => some (addresses bs c >>= vlanTags bs true 4 0)
  | 0x1FF9 => some (endCls (if nbit c.flags 12 then 0x21 else 0x20) (took 1 c))
  | 0x1FFD => some (hpTo bs (c.hp + 16) (took 1 c) >>= vlanTags bs false 4 0)
  | 0x1FFF => some (hpTo bs (c.hp + 12) (took 2 c) >>= innerTags bs 3)
  | _ => none

/-- What a routine leaves: no path of a shipped profile takes more than 60 steps, the hook and its default after it
included. -/
def capSteps (before : Nat) (c : UCtx) : UCtx := { c with steps := max (before + 1) (min c.steps 58) }
def romEnd (before : Nat) (r : Rom) : StepEnd :=
  match r with
  | .ok c => .go (capSteps before c)
  | .error (.go c) => .go (capSteps before c)
  | .error (.fin c act why) => .fin (capSteps before c) act why
  | .error e => e

/-- The ROM addresses at which a bank may redirect without leaving a routine half way. -/
def knownRom : List Nat := [0x0010, 0x0020, 0x0030, 0x0040] ++ (List.range 16).map (0x1FF0 + ·)

/-- A default word: END with a class, and a flag where one is given. -/
def endWord (cls : Nat) (flag : Option Nat) : Nat :=
  10 * 2 ^ 252 + 2 ^ 68 + cls * 2 ^ 60 + (match flag with | some i => 2 ^ 74 + i * 2 ^ 69 | none => 0)

/-- A default word: JUMP to an address of the ROM build, from `lo` on. -/
def jumpWord (lo n a : Nat) : Nat := 2 ^ 252 + (lo + Config.parseRom a % n) * 2 ^ 238

/-- A ROM word: the hooks and their defaults as R102 gives them (the one of 0x1FF9, whose class is that of the frame, is
`romRoutine`'s alone), SEQ_OP 0xF outside the listed code, elsewhere a word that the spec does not lay down. -/
def romWord (a : Nat) : Nat :=
  if 0x1FF0 ≤ a ∧ a % 2 = 0 then 0
  else match a with
    | 0x1FF1 => endWord 0x01 (some 3)
    | 0x1FF3 => endWord 0x02 (some 4)
    | 0x1FF5 => endWord 0x10 none
    | 0x1FF7 => endWord 0x11 none
    | 0x1FFB => endWord 0x30 none
    | 0x1FFD => jumpWord 0x0100 0x300 0x1FFD
    | 0x1FFF => jumpWord 0x0000 0x1400 0x1FFF
    | _ => if 0x1500 ≤ a ∧ a < 0x1FF0 then 15 * 2 ^ 252 else Config.parseRom a % 2 ^ 256

end Sys2Proof.Machine
end

