-- ==== Sys2Proof/Machine/Parse.lean ====
section
/-! DEFINITION. Ingress and the parse engine (R18, R24, R84 to R97, R512): frames into the ingress FIFO, contexts taken,
steps executed, how a parse ends. -/

namespace Sys2Proof.Machine
open Sys2Proof

/-! ### A parse microword (R88, R89, R93) -/

/-- Trailing zero bits of a byte mask. -/
def trailingZeros (m : Nat) : Nat := ((List.range 8).find? (fun i => nbit m i)).getD 0

/-- The microword holds an encoding that R88 calls illegal. -/
def prsIllegal (w : Nat) : Bool :=
  decide (16 < mf w 131 5) || decide (79 < mf w 124 7) || decide (16 < mf w 114 5) || decide (79 < mf w 107 7) ||
  mf w 100 2 == 3 || mf w 74 2 == 3 || mf w 57 3 == 7 || (mf w 252 4 == 10 && decide (2 < mf w 45 3))

/-- An extractor: key bytes written from the window; bytes that would lie beyond window byte 31 are 0.  DESIGN CHOICE (log
entry 69) -/
def extract (bs : List Byte) (hp src len dst : Nat) (kb : List Byte) : List Byte :=
  overwrite kb dst ((List.range len).map (fun i => BitVec.ofNat 8 (if src + i < 32 then winByte bs hp (src + i) else 0)))

/-- The selected field of a microword. -/
def prsSel (bs : List Byte) (w : Nat) (c : UCtx) : Nat :=
  match mf w 236 2 with
  | 0 => winField bs c.hp (mf w 231 5)
  | 1 => c.a
  | 2 => c.b
  | _ => c.flags % 65536

/-- The new HP of a step at full width. -/
def prsHp (bs : List Byte) (w : Nat) (c : UCtx) : Nat :=
  match mf w 100 2 with
  | 1 => c.hp + mf w 92 8
  | 2 =>
    let lenv := if mf w 76 8 = 0 then 0 else
      Nat.land (winByte bs c.hp (mf w 84 5)) (mf w 76 8) / 2 ^ trailingZeros (mf w 76 8)
    c.hp + lenv * 2 ^ mf w 89 3 + mf w 92 8
  | _ => c.hp

/-- The writes of a step but for PC, HP and the micro-stack; the parser's own flags 0, 1 and 18 are not written. -/
def prsWrites (bs : List Byte) (w : Nat) (c : UCtx) : UCtx :=
  let x := Nat.land (prsSel bs w c) (mf w 215 16) / 2 ^ mf w 211 4
  let ab := scratch (mf w 57 3) c.a c.b x
  let kb1 := extract bs c.hp (mf w 136 5) (mf w 131 5) (mf w 124 7) c.kb
  let kb2 := extract bs c.hp (mf w 119 5) (mf w 114 5) (mf w 107 7) kb1
  let i := mf w 69 5
  let fl := if i = 0 ∨ i = 1 ∨ i = 18 then c.flags
    else match mf w 74 2 with
      | 1 => setNbit c.flags i true
      | 2 => setNbit c.flags i false
      | _ => c.flags
  { c with
    a := ab.1, b := ab.2, kb := kb2, flags := fl,
    offs := if mf w 106 1 = 1 then c.offs.set (mf w 102 4) c.hp else c.offs,
    cls := if mf w 68 1 = 1 then mf w 60 8 else c.cls,
    prof := if mf w 56 1 = 1 then mf w 50 6 else c.prof,
    depthBase := if mf w 49 1 = 1 then c.hp else c.depthBase }

/-- One microword executed at `cur`. -/
def prsExec (bs : List Byte) (w cur : Nat) (c : UCtx) : StepEnd :=
  if prsIllegal w then .fault srcUcodeIllegal cur
  else
    let q := sequencer 0 (mf w 252 4) (mf w 238 14) cur (prsSel bs w c) (mf w 215 16) (mf w 211 4) (mf w 205 6)
      [mf w 189 16, mf w 173 16, mf w 157 16, mf w 141 16]
    let chk := hpCheck bs (prsHp bs w c) (mf w 48 1 == 1) (prsWrites bs w c)
    match resolve 0 q (mf w 238 14) cur c.stack with
    | .illegal => .fault srcUcodeIllegal cur
    | .stackFault => .fault srcUcodeStack cur
    | .drop => .drop (c.steps + 1)
    | .stop => .fin (took 1 chk.2) (mf w 45 3) chk.1
    | .next pc st => if chk.1 = 0 then .go { took 1 chk.2 with pc := pc, stack := st } else .fin (took 1 chk.2) 0 chk.1

/-! ### What a context executes -/

/-- The EtherType of the Gnoyr tag (R362). -/
def casEtype (s : State) : Nat := rdF s (casBase + 0x10) 0 16

/-- One step of a context: a microword, or a shipped routine whole (log entry 40). -/
def prsStep (s : State) (x : Pkt) : StepEnd :=
  let c := x.ctx
  let cur := effective s 0 x.pip c.bank c.pc
  if region 0 cur = 2 then .fault srcUcodeIllegal cur
  else if region 0 cur = 1 then prsExec x.bytes (patchWord s 0 x.pip (cur - 0x2000)) cur c
  else
    match (if patchedElsewhere s 0 x.pip c.bank knownRom && cur != 0x1FF9 && !romGuarded 0 cur then none else romRoutine x.bytes (casEtype s) cur c) with
    | some r => romEnd c.steps r
    | none => prsExec x.bytes (romWord cur) cur c

/-- The steps that have been executed once a step has ended; a faulting word is one. -/
def stepsAfter (c : UCtx) : StepEnd → Nat
  | .go d => d.steps
  | .fin d _ _ => d.steps
  | .drop n => n
  | .fault _ _ => c.steps + 1

/-- The HP up to which a routine has read the frame (R85). -/
def hpAfter (c : UCtx) : StepEnd → Nat
  | .go d => d.hp
  | .fin d _ _ => d.hp
  | _ => c.hp

/-- The HP whose window a step needs: its own, and for a routine the furthest that it reads (R85). -/
def needHp (c : UCtx) (r : StepEnd) : Nat := max c.hp (if stepsAfter c r = c.steps + 1 then 0 else hpAfter c r)

/-! ### How a parse ends (R93 to R97, R363, R374) -/

/-- The context of a packet is released. -/
def leavePrs (k pip : Nat) (ph : Phase) (s : State) : State :=
  ctxUpdate 0 pip (modPkt k (fun x => { x with phase := ph }) s)

/-- A packet discarded by its parser. -/
def prsDiscard (k pip : Nat) (s : State) : State := ctxUpdate 0 pip (ovfEvent pip 4 (discardPkt k 2 s))

/-- A microcode fault discards the packet (R91, R94, R95). -/
def prsFault (k pip src addr : Nat) (s : State) : State :=
  prsDiscard k pip (raiseUcode src 0 pip addr (countEng 0 pip pcUfault 1 s))

/-- Words of the Gnoyr tag of a packet that carries one: the tag's offset. -/
def tagOff (x : Pkt) : Option Nat := if x.ctx.offs.getD 4 1023 = 1023 then none else some (x.ctx.offs.getD 4 1023)
def tagByte (x : Pkt) (i : Nat) : Nat := match tagOff x with | some o => (x.bytes.getD (o + i) 0).toNat | none => 0
def tagUp (x : Pkt) : Bool := nbit (tagByte x 2) 0
def tagExc (x : Pkt) : Bool := nbit (tagByte x 2) 1
def tagCtrl (x : Pkt) : Bool := nbit (tagByte x 2) 2
def tagVer (x : Pkt) : Nat := tagByte x 2 / 16
def tagDevice (x : Pkt) : Nat := (tagByte x 3 * 2 ^ 16 + tagByte x 4 * 2 ^ 8 + tagByte x 5) % 2 ^ 20
def tagReserved (x : Pkt) : Nat := tagByte x 3 / 16

abbrev casCfg : Nat := casBase + 0x04
abbrev casStat : Nat := casBase + 0x08
abbrev casDevId : Nat := casBase + 0x0C
def casPortCfg (p : Nat) : Nat := casBase + 0x1000 + 4 * p
def casCnt (i : Nat) : Nat := casBase + 0x2000 + 4 * i
abbrev ccBadTag : Nat := 0
abbrev ccOwn : Nat := 1
abbrev ccNoUp : Nat := 2
abbrev ccUpTx : Nat := 3
abbrev ccCtrlRx : Nat := 4
abbrev ccCtrlTx : Nat := 5
abbrev ccAuthFail : Nat := 6
abbrev ccReplay : Nat := 7
def cascadePort (s : State) (p : Nat) : Bool := rdBit s (casPortCfg p) 0

/-- Where a control frame's body begins: the EtherType after the Gnoyr tag and any VLAN tags (R374). -/
def ctrlBody (x : Pkt) : Nat := x.ctx.offs.getD 2 1023

/-- The counter for which a frame of a cascade port is discarded (R363, R374). -/
def badTag (s : State) (x : Pkt) : Option Nat :=
  if !cascadePort s x.port || (tagOff x).isNone then none
  else if (tagVer x ≠ 1 ∧ tagVer x ≠ 2) ∨ tagReserved x ≠ 0 then some ccBadTag
  else if tagDevice x ≠ 0 ∧ tagDevice x = rdF s casDevId 0 20 then some ccOwn
  else if tagCtrl x ∧ beAt x.bytes (ctrlBody x) 2 ≠ casEtype s then some ccBadTag
  else none

/-- The overflow sampling of a pipeline captures the next frame whose parse ends (R515). -/
def captureParse (x : Pkt) (s : State) : State :=
  if s.path.capNext.contains x.pip then
    let s1 := { s with path := { s.path with capNext := s.path.capNext.erase x.pip } }
    let dropped := rdF s (pmcOvf x.pip 0x10) 24 6
    wr (pmcOvf x.pip 0x1C) (wd (x.stamp / 10 ^ 9)) (wr (pmcOvf x.pip 0x18) (wd (x.stamp % 10 ^ 9))
      (wr (pmcOvf x.pip 0x14) (wd (frameLen x % 2 ^ 16))
        (wr (pmcOvf x.pip 0x10)
          (wd (x.port + x.ctx.cls * 2 ^ 8 + x.ctx.flags % 256 * 2 ^ 16 + dropped * 2 ^ 24 + 2 ^ 31)) s1)))
  else s

/-- An END: the result is delivered, or the frame of a cascade port with a bad tag discarded. -/
def prsEnd (k : Nat) (x : Pkt) (c : UCtx) (act why : Nat) (s : State) : State :=
  let s1 := countEng 0 x.pip pcDone 1 s
  let s2 := if why = 1 then countEng 0 x.pip pcShort 1 s1 else if why = 2 then countEng 0 x.pip pcTrunc 1 s1 else s1
  let y := { x with ctx := c, endAct := act, phase := .parsed, times := lset x.times 0 (s.tim.cnt - x.arrival),
                    vParse := rdF s (pwiBase + 0x500 + 4 * (2 * physPip s x.pip)) 0 6 }
  let s3 := captureParse y (setPkt k y s2)
  match badTag s3 y with
  | some n => prsDiscard k x.pip (inc (casCnt n) s3)
  | none => ctxUpdate 0 x.pip s3

/-- A step of a context (R85, R89, R94): it waits for its window, or executes, and may end.  A routine waits for all that it
reads; one that passes the step limit ends in a word whose address the spec does not lay down. -/
def parseStep (k got : Nat) (bad : Bool) (s : State) : State :=
  match getPkt s k with
  | none => s
  | some x0 =>
    let x := { x0 with got := max x0.got (min got x0.bytes.length) }
    let r := prsStep s x
    if x.phase ≠ .parsing then setPkt k x s
    else if windowWaits 0 x.bytes.length x.got (needHp x.ctx r) then
      ctxUpdate 0 x.pip (setPkt k x s)
    else if bad then
      let a := effective s 0 x.pip x.ctx.bank x.ctx.pc
      prsFault k x.pip srcUcodeParity a (patchParity 0 x.pip a s)
    else
      let n := min (stepsAfter x.ctx r) (max (x.ctx.steps + 1) x.ctx.limit)
      let s1 := countEng 0 x.pip pcSteps (n - x.ctx.steps) (setPkt k { x with ctx := { x.ctx with steps := n } } s)
      if n < stepsAfter x.ctx r then
        let f := freeW s1
        prsFault k x.pip srcUcodeStep (f.1.toNat % 0x1400) f.2
      else match r with
      | .go c =>
        if c.limit ≤ n then prsFault k x.pip srcUcodeStep (effective s 0 x.pip c.bank c.pc) s1
        else ctxUpdate 0 x.pip (setPkt k { x with ctx := c } s1)
      | .fin c act why => prsEnd k x c act why s1
      | .drop _ => prsDiscard k x.pip (countEng 0 x.pip pcDrop 1 s1)
      | .fault src a => prsFault k x.pip src a s1
def execParseStep (k got : Nat) (bad : Bool) (s : State) : Out3 := .next (parseStep k got bad s)

/-! ### Ingress (R18, R24, R330) -/

/-- Bytes of the ingress FIFO of a port group. -/
abbrev fifoBytes : Nat := 262144
def fifoUsed (s : State) (n : Nat) : Nat := tget 0 s.ports.fifo n
def setFifo (n v : Nat) (s : State) : State := { s with ports := { s.ports with fifo := tset 0 s.ports.fifo n v } }

def frePortCfg (p : Nat) : Nat := freBase (dieOf p) + 0x1000 + 4 * (p % 128)
def freMode (s : State) (p : Nat) : Nat := rdF s (frePortCfg p) 0 2
abbrev modeRtag : Nat := 1
abbrev modeHsr : Nat := 2
abbrev modePrp : Nat := 3
def freCnt (d i : Nat) : Nat := freBase d + 0x2000 + 4 * i
abbrev fcUntagged : Nat := 0
abbrev fcDupDisc : Nat := 1
abbrev fcDupEvict : Nat := 2
abbrev fcWrongLan : Nat := 3
abbrev fcOwn : Nat := 4

/-- The source address is one of the die's own (R330). -/
def ownMac (s : State) (d : Nat) (bs : List Byte) : Bool :=
  (List.range 4).any (fun i =>
    let hi := rd s (freBase d + 0x44 + 8 * i)
    bit hi 31 && beAt bs 6 6 == (rd s (freBase d + 0x40 + 8 * i)).toNat + fld hi 0 16 * 2 ^ 32)

def startCtx : UCtx := ⟨0, 0, 0, 0, [], 0, 0, 64, 256, List.replicate 80 0, List.replicate 16 1023, 0, 0, 0, 0⟩
def noDecision : Decision := ⟨[], false, [], false, 0, 0, 0, false, false, 0, false, false, false⟩

/-- A packet as the ingress MAC delivers it. -/
def newPkt (s : State) (p got : Nat) (bytes : List Byte) : Pkt :=
  { port := p, pip := pgOf p, bytes := bytes, got := min got bytes.length, complete := false, fcs := none,
    arrival := s.tim.cnt, stamp := stampNow s p false, tsv := timValid s, phase := .fifo, profile := 0, ctx := startCtx,
    endAct := 0, dec := noDecision, handle := none, colour := 0, tenant := 0, charged := [], seq := none, dies := [],
    ptrs := [], verdicts := [], trigger := none, tagged := false, times := [0, 0, 0, 0], vParse := 0, sent := false, falseHits := 0 }

/-- A frame arrives: lost while its port is down (a ring port's frames before the hand-over are PRIMROSE_FRAME's), dropped whole when the FIFO has no room, discarded when an HSR port
brings back the engine's own; else it waits for its pipeline. -/
def frameIngress (p got : Nat) (bytes : List Byte) (s : State) : State :=
  let n := pgOf p
  if !portUp s p || !pgRuns s p || primrosePort s p then s
  else if fifoBytes < fifoUsed s n + bytes.length + 4 then
    raise srcMacFifoOvf p 4 n (bumpPort p pcFifoDrop 1 s)
  else if freMode s p = modeHsr ∧ ownMac s (dieOf p) bytes = true then inc (freCnt (dieOf p) fcOwn) s
  else
    let s1 := setFifo n (fifoUsed s n + bytes.length + 4) s
    { setPkt s1.path.nextPkt (newPkt s1 p got bytes) s1 with path :=
      { (setPkt s1.path.nextPkt (newPkt s1 p got bytes) s1).path with nextPkt := s1.path.nextPkt + 1 } }
def execFrameIngress (p got : Nat) (bytes : List Byte) (s : State) : Out3 :=
  needs (portExists s p && decide (0 < bytes.length)) (if portExists s p ∧ 0 < bytes.length then frameIngress p got bytes s else s)

/-! ### A context taken (R84, R86, R106, R512) -/

/-- Packets of a pipeline in flight: from the parser to a queue, and from dequeue to the egress MAC (R24). -/
def inFlight (s : State) (pip : Nat) : Nat :=
  (s.path.pkts.filter (fun q => match q.2 with
    | some x => x.pip == pip && x.phase != .fifo && (x.phase != .admitted || (copiesOf s q.1).any (fun c => c.2.phase == .waiting))
    | none => false)).length +
  (s.path.copies.filter (fun q => match q.2 with
    | some x => pgOf x.port == pip && x.phase != .waiting && x.phase != .queued
    | none => false)).length

/-- The first frame of a port group's FIFO that its pipeline may take: a PRP port's frames wait for their FCS (R328). -/
def fifoHead (s : State) (pip : Nat) : Option (Nat × Pkt) :=
  s.path.pkts.findSome? (fun q => match q.2 with
    | some x => if x.pip = pip ∧ x.phase = .fifo ∧ (freMode s x.port ≠ modePrp ∨ x.fcs.isSome) then some (q.1, x) else none
    | none => none)

/-- The pipeline takes segments: in service, its work not isolated, below its limits. -/
def pipTakes (s : State) (pip : Nat) : Bool :=
  (spareServes s pip || !outOfService s 1 pip) && decide ((parsing s pip).length < 64) && decide (inFlight s pip < 2048)

/-- The LFSR of a pipeline index and its next value (R512). -/
def tagLfsr (s : State) (pip : Nat) : Nat :=
  let seed := rdF s (pmcBase + 8) 0 24 ^^^ pip
  tget (if seed = 0 then 1 else seed) s.path.lfsr pip
def lfsr24 (x : Nat) : Nat :=
  (2 * x + (x / 2 ^ 23 + x / 2 ^ 22 + x / 2 ^ 21 + x / 2 ^ 16) % 2) % 2 ^ 24

/-- A value of the LFSR drawn: whether the frame is tagged. -/
def drawTag (pip : Nat) (s : State) : Bool × State :=
  if rdBit s (pmcBase + 4) 24 then (false, s)
  else
    let u := lfsr24 (tagLfsr s pip)
    let n := rdF s (pmcBase + 4) 0 24
    let s1 := { s with path := { s.path with lfsr := tput s.path.lfsr pip u } }
    (n ≠ 0 ∧ u < 2 ^ 24 / n, s1)

/-- The entry address of a profile: an added one that the bank does not define is parsed as ETH_STD (R101, R106). -/
def prsEntry (s : State) (pip bank prof : Nat) : Nat :=
  match prof with
  | 2 => 0x0020
  | 3 => 0x0030
  | 4 => 0x0040
  | 5 => 0x1400
  | _ =>
    let a := engProf 0 pip (16 * bank + (prof - 0x10))
    if 0x10 ≤ prof ∧ rdBit s a 31 then rdF s a 0 14 else 0x0010

/-- A frame's first segment takes a context; a port without a profile discards the frame. -/
def contextTake (pip : Nat) (s : State) : State :=
  match fifoHead s pip with
  | none => s
  | some (k, x) =>
    if !pipTakes s pip then s
    else
      let s1 := setFifo pip (fifoUsed s pip - (x.bytes.length + 4)) s
      let t := drawTag pip s1
      let s2 := { t.2 with path := { t.2.path with took := tset false t.2.path.took pip true } }
      let bank := activeBank s 0 pip
      let prof := rdF s (engPortProf 0 x.port) 0 8
      let c := { startCtx with pc := prsEntry s pip bank prof, bank := bank, limit := stepLimit s 0 pip,
                               depthLimit := rdF s (engCtl 0 pip) 8 10, flags := if t.1 then 2 ^ 18 else 0 }
      let y := { x with phase := .parsing, profile := prof, tagged := t.1, ctx := c }
      if prof = 0 then prsDiscard k pip (countEng 0 pip pcDrop 1 (setPkt k y s2))
      else ctxUpdate 0 pip (setPkt k y s2)
def execParseContextTake (n : Nat) (s : State) : Out3 := needs (decide (n < 32)) (if n < 32 then contextTake n s else s)

end Sys2Proof.Machine
end

