-- ==== Sys2Proof/Machine/Lookup.lean ====
section
/-! DEFINITION. The glen lookup (R115, R116, R123 to R125, R153 to R158, R166 to R172) with the cascade's rules for it
(R369 to R372), and what follows it: notifications, age refreshes and packet triggers. -/

namespace Sys2Proof.Machine
open Sys2Proof

/-- The glen that serves a port: its own, or its sibling under PLAN 0 (R490). -/
def servingGlen (s : State) (p : Nat) : Nat :=
  let g := glenOf p
  if rdBit s (glnBase g + 4) 3 then (if g % 2 = 0 then g + 1 else g - 1) else g

/-! ### Roles and groups -/

/-- The role in force: 0 standalone, 1 worker, 2 manager (R359). -/
def casRole (s : State) : Nat := rdF s casStat 0 2

/-- Members of a multicast group that exist (R415), other than one port. -/
def groupPorts (s : State) (g less : Nat) : List Nat :=
  (bitsOf 256 (tget 0 s.ports.mcast g)).filter (fun p => p != less && portExists s p)
def relayEn (s : State) : Bool := rdBit s casCfg 8
def relayPorts (s : State) (ingress : Nat) : List Nat := groupPorts s (rdF s casCfg 16 16) ingress

/-! ### The three searches -/

/-- An exact-match search: whether its definition has EN set, whether it is made, which takes an enabled table too (R116),
its table, its key and what it finds. -/
structure EmSearch where
  on : Bool
  made : Bool
  table : Nat
  key : Nat
  hit : Option EmHit

def emSearch (s : State) (g k srch vid : Nat) (kb : List Byte) (may : Bool) : EmSearch :=
  let h := emtKeyHdr g k srch
  let t := rdF s h 1 2
  let on := may && rdBit s h 0
  let made := on && tblEn s g t
  let ky := emKeyOf s g k srch vid kb
  ⟨on, made, t, ky, if made then emFind s g t ky else none⟩

/-- The prefix search: the VRF it used and the route it hit (R155, R156). -/
def prefixSearch (s : State) (g k port : Nat) (kb : List Byte) : Option (Nat × Option Route) :=
  let c := lpmKeyCfg g k
  let et := beAt kb 18 2
  let src := rdBit s c 1
  let vrf := match rdF s c 2 2 with
    | 0 => rdF s c 8 8
    | 1 => rdF s (lpmPortVrf port) 0 8
    | _ => (kb.getD (rdF s c 16 7) 0).toNat
  if !rdBit s c 0 then none
  else if et = 0x0800 then some (vrf, longest vrf 0 (beAt kb (if src then 36 else 52) 4) (routesOf s g))
  else if et = 0x86DD then some (vrf, longest vrf 1 (beAt kb (if src then 24 else 40) 8) (routesOf s g))
  else none

/-- The metadata bytes of a TCAM key, selectors 80 to 93 (R166). -/
def tcamMeta (s : State) (x : Pkt) (d sr : EmSearch) (pr : Option (Nat × Option Route)) (nhUser : Nat) : List Byte :=
  let user := fun (e : EmSearch) => match e.hit with | some h => fld h.e.action 0 8 | none => 0
  let other := match sr.hit with | some h => decide (actType h.e.action = 0 ∧ actPort h.e.action ≠ x.port) | none => false
  let pHit := match pr with | some (_, some _) => true | _ => false
  let f := x.ctx.flags
  [x.port, x.ctx.cls, f % 256, f / 256 % 256, f / 65536 % 256, f / 16777216 % 256, x.ctx.prof % 64, x.profile,
   user d, user sr, b2n d.hit.isSome + 2 * b2n sr.hit.isSome + 4 * b2n pHit + 8 * b2n other, nhUser,
   (match pr with | some (v, _) => v | none => 0), rdF s (tcmPortClass x.port) 0 8].map (BitVec.ofNat 8)

/-- The TCAM key bytes of a layout. -/
def tcamKey (s : State) (g k w : Nat) (kb extra : List Byte) : List Byte :=
  (List.range (10 * w)).map (fun j =>
    let sel := rdF s (tcmKeyBytes g k (j / 4)) (8 * (j % 4)) 7
    if sel < 80 then kb.getD sel 0 else if sel < 94 then extra.getD (sel - 80) 0 else 0)

/-- The TCAM search of a layout, with its counters (R168, R180); `met` false hits have been met before, and the repeat now
has its slot. -/
def tcamSearch (s : State) (g k met : Nat) (kb extra : List Byte) : TcamRes :=
  let h := tcmKeyHdr g k
  if !rdBit s h 0 then ⟨none, false, false, false, 0, s⟩
  else
    let w := rdF s h 4 4
    let r := checkedSearch g w (rdF s h 8 4) (keySlices (tcamKey s g k w kb extra) w) (3 - met)
      (if met = 0 then inc (tcmCnt g 0) s else charge (glenMem g 1) actScrub 1 s)
    let s1 := if r.win.isSome then inc (tcmCnt g 1) r.st else r.st
    let s2 := if r.multi then inc (tcmCnt g 2) s1 else s1
    { r with st := if r.tie then inc (tcmCnt g 3) s2 else s2 }

/-! ### The decision (R171, R172) -/

/-- A forwarding result before the winner's additions: the ports, whether they are a group's, to the MP, the action word
that carries PRIO, MIRROR, COPY_MP and USER, whether step 4 decided, and a drop. -/
structure Fwd where
  ports : List Nat
  group : Bool
  mp : Bool
  act : Word
  routed : Bool
  drop : Bool

def fwdDrop (a : Word) : Fwd := ⟨[], false, false, a, false, true⟩

/-- An action word carried out; the counter of a TYPE 0 port that does not exist. -/
def fwdAction (s : State) (x : Pkt) (a : Word) (routed : Bool) (bad : State → State) : Fwd × State :=
  match actType a with
  | 0 => if portExists s (actPort a) then (⟨[actPort a], false, false, a, routed, false⟩, s) else (fwdDrop a, bad s)
  | 1 => (⟨groupPorts s (fld a 14 16) x.port, true, false, a, routed, false⟩, s)
  | 2 => (fwdDrop a, s)
  | _ => (⟨[], false, true, a, routed, false⟩, s)

/-- No result: a worker's rule (R369), or a drop counted in LPM_CNT_NORES. -/
def fwdNone (s : State) (g : Nat) (x : Pkt) (vid : Nat) : Fwd × Bool × State :=
  if casRole s ≠ 1 then (fwdDrop 0, false, inc (lpmCnt g 3) s)
  else if !relayEn s then (fwdDrop 0, false, inc (casCnt ccNoUp) s)
  else if !cascadePort s x.port || tagUp x then (⟨relayPorts s x.port, true, false, 0, false, false⟩, true, s)
  else match rdF s casCfg 3 2 with
    | 0 => (⟨groupPorts s vid x.port, true, false, 0, false, false⟩, false, s)
    | 1 => (fwdDrop 0, false, inc (casCnt ccNoUp) s)
    | _ => (⟨[], false, true, 0, false, false⟩, false, s)

/-- The group that FLOOD names: the VID, or 0 when VID_POS is 15 (R124). -/
def floodGroup (s : State) (g k vid : Nat) : Nat := if rdF s (emtKeyHdr g k 0) 4 4 = 15 then 0 else vid

/-- What the destination search decides: a hit's action, or a miss's MISS_ACT, also where its table is disabled; a search
whose definition has EN clear counts as DEFER (R116, R124, R171). -/
def destResult (s : State) (g k : Nat) (x : Pkt) (vid : Nat) (d : EmSearch) : Option (Fwd × State) :=
  match d.hit with
  | some h => some (fwdAction s x h.e.action false (inc (emtCnt g cBadAct)))
  | none =>
    if !d.on then none
    else match tblMissAct s g d.table with
      | 0 => some (⟨groupPorts s (floodGroup s g k vid) x.port, true, false, 0, false, false⟩, s)
      | 1 => some (⟨[], false, true, 0, false, false⟩, s)
      | 2 => some (fwdDrop 0, inc (emtCnt g cMissDrop) s)
      | _ => none

/-- A packet that no lookup rule sends upstream as itself: the TCAM winner, the destination search, the prefix search,
or none of them decides.  The Bool says that the packet goes up under R369. -/
def forward (s : State) (g k : Nat) (x : Pkt) (vid : Nat) (win : Option (Nat × Rule)) (d : EmSearch)
    (nh : Option Word) : Fwd × Bool × State :=
  let keep := fun (r : Fwd × State) => (r.1, false, r.2)
  let rest := match destResult s g k x vid d, nh with
    | some r, _ => keep r
    | none, some a => keep (fwdAction s x a true (inc (lpmCnt g 2)))
    | none, none => fwdNone s g x vid
  match win with
  | some (_, r) => if bit r.act1 0 then keep (fwdAction s x r.act0 false (inc (emtCnt g cBadAct))) else rest
  | none => rest

/-- A decision sends its packet nowhere. -/
def decNowhere (d : Decision) : Bool := d.ports.isEmpty && d.upPorts.isEmpty && !d.toMp

/-- The winner's additions, END_ACT's copy, and the copies that a worker sends upstream (R172, R370, R372). -/
def decide' (s : State) (x : Pkt) (vid : Nat) (win : Option (Nat × Rule)) (f : Fwd) (up : Bool) : Decision :=
  let a1 := match win with | some (_, r) => r.act1 | none => 0
  let fwdUser := match win with | some (_, r) => fld r.act0 0 8 | none => 0
  let mpUp := casRole s == 1 && rdBit s casCfg 2
  let copy := bit f.act 8 || bit a1 1
  let typeMp := f.mp && decide (actType f.act = 3)
  let toUp := mpUp && (copy || typeMp)
  let mine := if casRole s == 2 && rdBit s casCfg 9 && tagExc x then true else false
  let own := (f.mp && !(typeMp && mpUp)) || (copy && !mpUp) || decide (x.endAct = 1) || mine
  { ports := f.ports, group := f.group,
    upPorts := if toUp then (relayPorts s x.port).filter (fun p => !f.ports.contains p) else [],
    toMp := own,
    tc := if bit a1 3 then fld a1 4 3 else if bit f.act 10 then fld f.act 11 3 else (x.ctx.kb.getD 12 0).toNat / 32,
    user := if bit a1 30 then fwdUser else fld f.act 0 8,
    vid := vid, mirror := bit f.act 9 || bit a1 2, routed := f.routed, tcam1 := a1, up := up, exc := up, ctrl := false }

/-! ### Control frames and relayed frames (R371, R374) -/

abbrev kindsWorker : List Nat := [2, 4, 6, 7]
abbrev kindsManager : List Nat := [1, 3, 5, 6, 7, 8]
def ctrlDest (x : Pkt) : Nat := beAt x.bytes (ctrlBody x + 2) 4 % 2 ^ 20
def ctrlKind (x : Pkt) : Nat := (x.bytes.getD (ctrlBody x + 18) 0).toNat
def ctrlForMe (s : State) (x : Pkt) : Bool :=
  (ctrlDest x == rdF s casDevId 0 20 || ctrlDest x == 0xFFFFF) &&
  ((casRole s == 1 && kindsWorker.contains (ctrlKind x)) || (casRole s == 2 && kindsManager.contains (ctrlKind x)))

/-- What the cascade does with a frame before any lookup: taken by the engine, relayed, or discarded with a count. -/
inductive CasFate where
  | lookup | take | relay | bad | noUp

def casFate (s : State) (x : Pkt) : CasFate :=
  if !cascadePort s x.port || (tagOff x).isNone then .lookup
  else if tagCtrl x then
    if ctrlKind x = 0 ∨ 8 < ctrlKind x then .bad
    else if ctrlForMe s x then .take
    else if casRole s = 1 then (if relayEn s then .relay else .noUp)
    else .lookup
  else if tagUp x ∧ casRole s = 1 then (if relayEn s then .relay else .noUp)
  else .lookup

/-- The class of a frame: CTRL_TC for a control frame, else the PCP of its outer tag. -/
def ownClass (s : State) (x : Pkt) : Nat :=
  if tagCtrl x && cascadePort s x.port then rdF s casCfg 5 3 else (x.ctx.kb.getD 12 0).toNat / 32

/-! ### What follows a lookup -/

/-- A source search that is made is counted when it hits, whatever befalls the frame, and refreshes the age of a station
that it finds at the ingress port (R138, R560).  A glen refreshes nothing for its sibling's pipelines (R144), and an age
stamp that reads bad is the current one (R36). -/
def countSource (g : Nat) (x : Pkt) (sr : EmSearch) (badAge : Bool) (s : State) : State :=
  match sr.hit with
  | none => s
  | some h =>
    let s1 := inc (emtCnt g cHitSrc) s
    if actType h.e.action ≠ 0 then s1
    else if actPort h.e.action ≠ x.port then (if h.e.isStatic then inc (emtCnt g cStaticMove) s1 else s1)
    else if h.e.isStatic = false ∧ h.e.age ≠ ageNow s1 g ∧ badAge = false ∧ glenOf x.port = g then ageQueue g sr.table sr.key s1
    else s1

/-- The notification that a source search leads to (R133, R134), from the glen's own pipelines alone (R144). -/
def afterSource (g k : Nat) (x : Pkt) (sr : EmSearch) (drop : Bool) (s : State) : State :=
  let post := fun (p : LearnPend) =>
    if drop || tblLearn s g p.table == 0 then s
    else match x.fcs with
      | some false => s
      | some true => learnFcs g p.pkt true (learnQueue g p s)
      | none => learnQueue g p s
  if !sr.made ∨ glenOf x.port ≠ g then s
  else match sr.hit with
    | none => post ⟨lrNew, sr.table, sr.key, x.port, k, false, 0, false, false⟩
    | some h =>
      if actType h.e.action = 0 ∧ actPort h.e.action ≠ x.port then
        post ⟨lrMoved, sr.table, sr.key, x.port, k, false, h.e.action, h.e.isStatic, h.inOvf⟩
      else s

/-- A trigger reaches the trigger queue of 64, or is lost (R349). -/
def fioCnt (i : Nat) : Nat := fioBase + 0x0400 + 4 * i
def pushTrigger (pin op : Nat) (s : State) : State :=
  if s.fio.trig.length < 64 then { s with fio := { s.fio with trig := s.fio.trig ++ [(pin, op)] } }
  else raise srcFioTrigLost pin 10 (32 + pin) (inc (fioCnt 1) s)

/-- The trigger of a packet fires once its FCS has proved good and its lookup is done (R170, R561). -/
def fireTrigger (k : Nat) (s : State) : State :=
  match getPkt s k with
  | some x => match x.trigger, x.fcs with
    | some (pin, op), some true => pushTrigger pin op (setPkt k { x with trigger := none } s)
    | _, _ => s
  | none => s

/-! ### PRP trailers (R328) -/

/-- The redundancy information a frame arrived with: its kind as FRE modes count them, where it lies, its sequence
number, and its LAN. -/
structure RedIn where
  kind : Nat
  off : Nat
  seq : Nat
  lan : Nat

/-- Where the EtherType after all tags lies. -/
def tagEnd (x : Pkt) : Nat := if x.ctx.offs.getD 2 1023 = 1023 then 12 else x.ctx.offs.getD 2 1023

/-- A PRP trailer: the suffix and an LSDUsize that agrees with the frame. -/
def prpTrailer (bs : List Byte) (etOff : Nat) : Option RedIn :=
  let n := bs.length
  if etOff + 8 ≤ n ∧ beAt bs (n - 2) 2 = 0x88FB ∧ beAt bs (n - 4) 2 % 4096 = n - (etOff + 2) then
    some ⟨modePrp, n - 6, beAt bs (n - 6) 2, (beAt bs (n - 4) 2 / 4096) % 2⟩
  else none

/-- A trailer with a LAN other than the port's is counted, and the frame accepted. -/
def wrongLan (x : Pkt) (s : State) : State :=
  if freMode s x.port = modePrp then
    match prpTrailer x.bytes (tagEnd x) with
    | some r => if r.lan = rdF s (frePortCfg x.port) 2 1 then s
        else raise srcFreWrongLan 0 0 0 (inc (freCnt (dieOf x.port) fcWrongLan) s)
    | none => s
  else s

/-! ### The lookup -/

/-- An overflow entry that reads bad is retired by itself (R149). -/
def retireOvf (g i : Nat) (s : State) : State :=
  let e := tget emptyOvf s.glens.ovf (key g i)
  occUpdate g { s with glens := { s.glens with
    ovf := tset emptyOvf s.glens.ovf (key g i) { e with e := invalid e.e },
    ovfRetired := tset false s.glens.ovfRetired (key g i) true } }

/-- The bucket that a search reads, where it is made. -/
def readsBucket (s : State) (g : Nat) (e : EmSearch) : Option Nat := if e.made then some (homeBucket s g e.table e.key) else none

/-- A packet discarded because a row of its lookup had bad parity (R36): the source raised, the row flagged.  Packets that
read a bucket before firmware has rewritten it are discarded too. -/
def badRow (g : Nat) (bad : LookupBad) (d sr : EmSearch) (pr : Bool) (nh : Option Nat) (s : State) : Option State :=
  let fixing := fun (e : EmSearch) => (readsBucket s g e).any (fun b => awaitsFix s g 0 b)
  match bad with
  | .bucket => (readsBucket s g d).map (fun b => badBucket g b s)
  | .source => (readsBucket s g sr).map (fun b => badBucket g b s)
  | .overflow i => if (d.made ∨ sr.made) ∧ i < 8192 then some (retireOvf g i (raise srcEmtParity i 8 (0xF00 + g) s)) else none
  | .prefixRow i => if pr = true ∧ i < 32768 then some (if awaitsFix s g 1 i then s else badPrefix g i s) else none
  | .nextHop => match nh with
    | some i => some (flagSpare clsRule (2 * g) i 8 g (raise srcLpmParity i 8 (0xF00 + g) s))
    | none => none
  | .none | .age | .rule => if fixing d || fixing sr then some s else none

/-- A lookup ends with a decision: forwarded on, or dropped. -/
def endLookup (k : Nat) (x : Pkt) (d : Decision) (drop : Bool) (s : State) : State :=
  let y := { x with phase := .looked, dec := d, times := lset x.times 1 (s.tim.cnt - x.arrival) }
  let s1 := fireTrigger k (setPkt k y s)
  if drop || decNowhere d then discardPkt k 3 s1 else s1

def relayDecision (s : State) (x : Pkt) : Decision :=
  { noDecision with ports := relayPorts s x.port, group := true, tc := ownClass s x }
def mpDecision (s : State) (x : Pkt) : Decision := { noDecision with toMp := true, tc := ownClass s x }

/-- What the searches of a packet count when they are made; a search whose row reads bad has no result (R560). -/
def countSearches (g : Nat) (x : Pkt) (bad : LookupBad) (d sr : EmSearch) (pr : Option (Nat × Option Route)) (s : State) : State :=
  let s0 := bump kBudget (glenMem g 0) 0 32 (b2n d.made + b2n sr.made + b2n pr.isSome) s
  let s1 := if d.made && bad != .bucket then inc (emtCnt g (if d.hit.isSome then cHitDst else cMissDst)) s0 else s0
  let s2 := match pr with
    | some (_, some _) => inc (lpmCnt g 0) s1
    | some (_, none) => inc (lpmCnt g 1) s1
    | none => s1
  let s3 := if bad = .source then s2 else countSource g x sr (bad == .age) s2
  if bad = .age ∧ sr.hit.isSome = true then flagBucket g (homeBucket s g sr.table sr.key) s3 else s3

/-- What follows the TCAM search of a packet: the decision, unless it ended in its third false hit. -/
def lookupEnd (k g : Nat) (x : Pkt) (bad : LookupBad) (vid : Nat) (d sr : EmSearch) (nh : Option Word) (t : TcamRes) : State :=
  if t.discard then endLookup k x noDecision true (afterSource g k x sr true t.st)
  else
    let s := match bad, t.win with
      | .rule, some (i, _) => flagSpare clsRule (2 * g + 1) i 8 g (raise srcTcmParity i 8 g t.st)
      | _, _ => t.st
    let f := forward s g (x.ctx.prof % 64) x vid t.win d nh
    let dec := decide' f.2.2 x vid t.win f.1 f.2.1
    let trig := match t.win with
      | some (_, r) => if bit r.act1 23 then some (fld r.act1 24 4, fld r.act1 28 2) else none
      | none => none
    endLookup k { x with trigger := trig } dec (f.1.drop && !dec.toMp && dec.upPorts.isEmpty)
      (afterSource g k x sr f.1.drop f.2.2)

/-- The searches and the decision of one packet.  A search that waits for the slot of its repeat is gone on with at the
next try (R180). -/
def lookup (k g : Nat) (x : Pkt) (bad : LookupBad) (s : State) : State :=
  let lay := x.ctx.prof % 64
  let kb := x.ctx.kb
  let vid := vidOf s x.port kb
  let srcMay := !nbit (kb.getD 6 0).toNat 0 && !rdBit s (emtPortCfg x.port) 12
  let d := emSearch s g lay 0 vid kb true
  let sr := emSearch s g lay 1 vid kb srcMay
  let pr := prefixSearch s g lay x.port kb
  let nh := match pr with | some (_, some r) => some (nhMember s g r kb) | _ => none
  let nhw := nh.map (nhGet s g)
  if x.falseHits ≠ 0 ∧ hasSlot s (glenMem g 1) actScrub = false then waited (glenMem g 1) actScrub s
  else
    let s1 := if x.falseHits = 0 then countSearches g x bad d sr pr s else s
    match if x.falseHits = 0 then badRow g bad d sr pr.isSome nh s1 else none with
    | some t => discardPkt k 3 t
    | none =>
      let extra := tcamMeta s1 x d sr pr (match nhw with | some w => fld w 0 8 | none => 0)
      let t := tcamSearch s1 g lay x.falseHits kb extra
      if t.waits ≠ 0 then setPkt k { x with falseHits := t.waits } t.st
      else lookupEnd k g { x with falseHits := 0 } bad vid d sr nhw t

/-- What the cascade and the glen decide. -/
def glenResult (k g : Nat) (x : Pkt) (bad : LookupBad) (s : State) : State :=
  match casFate s x with
  | .bad => discardPkt k 3 (inc (casCnt ccBadTag) s)
  | .noUp => discardPkt k 3 (inc (casCnt ccNoUp) s)
  | .take => endLookup k x (mpDecision s x) false (inc (casCnt ccCtrlRx) s)
  | .relay => endLookup k x (relayDecision s x) false s
  | .lookup => if x.endAct = 2 then endLookup k x (mpDecision s x) false s else lookup k g x bad s

/-- The glen's lookup of a packet whose parse has ended. -/
def glenLookup (k : Nat) (bad : LookupBad) (s : State) : State :=
  match getPkt s k with
  | none => s
  | some x =>
    let g := servingGlen s x.port
    if x.phase ≠ .parsed ∨ outOfService s 2 g then s
    else glenResult k g x bad (wrongLan x s)
def execGlenLookup (k : Nat) (bad : LookupBad) (s : State) : Out3 := .next (glenLookup k bad s)

end Sys2Proof.Machine
end

