-- ==== Sys2Proof/Machine/Fre.lean ====
section
/-! DEFINITION. The FRE blocks (R319 to R333): handle maps, sequence generators, recovery functions, duplicate discard,
their time-driven events and commands. -/

namespace Sys2Proof.Machine
open Sys2Proof

/-! ### Registers and records -/

def freDupCfg (d : Nat) : Nat := freBase d + 0x10
def freDupSeed (d : Nat) : Nat := freBase d + 0x14
def freDupStat (d : Nat) : Nat := freBase d + 0x18
def freOwnMac (d i : Nat) : Nat := freBase d + 0x40 + 8 * i
def portLan (s : State) (p : Nat) : Nat := rdF s (frePortCfg p) 2 1
def portNetId (s : State) (p : Nat) : Nat := rdF s (frePortCfg p) 3 3
def portDomain (s : State) (p : Nat) : Nat := rdF s (frePortCfg p) 6 4
def portDupEn (s : State) (p : Nat) : Bool := rdBit s (frePortCfg p) 10
def portGenEn (s : State) (p : Nat) : Bool := rdBit s (frePortCfg p) 11
def portGen (s : State) (p : Nat) : Nat := rdF s (frePortCfg p) 14 14
def portStrip (s : State) (p : Nat) : Bool := rdBit s (frePortCfg p) 28

def freHandle (s : State) (d h : Nat) : Word := tget 0 s.fre.handles (key d h)
def setHandle (d h : Nat) (w : Word) (s : State) : State :=
  { s with fre := { s.fre with handles := tset 0 s.fre.handles (key d h) w } }
def genNext (s : State) (d g : Nat) : Nat := tget 0 s.fre.gens (key d g)
def setGen (d g n : Nat) (s : State) : State := { s with fre := { s.fre with gens := tset 0 s.fre.gens (key d g) n } }

/-- A number drawn from a generator (R320). -/
def drawSeq (d g : Nat) (s : State) : Nat × State := (genNext s d g, setGen d g ((genNext s d g + 1) % 65536) s)

def noRcv : Rcv := ⟨0, 0, 0, false, 0, 0, 0, 0, 0, 0, 0⟩
def rcvGet (s : State) (d f : Nat) : Rcv := tget noRcv s.fre.rcv (key d f)
def rcvPut (d f : Nat) (x : Rcv) (s : State) : State :=
  { s with fre := { s.fre with rcv := tset noRcv s.fre.rcv (key d f) x } }
def rEn (x : Rcv) : Bool := bit x.w0 0
def rMatch (x : Rcv) : Bool := bit x.w0 1
def rHist (x : Rcv) : Nat := max 1 (fld x.w0 2 11)
def rTakeNoSeq (x : Rcv) : Bool := bit x.w0 13
def rLatEn (x : Rcv) : Bool := bit x.w0 14
def rPaths (x : Rcv) : Nat := fld x.w0 15 4
def rResetMs (x : Rcv) : Nat := fld x.w1 0 16
def rLatDiff (x : Rcv) : Nat := fld x.w1 16 16
def rLatPeriod (x : Rcv) : Nat := fld x.w2 0 16
def rLatReset (x : Rcv) : Nat := fld x.w2 16 16

/-- Counters of a recovery function (R507). -/
abbrev kRcv : Nat := 31
abbrev rcPassed : Nat := 0
abbrev rcDiscarded : Nat := 1
abbrev rcTagless : Nat := 2
abbrev rcRogue : Nat := 3
abbrev rcOutOfOrder : Nat := 4
abbrev rcLost : Nat := 5
abbrev rcResets : Nat := 6
abbrev rcLatent : Nat := 7
def rcvIdx (d f : Nat) : Nat := 4096 * d + f
def bumpRcv (d f pos k : Nat) (s : State) : State := bump kRcv (rcvIdx d f) pos 32 k s

/-! ### Recovery (R324 to R327) -/

/-- One evaluation without its counters: whether the copy passes, the function's state, and what is counted. -/
structure RcvEval where
  pass : Bool
  x : Rcv
  counts : List (Nat × Nat)

def rcvEval (x : Rcv) (seq : Nat) : RcvEval :=
  if x.takeAny then ⟨true, { x with seq := seq, hist := 1, takeAny := false }, []⟩
  else if rMatch x then
    if seq = x.seq then ⟨false, x, []⟩ else ⟨true, { x with seq := seq }, []⟩
  else
    let h : Int := rHist x
    let delta := sgn 16 ((seq + 65536 - x.seq) % 65536)
    if h ≤ delta ∨ delta ≤ -h then ⟨false, x, [(rcRogue, 1)]⟩
    else if delta ≤ 0 then
      let i := (-delta).toNat
      if nbit x.hist i then ⟨false, x, []⟩ else ⟨true, { x with hist := x.hist + 2 ^ i }, [(rcOutOfOrder, 1)]⟩
    else
      let k := delta.toNat
      ⟨true, { x with seq := seq, hist := (x.hist * 2 ^ k + 1) % 2 ^ 1024 }, if 1 < k then [(rcLost, k - 1)] else []⟩

/-- A copy reaches a recovery function (R324): whether it passes.  One without a sequence number is not evaluated, so P and
D do not count it. -/
def recover (d f : Nat) (seq : Option Nat) (s : State) : Bool × State :=
  let x := rcvGet s d f
  if !rEn x then (true, s)
  else
    let e : RcvEval := match seq with
      | some n => rcvEval x n
      | none => ⟨rTakeNoSeq x, x, [(rcTagless, 1)]⟩
    let k := b2n seq.isSome
    let y := if e.pass then { e.x with p := e.x.p + k, timer := s.tim.cnt } else { e.x with d := e.x.d + k }
    let s1 := e.counts.foldl (fun t c => bumpRcv d f c.1 c.2 t) (rcvPut d f y s)
    (e.pass, bumpRcv d f (if e.pass then rcPassed else rcDiscarded) 1 s1)

/-- TAKE_ANY set, the history cleared, a reset counted (R325, R327). -/
def rcvReset (d f : Nat) (s : State) : State :=
  bumpRcv d f rcResets 1 (rcvPut d f { rcvGet s d f with takeAny := true, hist := 0 } s)
def rcvAddr (d f : Nat) : Nat := 4096 * d + f

/-- RESET_MS has run out for a function (R325). -/
def rcvTimeout (d f : Nat) (s : State) : State :=
  let x := rcvGet s d f
  if !rEn x ∨ rResetMs x = 0 ∨ s.tim.cnt < x.timer + rResetMs x * 10 ^ 6 then s
  else
    let s1 := rcvReset d f s
    raise srcFreRcvReset (rcvAddr d f) 0 0 (rcvPut d f { rcvGet s1 d f with timer := s.tim.cnt } s1)

/-- The end of a latent test period, and of a latent reset period, which restarts the test period (R326). -/
def latentTest (d f : Nat) (s : State) : State :=
  let x := rcvGet s d f
  let diff := ((x.p : Int) * ((rPaths x : Int) - 1) - x.d).natAbs
  if !rEn x ∨ !rLatEn x ∨ s.tim.cnt < x.latAt + rLatPeriod x * 10 ^ 6 then s
  else
    let s1 := rcvPut d f { x with latAt := s.tim.cnt } s
    if rLatDiff x < diff then raise srcFreLatent (rcvAddr d f) 0 0 (bumpRcv d f rcLatent 1 s1) else s1
def latentReset (d f : Nat) (s : State) : State :=
  let x := rcvGet s d f
  if !rEn x ∨ !rLatEn x ∨ s.tim.cnt < x.latZero + rLatReset x * 10 ^ 7 then s
  else rcvPut d f { x with p := 0, d := 0, latAt := s.tim.cnt, latZero := s.tim.cnt } s

/-- A configuration written into a function (R323): TAKE_ANY set, its timer and latent periods begin. -/
def rcvConfig (d f : Nat) (w0 w1 w2 : Word) (s : State) : State :=
  rcvPut d f { rcvGet s d f with w0 := w0, w1 := w1, w2 := w2, takeAny := true, timer := s.tim.cnt, latAt := s.tim.cnt,
                                 latZero := s.tim.cnt } s

/-- Firmware writes a context's RCV_ALG and HIST_LEN into the functions that its handle maps to (R323). -/
def rcvFromCtx (h : Nat) (s : State) : State :=
  let c := cw (ctxGet s (h / 32768) (h % 32768)) 2
  if !bit c 9 then s
  else (List.range 2).foldl (fun t d =>
    let w := freHandle t d h
    if !bit w 28 then t
    else
      let x := rcvGet t d (fld w 16 12)
      rcvPut d (fld w 16 12) { x with w0 := setFld (setBit x.w0 1 (bit c 10)) 2 11 (fld c 11 11) } t) s

def rcvExists (d f : Nat) : Bool := decide (d < 2) && decide (f < 4096)
def execRecoveryResetTimeout (d f : Nat) (s : State) : Out3 :=
  needs (rcvExists d f) (if rcvExists d f then rcvTimeout d f s else s)
def execLatentTestPeriod (d f : Nat) (s : State) : Out3 :=
  needs (rcvExists d f) (if rcvExists d f then latentTest d f s else s)
def execLatentResetPeriod (d f : Nat) (s : State) : Out3 :=
  needs (rcvExists d f) (if rcvExists d f then latentReset d f s else s)

/-! ### Duplicate discard (R329 to R331) -/

def dupLifetime (s : State) (d : Nat) : Nat := rdF s (freDupCfg d) 0 16 * 10 ^ 6
def dupAlive (s : State) (d : Nat) (e : DupEnt) : Bool := decide (s.tim.cnt ≤ e.time + dupLifetime s d)
def dupBucket (s : State) (d mac seq dom : Nat) : Nat :=
  crc32c (rd s (freDupSeed d)).toNat (natBytes 6 mac ++ natBytes 2 seq ++ [dom]) % 4096
def dupGet (s : State) (d b : Nat) : List DupEnt := tget [] s.fre.dup (key d b)

/-- FRE_DUP_STAT as the table stands. -/
def dupUsed (s : State) (d : Nat) : Nat := ((ofUnit s.fre.dup d).map (fun q => q.2.length)).sum
def dupPut (d b : Nat) (l : List DupEnt) (s : State) : State :=
  let s1 := { s with fre := { s.fre with dup := tset [] s.fre.dup (key d b) l } }
  wr (freDupStat d) (wd (dupUsed s1 d)) s1

/-- The oldest entry of a bucket. -/
def dupOldest : List DupEnt → Option DupEnt
  | [] => none
  | e :: es => match dupOldest es with
    | some o => if o.time < e.time then some o else some e
    | none => some e

/-- A check of a key (R330): whether the copy passes. -/
def dupCheck (d mac seq dom : Nat) (s : State) : Bool × State :=
  if dupLifetime s d = 0 then (true, s)
  else
    let b := dupBucket s d mac seq dom
    let l := (dupGet s d b).filter (dupAlive s d)
    let e : DupEnt := ⟨mac, seq, dom, s.tim.cnt⟩
    if l.any (fun x => x.mac == mac && x.seq == seq && x.domain == dom) then
      (false, inc (freCnt d fcDupDisc) (dupPut d b l s))
    else if l.length < 4 then (true, dupPut d b (l ++ [e]) s)
    else
      let rest := match dupOldest l with | some o => l.erase o | none => l
      (true, inc (freCnt d fcDupEvict) (dupPut d b (rest ++ [e]) s))

/-- The background scan reclaims a bucket's entries past their lifetime (R329). -/
def execDupEntryReclaim (d b : Nat) (s : State) : Out3 :=
  needs (decide (d < 2) && decide (b < 4096))
    (if d < 2 ∧ b < 4096 then dupPut d b ((dupGet s d b).filter (dupAlive s d)) s else s)

/-- FRE_DUP_SEED takes a write only while the table is empty. -/
def dupSeedWrite (d : Nat) (v : Word) (s : State) : State := if dupUsed s d = 0 then wr (freDupSeed d) v s else s

/-! ### What a frame carries (R321, R328) -/

/-- The R-TAG, HSR tag or trailer of a packet; the trailer is known to the ports of mode PRP. -/
def redOf (s : State) (x : Pkt) : Option RedIn :=
  let o := x.ctx.offs.getD 3 1023
  if o ≠ 1023 ∧ nbit x.ctx.flags 13 then
    some ⟨modeHsr, o, beAt x.bytes (o + 4) 2, (x.bytes.getD (o + 2) 0).toNat / 16 % 2⟩
  else if o ≠ 1023 ∧ nbit x.ctx.flags 14 then some ⟨modeRtag, o, beAt x.bytes (o + 4) 2, 0⟩
  else if freMode s x.port = modePrp ∧ x.port < 256 then prpTrailer x.bytes (tagEnd x)
  else none

/-! ### Commands (R333); their payloads are this model's -/

/-- A configuration register of a port: written, or held for the hand-over while the port is a Primrose ring port
(R416). -/
def portCfgWrite (p a m : Nat) (v : Word) (s : State) : State :=
  if ringPort p && !s.start.handedOver then
    { s with start := { s.start with held := s.start.held.filter (fun q => q.1 != a) ++ [(a, v)] } }
  else wrM a m v s

/-- Ports of a duplicate domain on the other die (R332). -/
def domainElsewhere (s : State) (p dom : Nat) : Bool :=
  (allPorts s).any (fun q => dieOf q != dieOf p && portDupEn s q && portDomain s q == dom)

def bodyFrePortCfg : Body := fun _ f s =>
  lenIs f 8 s <| inRange (decide ((pw f 0).toNat < 256) && portExists s (pw f 0).toNat) 0 s <|
  let p := (pw f 0).toNat
  let v := pw f 1
  inRange (decide (fld v 12 2 = 0) && decide (fld v 29 3 = 0) && !(bit v 10 && domainElsewhere s p (fld v 6 4))) 1 s <|
  ok [] (portCfgWrite p (frePortCfg p) 0x1FFFCFFF v s)

def bodyFreHandleMap : Body := fun _ f s =>
  lenOk (decide (8 ≤ f.length)) s <|
  let n := f.length / 4 - 1
  inRange (decide ((pw f 0).toNat + n ≤ 262144)) 0 s <|
  match (List.range n).find? (fun i => fld (pw f (1 + i)) 15 1 != 0 || fld (pw f (1 + i)) 29 3 != 0) with
  | some i => err eRange (min 255 (1 + i)) s
  | none => eachDie f (fun d t => (List.range n).foldl (fun x i =>
      rcvFromCtx ((pw f 0).toNat + i) (setHandle d ((pw f 0).toNat + i) (pw f (1 + i)) x)) t) s

def bodyFreGenSet : Body := fun _ f s =>
  lenIs f 4 s <| inRange (decide (pf f 0 14 2 = 0)) 0 s <| scopeOne f 2 s fun _ =>
  eachDie f (fun d t => setGen d (pf f 0 0 14) (pf f 0 16 16) t) s

/-- A recovery configuration that FRE_RCV_SET may give (R323); the payload word that fails. -/
def rcvFails (w0 w2 : Word) : List Nat :=
  (if 1024 < fld w0 2 11 ∨ fld w0 19 13 ≠ 0 ∨ (bit w0 14 = true ∧ (fld w0 15 4 < 2 ∨ 8 < fld w0 15 4)) then [1] else []) ++
  (if bit w0 14 = true ∧ (fld w2 0 16 = 0 ∨ fld w2 16 16 = 0) then [3] else [])

def bodyFreRcvSet : Body := fun _ f s =>
  lenIs f 16 s <| inRange (decide ((pw f 0).toNat < 4096)) 0 s <| scopeOne f 2 s fun _ =>
  match (rcvFails (pw f 1) (pw f 3)).min? with
  | some w => err eRange w s
  | none => eachDie f (fun d t => rcvConfig d (pw f 0).toNat (pw f 1) (pw f 2) (pw f 3) t) s

def bodyFreRcvRead : Body := fun _ f s =>
  lenIs f 4 s <| inRange (decide ((pw f 0).toNat < 4096)) 0 s <| scopeOne f 2 s fun d =>
  let n := (pw f 0).toNat
  let x := rcvGet s d n
  ok ([x.w0, x.w1, x.w2, wd (b2n x.takeAny + x.seq * 2 ^ 16), wd x.p, wd x.d] ++
    (List.range 8).map (fun i => wd (cntOf s kRcv (rcvIdx d n) i))) s

def bodyFreRcvReset : Body := fun _ f s =>
  lenIs f 4 s <| inRange (decide ((pw f 0).toNat < 4096)) 0 s <| scopeOne f 2 s fun _ =>
  eachDie f (fun d t => bumpRcv d (pw f 0).toNat rcResets 1
    (rcvPut d (pw f 0).toNat { rcvGet t d (pw f 0).toNat with takeAny := true } t)) s

/-- LIFETIME, seed, and four own addresses of two words each. -/
def bodyFreDupCfg : Body := fun _ f s =>
  lenIs f 40 s <| inRange (decide (pf f 0 16 16 = 0)) 0 s <|
  match (List.range 4).find? (fun i => pf f (3 + 2 * i) 16 15 != 0) with
  | some i => err eRange (3 + 2 * i) s
  | none => eachDie f (fun d t =>
      (List.range 4).foldl (fun x i => wr (freOwnMac d i + 4) (pw f (3 + 2 * i)) (wr (freOwnMac d i) (pw f (2 + 2 * i)) x))
        (dupSeedWrite d (pw f 1) (wr (freDupCfg d) (pw f 0) t))) s

def bodyFreDupStatus : Body := fun _ f s =>
  lenIs f 0 s <| readUnits 2 f (fun d => wd (dupUsed s d) :: (List.range 5).map (fun i => rd s (freCnt d i))) s

end Sys2Proof.Machine
end

