-- ==== Sys2Proof/Machine/Sched.lean ====
section
/-! DEFINITION. The schedulers (chapter 9): records, admission to a queue, enqueue, the choice of the next frame, DWRR,
shapers and their commit, flushes and retirement of nodes, and sampling. -/

namespace Sys2Proof.Machine
open Sys2Proof

/-! ### Registers and records (R253, R262, R279) -/

def schBudgetCommitReg (d : Nat) : Nat := schBase d + 0x48
def schBudgetStat (d : Nat) : Nat := schBase d + 0x4C
def shpAddr (d : Nat) : Nat := schBase d + 0x100
def shpData (d w : Nat) : Nat := schBase d + 0x110 + 4 * w
def shpCommitReg (d : Nat) : Nat := schBase d + 0x120
def shpStat (d : Nat) : Nat := schBase d + 0x124
def schPortCfg (p : Nat) : Nat := schBase (dieOf p) + 0x1000 + 4 * (p % 128)
def sampCfg (d g : Nat) : Nat := schBase d + 0x2000 + 8 * g
def sampRange (d g : Nat) : Nat := schBase d + 0x2004 + 8 * g
def schCnt (d i : Nat) : Nat := schBase d + 0x3000 + 4 * i
abbrev cTenMismatch : Nat := 0
abbrev cNoNode : Nat := 1
abbrev cSampSkip : Nat := 2
abbrev cEnqWait : Nat := 3

def tmapGet (s : State) (d t : Nat) : Word := tget 0 s.sch.tmap (key d t)
def tmapPut (d t : Nat) (w : Word) (s : State) : State :=
  { s with sch := { s.sch with tmap := tset 0 s.sch.tmap (key d t) w } }

/-- A node record after reset: nodes 0 to 127 are enabled, one per port; every weight is 1. -/
def nodeRst (n : Nat) : Word := if n < 128 then wd (n + 128 + 256) else 256
def nodeGet (s : State) (d n : Nat) : Word := tget (nodeRst n) s.sch.nodes (key d n)
def nodePut (d n : Nat) (w : Word) (s : State) : State :=
  { s with sch := { s.sch with nodes := tset (nodeRst n) s.sch.nodes (key d n) w } }
def nodePort (w : Word) : Nat := fld w 0 7
def nodeEn (w : Word) : Bool := bit w 7
def nodeWeight (w : Word) : Nat := fld w 8 10
def nodeRetired (w : Word) : Bool := bit w 18

def queueRst : List Word := [2, 0, 0, 0]
def queueGet (s : State) (d i : Nat) : List Word := tget queueRst s.sch.queues (key d i)
def queuePut (d i : Nat) (r : List Word) (s : State) : State :=
  { s with sch := { s.sch with queues := tset queueRst s.sch.queues (key d i) r } }
def qw (r : List Word) (i : Nat) : Word := r.getD i 0
def qStrict (r : List Word) : Bool := bit (qw r 0) 0
def qWeight (r : List Word) : Nat := fld (qw r 0) 1 10
def qSpillEn (r : List Word) : Bool := bit (qw r 0) 11

/-- The copies queued, head first. -/
def qList (s : State) (d i : Nat) : List Nat := tget [] s.sch.q (key d i)
def setQ (d i : Nat) (l : List Nat) (s : State) : State :=
  { s with sch := { s.sch with q := tset [] s.sch.q (key d i) l } }

/-- Shaper levels: 0 queue, 1 node, 2 port; a record's index within its die. -/
def shpKey (d level i : Nat) : Nat := key d (level * 2 ^ 18 + i)
def noShp : Shp := ⟨0, 0, 0, 0, 0, 0⟩
def shpGet (s : State) (d l i : Nat) : Shp := tget noShp s.sch.shp (shpKey d l i)
def shpPut (d l i : Nat) (x : Shp) (s : State) : State :=
  { s with sch := { s.sch with shp := tset noShp s.sch.shp (shpKey d l i) x } }
def sCir (x : Shp) : Nat := fld x.w0 0 16
def sPir (x : Shp) : Nat := fld x.w0 16 16
def sCbs (x : Shp) : Int := (fld x.w1 0 25 : Int) * unitB
def sPbs (x : Shp) : Int := (fld x.w2 0 25 : Int) * unitB

def noNodeDyn : NodeDyn := ⟨none, none, []⟩
def noPortDyn : PortDyn := ⟨none, none, [], []⟩
def nodeDyn (s : State) (d n : Nat) : NodeDyn := tget noNodeDyn s.sch.nodeDyn (key d n)
def setNodeDyn (d n : Nat) (x : NodeDyn) (s : State) : State :=
  { s with sch := { s.sch with nodeDyn := tset noNodeDyn s.sch.nodeDyn (key d n) x } }
def portDyn (s : State) (d p : Nat) : PortDyn := tget noPortDyn s.sch.portDyn (key d p)
def setPortDyn (d p : Nat) (x : PortDyn) (s : State) : State :=
  { s with sch := { s.sch with portDyn := tset noPortDyn s.sch.portDyn (key d p) x } }

/-! ### Counters of R507: queue, node, port -/

abbrev kQueue : Nat := 50
abbrev kNode : Nat := 51
abbrev kSchPort : Nat := 52
def queueIdx (d i : Nat) : Nat := 262144 * d + i
def nodeIdx (d n : Nat) : Nat := 32768 * d + n
def bumpQ (d i pos k : Nat) (s : State) : State := bump kQueue (queueIdx d i) pos (if pos = 1 ∨ pos = 3 then 64 else 32) k s

/-- Why a frame never left its queue: the position of its drop counter. -/
abbrev dropLink : Nat := 4
abbrev dropSpill : Nat := 5
abbrev dropQmax : Nat := 6
abbrev dropQmaxYel : Nat := 7
abbrev dropAdmit : Nat := 8
abbrev dropGateLong : Nat := 9
abbrev dropFlush : Nat := 10
abbrev cntSpilled : Nat := 11

/-! ### Depths (R254, R268) -/

/-- The copies of a queue: those on its list, and those admitted that have not joined it yet. -/
def queueCopies (s : State) (d i : Nat) : List Copy :=
  s.path.copies.filterMap (fun q => match q.2 with
    | some x => if dieOf x.port = d ∧ x.queue = i ∧ (x.phase = .queued ∨ x.phase = .waiting) then some x else none
    | none => none)
def sumLen (l : List Copy) : Nat := (l.map (·.len)).sum
def plainDepth (s : State) (d i : Nat) : Nat := sumLen ((queueCopies s d i).filter (fun x => !x.inHbm))
def hbmDepth (s : State) (d i : Nat) : Nat := sumLen ((queueCopies s d i).filter (·.inHbm))

/-- Bytes that a die's stack holds, and whether it takes b more (R239). -/
def stackUsed (s : State) (d : Nat) : Nat :=
  sumLen (s.path.copies.filterMap (fun q => match q.2 with
    | some x => if dieOf x.port = d ∧ x.inHbm = true then some x else none
    | none => none))
def stackTakes (s : State) (d b : Nat) : Bool :=
  rdF s (hbmBase d + 4) 0 3 == 3 && (unitOf s 5 d).state == 0 && decide (stackUsed s d + b ≤ rdF s (hbmBase d) 0 8 * 2 ^ 30)

/-- A queue with SPILL_EN set is spilling while a frame of it lies in HBM, and for a frame of b bytes that would take its
Plain depth above SPILL_ON. -/
def spillHeld (s : State) (d i : Nat) : Bool :=
  qSpillEn (queueGet s d i) && (queueCopies s d i).any (·.inHbm)
def spilling (s : State) (d i b : Nat) : Bool :=
  let r := queueGet s d i
  spillHeld s d i || (qSpillEn r && decide (fld (qw r 2) 0 16 * 256 < plainDepth s d i + b))

/-! ### The node of a packet (R251) -/

def nodeServes (s : State) (d p n : Nat) : Bool :=
  let w := nodeGet s d n
  nodeEn w && !nodeRetired w && nodePort w == p % 128

/-- The node that a packet of a tenant takes towards port p, with the mismatch and no-node counts. -/
def chooseNode (p tenant : Nat) (s : State) : Option Nat × State :=
  let d := dieOf p
  let e := tmapGet s d tenant
  if bit e 15 && nodeServes s d p (fld e 0 15) then (some (fld e 0 15), s)
  else
    let s1 := inc (schCnt d cTenMismatch) s
    let n := rdF s (schPortCfg p) 0 15
    if nodeServes s d p n then (some n, s1) else (none, inc (schCnt d cNoNode) s1)

/-! ### Admission to a queue (R254) -/

def downDrop (s : State) (p : Nat) : Bool := rdBit s (schPortCfg p) 22

/-- What a frame's admission to its queue decides: the drop counter's position, or admitted and whether marked for
spilling. -/
def queueAdmit (s : State) (p i b colour : Nat) : Except Nat Bool :=
  let d := dieOf p
  let r := queueGet s d i
  let plain := plainDepth s d i + b
  let qmax := fld (qw r 1) 0 16
  let qyel := fld (qw r 1) 16 16
  let smax := fld (qw r 3) 0 24
  if !portUp s p && downDrop s p then .error dropLink
  else if spilling s d i b then
    if (smax ≠ 0 ∧ smax * 4096 < hbmDepth s d i + b) ∨ stackTakes s d b = false then .error dropSpill else .ok true
  else if colour = green ∧ qmax ≠ 0 ∧ qmax * 256 < plain then .error dropQmax
  else
    let lim := if qyel = 0 ∨ qmax < qyel then qmax else qyel
    if colour = yellow ∧ lim ≠ 0 ∧ lim * 256 < plain then .error dropQmaxYel else .ok false

/-! ### Leaving a queue -/

/-- The queues of a node that hold a frame. -/
def busyQueues (s : State) (d n : Nat) : List Nat := (List.range 8).filter (fun q => !(qList s d (8 * n + q)).isEmpty)

/-- Deficits of what holds no frame any more go to 0 (R260). -/
def emptied (d i : Nat) (s : State) : State :=
  if (qList s d i).isEmpty then
    let n := i / 8
    let x := nodeDyn s d n
    let s1 := setNodeDyn d n { x with defs := tset 0 x.defs (i % 8) 0 } s
    if (busyQueues s1 d n).isEmpty then
      let p := nodePort (nodeGet s1 d n)
      let y := portDyn s1 d p
      setPortDyn d p { y with defs := tset 0 y.defs n 0 } s1
    else s1
  else s

/-- A copy taken off its queue. -/
def unqueue (c : Nat) (x : Copy) (s : State) : State :=
  let d := dieOf x.port
  emptied d x.queue (setQ d x.queue ((qList s d x.queue).filter (fun k => k != c)) s)

/-- A queued copy dropped and counted with its reason. -/
def dropQueued (reason c : Nat) (s : State) : State :=
  match getCopy s c with
  | some x => discardCopy c 6 (bumpQ (dieOf x.port) x.queue reason 1 (unqueue c x s))
  | none => s
def flushQueue (reason d i : Nat) (s : State) : State := (qList s d i).foldl (fun t c => dropQueued reason c t) s
def flushNode (reason d n : Nat) (s : State) : State :=
  (List.range 8).foldl (fun t q => flushQueue reason d (8 * n + q) t) s

/-- The nodes attached to a port that hold frames, ascending. -/
def portNodes (s : State) (d p : Nat) : List Nat :=
  (((ofUnit s.sch.q d).map (fun q => q.1 / 8)).dedup).filter (fun n => nodePort (nodeGet s d n) == p)

/-- A link that is down with DOWN_DROP set drops what its port holds (R255). -/
def dropDown (p : Nat) (s : State) : State :=
  if portUp s p || !downDrop s p then s
  else (portNodes s (dieOf p) (p % 128)).foldl (fun t n => flushNode dropLink (dieOf p) n t) s

/-! ### Shapers (R262 to R266) -/

/-- Both buckets filled up to now. -/
def shpRefill (x : Shp) (now : Nat) : Shp :=
  let dt := now - x.last
  { x with last := max x.last now,
           tc := if rateOf (sCir x) = 0 then x.tc else min (x.tc + (perNs (sCir x) * dt : Nat)) (sCbs x),
           tp := if rateOf (sPir x) = 0 then x.tp else min (x.tp + (perNs (sPir x) * dt : Nat)) (sPbs x) }
def shpNow (s : State) (d l i : Nat) : Shp := shpRefill (shpGet s d l i) s.tim.cnt
def shpShaped (x : Shp) : Bool := rateOf (sCir x) != 0 || rateOf (sPir x) != 0
def shpRefreshAt (t d l i : Nat) (s : State) : State :=
  if shpShaped (shpGet s d l i) then shpPut d l i (shpRefill (shpGet s d l i) t) s else s
def shpRefresh (d l i : Nat) (s : State) : State := shpRefreshAt s.tim.cnt d l i s

/-- In credit for a charge of b bytes. -/
def inCredit (tokens burst : Int) (b : Nat) : Bool := decide (min ((b : Int) * unitB) burst ≤ tokens)
def peakOk (s : State) (d l i b : Nat) : Bool :=
  let x := shpNow s d l i
  rateOf (sPir x) == 0 || inCredit x.tp (sPbs x) b
def committedOk (s : State) (d l i b : Nat) : Bool :=
  let x := shpNow s d l i
  rateOf (sCir x) != 0 && inCredit x.tc (sCbs x) b

/-- A charge taken from an entity's buckets, in a committed or an excess pass. -/
def shpSpend (d l i b : Nat) (committed : Bool) (s : State) : State :=
  let x := shpGet s d l i
  let n := (b : Int) * unitB
  if shpShaped x then
    shpPut d l i { x with tc := if committed && rateOf (sCir x) != 0 then x.tc - n else x.tc,
                          tp := if rateOf (sPir x) != 0 then x.tp - n else x.tp } s
  else s

/-- The charge of a frame at a port (R263). -/
def portCharge (s : State) (p len : Nat) : Nat := (max 1 ((len : Int) + sgn 6 (rdF s (schPortCfg p) 16 6))).toNat

/-! ### Enqueue (R252, R274) -/

abbrev enqReserve : Nat := 39040
abbrev enqQueue : Nat := 4096
def resUsed (s : State) (d : Nat) : Nat := tget 0 s.sch.resUsed d
def useReserve (d : Nat) (s : State) : State :=
  bump kBudget (schMem d) 0 32 1 { s with sch := { s.sch with resUsed := tset 0 s.sch.resUsed d (resUsed s d + 1) } }

/-- Cut-through, decided as the copy reaches its queue (R21). -/
def cutThrough (s : State) (x : Copy) : Bool :=
  let d := dieOf x.port
  let b := portCharge s x.port x.len
  let n := x.queue / 8
  let rates := match getPkt s x.pkt with
    | some k => match portRec s k.port, portRec s x.port with
      | some i, some e => decide (portRate e ≤ portRate i)
      | _, _ => false
    | none => false
  rates && (qList s d x.queue).isEmpty && !x.marked && gateFits s x.port (x.queue % 8) b &&
  peakOk s d 0 x.queue b && peakOk s d 1 n b && peakOk s d 2 (x.port % 128) b

/-- A copy joins its queue; a link down with DOWN_DROP set drops it instead. -/
def joinQueue (c : Nat) (s : State) : State :=
  match getCopy s c with
  | none => s
  | some x =>
    let d := dieOf x.port
    let age := match getPkt s x.pkt with | some p => s.tim.cnt - p.arrival | none => 0
    let x1 := { x with phase := .queued, cut := cutThrough s x, times := lset x.times 0 age }
    let s1 := bumpQ d x.queue 1 x.len (bumpQ d x.queue 0 1 (useReserve d s))
    let s2 := setCopy c x1 (setQ d x.queue (qList s1 d x.queue ++ [c]) s1)
    if !portUp s2 x.port && downDrop s2 x.port then dropQueued dropLink c s2 else s2

/-- An enqueue: at once within the period's reservation, or after the enqueues that wait; with the queue of waiting
enqueues full the pipeline holds its packet. -/
def enqueue (c : Nat) (s : State) : State :=
  match getCopy s c with
  | none => s
  | some x =>
    let d := dieOf x.port
    let w := tget [] s.sch.enqWait d
    if x.phase ≠ .waiting ∨ w.contains c then s
    else if w.isEmpty ∧ resUsed s d < enqReserve then joinQueue c s
    else if w.length < enqQueue then
      inc (schCnt d cEnqWait) { s with sch := { s.sch with enqWait := tset [] s.sch.enqWait d (w ++ [c]) } }
    else s

/-- A new period: the reservation is whole again, and enqueues that wait go first (R274). -/
def enqPeriod (d : Nat) (s : State) : State :=
  let w := tget [] s.sch.enqWait d
  let s1 := { s with sch := { s.sch with resUsed := tset 0 s.sch.resUsed d 0,
                                         enqWait := tset [] s.sch.enqWait d (w.drop enqReserve) } }
  (w.take enqReserve).foldl (fun t c => joinQueue c t) s1

/-! ### DWRR (R260) -/

/-- A member of a pass: its index, weight, deficit, and the charge of its frame. -/
structure Entrant where
  i : Nat
  weight : Nat
  deficit : Int
  b : Nat

/-- Visits that an entrant needs before its deficit covers its charge, one at least. -/
def visits (e : Entrant) : Nat :=
  let gap := (e.b : Int) - e.deficit
  max 1 ((gap + (64 * e.weight : Nat) - 1) / (64 * e.weight : Nat)).toNat

/-- Entrants in ascending order from after `cur`, wrapping. -/
def afterCur (cur : Option Nat) (l : List Entrant) : List Entrant :=
  match cur with
  | none => l
  | some c => l.filter (fun e => decide (c < e.i)) ++ l.filter (fun e => decide (e.i ≤ c))

/-- `dwrr_pick`: the entrant chosen, and every entrant's deficit after the quanta of the pick. -/
def dwrrPick (cur : Option Nat) (l : List Entrant) : Option (Entrant × List (Nat × Int)) :=
  match l.find? (fun e => some e.i == cur && decide ((e.b : Int) ≤ e.deficit)) with
  | some e => some (e, [])
  | none =>
    let ring := afterCur cur l
    match (ring.map visits).min? with
    | none => none
    | some r =>
      match ring.findIdx? (fun e => visits e == r) with
      | none => none
      | some k =>
        ring[k]?.map (fun e => (e, ring.zipIdx.map (fun q =>
          (q.1.i, q.1.deficit + (64 * q.1.weight * (if q.2 ≤ k then r else r - 1) : Nat)))))

/-- The deficits after the chosen entrant's frame has been sent. -/
def afterSend (defs : Sparse Int) (pick : Entrant × List (Nat × Int)) : Sparse Int :=
  let d1 := pick.2.foldl (fun m q => tset 0 m q.1 q.2) defs
  tset 0 d1 pick.1.i (tget 0 d1 pick.1.i - pick.1.b)

/-! ### The choice of the next frame (R256 to R259) -/

/-- How long the frame on a port's wire still takes, in ns: the frame chosen can begin then. -/
def beginIn (s : State) (p : Nat) : Nat := tget 0 s.path.wireEnd p - stampNow s p true

/-- The state as a decision of the port looks at it: at the moment at which the chosen frame can begin, with the gates of
that moment (R256). -/
def atBegin (s : State) (p : Nat) : State :=
  let w := beginIn s p
  let s1 := { s with tim := { s.tim with now := s.tim.now + w * tick, cnt := s.tim.cnt + w } }
  if w = 0 then s else setGat p { gatOf s p with gates := gatesAt s p (netNs s1) } s1

/-- A node's candidate: its queue, the copy, its charge; whether it was found in a committed pass; the strict class it
offers, none for DWRR; the node's DWRR pick. -/
structure Cand where
  q : Nat
  copy : Nat
  b : Nat
  committed : Bool
  strict : Option Nat
  pick : Option (Entrant × List (Nat × Int))

/-- A queue's head frame where the queue is eligible, with its charge. -/
def eligibleHead (s : State) (p n q : Nat) : Option (Nat × Nat) :=
  match (qList s (dieOf p) (8 * n + q)).head? with
  | none => none
  | some c =>
    match getCopy s c with
    | none => none
    | some x =>
      let b := portCharge s p x.len
      let whole := x.cut || (match getPkt s x.pkt with | some k => k.complete | none => true)
      if whole && !x.inHbm && gateEligible s p q b && peakOk s (dieOf p) 0 (8 * n + q) b then some (c, b) else none

/-- A pass of a node over queues by DWRR. -/
def nodeDwrr (committed : Bool) (cur : Option Nat) (s : State) (d n : Nat) (l : List (Nat × Nat × Nat)) : Option Cand :=
  let defs := (nodeDyn s d n).defs
  let es := l.map (fun q => (⟨q.1, qWeight (queueGet s d (8 * n + q.1)), tget 0 defs q.1, q.2.2⟩ : Entrant))
  match dwrrPick cur es with
  | none => none
  | some r =>
    match l.find? (fun q => q.1 == r.1.i) with
    | some q => some ⟨q.1, q.2.1, q.2.2, committed, none, some r⟩
    | none => none

/-- A node's candidate (R258). -/
def nodeCand (s : State) (p n : Nat) : Option Cand :=
  let d := dieOf p
  let heads := (List.range 8).filterMap (fun q => (eligibleHead s p n q).map (fun h => (q, h.1, h.2)))
  let isC := fun (q : Nat × Nat × Nat) => committedOk s d 0 (8 * n + q.1) q.2.2
  let isS := fun (q : Nat × Nat × Nat) => qStrict (queueGet s d (8 * n + q.1))
  let strictOf := fun (c : Bool) =>
    (heads.filter (fun q => isC q == c && isS q)).getLast?.map (fun q => (⟨q.1, q.2.1, q.2.2, c, some q.1, none⟩ : Cand))
  let dwrrOf := fun (c : Bool) =>
    nodeDwrr c (if c then (nodeDyn s d n).cur2 else (nodeDyn s d n).cur4) s d n (heads.filter (fun q => isC q == c && !isS q))
  (strictOf true).orElse fun _ => (dwrrOf true).orElse fun _ => (strictOf false).orElse fun _ => dwrrOf false

/-- A port's choice: the node, its candidate, whether it was found in a committed pass, the port's DWRR pick. -/
structure Choice where
  n : Nat
  cand : Cand
  committed : Bool
  pick : Option (Entrant × List (Nat × Int))

def servedKey (committed : Bool) (c : Nat) : Nat := 2 * c + b2n committed

/-- The first in ascending order after the one served last, wrapping. -/
def firstAfter (last : Option Nat) (l : List (Nat × Cand)) : Option (Nat × Cand) :=
  match last with
  | none => l.head?
  | some k => ((l.filter (fun q => decide (k < q.1))) ++ l).head?

/-- The strict pass of a port, class 7 down to class 0. -/
def portStrict (committed : Bool) (dyn : PortDyn) (l : List (Nat × Cand)) : Option Choice :=
  (List.range 8).reverse.findSome? (fun c =>
    (firstAfter (tget none dyn.served (servedKey committed c)) (l.filter (fun q => q.2.strict == some c))).map
      (fun q => (⟨q.1, q.2, committed, none⟩ : Choice)))

/-- The DWRR pass of a port. -/
def portDwrr (committed : Bool) (dyn : PortDyn) (s : State) (d : Nat) (l : List (Nat × Cand)) : Option Choice :=
  let es := l.map (fun q => (⟨q.1, nodeWeight (nodeGet s d q.1), tget 0 dyn.defs q.1, q.2.b⟩ : Entrant))
  match dwrrPick (if committed then dyn.cur2 else dyn.cur4) es with
  | none => none
  | some r => (l.find? (fun q => q.1 == r.1.i)).map (fun q => (⟨q.1, q.2, committed, some r⟩ : Choice))

/-- The port's choice among its eligible nodes (R256, R259); the port's own peak bucket is in credit for the frame. -/
def portChoice (s : State) (p : Nat) : Option Choice :=
  let d := dieOf p
  let cands := ((portNodes s d (p % 128)).filterMap (fun n => (nodeCand s p n).map (fun c => (n, c)))).filter
    (fun q => peakOk s d 1 q.1 q.2.b)
  let isC := fun (q : Nat × Cand) => committedOk s d 1 q.1 q.2.b
  let dyn := portDyn s d (p % 128)
  let pass := fun (c : Bool) =>
    let l := cands.filter (fun q => isC q == c)
    (portStrict c dyn l).orElse fun _ => portDwrr c dyn s d (l.filter (fun q => q.2.strict == none))
  let r := (pass true).orElse fun _ => pass false
  r.filter (fun c => peakOk s d 2 (p % 128) c.cand.b)

/-! ### Sending the chosen frame -/

/-- The DWRR state of the chosen node and of the port after a send. -/
def afterChoice (p : Nat) (ch : Choice) (s : State) : State :=
  let d := dieOf p
  let x := nodeDyn s d ch.n
  let x1 := match ch.cand.pick with
    | some r =>
      let defs := afterSend x.defs r
      if ch.cand.committed then { x with cur2 := some r.1.i, defs := defs } else { x with cur4 := some r.1.i, defs := defs }
    | none => x
  let y := portDyn s d (p % 128)
  let y1 := match ch.pick, ch.cand.strict with
    | some r, _ =>
      let defs := afterSend y.defs r
      if ch.committed then { y with cur2 := some r.1.i, defs := defs } else { y with cur4 := some r.1.i, defs := defs }
    | none, some c => { y with served := tset none y.served (servedKey ch.committed c) (some ch.n) }
    | none, none => y
  setPortDyn d (p % 128) y1 (setNodeDyn d ch.n x1 s)

/-- Every bucket that a decision of the port examines, brought up to the moment that it looks at. -/
def refreshPort (p : Nat) (s : State) : State :=
  let d := dieOf p
  let t := s.tim.cnt + beginIn s p
  let s1 := (portNodes s d (p % 128)).foldl (fun u n =>
    (busyQueues u d n).foldl (fun v q => shpRefreshAt t d 0 (8 * n + q) v) (shpRefreshAt t d 1 n u)) s
  shpRefreshAt t d 2 (p % 128) s1

/-- The chosen frame leaves its queue: charges at three levels, deficits, counters, one reserved slot. -/
def sendChoice (p : Nat) (ch : Choice) (s : State) : State :=
  let d := dieOf p
  let b := ch.cand.b
  let i := 8 * ch.n + ch.cand.q
  match getCopy s ch.cand.copy with
  | none => s
  | some x =>
    let age := match getPkt s x.pkt with | some k => s.tim.cnt - k.arrival | none => 0
    let portC := committedOk s d 2 (p % 128) b
    let s1 := shpSpend d 0 i b ch.cand.committed (shpSpend d 1 ch.n b ch.committed (shpSpend d 2 (p % 128) b portC s))
    let s2 := unqueue ch.cand.copy x (afterChoice p ch s1)
    let s3 := bumpQ d i 3 x.len (bumpQ d i 2 1 (useReserve d s2))
    let s4 := bump kNode (nodeIdx d ch.n) (if ch.committed then 3 else 5) 64 x.len
      (bump kNode (nodeIdx d ch.n) 1 64 x.len (bump kNode (nodeIdx d ch.n) 0 32 1 s3))
    let s5 := bump kSchPort p 1 64 x.len (bump kSchPort p 0 32 1 s4)
    setCopy ch.cand.copy { x with phase := .dequeued, times := lset x.times 1 age }
      (setGat p { gatOf s5 p with wire := some ch.cand.q } s5)

/-- Head frames that can never pass their gate are released and counted (R299). -/
def dropGateLongs (p : Nat) (s : State) : State :=
  let d := dieOf p
  (portNodes s d (p % 128)).foldl (fun t n => (List.range 8).foldl (fun u q =>
    match (qList u d (8 * n + q)).head? with
    | some c => match getCopy u c with
      | some x => if !x.inHbm && gateLong u p q (portCharge u p x.len) then dropQueued dropGateLong c u else u
      | none => u
    | none => u) t) s

/-! ### Rows with bad parity (R36, R275) -/

/-- A node's row retired: its queues flushed, RETIRED set, its loss reported; firmware has its tenant to re-home. -/
def retireNode (d n : Nat) (s0 : State) : State :=
  let s := flushNode dropFlush d n s0
  raiseLost n 8 8 d (nodePut d n (setBit (nodeGet s d n) 18 true)
    { s with sch := { s.sch with rehome := s.sch.rehome ++ [nodeIdx d n] } })

/-- A node's row read with bad parity twice: its queues are flushed and the row is flagged. -/
def nodeParity (d n : Nat) (s : State) : State :=
  let s1 := raise srcSchParity n 8 d (flushNode dropFlush d n s)
  flagRow clsSch (16 * d + n / 2048) (n % 2048) 16 (retireNode d n) s1

/-- A shaper's buckets read with bad parity twice: they are taken as full (R36). -/
def shpParity (d l i : Nat) (s : State) : State :=
  let x := shpGet s d l i
  let s1 := raise srcSchParity i 8 d (shpPut d l i { x with tc := sCbs x, tp := sPbs x, last := s.tim.cnt } s)
  flagSpare clsSch (64 + 4 * d + l) i 8 d s1

/-! ### Shaper commits (R267) -/

def shpGroup (d a : Nat) : Bool := decide (shpAddr d ≤ a) && decide (a < shpCommitReg d)

/-- Entities of a level. -/
def levelTop (l : Nat) : Nat := match l with | 0 => 262144 | 1 => 32768 | 2 => 128 | _ => 0

/-- The REASONs that refuse a shaper commit. -/
def shpFails (addr w0 w1 w2 : Word) : List Nat :=
  let cir := fld w0 0 16
  let pir := fld w0 16 16
  (if rateBad cir || rateBad pir then [1] else []) ++
  (if 16777216 < fld w1 0 25 ∨ 16777216 < fld w2 0 25 then [2] else []) ++
  (if rateOf cir ≠ 0 ∧ rateOf pir ≠ 0 ∧ rateOf pir < rateOf cir then [3] else []) ++
  (if levelTop (fld addr 18 2) ≤ fld addr 0 18 then [4] else []) ++
  (if fld w1 25 7 ≠ 0 ∨ fld w2 25 7 ≠ 0 then [5] else [])

/-- The record replaced: each bucket keeps its tokens up to its new burst, or is set to it. -/
def shpReplace (d : Nat) (q : ShpPend) (s : State) : State :=
  let l := fld q.addr 18 2
  let i := fld q.addr 0 18
  let x := shpNow s d l i
  let y : Shp := ⟨q.w0, q.w1, q.w2, 0, 0, 0⟩
  shpPut d l i ⟨q.w0, q.w1, q.w2, if q.reset then sCbs y else min x.tc (sCbs y),
    if q.reset then sPbs y else min x.tp (sPbs y), s.tim.cnt⟩ s

def shpWaits (s : State) (d : Nat) : Option ShpPend := tget none s.sch.shpPend d
def setShpWait (d : Nat) (q : Option ShpPend) (s : State) : State :=
  { s with sch := { s.sch with shpPend := tset none s.sch.shpPend d q } }

/-- A commit accepted: at once with an access slot of the configuration activity, or PENDING until one is granted. -/
def shpAccept (d : Nat) (q : ShpPend) (s : State) : State :=
  if hasSlot s (schMem d) 0 then wr (shpStat d) 1 (shpReplace d q (charge (schMem d) 0 1 s))
  else setShpWait d (some q) (wr (shpStat d) (1 + 32) (waited (schMem d) 0 s))

/-- SCH_SHP_COMMIT, for a command that waits for the effect or for none. -/
def shpCommit (d : Nat) (reset : Bool) (t : Option Ticket) (s : State) : State :=
  let addr := rdStg s (shpAddr d)
  let w := fun i => rdStg s (shpData d i)
  let pend := (shpWaits s d).isSome
  match (shpFails addr (w 0) (w 1) (w 2) ++ (if pend then [6] else []) ++
      (if stagedBad (shpGroup d) s then [7] else [])).min? with
  | some r => wr (shpStat d) (wd (2 + 4 * r + 32 * b2n pend)) s
  | none =>
    if !anyStaged (shpGroup d) s then closeGroup (shpCommitReg d) (wr (shpStat d) 1 s)
    else shpAccept d ⟨addr, w 0, w 1, w 2, reset, t⟩ (closeGroup (shpCommitReg d) (commitStaged (shpGroup d) s))
def shpDiscard (d : Nat) (s : State) : State :=
  closeGroup (shpCommitReg d)
    (wr (shpStat d) (wd (3 + 32 * b2n (shpWaits s d).isSome)) (discardStaged (shpGroup d) s))

/-- An accepted commit gets its slot. -/
def shpEffect (d : Nat) (s : State) : State :=
  match shpWaits s d with
  | some q =>
    if hasSlot s (schMem d) 0 then
      let s1 := setShpWait d none (shpReplace d q (charge (schMem d) 0 1 s))
      let s2 := completeElem q.ticket rDone (wrBit (shpStat d) 5 false s1)
      if q.ticket.isSome then keepShadow s s2 else s2
    else s
  | none => s

/-! ### Budgets (R279) -/

def schBudgetGroup (d a : Nat) : Bool := decide (schBase d + 0x40 ≤ a) && decide (a < schBudgetCommitReg d)
def schBudgetFails (s : State) (d : Nat) : List Nat :=
  let a := rdStg s (schBase d + 0x40)
  let b := rdStg s (schBase d + 0x44)
  if 3968 < fld a 0 15 + fld a 16 15 + fld b 0 15 then [1] else []
def schBudgetCommit (d : Nat) (s : State) : State :=
  commitGroup (schBudgetStat d) (schBudgetCommitReg d) (schBudgetGroup d) (schBudgetFails s d)
    (armStaged (schBudgetGroup d)) s
def schBudgetDiscard (d : Nat) (s : State) : State :=
  discardGroup (schBudgetStat d) (schBudgetCommitReg d) (schBudgetGroup d) s

/-! ### Sampling (R270 to R272) -/

def noSamp : SampSt := ⟨0, [], 0⟩
def sampGet (s : State) (d g : Nat) : SampSt := tget noSamp s.sch.samp (key d g)
def sampPut (d g : Nat) (x : SampSt) (s : State) : State :=
  { s with sch := { s.sch with samp := tset noSamp s.sch.samp (key d g) x } }

/-- The next boundary of a group of INTERVAL `us` after one at `t`, on the grid of the boundary that was due. -/
def nextSample (due t us : Nat) : Nat :=
  let iv := min us 1000000 * 1000
  let base := if due = 0 then t else due
  base + iv * ((t - base) / iv + 1)

/-- A boundary of a group, once its interval has passed: the registers take effect, and a new pass over the members begins
or the boundary is skipped while the last pass goes on. -/
def sampleBoundary (d g : Nat) (s : State) : State :=
  let x := sampGet s d g
  let level := rdF s (sampCfg d g) 20 2
  let us := rdF s (sampCfg d g) 0 20
  let first := rdF s (sampRange d g) 0 18
  let last := min (first + rdF s (sampRange d g) 18 14) (levelTop level)
  if s.tim.cnt < x.next ∨ s.col.stopped.contains 36 then s
  else if us = 0 ∨ rdF s (sampRange d g) 18 14 = 0 ∨ level = 3 then sampPut d g { x with next := 0 } s
  else
    let n := nextSample x.next s.tim.cnt us
    if x.members ≠ [] then sampPut d g { x with next := n } (inc (schCnt d cSampSkip) s)
    else sampPut d g ⟨level, (List.range (last - first)).map (first + ·), n⟩ s

/-- The age of a queue's head frame on the 1 GHz count. -/
def headAge (s : State) (d i : Nat) : Nat :=
  match (qList s d i).head? with
  | none => 0
  | some c => match getCopy s c with
    | none => 0
    | some x => match getPkt s x.pkt with
      | some p => s.tim.cnt - p.arrival
      | none => 0

/-- The queues that a sampled member stands for. -/
def memberQueues (s : State) (d level i : Nat) : List Nat :=
  match level with
  | 0 => [i]
  | 1 => (List.range 8).map (8 * i + ·)
  | _ => (portNodes s d i).flatMap (fun n => (List.range 8).map (8 * n + ·))

/-- A sample record (R272). -/
def sampleRecord (s : State) (d g level i : Nat) : List Word :=
  let qs := memberQueues s d level i
  let empty := qs.all (fun q => (qList s d q).isEmpty)
  let spill := decide (level ≠ 2) && qs.any (spillHeld s d)
  let depth := (qs.map (fun q => plainDepth s d q + hbmDepth s d q)).sum
  let age := if level = 2 then 0 else (qs.map (headAge s d)).foldl max 0
  [wd (i + level * 2 ^ 18 + b2n empty * 2 ^ 20 + b2n spill * 2 ^ 21 + d * 2 ^ 22 + g * 2 ^ 24),
   wd (satF 32 depth), wd (satF 32 age), wd (netNanos s)]

/-- The group reads its next member when the sampling activity grants a slot. -/
def sampleRead (d g : Nat) (s : State) : State :=
  let x := sampGet s d g
  match x.members with
  | [] => s
  | i :: rest =>
    if hasSlot s (schMem d) 1 then
      let s1 := sampPut d g { x with members := rest } (charge (schMem d) 1 1 s)
      postSample (pmcQring d) (pmcQsampLost d) (sampleRecord s d g x.level i) s1
    else waited (schMem d) 1 s

/-! ### Events -/

def execEnqueue (c : Nat) (s : State) : Out3 := .next (enqueue c s)
def execShaperCommitEffect (d : Nat) (s : State) : Out3 := needs (decide (d < 2)) (if d < 2 then shpEffect d s else s)
def execSampleBoundary (d g : Nat) (s : State) : Out3 :=
  needs (decide (d < 2) && decide (g < 8)) (if d < 2 ∧ g < 8 then sampleBoundary d g s else s)
def execSampleMemberRead (d g : Nat) (s : State) : Out3 :=
  needs (decide (d < 2) && decide (g < 8)) (if d < 2 ∧ g < 8 then sampleRead d g s else s)

/-- One shaper refreshed by the sweep, for an access slot of the configuration activity (R264). -/
def execShaperSweep (d level i : Nat) (s : State) : Out3 :=
  needs (decide (d < 2) && decide (i < levelTop level))
    (if d < 2 ∧ i < levelTop level then
      (if hasSlot s (schMem d) 0 then shpRefresh d level i (charge (schMem d) 0 1 s) else waited (schMem d) 0 s)
     else s)

/-- The frames on their way to a port's wire: dequeued and not yet sent. -/
def onTheWay (s : State) (p : Nat) : Nat :=
  (s.path.copies.filter (fun q => match q.2 with
    | some x => x.port == p && x.phase != .waiting && x.phase != .queued
    | none => false)).length

/-- What a decision reads with bad parity: a node's row, which is flushed, or a shaper's buckets. -/
def decisionBad (p : Nat) (bad : SchBad) (s : State) : State :=
  match bad with
  | .none => s
  | .node n => if n < 32768 ∧ nodePort (nodeGet s (dieOf p) n) = p % 128 then nodeParity (dieOf p) n s else s
  | .bucket l i => if i < levelTop l then shpParity (dieOf p) l i s else s

/-- A port's decision, made while the frame before it is on the wire, for the moment at which the frame chosen can begin:
the frames that can never pass go, and the frame chosen is dequeued. -/
def portDecide (p : Nat) (bad : SchBad) (s : State) : State :=
  let s0 := decisionBad p bad s
  if portUp s0 p ∧ onTheWay s0 p < 2 then
    let s1 := refreshPort p (dropGateLongs p s0)
    match portChoice (atBegin s1 p) p with
    | some ch => sendChoice p ch s1
    | none => s1
  else s0
def execPortDecision (p : Nat) (bad : SchBad) (s : State) : Out3 :=
  needs (portExists s p) (if portExists s p then portDecide p bad s else s)

end Sys2Proof.Machine
end

