-- ==== Sys2Proof/Machine/Path.lean ====
section
/-! DEFINITION. From the glen's decision to the queue (chapter 1): the filter stage (R200 to R202, R320), the FCS result
(R22, R561, R508), admission (R224, R228, R231, R254), spilling (R238, R268, R269) and links (R255). -/

namespace Sys2Proof.Machine
open Sys2Proof

/-! ### The filter stage -/

/-- A packet's SDU length (R201). -/
def sduLen (x : Pkt) : Nat := x.bytes.length - (if x.ctx.offs.getD 2 1023 = 1023 then 12 else x.ctx.offs.getD 2 1023)
def prioOf (x : Pkt) : Prio := ⟨(x.ctx.kb.getD 12 0).toNat / 32, (x.ctx.kb.getD 12 0).toNat / 16 % 2⟩
def filterIn (s : State) (x : Pkt) : FilterIn :=
  { glen := servingGlen s x.port, port := x.port, layout := x.ctx.prof % 64, kb := x.ctx.kb, tcam1 := x.dec.tcam1,
    len := frameLen x, sdu := sduLen x, complete := x.complete, arrival := x.arrival, ingressNs := x.stamp, prio := prioOf x }

/-- Egress ports of a decision, and the mirror members that take a copy: (member, source) pairs (R118, R415). -/
def egressPorts (d : Decision) : List Nat := d.ports ++ d.upPorts.filter (fun p => !d.ports.contains p)
def mirrorOf (s : State) (p : Nat) : Option Mirror := tget none s.ports.mirrors p
def mirrorSources (s : State) (x : Pkt) : List Nat :=
  if x.dec.mirror then
    (if (match mirrorOf s x.port with | some m => m.ingress | none => false) then [x.port] else []) ++
    (egressPorts x.dec).filter (fun p => match mirrorOf s p with | some m => m.egress | none => false)
  else []

/-- The dies that a packet's decision needs a buffer on: those with egress ports, and the lowest of them, or the east
die, for a copy to the MP. -/
def diesOf (s : State) (x : Pkt) : List Nat :=
  let ps := egressPorts x.dec ++ (mirrorSources s x).flatMap (fun p => match mirrorOf s p with
    | some m => groupPorts s m.group 256
    | none => [])
  let ds := (List.range 2).filter (fun d => ps.any (fun p => dieOf p == d))
  if ds.isEmpty && x.dec.toMp then [0] else ds

/-- The sequence number a packet draws when it passes with a context (R320). -/
def drawFor (port : Nat) (handle : Option Nat) (s : State) : Option Nat × State :=
  match handle with
  | none => (none, s)
  | some h =>
    let w := freHandle s (dieOf port) h
    if bit w 14 then let r := drawSeq (dieOf port) (fld w 0 14) s; (some r.1, r.2) else (none, s)

/-- The filter stage of a packet; a stream record read with bad parity is taken from its mirror, a meter's
buckets are taken as full (R36). -/
def filterPkt (k : Nat) (bad : StmBad) (s : State) : State :=
  match getPkt s k with
  | none => s
  | some x =>
    if x.phase ≠ .looked then s
    else if x.fcs = some false then discardPkt k 4 s
    else
      let f := filterIn s x
      let r := filterStage f (meterBad f.glen bad s)
      let s1 := match bad, r.ctx with
        | .record, some c => flagSpare clsStm (16 * f.glen + 8) c 8 f.glen (raise srcStmParity c 8 f.glen r.st)
        | _, _ => r.st
      let handle := r.ctx.map (fun c => 32768 * f.glen + c)
      let y := { x with phase := .filtered, colour := r.colour, tenant := r.tenant, handle := handle,
                        charged := if x.complete then [] else r.charged,
                        dec := { x.dec with tc := r.ipv.getD x.dec.tc }, times := lset x.times 2 (s.tim.cnt - x.arrival) }
      if r.pass then
        let q := drawFor x.port handle s1
        let z := { y with seq := q.1 }
        let ds := diesOf q.2 z
        if ds.isEmpty then discardPkt k 3 (setPkt k z q.2) else setPkt k { z with dies := ds } q.2
      else discardPkt k 4 (setPkt k y s1)
def execFilterStage (k : Nat) (bad : StmBad) (s : State) : Out3 := .next (filterPkt k bad s)

/-! ### The last byte and the FCS -/

/-- The copy has begun to leave: its cut-through frame is with the MAC. -/
def begunToLeave (c : Copy) : Bool := c.cut && (c.phase == .ready || c.phase == .launched)

/-- A frame ended after its admission: copies that have begun to leave end with an inverted FCS, the others are
discarded, whether queued or further on. -/
def endCopies (k fate : Nat) (p : Copy → Bool) (s : State) : State :=
  (copiesOf s k).foldl (fun t q =>
    if !p q.2 then t
    else if begunToLeave q.2 then setCopy q.1 { q.2 with invFcs := true } t
    else
      let t1 := if q.2.phase = .queued then unqueue q.1 q.2 t else t
      discardCopy q.1 fate t1) s

/-- A whole frame ended: its copies, and the dies that have not yet admitted it. -/
def endFrame (k fate : Nat) (s : State) : State :=
  let t := endCopies k fate (fun _ => true) s
  match getPkt t k with
  | some x => setPkt k { x with dies := [] } t
  | none => t

/-- Counters of a received frame (R508). -/
def countRx (x : Pkt) (good : Bool) (s : State) : State :=
  let n := frameLen x
  let long := match portRec s x.port with | some r => decide (r.maxLen < n) | none => false
  let s1 := if long then bumpPort x.port pcTooLong 1 s else s
  let s2 := if n < 64 then bump kPort x.port 34 32 1 s1 else s1
  if good && long then s2
  else if good then
    let s3 := bumpPort x.port pcRxOctets n (bumpPort x.port pcRxOk 1 s2)
    if isBroadcast x.bytes then bumpPort x.port pcRxBc 1 s3
    else if isMulticast x.bytes then bumpPort x.port pcRxMc 1 s3 else s3
  else bumpPort x.port pcFcsErr 1 s2

/-- The SDU check of an incomplete frame, made now (R202): the frame ended, DROP_SDU, and BLOCKED under R200. -/
def lateSdu (k : Nat) (x : Pkt) (s : State) : State :=
  match x.handle with
  | none => s
  | some h =>
    let g := h / 32768
    let c := h % 32768
    let m := fld (cw (ctxGet s g c) 0) 16 14
    if m ≠ 0 ∧ m < sduLen x then
      let s1 := oversize g c (bumpCtx g c xDropSdu 1 s)
      if x.phase = .admitted then endFrame k 4 s1 else discardPkt k 4 s1
    else s

/-- An incomplete frame that outgrew its cell on a die (R228). -/
def outgrow (k : Nat) (x : Pkt) (s : State) : State :=
  x.ptrs.foldl (fun t q =>
    let c := cellGet t q.1 (fld q.2 0 19)
    if c.st = .allocated ∧ cellBytes c.pool < frameLen x then
      endCopies k 5 (fun y => dieOf y.port == q.1) (inc (bpmCntOutgrow q.1) t)
    else t) s

/-- The frame's last byte has arrived: what an incomplete frame still owes, then what its FCS decides. -/
def fcsResult (k : Nat) (good : Bool) (s : State) : State :=
  match getPkt s k with
  | none => s
  | some x =>
    if x.complete then s
    else
      let g := servingGlen s x.port
      let y := { x with got := x.bytes.length, complete := true, fcs := some good, charged := [] }
      let s1 := correctMeters g (frameLen x) x.charged (setPkt k y (countRx x good s))
      let s2 := learnFcs g k good s1
      let s3 := fireTrigger k s2
      let past := x.phase = .filtered ∨ x.phase = .admitted
      let s4 := if past then outgrow k y (lateSdu k y s3) else s3
      let s5 := if good then s4
        else if x.phase = .admitted then endFrame k 6 s4
        else if x.phase = .filtered ∧ (getPkt s4 k).isSome then discardPkt k 5 s4 else s4
      reapPkt k s5
def execFrameFcsResult (k : Nat) (good : Bool) (s : State) : Out3 := .next (fcsResult k good s)

/-! ### Admission -/

/-- The size a pipeline asks for (R228). -/
def requestSize (s : State) (x : Pkt) : Nat :=
  if x.complete then frameLen x
  else
    let o := x.ctx.offs.getD 5 1023
    if o ≠ 1023 then
      if (x.bytes.getD o 0).toNat / 16 = 4 then o + beAt x.bytes (o + 2) 2 + 4 else o + 40 + beAt x.bytes (o + 4) 2 + 4
    else match portRec s x.port with | some r => r.maxLen | none => frameLen x

def emptyCopy : Copy :=
  { pkt := 0, port := 0, queue := 0, tc := 0, colour := 0, len := 0, ptr := 0, phase := .waiting, cut := false,
    marked := false, inHbm := false, spilled := false, ctx := startCtx, edits := [], csum := 0, trunc := 0, out := [],
    invFcs := false, badData := false, tl := none, tsReq := none, times := [0, 0, 0], vEnd := 0 }

/-- A copy's place before its buffer is allocated: port, queue, whether marked for spilling, bytes it is cut to. -/
structure Place where
  port : Nat
  queue : Nat
  marked : Bool
  trunc : Nat

/-- A frame's length on a copy cut to `t` bytes. -/
def cutLen (len t : Nat) : Nat := if t = 0 then len else min len t

/-- A copy dropped before its allocation, counted for its queue and sampled. -/
def dropPlace (x : Pkt) (port queue reason : Nat) (s : State) : State :=
  samplePkt x { noCopy with port := port, tc := x.dec.tc, queue := 262144 * dieOf port + queue } 5
    (bumpQ (dieOf port) queue reason 1 s)

/-- A port's queue checks (R251, R254): a place, or a drop. -/
def placeAt (x : Pkt) (port trunc : Nat) (s : State) : Option Place × State :=
  let n := chooseNode port x.tenant s
  match n.1 with
  | none => (none, samplePkt x { noCopy with port := port, tc := x.dec.tc } 5 n.2)
  | some node =>
    let i := 8 * node + x.dec.tc
    match queueAdmit n.2 port i (cutLen (frameLen x) trunc) x.colour with
    | .error reason => (none, dropPlace x port i reason n.2)
    | .ok marked => (some ⟨port, i, marked, trunc⟩, n.2)

def placeAll (x : Pkt) (trunc : Nat) (ports : List Nat) (s : State) : List Place × State :=
  ports.foldl (fun acc p =>
    let r := placeAt x p trunc acc.2
    (match r.1 with | some q => acc.1 ++ [q] | none => acc.1, r.2)) ([], s)

/-- A new copy in its buffer, waiting to join its queue. -/
def addCopy (k : Nat) (x : Pkt) (ptr : Word) (q : Place) (s : State) : State :=
  let c := { emptyCopy with pkt := k, port := q.port, queue := q.queue, tc := x.dec.tc, colour := x.colour,
                            len := cutLen (frameLen x) q.trunc, ptr := ptr, marked := q.marked, trunc := q.trunc }
  let s1 := setCopy s.path.nextCopy c s
  { s1 with path := { s1.path with nextCopy := s.path.nextCopy + 1 } }

/-- A buffer of a packet on a die, for the places given and the named owners: copies made, or every queue's ADMIT
counted.  The Bool says that it was allocated. -/
def bufferFor (k d req size : Nat) (x : Pkt) (places : List Place) (named : List Nat) (s : State) : Option Word × State :=
  let r := allocate d ⟨req, size, decide (x.colour = yellow) && decide (req < 34), places.map (·.port), named⟩ s
  match r.1 with
  | .ok a => (some (wd a), places.foldl (fun t q => addCopy k x (wd a) q t) r.2)
  | .error _ => (none, places.foldl (fun t q => dropPlace x q.port q.queue dropAdmit t) r.2)

/-- The MP is given the packet. -/
def giveMp (x : Pkt) (d : Nat) (ptr : Word) (s : State) : State :=
  let m : MpFrame := ⟨d, ptr, x.port, x.bytes, x.stamp, x.tsv, tagCtrl x && cascadePort s x.port⟩
  samplePkt x noCopy 1 { s with path := { s.path with mpRx := s.path.mpRx ++ [m] } }

/-- A mirrored frame counted against its source's sampling: whether this one is mirrored. -/
def mirrorTake (p n : Nat) (s : State) : Bool × State :=
  if n ≤ 1 then (true, s)
  else
    let c := tget 0 s.path.mirCnt p
    (c % n = 0, { s with path := { s.path with mirCnt := tset 0 s.path.mirCnt p ((c + 1) % n) } })

/-- A mirror's copies of a packet on a die, in cells of their own (R240); a frame that has ended as errored has none. -/
def mirrorCopy (k d group trunc : Nat) (s : State) : State :=
  match getPkt s k with
  | none => s
  | some x =>
    let r := placeAll x trunc ((groupPorts s group 256).filter (fun p => dieOf p == d)) s
    let n := cutLen (frameLen x) trunc
    if x.fcs = some false ∨ r.1.isEmpty then (if x.fcs = some false then s else r.2)
    else (bufferFor k d x.pip (min n (requestSize s x)) x r.1 (if 1 < r.1.length then [collectId] else [])
      (charge (plainMem d) actMirror ((n + 63) / 64) r.2)).2

/-- Mirror copies of one source on a die: those that are cut or sampled take cells of their own, as the mirror activity
grants its slots; the others take the packet's shared buffer. -/
def mirrorPlaces (k d : Nat) (x : Pkt) (have_ : List Nat) (src : Nat) (s : State) : List Place × State :=
  match mirrorOf s src with
  | none => ([], s)
  | some m =>
    let ports := (groupPorts s m.group 256).filter (fun p => dieOf p == d)
    if m.trunc = 0 ∧ m.sample ≤ 1 then placeAll x 0 (ports.filter (fun p => !have_.contains p)) s
    else
      let t := mirrorTake (src + 256 * d) m.sample s
      ([], if !t.1 || ports.isEmpty then t.2
        else if memFree t.2 d actMirror then mirrorCopy k d m.group m.trunc t.2
        else memWait d actMirror (.mirror k m.group m.trunc) t.2)

/-- The shared places of every mirror source, in order. -/
def mirrorAll (k d : Nat) (x : Pkt) (have_ : List Nat) : List Nat → State → List Place × State
  | [], s => ([], s)
  | p :: ps, s =>
    let r := mirrorPlaces k d x have_ p s
    let q := mirrorAll k d x (have_ ++ r.1.map (·.port)) ps r.2
    (r.1 ++ q.1, q.2)

/-- Ascending order, as a port set takes it (R230). -/
def insPlace (q : Place) : List Place → List Place
  | [] => [q]
  | y :: ys => if q.port ≤ y.port then q :: y :: ys else y :: insPlace q ys
def sortPlaces (l : List Place) : List Place := l.foldr insPlace []

/-- A packet admitted on a die: queues checked, a buffer allocated for the copies there and for the MP (R231). -/
def admitOn (k d : Nat) (x : Pkt) (s : State) : State :=
  let mine := (egressPorts x.dec).filter (fun p => dieOf p == d)
  let r := placeAll x 0 mine s
  let srcs := mirrorSources s x
  let m := mirrorAll k d x mine srcs r.2
  let mp := x.dec.toMp && decide ((diesOf s x).head? = some d)
  let places := sortPlaces (r.1 ++ m.1)
  let many := x.dec.group || decide (1 < (egressPorts x.dec).length) || !srcs.isEmpty || (mp && !places.isEmpty)
  let named := (if mp then [290] else []) ++ (if many then [collectId] else [])
  if places.isEmpty && !mp then m.2
  else
    let b := bufferFor k d x.pip (requestSize s x) x places named m.2
    match b.1 with
    | none => b.2
    | some ptr =>
      let t := modPkt k (fun y => { y with ptrs := y.ptrs ++ [(d, ptr)], times := lset y.times 3 (s.tim.cnt - x.arrival),
                                           sent := y.sent || mp }) b.2
      if mp then giveMp x d ptr t else t

/-- Admission of a packet on one of the dies that still owe it (R254, R227). -/
def admission (k d : Nat) (bad : BpmErr) (s : State) : State :=
  match getPkt s k with
  | none => s
  | some x =>
    if (x.phase ≠ .filtered ∧ x.phase ≠ .admitted) ∨ !x.dies.contains d then s
    else
      let s1 := bpmParity d bad s
      let y := { x with phase := .admitted, dies := x.dies.filter (fun e => e != d) }
      reapPkt k (admitOn k d x (setPkt k y s1))
def execAdmission (k d : Nat) (bad : BpmErr) (s : State) : Out3 :=
  needs (decide (d < 2)) (if d < 2 then admission k d bad s else s)

/-! ### Spilling -/

/-- Access slots of the Plain that a copy's frame takes. -/
def segsOf (x : Copy) : Nat := (x.len + 63) / 64

/-- Copies of a queue that wait to be spilled are copied in the order of admission. -/
def firstMarked (s : State) (d i : Nat) : Option Nat :=
  (qList s d i).find? (fun c => match getCopy s c with | some x => x.marked && !x.inHbm | none => false)

/-- A marked frame copied to HBM (R238, R269): its port's ownership goes to the spill engine, which releases the cell;
dropped when the stack is found full. -/
def spillCopy (c : Nat) (s : State) : State :=
  match getCopy s c with
  | none => s
  | some x =>
    let d := dieOf x.port
    let complete := match getPkt s x.pkt with | some p => p.complete | none => true
    if firstMarked s d x.queue ≠ some c ∨ !complete then s
    else if !hasSlot s (plainMem d) 0 then waited (plainMem d) 0 s
    else
      let t := transfer d (pgOf x.port) x.port 292 x.ptr s
      let s1 := (release d 36 292 x.ptr t.2).2
      if stackTakes s d x.len then
        bumpQ d x.queue cntSpilled 1
          (setCopy c { x with inHbm := true, marked := false, spilled := true } (charge (plainMem d) 0 (segsOf x) s1))
      else
        let s2 := bumpQ d x.queue dropSpill 1 (unqueue c x s1)
        let s3 := match getPkt s2 x.pkt with | some p => samplePkt p (sampleOf x 0) 6 s2 | none => s2
        reapPkt x.pkt (endCopy c s3)
def execSpillCopy (c : Nat) (s : State) : Out3 := .next (spillCopy c s)

/-- The head of a queue's HBM part. -/
def firstInHbm (s : State) (d i : Nat) : Option Nat :=
  (qList s d i).find? (fun c => match getCopy s c with | some x => x.inHbm | none => false)

/-- The head of the HBM part comes back (R238, R268); an uncorrectable error marks it for an inverted FCS (R38), which the port counts; the
source raised is HBM_UNCORR alone.  DESIGN CHOICE (log entry 68) -/
def spillReturn (c : Nat) (bad : Bool) (s : State) : State :=
  match getCopy s c with
  | none => s
  | some x =>
    let d := dieOf x.port
    if firstInHbm s d x.queue ≠ some c ∨ fld (qw (queueGet s d x.queue) 2) 16 16 * 256 ≤ plainDepth s d x.queue then s
    else if !hasSlot s (plainMem d) 0 then waited (plainMem d) 0 s
    else
      let r := allocate d ⟨36, x.len, false, [x.port], []⟩ s
      match r.1 with
      | .error _ => r.2
      | .ok a =>
        let s1 := charge (plainMem d) 0 (segsOf x) (setCopy c { x with inHbm := false, ptr := wd a, invFcs := x.invFcs || bad } r.2)
        if bad then raise srcHbmUncorr 0 5 d (incBy (hbmBase d + 0x24) 1 s1) else s1
def execSpillReturn (c : Nat) (bad : Bool) (s : State) : Out3 := .next (spillReturn c bad s)

/-! ### Links (R255) -/

def setLink (p : Nat) (up : Bool) (s : State) : State :=
  match portRec s p with
  | some r => { s with ports := { s.ports with ports := tset none s.ports.ports p (some { r with link := up }) } }
  | none => s

/-- A port's link goes down: what it holds is dropped with DOWN_DROP set. -/
def linkDown (p : Nat) (s : State) : State := dropDown p (raise srcPcsLinkFault 0 4 (pgOf p) (setLink p false s))
def execLinkDown (p : Nat) (s : State) : Out3 := needs (portExists s p) (if portExists s p then linkDown p s else s)
def execLinkUp (p : Nat) (s : State) : Out3 := needs (portExists s p) (if portExists s p then setLink p true s else s)

end Sys2Proof.Machine
end

