-- ==== Sys2Proof/Machine/Rewrite.lean ====
section
/-! DEFINITION. The rewrite engines (chapter 11): contexts and microwords (R307 to R310), edits (R311 to R314), the shipped
profiles (R315, R322, R364 to R367), launching (R317, R318), the exit checks (R324, R330) and the egress MAC. -/

namespace Sys2Proof.Machine
open Sys2Proof

/-! ### Edits -/

abbrev opInsert : Nat := 1
abbrev opDelete : Nat := 2
abbrev opOverwrite : Nat := 3
abbrev opSeqTag : Nat := 4
abbrev opRctAdd : Nat := 5
abbrev opRctStrip : Nat := 6
abbrev opTime : Nat := 7
abbrev opCorr : Nat := 8
abbrev opResid : Nat := 9
abbrev opDec : Nat := 10
/-- Two edits of the shipped profiles that no microword has: a PRP trailer rebuilt in place (R322), a Gnoyr tag inserted
with its residence (R364). -/
abbrev opRctRebuild : Nat := 11
abbrev opGnoyr : Nat := 12

/-- Bytes of the frame as received that an edit replaces or removes. -/
def editTouch (e : Edit) : Nat :=
  if e.op = opDelete ∨ e.op = opOverwrite then e.len
  else if e.op = opTime then 10 else if e.op = opCorr then 8 else if e.op = opResid then 4 else if e.op = opDec then 1 else 0

/-- Positions play no part in the trailer's edits. -/
def isTrailer (e : Edit) : Bool := e.op == opRctAdd || e.op == opRctStrip || e.op == opRctRebuild
def editGrowth (e : Edit) : Int :=
  if e.op = opInsert then e.len else if e.op = opDelete then -(e.len : Int)
  else if e.op = opSeqTag ∨ e.op = opRctAdd then 6 else if e.op = opRctStrip then -6
  else if e.op = opGnoyr then 16 else 0

/-- The list is in ascending order without overlaps. -/
def editsOrdered : Nat → Nat → List Edit → Bool
  | _, _, [] => true
  | lastPos, free, e :: es =>
    decide (lastPos ≤ e.pos) && (decide (free ≤ e.pos) || (decide (e.pos = lastPos) && decide (editTouch e = 0))) &&
    editsOrdered e.pos (max free (e.pos + editTouch e)) es

/-- The conditions of R312 on a microword's list, for a frame of n bytes. -/
def editsLegal (n : Nat) (l : List Edit) : Bool :=
  let body := l.filter (fun e => !isTrailer e)
  body.all (fun e => decide (e.pos < 256) && decide (e.pos < n) && decide (e.pos + editTouch e ≤ min 256 n)) &&
  editsOrdered 0 0 body && !(l.any (fun e => e.op == opRctAdd) && l.any (fun e => e.op == opRctStrip)) &&
  decide ((l.map editGrowth).sum ≤ 64)

/-! ### The frame as edited -/

/-- What the edits need beside the list: the launch time and the ingress timestamp in ns, the mode, LAN and NET_ID of the
egress port. -/
structure EditEnv where
  tl : Nat
  stamp : Nat
  mode : Nat
  lan : Nat
  netId : Nat

def residence (v : EditEnv) : Int := (v.tl : Int) - v.stamp
def addSat32 (a : Nat) (r : Int) : Nat := min (2 ^ 32 - 1) (a + r.toNat)

/-- The bytes an edit puts in the place of those it touches.  SEQ_TAG's size field is filled afterwards. -/
def editBytes (bs : List Byte) (v : EditEnv) (e : Edit) : List Byte :=
  if e.op = opInsert ∨ e.op = opOverwrite then e.bytes
  else if e.op = opSeqTag then
    (if v.mode = modeHsr then beBytes 2 0x892F ++ beBytes 2 ((v.netId * 2 + v.lan) * 4096) else beBytes 2 0xF1C1 ++ [0, 0]) ++ e.bytes
  else if e.op = opTime then beBytes 6 (v.tl / 10 ^ 9) ++ beBytes 4 (v.tl % 10 ^ 9)
  else if e.op = opCorr then beBytes 8 (unsgn 64 ((beAt bs e.pos 8 : Int) + max 0 (residence v) * 65536))
  else if e.op = opResid then beBytes 4 (addSat32 (beAt bs e.pos 4) (residence v))
  else if e.op = opDec then beBytes 1 (((beAt bs e.pos 1) + 255) % 256)
  else if e.op = opGnoyr then e.bytes.take 12 ++ beBytes 4 (addSat32 0 (residence v))
  else []

/-- The edits applied from byte `start` on. -/
def applyEdits (bs : List Byte) (v : EditEnv) : List Edit → Nat → List Byte
  | [], start => bs.drop start
  | e :: es, start =>
    (bs.drop start).take (e.pos - start) ++ editBytes bs v e ++ applyEdits bs v es (max start (e.pos + editTouch e))

/-- Where byte `o` of the frame as received lies in the edited frame. -/
def newPos (l : List Edit) (o : Nat) : Nat :=
  (l.foldl (fun (n : Int) e => if !isTrailer e && decide (e.pos ≤ o) then n + editGrowth e else n) (o : Int)).toNat

/-- Where a SEQ_TAG's tag begins. -/
def tagPos : List Edit → Int → Option Nat
  | [], _ => none
  | e :: es, g => if e.op = opSeqTag then some ((e.pos : Int) + g).toNat else tagPos es (if isTrailer e then g else g + editGrowth e)

/-- One's complement sum of 16-bit words, and its fold. -/
def sum16 : List Byte → Nat
  | a :: b :: rest => a.toNat * 256 + b.toNat + sum16 rest
  | [a] => a.toNat * 256
  | [] => 0
def fold16 (n : Nat) : Nat := if n = 0 then 0 else (n - 1) % 65535 + 1

/-- The IPv4 header checksum of a header recomputed (R313). -/
def fixIpv4 (o : Nat) (bs : List Byte) : List Byte :=
  let n := ((bs.getD o 0).toNat % 16) * 4
  let h := overwrite (bytesAt bs o n) 10 [0, 0]
  overwrite bs (o + 10) (beBytes 2 (65535 - fold16 (sum16 h)))

/-- Where the IP packet of a frame ends; padding and a trailer lie behind it. -/
def ipEnd (bs : List Byte) (ip : Nat) : Nat :=
  min bs.length (if (bs.getD ip 0).toNat / 16 = 4 then ip + beAt bs (ip + 2) 2 else ip + 40 + beAt bs (ip + 4) 2)

/-- The bytes that a UDP or TCP checksum covers in a frame: the IP addresses and all from the transport header to the
packet's end, the checksum itself left out. -/
def covered (bs : List Byte) (ip tr cs stop : Nat) : List Byte :=
  let adr := if (bs.getD ip 0).toNat / 16 = 4 then bytesAt bs (ip + 12) 8 else bytesAt bs (ip + 8) 32
  adr ++ overwrite ((bs.take stop).drop tr) cs [0, 0]

/-- A UDP or TCP checksum adjusted for what the edits changed (RFC 1624). -/
def fixTransport (old new : List Byte) (ip tr ip' tr' stop' proto : Nat) : List Byte :=
  let cs := if proto = 6 then 16 else 6
  let hc := beAt old (tr + cs) 2
  if proto = 17 ∧ (old.getD ip 0).toNat / 16 = 4 ∧ hc = 0 then new
  else
    let m := fold16 (sum16 (covered old ip tr cs (ipEnd old ip)))
    let m' := fold16 (sum16 (covered new ip' tr' cs stop'))
    overwrite new (tr' + cs) (beBytes 2 (65535 - fold16 ((65535 - hc) + (65535 - m) + m')))

/-- The PRP trailer (R321): after padding, its size field counting from the byte after the EtherType. -/
def trailer (v : EditEnv) (seq : List Byte) (etOff len : Nat) : List Byte :=
  seq ++ beBytes 2 ((0xA + v.lan) * 4096 + (len + 6 - (etOff + 2)) % 4096) ++ beBytes 2 0x88FB

/-- The edited frame (R311 to R314): the body's edits, padding to 60 bytes with a trailer counted, the trailer, the size
field of an HSR tag, then the checksums. -/
def editFrame (x : Pkt) (v : EditEnv) (l : List Edit) (csum : Nat) : List Byte :=
  if l.isEmpty && csum == 0 then x.bytes
  else
    let body := l.filter (fun e => !isTrailer e)
    let strip := l.any (fun e => e.op == opRctStrip || e.op == opRctRebuild) && (prpTrailer x.bytes (tagEnd x)).isSome
    let src := if strip then x.bytes.take (x.bytes.length - 6) else x.bytes
    let b0 := applyEdits src v body 0
    let add := l.find? (fun e => e.op == opRctAdd || e.op == opRctRebuild)
    let want := if add.isSome then 54 else 60
    let b1 := b0 ++ List.replicate (want - b0.length) 0
    let b2 := match add with
      | some e => b1 ++ trailer v e.bytes (newPos body (tagEnd x)) b1.length
      | none => b1
    let b3 := match tagPos body 0 with
      | some p => if v.mode = modeHsr then overwrite b2 (p + 2) (beBytes 2 ((v.netId * 2 + v.lan) * 4096 + (b2.length - (p + 2)) % 4096)) else b2
      | none => b2
    let ip := x.ctx.offs.getD 5 1023
    let tr := x.ctx.offs.getD 6 1023
    let b4 := if csum % 2 = 1 ∧ ip ≠ 1023 then fixIpv4 (newPos body ip) b3 else b3
    if csum / 2 % 2 = 1 ∧ ip ≠ 1023 ∧ tr ≠ 1023 then
      fixTransport x.bytes b4 ip tr (newPos body ip) (newPos body tr) (newPos body (ipEnd x.bytes ip - 1) + 1)
        (x.ctx.kb.getD 20 0).toNat
    else b4

/-! ### Microwords (R308 to R310) -/

/-- The metadata fields of a copy (R308). -/
def rweMeta (s : State) (x : Pkt) (y : Copy) (i : Nat) : Nat :=
  match i with
  | 0 => y.port
  | 1 => y.tc + y.colour * 8
  | 2 => x.seq.getD 0
  | 3 => b2n x.seq.isSome + 2 * b2n (redOf s x).isSome
  | 4 => x.handle.getD 0 % 65536
  | 5 => x.handle.getD 0 / 65536
  | 6 => x.ctx.flags % 65536
  | 7 => x.ctx.flags / 65536
  | 8 => x.ctx.cls
  | 9 => x.dec.user
  | 10 => (rd s (frePortCfg y.port)).toNat % 65536
  | 11 => x.dec.vid
  | 12 => x.port % 65536
  | 13 => x.bytes.length
  | _ => 0

/-- The microword holds an encoding that R309 calls illegal. -/
def rweIllegal (w : Nat) : Bool :=
  decide (10 < mf w 118 4) || decide (64 < mf w 103 7) || mf w 101 2 == 3 || mf w 91 2 == 3 || mf w 76 3 == 7 ||
  mf w 74 2 == 3 ||
  ((mf w 118 4 == 1 || mf w 118 4 == 3) && mf w 101 2 == 1 && mf w 103 7 != 2)

/-- The 16-bit field of a rewrite context's window, which reaches to the frame's end. -/
def rweByte (bs : List Byte) (hp i : Nat) : Nat := (bs.getD (hp + i) 0).toNat
def rweSel (s : State) (x : Pkt) (y : Copy) (w : Nat) : Nat :=
  match mf w 173 2 with
  | 0 => rweByte x.bytes y.ctx.hp (mf w 168 5) * 256 +
      (if mf w 168 5 = 31 then 0 else rweByte x.bytes y.ctx.hp (mf w 168 5 + 1))
  | 1 => y.ctx.a
  | 2 => rweMeta s x y (mf w 122 4)
  | _ => y.ctx.b

/-- The edit that a microword appends. -/
def rweEdit (s : State) (x : Pkt) (y : Copy) (w : Nat) : Option Edit :=
  if mf w 118 4 = 0 then none
  else
    let len := mf w 103 7
    let bytes := match mf w 101 2 with
      | 0 => (List.range len).map (Config.template (mf w 93 8))
      | 1 => beBytes 2 (rweMeta s x y (mf w 122 4))
      | _ => List.replicate len 0
    some ⟨mf w 118 4, y.ctx.hp + mf w 110 8, len, bytes⟩

/-- How a step of a rewrite context ends. -/
inductive RweEnd where
  | go (y : Copy) | fin (y : Copy) | drop | fault (src addr : Nat)

/-- One rewrite microword executed at `cur`. -/
def rweExec (s : State) (x : Pkt) (y : Copy) (w cur : Nat) : RweEnd :=
  let c := y.ctx
  if rweIllegal w then .fault srcUcodeIllegal cur
  else
    let sel := rweSel s x y w
    let q := sequencer 1 (mf w 188 4) (mf w 175 13) cur sel (mf w 152 16) (mf w 148 4) (mf w 142 6) [mf w 126 16]
    let ab := scratch (mf w 76 3) c.a c.b (Nat.land sel (mf w 152 16) / 2 ^ mf w 148 4)
    let hp := match mf w 91 2 with
      | 1 => min 1023 (c.hp + mf w 83 8)
      | 2 => c.offs.getD (mf w 79 4) 1023
      | _ => c.hp
    let add := (rweEdit s x y w).toList
    let cs := mf w 74 2
    let y1 := { y with ctx := { c with a := ab.1, b := ab.2, hp := hp }, edits := y.edits ++ add,
                       csum := Nat.lor y.csum (if cs = 1 then 1 else if cs = 2 then 2 else 0) }
    let noOff := (cs = 1 ∧ x.ctx.offs.getD 5 1023 = 1023) ∨ (cs = 2 ∧ x.ctx.offs.getD 6 1023 = 1023)
    if 8 < y1.edits.length ∨ noOff then .fault srcUcodeIllegal cur
    else match resolve 1 q (mf w 175 13) cur c.stack with
      | .illegal => .fault srcUcodeIllegal cur
      | .stackFault => .fault srcUcodeStack cur
      | .drop => .drop
      | .stop => if editsLegal x.bytes.length y1.edits then .fin y1 else .fault srcUcodeIllegal cur
      | .next pc st => .go { y1 with ctx := { y1.ctx with pc := pc, stack := st } }

/-! ### The shipped profiles (R315) -/

/-- Tag version of a cascade port (R365) and the budget code of a class (R366). -/
def portTagVer (s : State) (p : Nat) : Nat := rdF s (casPortCfg p) 1 2
def classBudget (s : State) (tc : Nat) : Nat := rdF s (casBase + 0x20 + 4 * (tc / 4)) (8 * (tc % 4)) 8

/-- The flags byte of a Gnoyr tag: UP and EXC of an upstream copy, cleared by a manager (R364, R369, R370). -/
def gnoyrFlags (s : State) (x : Pkt) (y : Copy) (old : Nat) : Nat :=
  let up := x.dec.up || x.dec.upPorts.contains y.port
  let f := Nat.lor (old % 16) (if up then 3 else 0)
  if casRole s = 2 then f / 4 * 4 else f

/-- The Gnoyr tag of a copy: kept with its version converted, inserted, or removed. -/
def gnoyrEdits (s : State) (x : Pkt) (y : Copy) : List Edit :=
  let ver := portTagVer s y.port
  match tagOff x with
  | some o =>
    if cascadePort s y.port then
      let b2 := ver * 16 + gnoyrFlags s x y (tagByte x 2)
      let b7 := if ver = 1 then 0 else if tagVer x = 1 then classBudget s y.tc else tagByte x 7
      [⟨opOverwrite, o + 2, 1, beBytes 1 b2⟩, ⟨opOverwrite, o + 7, 1, beBytes 1 b7⟩, ⟨opResid, o + 12, 4, []⟩]
    else [⟨opDelete, o, 16, []⟩]
  | none =>
    if cascadePort s y.port then
      let flags := gnoyrFlags s x y (8 * b2n x.tsv + 4 * b2n x.dec.ctrl)
      let tag := beBytes 2 (casEtype s) ++ beBytes 1 (ver * 16 + flags) ++ beBytes 3 (if casRole s = 0 then 0 else rdF s casDevId 0 20) ++
        beBytes 1 x.port ++ beBytes 1 (if ver = 2 then classBudget s y.tc else 0) ++ beBytes 4 (x.stamp % 10 ^ 9) ++ [0, 0, 0, 0]
      [⟨opGnoyr, 12, 0, tag⟩]
    else []

/-- The redundancy edits of the egress port's mode (R322). -/
def redEdits (s : State) (x : Pkt) (y : Copy) : List Edit :=
  let m := freMode s y.port
  match redOf s x with
  | some r =>
    if m = 0 then
      if portStrip s y.port then
        (if r.kind = modePrp then [⟨opRctStrip, 0, 0, []⟩] else [⟨opDelete, r.off, 6, []⟩]) else []
    else if m = modePrp then
      if r.kind = modePrp then [⟨opRctRebuild, 0, 0, []⟩] else [⟨opDelete, r.off, 6, []⟩, ⟨opRctAdd, 0, 0, []⟩]
    else if r.kind = modePrp then [⟨opSeqTag, tagEnd x, 0, []⟩, ⟨opRctStrip, 0, 0, []⟩]
    else [⟨opSeqTag, r.off, 0, []⟩, ⟨opDelete, r.off, 6, []⟩]
  | none =>
    if m = 0 then [] else if m = modePrp then [⟨opRctAdd, 0, 0, []⟩] else [⟨opSeqTag, tagEnd x, 0, []⟩]

/-- DEI set on the outer tag of a yellow packet whose context asks for it (R199). -/
def deiEdits (s : State) (x : Pkt) (y : Copy) : List Edit :=
  let o := x.ctx.offs.getD 1 1023
  match x.handle with
  | some h =>
    if y.colour = yellow ∧ o ≠ 1023 ∧ bit (cw (ctxGet s (h / 32768) (h % 32768)) 2) 1 = true then
      [⟨opOverwrite, o + 2, 1, beBytes 1 (Nat.lor (x.bytes.getD (o + 2) 0).toNat 16)⟩]
    else []
  | none => []

/-- TTL or hop limit of a routed packet (R171 step 4). -/
def ttlEdits (x : Pkt) : List Edit × Nat :=
  let o := x.ctx.offs.getD 5 1023
  if !x.dec.routed || o == 1023 then ([], 0)
  else if (x.bytes.getD o 0).toNat / 16 = 4 then ([⟨opDec, o + 8, 1, []⟩], 1) else ([⟨opDec, o + 7, 1, []⟩], 0)

/-- The IEEE 1588 edits of an event message: none, CORR or TIME.  Which of them a port makes follows from its clock role,
which the spec gives no register, so it is a free value. -/
def ptpEdits (x : Pkt) (pick : Nat) : List Edit × Nat :=
  let o := x.ctx.offs.getD 11 1023
  if !nbit x.ctx.flags 9 || o == 1023 then ([], 0)
  else
    let cs := if x.ctx.offs.getD 6 1023 = 1023 then 0 else 2
    match pick % 3 with
    | 1 => ([⟨opCorr, o + 8, 8, []⟩], cs)
    | 2 => ([⟨opTime, o + 34, 10, []⟩], cs)
    | _ => ([], 0)

/-- A shipped routine runs whole: EG_STD and EG_CASCADE edit by the port's settings, PRIMROSE edits nothing. -/
def rweRoutine (s : State) (x : Pkt) (y : Copy) (a : Nat) : Option (Copy × Nat × State) :=
  if a = 0x0010 ∨ a = 0x0020 then
    let n := freeW s
    let m := freeW n.2
    let t := ttlEdits x
    let p := ptpEdits x n.1.toNat
    some ({ y with edits := gnoyrEdits s x y ++ deiEdits s x y ++ redEdits s x y ++ t.1 ++ p.1, csum := t.2 + p.2 },
      1 + m.1.toNat % (if a = 0x0010 then 22 else 26), m.2)
  else if a = 0x0A00 then let m := freeW s; some ({ y with edits := [] }, 1 + m.1.toNat % 5, m.2)
  else none
abbrev knownRwe : List Nat := [0x0010, 0x0020, 0x0A00]

/-- A ROM word (R315): SEQ_OP 0xF outside the listed code, NEXT at the eight hooks, elsewhere a word that the spec does
not lay down. -/
def rweRomWord (a : Nat) : Nat :=
  if 0x0B00 ≤ a ∧ a < 0x0FF0 then 15 * 2 ^ 188
  else if 0x0FF0 ≤ a ∧ a % 2 = 0 then 0
  else Config.rweRom a % 2 ^ 192

/-! ### How a copy leaves the engine -/

/-- A copy discarded by its rewrite engine. -/
def rweDiscard (c pip fate : Nat) (s : State) : State := ctxUpdate 1 pip (discardCopy c fate s)
def rweFault (c pip src addr : Nat) (s : State) : State :=
  rweDiscard c pip 7 (raiseUcode src 1 pip addr (countEng 1 pip rcUfault 1 s))

/-- The sequence number a copy carries: its own, the packet's, or the port's default generator's (R321, R322). -/
def seqFor (x : Pkt) (p : Nat) (s : State) : Option Nat × State :=
  match redOf s x with
  | some r => (some r.seq, s)
  | none => match x.seq with
    | some n => (some n, s)
    | none => if portGenEn s p then let r := drawSeq (dieOf p) (portGen s p) s; (some r.1, r.2) else (none, s)

def needsSeq (e : Edit) : Bool := e.op == opSeqTag || e.op == opRctAdd || e.op == opRctRebuild

/-- The tags and trailers of a list given their number, or left out and the copy counted (R321). -/
def giveSeq (x : Pkt) (y : Copy) (s : State) : Option Nat × Copy × State :=
  if y.edits.any needsSeq then
    let r := seqFor x y.port s
    match r.1 with
    | some n => (some n, { y with edits := y.edits.map (fun e => if needsSeq e then { e with bytes := beBytes 2 n } else e) }, r.2)
    | none => (none, { y with edits := y.edits.filter (fun e => !needsSeq e) }, inc (freCnt (dieOf y.port) fcUntagged) r.2)
  else (none, y, s)

/-- A decision made once for each buffer of a packet. -/
def verdict (k key' : Nat) (x : Pkt) (eval : State → Bool × State) (s : State) : Bool × State :=
  match x.verdicts.find? (fun q => q.1 == key') with
  | some q => (q.2, s)
  | none =>
    let r := eval s
    (r.1, modPkt k (fun z => { z with verdicts := z.verdicts ++ [(key', r.1)] }) r.2)

/-- Recovery at the exit (R324); a state word with bad parity counts a reset first (R327). -/
def exitRecovery (y : Copy) (bad : RweBad) (s : State) : Bool × State :=
  match getPkt s y.pkt with
  | none => (true, s)
  | some x => match x.handle with
    | none => (true, s)
    | some h =>
      let d := dieOf y.port
      let w := freHandle s d h
      if bit (cw (ctxGet s (h / 32768) (h % 32768)) 2) 9 && bit w 28 then
        let f := fld w 16 12
        let s1 := if bad = .recovery then raise srcFreParity (rcvAddr d f) 0 0 (rcvReset d f s) else s
        verdict y.pkt (64 * d + 63) x (recover d f ((redOf s x).map (·.seq))) s1
      else (true, s)

/-- Duplicate discard at the exit (R330, R331): `tagged` is the number an HSR tag or trailer was given. -/
def exitDup (y : Copy) (tagged : Option Nat) (bad : RweBad) (s : State) : Bool × State :=
  match getPkt s y.pkt with
  | none => (true, s)
  | some x =>
    let own := match redOf s x with | some r => if r.kind = modeRtag then none else some r.seq | none => none
    let n := own.orElse fun _ => if freMode s y.port = modeHsr ∨ freMode s y.port = modePrp then tagged else none
    match n with
    | none => (true, s)
    | some q =>
      let d := dieOf y.port
      let mac := beAt x.bytes 6 6
      let dom := portDomain s y.port
      if !portDupEn s y.port then (true, s)
      else if bad = .duplicate then
        let b := dupBucket s d mac q dom
        verdict y.pkt (64 * d + dom) x (fun t => (true, raise srcFreDupParity 0 0 0
          (dupPut d b ((dupGet t d b).filter (fun e => !(e.mac == mac && e.seq == q && e.domain == dom))) t))) s
      else verdict y.pkt (64 * d + dom) x (dupCheck d mac q dom) s

/-- The latency check of R367: on copies that leave with a tag or without the one they had, but for those whose rewrite
profile adds no residence (R315, R368). -/
def budgetChecked (s : State) (x : Pkt) (y : Copy) : Bool :=
  rdF s (engPortProf 1 y.port) 0 8 != 0 && rdF s (engPortProf 1 y.port) 0 8 != 5 &&
  ((tagOff x).isSome || cascadePort s y.port) && (casRole s != 0 || cascadePort s y.port)

/-- The copy is launched: its edits need the launch time, or the latency check does (R317, R367). -/
def isLaunched (s : State) (x : Pkt) (y : Copy) : Bool :=
  budgetChecked s x y || y.edits.any (fun e => e.op == opTime || e.op == opCorr || e.op == opResid || e.op == opGnoyr)

/-- The earliest launch time: 24 ns from now, and after the frame before it. -/
def launchAt (s : State) (p : Nat) : Nat := max (stampNow s p true + 24) (tget 0 s.path.wireEnd p)
def envFor (s : State) (x : Pkt) (p tl : Nat) : EditEnv := ⟨tl, x.stamp, freMode s p, portLan s p, portNetId s p⟩

/-- The budget that applies to a copy in ns, 0 for none (R366, R367). -/
def copyBudget (s : State) (x : Pkt) (y : Copy) : Nat :=
  let code := if (tagOff x).isSome ∧ tagVer x = 2 then tagByte x 7 else classBudget s y.tc
  if code = 0 then 0 else (16 + code % 16) * 2 ^ (code / 16)

/-- Bytes of a copy cut for its mirror. -/
def cutTo (t : Nat) (bs : List Byte) : List Byte := if t = 0 then bs else bs.take t

/-- The frame as it leaves: edited, within the port's limit, ready for the MAC; or discarded. -/
def readyCopy (c : Nat) (x : Pkt) (y : Copy) (tl : Nat) (s : State) : State :=
  let pip := pgOf y.port
  let v := envFor s x y.port tl
  let s1 := if residence v < 0 ∧ y.edits.any (fun e => e.op == opCorr || e.op == opResid || e.op == opGnoyr)
    then countEng 1 pip rcNegRes 1 s else s
  let acc := addSat32 (match tagOff x with | some o => beAt x.bytes (o + 12) 4 | none => 0) (residence v)
  let lim := copyBudget s x y
  let out := cutTo y.trunc (editFrame x v y.edits y.csum)
  let over_ := match portRec s y.port with | some r => decide (r.maxLen < out.length + 4) | none => false
  if budgetChecked s x y ∧ lim ≠ 0 ∧ lim < acc then
    rweDiscard c pip 7 (raise srcGnoyrDrop 0 1 pip (countEng 1 pip rcGnoyrDrop 1 s1))
  else if !y.edits.isEmpty && over_ then rweDiscard c pip 7 (countEng 1 pip rcOversize 1 s1)
  else ctxUpdate 1 pip (setCopy c { y with out := out, phase := .ready, tl := if isLaunched s x y then some tl else none } s1)

/-- END (R310): the exit checks, then the frame is ready or launched. -/
def rweFinish (c : Nat) (x : Pkt) (y0 : Copy) (bad : RweBad) (s : State) : State :=
  let pip := pgOf y0.port
  let q := giveSeq x y0 (countEng 1 pip rcDone 1 s)
  let vEnd := rdF s (pwiBase + 0x500 + 4 * (2 * physPip s pip + 1)) 0 6
  let y := { q.2.1 with times := lset y0.times 2 (s.tim.cnt - x.arrival), vEnd := vEnd }
  let r := exitRecovery y bad (setCopy c y q.2.2)
  if !r.1 then rweDiscard c pip 8 r.2
  else
    let d := exitDup y q.1 bad r.2
    if !d.1 then rweDiscard c pip 8 d.2
    else if isLaunched d.2 x y then
      ctxUpdate 1 pip (setCopy c { y with phase := .launched, tl := some (launchAt d.2 y.port) } d.2)
    else readyCopy c x y 0 d.2

/-! ### Commands of the path (rows 274 to 277) -/

/-- The entry address of a rewrite profile. -/
def rweEntry (s : State) (pip bank prof : Nat) : Nat :=
  match prof with
  | 2 => 0x0020
  | 5 => 0x0A00
  | _ =>
    let a := engProf 1 pip (16 * bank + (prof - 0x10))
    if 0x10 ≤ prof ∧ rdBit s a 31 then rdF s a 0 13 else 0x0010

/-- A dequeued copy takes a context of its egress pipeline; profile 0 takes no step (R307, R315). -/
def rweTake (c : Nat) (s : State) : State :=
  match getCopy s c with
  | none => s
  | some y =>
    let pip := pgOf y.port
    let serves := spareServes s pip || !outOfService s 1 pip
    match getPkt s y.pkt with
    | none => s
    | some x =>
      if y.phase ≠ .dequeued ∨ !serves ∨ 64 ≤ (rewriting s pip).length then s
      else
        let bank := activeBank s 1 pip
        let prof := rdF s (engPortProf 1 y.port) 0 8
        let ctx := { startCtx with pc := rweEntry s pip bank prof, bank := bank, limit := stepLimit s 1 pip, offs := x.ctx.offs }
        let z := { y with phase := .rewriting, ctx := ctx, edits := [], csum := 0 }
        if prof = 0 then rweFinish c x z .none (setCopy c z s) else ctxUpdate 1 pip (setCopy c z s)
def execRewriteContextTake (c : Nat) (s : State) : Out3 := .next (rweTake c s)

/-- One step of a rewrite context, or a shipped routine whole. -/
def rweStepOf (s : State) (x : Pkt) (y : Copy) : RweEnd × Nat × State :=
  let pip := pgOf y.port
  let cur := effective s 1 pip y.ctx.bank y.ctx.pc
  if region 1 cur = 2 then (.fault srcUcodeIllegal cur, 1, s)
  else if region 1 cur = 1 then (rweExec s x y (patchWord s 1 pip (cur - 0x1000)) cur, 1, s)
  else match (if patchedElsewhere s 1 pip y.ctx.bank knownRwe && !romGuarded 1 cur then none else rweRoutine s x y cur) with
    | some r => (.fin r.1, r.2)
    | none => (rweExec s x y (rweRomWord cur) cur, 1, s)

/-- A step of a rewrite context.  A routine that passes the step limit ends in a word whose address the spec does not lay
down. -/
def rweStep (c : Nat) (bad : RweBad) (s : State) : State :=
  match getCopy s c with
  | none => s
  | some y => match getPkt s y.pkt with
    | none => s
    | some x =>
      let pip := pgOf y.port
      if y.phase ≠ .rewriting ∨ windowWaits 1 x.bytes.length x.got y.ctx.hp then s
      else if bad = .word then
        let a := effective s 1 pip y.ctx.bank y.ctx.pc
        rweFault c pip srcUcodeParity a (patchParity 1 pip a s)
      else
        let r := rweStepOf s x y
        let steps := y.ctx.steps + r.2.1
        match r.1 with
        | .go z =>
          if y.ctx.limit ≤ steps then rweFault c pip srcUcodeStep (effective r.2.2 1 pip z.ctx.bank z.ctx.pc) r.2.2
          else ctxUpdate 1 pip (setCopy c { z with ctx := { z.ctx with steps := steps } } r.2.2)
        | .fin z =>
          if y.ctx.limit < steps then
            let f := freeW r.2.2
            rweFault c pip srcUcodeStep (f.1.toNat % 0x0A00) f.2
          else rweFinish c x { z with ctx := { z.ctx with steps := steps } } bad r.2.2
        | .drop => rweDiscard c pip 7 (countEng 1 pip rcDrop 1 r.2.2)
        | .fault src a => rweFault c pip src a r.2.2
def execRewriteStep (c : Nat) (bad : RweBad) (s : State) : Out3 := .next (rweStep c bad s)

/-- A launched copy at its launch time: it leaves when the gate still fits, or TL is fixed anew (R317). -/
def launchTime (c : Nat) (s : State) : State :=
  match getCopy s c with
  | none => s
  | some y => match getPkt s y.pkt, y.tl with
    | some x, some tl =>
      if y.phase ≠ .launched ∨ stampNow s y.port true < tl then s
      else if tl < tget 0 s.path.wireEnd y.port ∨ !gateEligible s y.port y.tc (portCharge s y.port y.len) then
        setCopy c { y with tl := some (launchAt s y.port) } s
      else readyCopy c x y tl s
    | _, _ => s
def execLaunchTime (c : Nat) (s : State) : Out3 := .next (launchTime c s)

/-- Counters of a frame sent (R508). -/
def countTx (p : Nat) (bs : List Byte) (inv : Bool) (s : State) : State :=
  if inv then bumpPort p pcInvFcs 1 s
  else
    let s1 := bumpPort p pcTxOctets (bs.length + 4) (bumpPort p pcTxOk 1 s)
    if isBroadcast bs then bumpPort p pcTxBc 1 s1 else if isMulticast bs then bumpPort p pcTxMc 1 s1 else s1

/-- What follows a frame's leaving: the histogram report of its context, the egress timestamp record (R217, R286). -/
def afterSent (x : Pkt) (y : Copy) (ts : Nat) (s : State) : State :=
  let s1 := match x.handle with
    | some h => if bit (cw (ctxGet s (h / 32768) (h % 32768)) 2) 2 then
        histReport (h / 32768) (h % 32768) ((ts : Int) - x.stamp) s else s
    | none => s
  let o := x.ctx.offs.getD 11 1023
  let mt := if o = 1023 then 0 else (x.bytes.getD o 0).toNat % 16
  let sq := if o = 1023 then 0 else beAt x.bytes (o + 30) 2
  match y.tsReq with
  | some cookie => postStamp y.port ts sq mt cookie s1
  | none => if nbit x.ctx.flags 9 && rdBit s (timPortCfg y.port) 0 then postStamp y.port ts sq mt 0 s1 else s1

/-- A page of the Plain that a pointer lies in. -/
def pageOfPtr (ptr : Word) : Nat := fld ptr 0 19 / 16

/-- A parity error in a frame's data: every copy of its buffer on the die is bad (R37). -/
def plainParity (y : Copy) (s : State) : State :=
  (copiesOf s y.pkt).foldl (fun t q =>
    if q.2.ptr = y.ptr ∧ dieOf q.2.port = dieOf y.port ∧ q.2.inHbm = false then setCopy q.1 { q.2 with badData := true } t else t)
    (raise srcPlainParity y.ptr.toNat 8 (dieOf y.port) s)

/-- A packet in a quarantined cell is dropped at egress and counted as a Plain parity error (R242). -/
def inQuarantine (s : State) (y : Copy) : Bool := !y.inHbm && (cellGet s (dieOf y.port) (fld y.ptr 0 19)).st == .quarantined
def quarantineDrop (c : Nat) (y : Copy) (s : State) : State :=
  let s1 := bumpPort y.port pcInvFcs 1 (raise srcPlainParity y.ptr.toNat 8 (dieOf y.port) s)
  discardCopy c 9 (setGat y.port { gatOf s1 y.port with wire := none } s1)

/-- The egress MAC sends a copy (R314, R22, R37): its FCS fresh or inverted; the port releases the buffer. -/
def transmit (c : Nat) (bad : Bool) (s : State) : State :=
  match getCopy s c with
  | none => s
  | some y => match getPkt s y.pkt with
    | none => s
    | some x =>
      if y.phase ≠ .ready ∨ !x.complete ∨ !portUp s y.port ∨ !pgRuns s y.port then s
      else if inQuarantine s y then quarantineDrop c y s
      else
        let p := y.port
        let inv := y.invFcs || bad || y.badData
        let ts := y.tl.getD (stampNow s p true)
        let s1 := if bad then flagPage (dieOf p) (pageOfPtr y.ptr) (plainParity y s)
          else if y.badData then raise srcPlainParity y.ptr.toNat 8 (dieOf p) s else s
        let s2 := emit (.frame p y.out (!inv)) (countTx p y.out inv s1)
        let span := match portRec s p with | some r => (y.out.length + 24) * 8000 / max 1 (portRate r) | none => 0
        let s3 := { s2 with path := { s2.path with wireEnd := tset 0 s2.path.wireEnd p (ts + span) } }
        let up := x.dec.up || x.dec.upPorts.contains p
        let s4 := if up ∧ !inv then inc (casCnt ccUpTx) s3 else if x.dec.ctrl ∧ !inv then inc (casCnt ccCtrlTx) s3 else s3
        let s5 := releaseCopy y (afterSent x y ts s4)
        let s6 := samplePkt x (sampleOf y ((ts : Int) - x.stamp)) (if inv then 9 else 0) s5
        let s7 := setGat p { gatOf s6 p with wire := none } s6
        reapPkt y.pkt (endCopy c (if inv then s7 else modPkt y.pkt (fun z => { z with sent := true }) s7))
def execEgressTransmit (c : Nat) (bad : Bool) (s : State) : Out3 := .next (transmit c bad s)

end Sys2Proof.Machine
end

