-- ==== Sys2Proof/Machine/Origin.lean ====
section
/-! DEFINITION. Frames that the engine itself sends (R286, R342, R374): the MP's and the host's frames, allocated, queued
and sent like any other, from requester 34 or 35 (R227, R231). -/

namespace Sys2Proof.Machine
open Sys2Proof

/-- Where the EtherType after the VLAN tags of a frame lies. -/
def afterTags (bs : List Byte) : Nat → Nat → Nat
  | 0, o => o
  | n + 1, o => if isVlan (beAt bs o 2) then afterTags bs n (o + 4) else o

/-- A frame without its FCS, padded to the shortest that a MAC sends. -/
def padFrame (bs : List Byte) : List Byte := bs ++ List.replicate (60 - bs.length) 0

/-- A frame of the engine's own as a packet that has been admitted: no ingress port, its FCS good; it moves no slot.
Its OFFS hold what the rewrite engine needs: the network header's place, and the Gnoyr tag's where it has one. -/
def originPkt (s : State) (bytes : List Byte) (tc tenant : Nat) (ctrl : Bool) : Pkt :=
  let bs := padFrame bytes
  let o := afterTags bs 4 12
  let tagged := !ctrl && decide (beAt bs o 2 = casEtype s)
  let offs0 := startCtx.offs.set 2 (if tagged then o + 16 else o)
  let offs := if tagged then offs0.set 4 o else offs0
  { newPkt s 256 bs.length bs with pip := 32, complete := true, fcs := some true, phase := .admitted, sent := true,
                                   stamp := netNs s, ctx := { startCtx with offs := offs },
                                   dec := { noDecision with tc := tc, ctrl := ctrl }, tenant := tenant }

/-- The copies of a frame that asked for an egress timestamp (R286). -/
def askStamps (k : Nat) (cookie : Option Nat) (s : State) : State :=
  match cookie with
  | none => s
  | some c => (copiesOf s k).foldl (fun t q => setCopy q.1 { q.2 with tsReq := some c } t) s

/-- FIO_CNT_PUB_REFUSED. -/
abbrev pubRefused : Nat := fioBase + 0x408

/-- A frame of the engine's own written on a die for its ports there: one buffer, which the queues' checks come before. -/
def frameOnDie (k d req : Nat) (mine : List Nat) (cookie : Option Nat) (pub : Bool) (s : State) : State :=
  match getPkt s k with
  | none => s
  | some x =>
    let q := placeAll x 0 mine s
    if q.1.isEmpty then q.2
    else
      let named := if 1 < q.1.length then [collectId] else []
      let b := bufferFor k d req (frameLen x) x (sortPlaces q.1) named (charge (plainMem d) actDma ((frameLen x + 63) / 64) q.2)
      if b.1.isSome then askStamps k cookie b.2 else if pub then raise srcFioPubRefused 0 0 0 (inc pubRefused b.2) else b.2

/-- A request granted (R240). -/
def memGrant (d : Nat) (r : MemReq) (s : State) : State :=
  match r with
  | .frame k req ports cookie pub => reapPkt k (frameOnDie k d req ports cookie pub s)
  | .sample ring lost ws => sampleWrite ring lost ws (charge (plainMem d) actDma 1 s)
  | .mirror k group trunc => reapPkt k (mirrorCopy k d group trunc s)

/-- The requests of an activity that wait, in their order, while slots are left (R27). -/
def memServe (d a : Nat) : List MemReq → State → State
  | [], s => s
  | r :: rest, s =>
    if hasSlot s (plainMem d) a then memServe d a rest (memGrant d r (setMemQueue d a rest s)) else waited (plainMem d) a s
def memPeriod (d : Nat) (s : State) : State :=
  let s1 := memServe d actDma (memQueue s d actDma) s
  memServe d actMirror (memQueue s1 d actMirror) s1

/-- A frame sent by requester `req` to ports: one buffer on each die that has some of them, as the die's DMA activity grants
its slots. -/
def sendFrom (req : Nat) (ports : List Nat) (bytes : List Byte) (tc tenant : Nat) (cookie : Option Nat) (ctrl pub : Bool)
    (s : State) : State :=
  let k := s.path.nextPkt
  let s0 := setPkt k (originPkt s bytes tc tenant ctrl) { s with path := { s.path with nextPkt := k + 1 } }
  reapPkt k ([0, 1].foldl (fun t d =>
    let mine := ports.filter (fun p => dieOf p == d)
    if mine.isEmpty then t
    else if memFree t d actDma then frameOnDie k d req mine cookie pub t
    else memWait d actDma (.frame k req mine cookie pub) t) s0)

/-- A frame that the MP or a host submits. -/
def execHostFrameTransmit (p tc tenant : Nat) (bytes : List Byte) (cookie : Option Nat) (host : Bool) (s : State) : Out3 :=
  let fits := portExists s p && decide (tc < 8) && decide (tenant < 4096) && decide (14 ≤ bytes.length) &&
    decide (bytes.length ≤ 16380)
  needs fits (if fits then sendFrom (if host then 35 else 34) [p] bytes tc tenant cookie false false s else s)

/-! ### The Primrose ring ports (R447) -/

/-- Counters of the Primrose plan (R469): relayed, not safety, duplicates discarded, MP copies dropped; frames that found
their FIFO full. -/
abbrev kPrimrose : Nat := 98
def bumpPri (pos : Nat) (s : State) : State := bump kPrimrose 0 pos 32 1 s

/-- Frames of a ring port's Primrose FIFO leave while its link is up. -/
def ringDrain (p : Nat) (s : State) : State :=
  if portUp s p then
    let l := tget [] s.start.ringTx p
    l.foldl (fun t b => emit (.frame p b true) (countTx p b false t))
      { s with start := { s.start with ringTx := tset [] s.start.ringTx p [] } }
  else s

/-- A frame handed to a ring port: its FIFO holds 32 frames and its buffer 64 KiB; frames above 1,522 bytes do not fit. -/
def ringSend (p : Nat) (bs : List Byte) (s : State) : State :=
  let l := tget [] s.start.ringTx p
  if 32 ≤ l.length ∨ 65536 < (l.map List.length).sum + bs.length ∨ 1518 < bs.length then bumpPri 4 s
  else ringDrain p { s with start := { s.start with ringTx := tset [] s.start.ringTx p (l ++ [bs]) } }

end Sys2Proof.Machine
end

