-- ==== Sys2Proof/Machine/UcodeCmd.lean ====
section
/-! DEFINITION. Patch images and the commands on microcode (R103 to R113, R316). -/

namespace Sys2Proof.Machine
open Sys2Proof

/-! ### The transfer buffer and images from the host (R411) -/

/-- Bytes of a mailbox's transfer buffer. -/
def xferBytes (s : State) (m n : Nat) : List Byte :=
  (bytesOf ((List.range ((n + 3) / 4)).map (fun i => tget 0 s.mbx.xfer (key m i)))).take n

/-- The image that a command names: SOURCE 0 the transfer buffer, SOURCE 1 host memory. -/
def imageFrom (f : Frame) (host : Bool) (n addr : Nat) (s : State) : List Byte × State :=
  if host then
    ((List.range n).map (fun i => Config.hostMem s.freeCtr (addr + i)), { s with freeCtr := s.freeCtr + 1 })
  else (xferBytes s (mbKey f) n, s)

/-! ### Images (R108, R109).  Engine 0 is parse, 1 rewrite -/

def imgN (b : List Byte) : Nat := beAt b 12 2
def imgM (b : List Byte) : Nat := beAt b 14 1
def imgK (b : List Byte) : Nat := beAt b 15 1
def imgSerial (b : List Byte) : Nat := if b.isEmpty then 0 else beAt b 16 4
def imgMatch (b : List Byte) (i : Nat) : Nat := beAt b (32 + 4 * i) 4
def imgProf (b : List Byte) (i : Nat) : Nat := beAt b (32 + 4 * imgM b + 8 * i) 4
def imgProfEntry (b : List Byte) (i : Nat) : Nat := beAt b (36 + 4 * imgM b + 8 * i) 4
def wordBytesOf (e : Nat) : Nat := 4 * wordWords e
def imgWord (e : Nat) (b : List Byte) (i : Nat) : Nat :=
  beAt b (32 + 4 * imgM b + 8 * imgK b + wordBytesOf e * i) (wordBytesOf e)
def imgSize (e : Nat) (b : List Byte) : Nat := 128 + 4 * imgM b + 8 * imgK b + wordBytesOf e * imgN b

def romId (s : State) (e : Nat) : Nat := (rd s (engReg e 0 0)).toNat

/-- Bits of a microword that are reserved. -/
def wordReserved (e w : Nat) : Bool := if e = 0 then w % 2 ^ 45 != 0 else w % 2 ^ 74 != 0

/-- An image that R109 admits. -/
def imageGood (s : State) (e : Nat) (b : List Byte) : Bool :=
  let n := imgN b
  let ms := (List.range (imgM b)).map (imgMatch b)
  let on := ms.filter (fun x => nbit x 31)
  let ps := (List.range (imgK b)).map (imgProf b)
  decide (bytesAt b 0 4 = (if e = 0 then [0x50, 0x52, 0x53, 0x50] else [0x52, 0x57, 0x45, 0x50])) &&
  beAt b 4 2 == 1 && beAt b 6 1 == e + 1 && decide (beAt b 7 1 ≤ 1) && beAt b 8 4 == romId s e && beAt b 20 12 == 0 &&
  decide (n ≤ patchWords e) && decide (imgM b ≤ matchEnts e) && decide (imgK b ≤ 16) && decide (b.length = imgSize e b) &&
  !(imgM b == 0 && n != 0) &&
  ms.all (fun x => decide (x / 2 ^ 16 % 2 ^ 9 < n) && !romGuarded e (x % 2 ^ 13) && x / 2 ^ 13 % 8 == 0 && x / 2 ^ 25 % 64 == 0) &&
  decide ((on.map (· % 2 ^ 13)).Nodup) &&
  ps.all (fun x => decide (0x10 ≤ x / 2 ^ 24) && decide (x / 2 ^ 24 ≤ 0x1F) && decide (x / 2 ^ 16 % 256 ≤ 15) &&
    decide (x / 2 ^ 8 % 256 ≤ 15) && x % 256 == 0) &&
  (List.range n).all (fun i => !wordReserved e (imgWord e b i)) &&
  sigOk s (beAt b 7 1) (b.take (b.length - 96)) (b.drop (b.length - 96))

/-! ### Places in patch memory -/

def noSet : PatchSet := ⟨[], 0⟩
def activeSet (s : State) (e : Nat) : PatchSet := tget noSet s.ucode.sets (e + 1)
def loadedSet (s : State) (e : Nat) : PatchSet := tget noSet s.ucode.sets (e + 3)
def putSet (k : Nat) (x : PatchSet) (s : State) : State :=
  { s with ucode := { s.ucode with sets := tset noSet s.ucode.sets k x } }
def setWords (x : PatchSet) : Nat := if x.image.isEmpty then 0 else imgN x.image

/-- The lowest base at which n words lie outside the active set's. -/
def patchGap (s : State) (e n : Nat) : Option Nat :=
  let a := activeSet s e
  let c := setWords a
  if c = 0 ∨ n ≤ a.base then some 0 else if a.base + c + n ≤ patchWords e then some (a.base + c) else none

/-- An address in patch memory moved by the base. -/
def relocate (e base a : Nat) : Nat :=
  if romSize e ≤ a ∧ a < romSize e + patchWords e then a + base else a

/-- A microword whose TARGET is moved. -/
def relocateWord (e base w : Nat) : Nat :=
  let lo := if e = 0 then 238 else 175
  let n := if e = 0 then 14 else 13
  let t := mf w lo n
  w - t * 2 ^ lo + relocate e base t % 2 ^ n * 2 ^ lo

/-- The entry of an added profile of a set, as its register holds it. -/
def profEntry (e base id : Nat) (b : List Byte) : Word :=
  match (List.range (imgK b)).find? (fun i => imgProf b i / 2 ^ 24 == id) with
  | some i =>
    let p := imgProf b i
    wd (relocate e base (imgProfEntry b i % 2 ^ 14) + (p / 2 ^ 8 % 16) * 2 ^ 16 + (p / 2 ^ 16 % 16) * 2 ^ 20 + 2 ^ 31)
  | none => 0
def matchEntry (base i : Nat) (b : List Byte) : Word :=
  if i < imgM b then
    let x := imgMatch b i
    wd (x % 2 ^ 13 + (x / 2 ^ 16 % 2 ^ 9 + base) % 2 ^ 9 * 2 ^ 16 + x / 2 ^ 31 * 2 ^ 31)
  else 0

/-- A set written into one engine's inactive bank and patch memory, over any copy of a ROM word. -/
def writeEngine (e pip base : Nat) (b : List Byte) (s0 : State) : State :=
  let s := { s0 with ucode := { s0.ucode with covers := s0.ucode.covers.filter (fun c => !(c.e == e && c.pip == physPip s0 pip)) } }
  let bank := 1 - activeBank s e pip
  let s1 := (List.range (matchEnts e)).foldl (fun t i => wr (engMatch e pip (matchEnts e * bank + i)) (matchEntry base i b) t) s
  let s2 := (List.range 16).foldl (fun t i => wr (engProf e pip (16 * bank + i)) (profEntry e base (0x10 + i) b) t) s1
  (List.range (imgN b)).foldl (fun t i => setPatchWord e pip (base + i) (relocateWord e base (imgWord e b i)) t) s2

/-- All 34 engines of a kind, in pipeline order, S0 and S1 last. -/
def allEngines (act : Nat → State → State) (s : State) : State := (List.range 34).foldl (fun t n => act n t) s
def writeSet (e : Nat) (x : PatchSet) (s : State) : State := allEngines (fun n t => writeEngine e n x.base x.image t) s
def enginesBusy (s : State) (e : Nat) : Bool := (List.range 34).any (fun n => rdBit s (engBank e n) 2)

/-- What a set measures: the image as signed; nothing for ROM code only. -/
def setDigest (x : PatchSet) : Nat := if x.image.isEmpty then 0 else digest (x.image.take (x.image.length - 96))

/-- Every engine of a kind switches to the set in its inactive bank, which then holds the set that was active. -/
def switchSet (e : Nat) (s : State) : State :=
  let x := loadedSet s e
  let s1 := putSet (e + 3) (activeSet s e) (putSet (e + 1) x (allEngines (bankSwitch e) s))
  measure (7 + e) 0 (measure (3 + e) (setDigest x) s1)

/-- A set written into the inactive banks. -/
def loadSet (e : Nat) (x : PatchSet) (s : State) : State :=
  let s1 := putSet (e + 3) x (writeSet e x s)
  measure (7 + e) (setDigest x) s1

/-- ROM code only: an empty bank loaded and switched to. -/
def revertSet (e : Nat) (s : State) : State := switchSet e (loadSet e noSet s)

/-! ### Commands.  Payloads of 0x0A11, 0x0A12 and 0x0A13: word 0 is the kind of engine, 1 parse or 2 rewrite.  DESIGN CHOICE (log entry 35) -/

/-- The answer to a load: the set's serial, its base, the index of its measurement. -/
def loaded (b : List Byte) (base idx : Nat) (s : State) : CmdRes := ok [wd (imgSerial b), wd base, wd idx] s

/-- A load that waits in its gap (R106): while an engine is BUSY the command waits where it lies; then the set is written
from word 0 and switched to. -/
def gapLoad (e : Nat) (q : GapLoad) (s : State) : CmdRes :=
  if enginesBusy s e then ⟨stWait, 0, [], s⟩
  else
    let t := { s with ucode := { s.ucode with gaps := s.ucode.gaps.filter (· ≠ q) } }
    loaded q.image 0 (3 + e) (switchSet e (loadSet e ⟨q.image, 0⟩ t))

def bodyUcodePatchLoad : Body := fun _ f s =>
  lenIs f 16 s <|
  let host := bit (pw f 0) 0
  let kind := pf f 0 1 2
  let n := (pw f 1).toNat
  inRange ((kind == 1 || kind == 2) && decide (pf f 0 3 29 = 0) && !(host && decide (1 < f.mb))) 0 s <|
  inRange (decide (n ≤ 65536)) 1 s <|
  let e := kind - 1
  match s.ucode.gaps.find? (fun q => q.e == e && q.mb == mbKey f) with
  | some q => gapLoad e q s
  | none =>
    let r := imageFrom f host n (w64 (pw f 2) (pw f 3)) s
    let b := r.1
    let t := r.2
    if !imageGood t e b then err eAuth 0 (raise srcPatchAuth 0 0 0 t)
    else refuse (enginesBusy s e) eBusy s <|
      match patchGap t e (imgN b) with
      | some base =>
        let u := loadSet e ⟨b, base⟩ t
        if nbit f.opts 0 then loaded b base (3 + e) (switchSet e u) else loaded b base (7 + e) u
      | none =>
        if !nbit f.opts 1 then err eNoRoom 0 s
        else
          let q : GapLoad := ⟨e, mbKey f, b⟩
          let u := revertSet e t
          gapLoad e q { u with ucode := { u.ucode with gaps := u.ucode.gaps ++ [q] } }

def withEngine (f : Frame) (s : State) (k : Nat → CmdRes) : CmdRes :=
  lenIs f 4 s <| inRange ((pw f 0).toNat == 1 || (pw f 0).toNat == 2) 0 s <| k ((pw f 0).toNat - 1)

def bodyUcodePatchSwitch : Body := fun _ f s =>
  withEngine f s fun e => refuse (enginesBusy s e) eBusy s <| ok [] (switchSet e s)

def bodyUcodePatchRevert : Body := fun _ f s =>
  withEngine f s fun e => refuse (enginesBusy s e) eBusy s <| ok [] (revertSet e s)

/-- The response: ROM identifier, active serial, [15:0] free patch words and [23:16] added profiles, twelve words of the
active set's measurement, then a word for each added profile, [31:24] ID and [7:4], [3:0] its version. -/
def bodyUcodeQuery : Body := fun _ f s =>
  withEngine f s fun e =>
    let x := activeSet s e
    let k := if x.image.isEmpty then 0 else imgK x.image
    ok ([wd (romId s e), wd (imgSerial x.image), wd (patchWords e - setWords x + k * 2 ^ 16)] ++ digestWords (digestOf s (3 + e)) ++
      (List.range k).map (fun i =>
        let p := imgProf x.image i
        wd (p / 2 ^ 24 * 2 ^ 24 + p / 2 ^ 16 % 16 * 16 + p / 2 ^ 8 % 16))) s

/-- A port's profile: held for a ring port until the hand-over (R416). -/
def portProfile (e : Nat) (f : Frame) (s : State) : CmdRes :=
  lenIs f 8 s <| inRange (decide ((pw f 0).toNat < 256) && portExists s (pw f 0).toNat) 0 s <|
  inRange (profOk e (pw f 1).toNat) 1 s <|
  let p := (pw f 0).toNat
  ok [] (portCfgWrite p (engPortProf e p) 0xFF (pw f 1) s)
def bodyPortParseProfile : Body := fun _ f s => portProfile 0 f s
def bodyRwePortProfile : Body := fun _ f s => portProfile 1 f s

end Sys2Proof.Machine
end

