-- ==== Sys2Proof/Machine/Cascade.lean ====
section
/-! DEFINITION. The cascade unit (R359 to R384): roles, control frames, joins, sessions, and the commands that act on
them; the owner certificate, whose change ends every session (R533). -/

namespace Sys2Proof.Machine
open Sys2Proof

abbrev kHello : Nat := 1
abbrev kCert : Nat := 2
abbrev kFinish : Nat := 3
abbrev kCommand : Nat := 4
abbrev kResponse : Nat := 5
abbrev kKeepalive : Nat := 6
abbrev kLeave : Nat := 7
abbrev everyone : Nat := 0xFFFFF
abbrev sbMgrLost : Nat := 7
abbrev sbAuthFail : Nat := 8
abbrev casTiming : Nat := casBase + 0x1C

def isWorker (s : State) : Bool := casRole s == 1
def isManager (s : State) : Bool := casRole s == 2
def ownDevice (s : State) : Nat := rdF s casDevId 0 20

/-! ### Sessions -/

def sessAt (s : State) (k : Nat) : Option CasSess := tget none s.cas.sess k
def putSess (k : Nat) (x : Option CasSess) (s : State) : State :=
  { s with cas := { s.cas with sess := tset none s.cas.sess k x } }
def upSess (s : State) (k : Nat) : Option CasSess :=
  match sessAt s k with
  | some x => if x.up then some x else none
  | none => none

/-- The session of a worker's partner, A or B: the one that replaces it once that is up (R381). -/
def partnerKey (s : State) (p : Nat) : Nat := if (upSess s (p + 2)).isSome then p + 2 else p
def partnerSess (s : State) (p : Nat) : Option CasSess := upSess s (partnerKey s p)

/-- The key of the session with a device that some property holds of. -/
def sessWith (s : State) (p : CasSess → Bool) : Option Nat :=
  s.cas.sess.findSome? (fun q => match q.2 with
    | some x => if p x then some q.1 else none
    | none => none)

/-- The active session is the one of lower PRIORITY, then of lower device ID (R377). -/
def wins (x y : CasSess) : Bool := decide (x.prio < y.prio) || (x.prio == y.prio && decide (x.device < y.device))

/-- CAS_STAT shows a worker's sessions and the active one. -/
def showSess (s : State) : State :=
  if isWorker s then
    let act := match partnerSess s 0, partnerSess s 1 with
      | some x, some y => b2n (!wins x y)
      | none, some _ => 1
      | some _, none => 0
      | none, none => casActive s
    wrF casStat 4 3 (b2n (partnerSess s 0).isSome + 2 * b2n (partnerSess s 1).isSome + 4 * act) s
  else wrF casStat 4 3 0 s

/-! ### Control frames sent (R374 to R376) -/

/-- The source address of the engine's own frames. -/
def engineMac : List Byte := beBytes 6 Config.baseMac

/-- The ICV over a frame's authenticated parts, under a key. -/
def icvOf (key sess cnt : Nat) (da sa tag body : List Byte) : List Byte :=
  (Config.gmac key (beBytes 4 sess ++ beBytes 8 cnt ++ da ++ sa ++ tag ++ body) ++ List.replicate 16 0).take 16

/-- The requester number of the cascade unit (R224). -/
abbrev cascadeReq : Nat := 37

/-- A control frame (R375), from the cascade unit. -/
def sendCtrl (ports : List Nat) (dest sess cnt kind frag : Nat) (key : Option Nat) (payload : List Byte) (s : State) : State :=
  let da := beBytes 2 (rdF s (casBase + 0x18) 0 16) ++ beBytes 4 (rd s (casBase + 0x14)).toNat
  let body := beBytes 4 dest ++ beBytes 4 sess ++ beBytes 8 cnt ++ beBytes 1 kind ++ beBytes 1 frag ++
    beBytes 2 payload.length ++ payload
  let icv := match key with
    | some k => icvOf k sess cnt da engineMac (beBytes 3 (ownDevice s) ++ [0]) body
    | none => []
  sendFrom cascadeReq ports (da ++ engineMac ++ beBytes 2 (casEtype s) ++ body ++ icv) (rdF s casCfg 5 3) 0 none true false s

/-- The fragments of a message. -/
def fragments (bs : List Byte) : List (List Byte) :=
  (List.range (max 1 ((bs.length + 1407) / 1408))).map (fun i => (bs.drop (1408 * i)).take 1408)
def fragByte (n i : Nat) : Nat := i % 8 + (if i + 1 = n then 128 else 0)

/-- A join message; its COUNTER is 0.  DESIGN CHOICE (log entry 50) -/
def sendJoin (ports : List Nat) (dest sess kind : Nat) (bs : List Byte) (s : State) : State :=
  let ps := fragments bs
  ps.zipIdx.foldl (fun t q => sendCtrl ports dest sess 0 kind (fragByte ps.length q.2) none q.1 t) s

/-- The key of one direction of a session: the worker's is the first (R378). -/
def dirKey (s : State) (x : CasSess) (sending : Bool) : Nat := Config.sessionKey x.talk (sending == isWorker s)
def sessPorts (s : State) (x : CasSess) : List Nat := if isWorker s then relayPorts s 256 else [x.port]

/-- An authenticated message on a session; each fragment takes a COUNTER. -/
def sendOn (k kind : Nat) (bs : List Byte) (s : State) : State :=
  match sessAt s k with
  | none => s
  | some x =>
    let ps := fragments bs
    let s1 := ps.zipIdx.foldl (fun t q => sendCtrl (sessPorts s x) x.device x.number (x.tx + 1 + q.2) kind
      (fragByte ps.length q.2) (some (dirKey s x true)) q.1 t) s
    putSess k (some { x with tx := x.tx + ps.length, lastTx := s.tim.cnt }) s1

/-- Responses of MB2 go to the session of their partner; those of a lost session are discarded (R377). -/
def sendResponses (s : State) : State :=
  s.cas.resp.foldl (fun t q => if (partnerSess t q.1).isSome then sendOn (partnerKey t q.1) kResponse (bytesOf q.2) t else t)
    { s with cas := { s.cas with resp := [] } }

/-! ### The end of a session -/

/-- A forwarded command is answered: STATUS, DETAIL and payload are the worker's. -/
def answerForward (w : CasFwd) (status detail : Nat) (ws : List Word) (s : State) : State :=
  let f : Frame := ⟨w.mb, 0, false, 0, w.tag, 0, 0, 0, []⟩
  if 5 ≤ w.mb then s
  else if mbRing s w.mb then respondRing 0x0C08 f ⟨status, detail, ws, s⟩ else respondRegister 0x0C08 f ⟨status, detail, ws, s⟩

/-- A worker's partner has no session left: its command session and waiting commands end (R377).  A session that has
replaced another takes its place (R381). -/
def settle (p : Nat) (s : State) : State :=
  match upSess s (p + 2) with
  | some x => if (sessAt s p).isNone then putSess p (some x) (putSess (p + 2) none s) else s
  | none => if (upSess s p).isSome then s else
      let waits := s.mbx.waits.filter (fun w => w.1 != 2 + 8 * p)
      { s with mbx := { s.mbx with sess := tset ⟨0, 0, 0⟩ s.mbx.sess (2 + 8 * p) ⟨0, 0, 0⟩, mb2 := tset [] s.mbx.mb2 p [], waits := waits } }

/-- A session ends at this side: forwarded commands that wait on it are answered with E_STATE. -/
def closeSession (k : Nat) (s : State) : State :=
  match sessAt s k with
  | none => s
  | some x =>
    let s1 := putSess k none { s with cas := { s.cas with
      frags := s.cas.frags.filter (fun q => !(q.sess == x.number && q.device == x.device)),
      fwd := s.cas.fwd.filter (fun w => w.sess != k) } }
    let s2 := (s.cas.fwd.filter (fun w => w.sess == k)).foldl (fun t w => answerForward w eState 0 [] t) s1
    showSess (if isWorker s then settle (k % 2) s2 else s2)

/-- LEAVE is sent, and the session ended. -/
def leaveSession (k : Nat) (s : State) : State := closeSession k (if (upSess s k).isSome then sendOn k kLeave [] s else s)
def leaveAll (s : State) : State := s.cas.sess.foldl (fun t q => leaveSession q.1 t) s

/-- A change of role (R359). -/
def setRole (r : Nat) (s : State) : State :=
  if r = casRole s then wrF casCfg 0 2 r s
  else showSess (wrF casStat 0 2 r (wrF casCfg 0 2 r { leaveAll s with
    cas := { (leaveAll s).cas with lost := [], refused := [], hello := [] } }))

/-- A write of CAS_CFG: a ROLE or DOWN_MISS of 3 is dropped. -/
def casCfgWrite (v : Word) (s : State) : State :=
  let down := if fld v 3 2 = 3 then rdF s casCfg 3 2 else fld v 3 2
  let s1 := if fld v 0 2 = 3 then s else setRole (fld v 0 2) s
  wr casCfg (setFld (setFld (v &&& wd 0xFFFF03FF) 3 2 down) 0 2 (rdF s1 casCfg 0 2)) s1

/-! ### Reception -/

/-- A control frame taken: sender, session, COUNTER, kind, fragment index, LAST, payload, and what R375 authenticates. -/
structure Ctl where
  device : Nat
  sess : Nat
  cnt : Nat
  kind : Nat
  idx : Nat
  last : Bool
  port : Nat
  payload : List Byte
  da : List Byte
  sa : List Byte
  tag : List Byte
  body : List Byte
  icv : List Byte

/-- Where the body begins in a tagged frame: after the VLAN tags and a redundancy tag. -/
def ctlBodyAt (bs : List Byte) : Nat :=
  let o := afterTags bs 4 28
  if beAt bs o 2 = 0x892F ∨ beAt bs o 2 = 0xF1C1 then o + 6 else o

/-- The fields of a frame; none when it is shorter than its LENGTH says. -/
def readCtl (m : MpFrame) : Option Ctl :=
  let bs := m.bytes
  let o := ctlBodyAt bs
  let n := beAt bs (o + 20) 2
  let k := beAt bs (o + 18) 1
  if 1408 < n ∨ bs.length < o + 22 + n + (if 4 ≤ k then 16 else 0) then none
  else some { device := beAt bs 15 3 % 2 ^ 20, sess := beAt bs (o + 6) 4, cnt := beAt bs (o + 10) 8, kind := k,
              idx := beAt bs (o + 19) 1 % 8, last := nbit (beAt bs (o + 19) 1) 7, port := m.port,
              payload := bytesAt bs (o + 22) n, da := bytesAt bs 0 6, sa := bytesAt bs 6 6, tag := bytesAt bs 15 4,
              body := bytesAt bs (o + 2) (20 + n), icv := bytesAt bs (o + 22 + n) 16 }

/-- The whole message once its last fragment has come; the sets being reassembled (R374). -/
def assemble (c : Ctl) (s : State) : Option (List Byte) × State :=
  let first := if 4 ≤ c.kind then c.cnt - c.idx else 0
  let mine := fun (q : CasFrag) => q.device == c.device && q.sess == c.sess && q.kind == c.kind && q.first == first
  let old : CasFrag := (s.cas.frags.find? mine).getD ⟨c.device, c.sess, c.kind, first, s.tim.cnt, [], 0⟩
  let x : CasFrag := { old with pieces := tset [] old.pieces c.idx c.payload, total := if c.last then c.idx + 1 else old.total }
  let rest := s.cas.frags.filter (fun q => !mine q)
  let there := fun (i : Nat) => (i == c.idx) || x.pieces.any (fun (q : Nat × List Byte) => q.1 == i)
  if x.total ≠ 0 ∧ (List.range x.total).all there = true then
    (some ((List.range x.total).flatMap (fun i => tget ([] : List Byte) x.pieces i)), { s with cas := { s.cas with frags := rest } })
  else (none, { s with cas := { s.cas with frags := rest ++ [x] } })

/-- A set that is incomplete 10 ms after its first fragment is discarded. -/
def fragTimeout (i : Nat) (s : State) : State :=
  match s.cas.frags[i]? with
  | some q => if s.tim.cnt < q.time + 10 ^ 7 then s else { s with cas := { s.cas with frags := s.cas.frags.eraseIdx i } }
  | none => s
def execFragmentTimeout (i : Nat) (s : State) : Out3 := .next (fragTimeout i s)

/-- A frame that its key does not verify (R375). -/
def authFails (sess : Nat) (s : State) : State :=
  let s1 := inc (casCnt ccAuthFail) s
  if rdBit s1 casStat sbAuthFail then s1 else raise srcCasAuthFail sess 0 0 (wrBit casStat sbAuthFail true s1)

/-- The window of 64 counters (R376): none for a counter that is refused. -/
def acceptCnt (x : CasSess) (c : Nat) : Option CasSess :=
  if x.rxTop < c then
    some { x with rxTop := c, rxMask := if c - x.rxTop ≤ 64 then ((2 * x.rxMask + 1) * 2 ^ (c - x.rxTop - 1)) % 2 ^ 64 else 0 }
  else if c < x.rxTop ∧ x.rxTop - c ≤ 64 ∧ !nbit x.rxMask (x.rxTop - 1 - c) then
    some { x with rxMask := setNbit x.rxMask (x.rxTop - 1 - c) true }
  else none

/-! ### Joining (R378, R379, R533) -/

/-- The chain and owner certificate of a join message: a length, the chain, the certificate. -/
def chainPart (s : State) : List Byte := beBytes 2 Config.deviceChain.length ++ Config.deviceChain ++ s.sec.owner
def chainAccepted (s : State) (bs : List Byte) : Bool :=
  let n := beAt bs 0 2
  Config.chainOk ((bs.drop 2).take n) (if timValid s then some (netSec s) else none) && (bs.drop (2 + n) == s.sec.owner)

/-- The versions of JOIN_HELLO and of HELLO (R396). -/
abbrev verLow : Nat := 0x0100
abbrev verHigh : Nat := 0x0302

/-- The cascade acts only while firmware runs, after Primrose. -/
def casRuns (s : State) : Bool := fwUp s && fwStage s != 0

/-- A worker sends JOIN_HELLO: a nonce, tag versions, command-set versions, the chain. -/
def sendHello (s : State) : State :=
  let r := freeBytes 48 s
  let bs := r.1 ++ [6] ++ beBytes 2 verLow ++ beBytes 2 verHigh ++ chainPart s
  let half := s.cas.sess.filter (fun q => match q.2 with | some x => x.up | none => false)
  sendJoin (relayPorts s 256) everyone 0 kHello bs { r.2 with cas := { r.2.cas with hello := bs, sess := half, helloNext := s.tim.cnt + 10 ^ 9 } }

def execJoinHelloTimer (s : State) : Out3 :=
  .next (if casRuns s && isWorker s && s.cas.join && decide (s.cas.helloNext ≤ s.tim.cnt) && ownDevice s != 0 && (relayPorts s 256).any (portUp s) &&
      !((partnerSess s 0).isSome && (partnerSess s 1).isSome) then sendHello s else s)

/-- A port's TAG_VER towards a partner (R379). -/
def facing (p v : Nat) (s : State) : State := if p < 256 then wrF (casPortCfg p) 1 2 v s else s

/-- A manager offers a session: SESSION, the session that it replaces, a nonce, the tag version, PRIORITY, its ephemeral
key, its signature, its chain. -/
def sendCert (dev old : Nat) (hello : List Byte) (ver port : Nat) (s : State) : State :=
  let a := freeBytes 48 s
  let b := freeBytes 193 a.2
  let n := s.cas.nextSess
  let bs := beBytes 4 n ++ beBytes 4 old ++ a.1 ++ beBytes 1 ver ++ beBytes 1 s.cas.prio ++ b.1 ++ chainPart s
  let x : CasSess := ⟨n, dev, s.cas.prio, ver, false, 0, 0, 0, s.tim.cnt, s.tim.cnt, s.tim.cnt, port, [hello, bs], old, 0, 0⟩
  sendJoin [port] dev n kCert bs (putSess n (some x) { b.2 with cas := { b.2.cas with nextSess := n + 1 } })

/-- Why a manager refuses a worker: 1 its chain, 2 its device ID, 3 the sessions, 4 the allow list. -/
def joinRefusal (dev : Nat) (hello : List Byte) (s : State) : Option Nat :=
  if !chainAccepted s (hello.drop 53) then some 1
  else if dev = 0 ∨ dev = ownDevice s ∨ (sessWith s (fun x => x.up && x.device == dev)).isSome then some 2
  else if 256 ≤ (s.cas.sess.filter (fun q => (upSess s q.1).isSome)).length then some 3
  else if !s.cas.allow.isEmpty && !s.cas.allow.contains dev then some 4
  else none

def takeHello (c : Ctl) (bs : List Byte) (s : State) : State :=
  match joinRefusal c.device bs s with
  | some r => raise srcCasJoinRefused 0 0 0
      { s with cas := { s.cas with refused := (s.cas.refused ++ [(c.device, r)]).drop (s.cas.refused.length - 63) } }
  | none =>
    let both := (bs.getD 48 0).toNat
    let s1 := match sessWith s (fun x => !x.up && x.device == c.device) with
      | some k => putSess k none s
      | none => s
    if nbit both 2 then sendCert c.device 0 bs 2 c.port s1 else if nbit both 1 then sendCert c.device 0 bs 1 c.port s1 else s

/-- Where a worker keeps the session that a JOIN_CERT offers: none when it is ignored (R379), beside the old session
when it replaces one (R381). -/
def certPlace (dev old : Nat) (s : State) : Option Nat :=
  match sessWith s (fun x => x.up && x.device == dev) with
  | some k => if old ≠ 0 ∧ (upSess s k).map (·.number) = some old then some (k % 2 + 2) else none
  | none =>
    [0, 1].find? (fun p => match sessAt s p with
      | none => true
      | some x => !x.up && x.device == dev)

def takeCert (c : Ctl) (bs : List Byte) (s : State) : State :=
  match if bs.length < 251 then none else certPlace c.device (beAt bs 4 4) s with
  | none => inc (casCnt ccBadTag) s
  | some k =>
    if chainAccepted s (bs.drop 251) && Config.joinOk [s.cas.hello, bs] then
      let r := freeBytes 193 s
      let x : CasSess := ⟨c.sess, c.device, beAt bs 57 1, beAt bs 56 1, false, 0, 0, 0, s.tim.cnt, s.tim.cnt, s.tim.cnt,
        c.port, [s.cas.hello, bs, r.1], beAt bs 4 4, 0, 0⟩
      sendJoin (relayPorts s 256) c.device c.sess kFinish r.1 (putSess k (some x) r.2)
    else s

/-- The manager's HELLO, its first authenticated frame. -/
def helloWords : List Word :=
  frameWords 0x0000 ⟨2, 0, false, 16, 0, 0, 0, 0, [wd (verLow + verHigh * 2 ^ 16), 0, 0, 0]⟩

def takeFinish (c : Ctl) (bs : List Byte) (s : State) : State :=
  match sessAt s c.sess with
  | none => s
  | some x =>
    if x.up ∨ x.device ≠ c.device then s
    else if !Config.joinOk (x.talk ++ [bs]) then putSess c.sess none s
    else
      let y := { x with up := true, talk := x.talk ++ [bs], since := s.tim.cnt, lastRx := s.tim.cnt, port := c.port }
      let s1 := sendOn c.sess kCommand (bytesOf helloWords) (facing c.port x.tagVer (putSess c.sess (some y) s))
      let s2 := { s1 with cas := { s1.cas with fwd := s1.cas.fwd ++ [⟨c.sess, 5, 0⟩] } }
      if x.old = 0 then s2 else leaveSession x.old s2

/-! ### Authenticated frames -/

/-- A worker's response to a forwarded command, or to the manager's HELLO. -/
def takeResponse (k : Nat) (ws : List Word) (s : State) : State :=
  match s.cas.fwd.find? (fun w => w.sess == k) with
  | none => s
  | some w =>
    let s1 := { s with cas := { s.cas with fwd := s.cas.fwd.erase w } }
    let n := fld (ws.getD 0 0) 16 12 / 4
    let status := fld (ws.getD 1 0) 16 8
    let pay := (ws.drop 4).take n
    if 5 ≤ w.mb then
      match sessAt s1 k with
      | some x => if status = stOk then
          putSess k (some { x with mbSess := (pay.getD 2 0).toNat, agreed := fld (pay.getD 0 0) 0 16 }) s1 else s1
      | none => s1
    else answerForward w status (fld (ws.getD 1 0) 24 8) pay s1

/-- A message of an authenticated session; `run` executes a command that MB2 receives. -/
def takeMessage (run : Nat → List Word → State → State) (k : Nat) (c : Ctl) (bs : List Byte) (s : State) : State :=
  if c.kind = kCommand then (if isWorker s then run (k % 2) (word32 bs) s else s)
  else if c.kind = kResponse then takeResponse k (word32 bs) s
  else if c.kind = kLeave then closeSession k s
  else s

/-- The first authenticated frame brings a worker's session up. -/
def bringUp (k : Nat) (s : State) : State :=
  match sessAt s k with
  | some x => if x.up then s else
      facing x.port x.tagVer (showSess (putSess k (some { x with up := true, since := s.tim.cnt }) s))
  | none => s

def takeAuth (run : Nat → List Word → State → State) (c : Ctl) (s : State) : State :=
  match sessWith s (fun x => x.number == c.sess && x.device == c.device && (x.up || isWorker s)) with
  | none => authFails c.sess s
  | some k =>
    match sessAt s k with
    | none => s
    | some x =>
      if icvOf (dirKey s x false) c.sess c.cnt c.da c.sa c.tag c.body ≠ c.icv then authFails c.sess s
      else match acceptCnt x c.cnt with
        | none => raise srcCasReplay 0 0 0 (inc (casCnt ccReplay) s)
        | some y =>
          let q := assemble c (bringUp k (putSess k (some { y with lastRx := s.tim.cnt }) s))
          match q.1 with
          | some bs => takeMessage run k c bs q.2
          | none => q.2

def takeJoin (c : Ctl) (s : State) : State :=
  let q := assemble c s
  match q.1 with
  | none => q.2
  | some bs =>
    if c.kind = kHello then takeHello c bs q.2 else if c.kind = kCert then takeCert c bs q.2 else takeFinish c bs q.2

/-- The cascade unit takes the oldest control frame that the MP was given, and releases its buffer. -/
def takeControl (run : Nat → List Word → State → State) (s : State) : State :=
  match s.path.mpRx.find? (·.ctrl) with
  | none => s
  | some m =>
    let s1 := (release m.die 34 290 m.ptr { s with path := { s.path with mpRx := s.path.mpRx.erase m } }).2
    match readCtl m with
    | none => inc (casCnt ccBadTag) s1
    | some c => if 4 ≤ c.kind then takeAuth run c s1 else takeJoin c s1

/-! ### Timers (R380, R381) -/

/-- CAS_TIMING.KEEPALIVE in ns, and a session on which nothing has been sent for so long. -/
def keepaliveNs (s : State) : Nat := rdF s casTiming 0 16 * 10 ^ 6
def keepalive (k : Nat) (s : State) : State :=
  match upSess s k with
  | some x => if !casRuns s ∨ s.tim.cnt < x.lastTx + keepaliveNs s then s else sendOn k kKeepalive [] s
  | none => s
def execKeepaliveTimer (k : Nat) (s : State) : Out3 := .next (keepalive k s)

/-- A session lost: its installed entries stay. -/
def loseSession (k : Nat) (s : State) : State :=
  match upSess s k with
  | none => s
  | some x =>
    if isWorker s then raise srcCasMgrLost 0 0 0 (wrBit casStat sbMgrLost true (closeSession k s))
    else
      let t := closeSession k s
      { t with cas := { t.cas with lost := (t.cas.lost ++ [x.device]).drop (t.cas.lost.length - 255) } }

/-- No authenticated frame has come for LOSS keepalive intervals; a LOSS of 0 loses no session. -/
def sessionTimeout (k : Nat) (s : State) : State :=
  match upSess s k with
  | some x => if rdF s casTiming 16 4 = 0 ∨ s.tim.cnt < x.lastRx + rdF s casTiming 16 4 * keepaliveNs s then s else loseSession k s
  | none => s
def execSessionLossTimeout (k : Nat) (s : State) : Out3 := .next (sessionTimeout k s)

def execSessionRekeyTimer (k : Nat) (s : State) : Out3 :=
  .next (match upSess s k with
    | some x => if casRuns s && isManager s then sendCert x.device x.number (x.talk.headD []) x.tagVer x.port s else s
    | none => s)

/-! ### Commands (R383) -/

def bodyCasRoleSet : Body := fun _ f s =>
  lenIs f 4 s <| inRange (decide ((pw f 0).toNat < 3)) 0 s <| ok [] (setRole (pw f 0).toNat s)

def bodyCasDeviceId : Body := fun _ f s =>
  lenIs f 4 s <| inRange (decide ((pw f 0).toNat < everyone)) 0 s <|
  refuse (sessWith s (·.up)).isSome eBusy s <| ok [] (wr casDevId (pw f 0) s)

/-- A port's CASCADE, TAG_VER and profiles (R361). -/
def cascadeSet (p : Nat) (v : Word) (s : State) : State :=
  let s1 := portCfgWrite p (casPortCfg p) 7 v s
  if bit v 0 then portCfgWrite p (engPortProf 1 p) 0xFF 2 (portCfgWrite p (engPortProf 0 p) 0xFF 2 s1)
  else if rdBit s (casPortCfg p) 0 then portCfgWrite p (engPortProf 1 p) 0xFF 1 (portCfgWrite p (engPortProf 0 p) 0xFF 1 s1)
  else s1
def bodyCasPortCfg : Body := fun _ f s =>
  lenIs f 8 s <| inRange (decide ((pw f 0).toNat < 256) && portExists s (pw f 0).toNat) 0 s <|
  inRange (decide (pf f 1 3 29 = 0) && decide (1 ≤ pf f 1 1 2) && decide (pf f 1 1 2 ≤ 2)) 1 s <|
  ok [] (cascadeSet (pw f 0).toNat (pw f 1) s)

def bodyCasBudgetSet : Body := fun _ f s =>
  lenIs f 8 s <| ok [] (wr (casBase + 0x24) (pw f 1) (wr (casBase + 0x20) (pw f 0) s))

/-- Word 0 as CAS_CFG has it, its ROLE zero. -/
def bodyCasRelayCfg : Body := fun _ f s =>
  lenIs f 4 s <| inRange (decide (pf f 0 0 2 = 0) && decide (pf f 0 10 6 = 0) && decide (pf f 0 3 2 ≠ 3)) 0 s <|
  ok [] (wrM casCfg 0xFFFF03FC (pw f 0) s)

/-- Word 0: [0] join, [15:8] PRIORITY; then the allow list.  DESIGN CHOICE (log entry 27) -/
def bodyCasJoinCfg : Body := fun _ f s =>
  lenOk (decide (4 ≤ f.length)) s <| inRange (decide (pf f 0 1 7 = 0) && decide (pf f 0 16 16 = 0)) 0 s <|
  let l := (f.payload.drop 1).map (·.toNat)
  inRange (l.all (fun d => decide (1 ≤ d ∧ d < everyone))) 1 s <|
  refuse (casRole s == 0) eState s <|
  ok [] { s with cas := if isWorker s then { s.cas with join := bit (pw f 0) 0 }
                        else { s.cas with prio := pf f 0 8 8, allow := l } }

/-- Word 0: the partner's device ID. -/
def withPartner (f : Frame) (s : State) (k : Nat → CasSess → CmdRes) : CmdRes :=
  refuse (casRole s == 0) eState s <|
  match sessWith s (fun x => x.up && x.device == (pw f 0).toNat) with
  | some i => match sessAt s i with
    | some x => k i x
    | none => err eRange 0 s
  | none => err eRange 0 s

def bodyCasLeave : Body := fun _ f s => lenIs f 4 s <| withPartner f s fun k _ => ok [] (leaveSession k s)

/-- The response: [0] up, [1] active, [11:8] tag version, [23:16] PRIORITY; device; SESSION; the version agreed on MB2;
the COUNTER sent and the highest accepted, each low word first.  DESIGN CHOICE (log entry 27) -/
def bodyCasSessionRead : Body := fun _ f s => lenIs f 4 s <| withPartner f s fun k x =>
  let act := isManager s || k % 2 == casActive s
  let agreed := if isWorker s then (tget ⟨0, 0, 0⟩ s.mbx.sess (2 + 8 * (k % 2))).agreed else x.agreed
  ok [wd (1 + 2 * b2n act + 2 ^ 8 * x.tagVer + 2 ^ 16 * x.prio), wd x.device, wd x.number, wd agreed, loW x.tx, hiW x.tx,
    loW x.rxTop, hiW x.rxTop] s

/-- Word 0: the worker's device ID; then the command's words, whose SESSION firmware fills with the worker's.
DESIGN CHOICE (log entry 27) -/
def bodyCasForward : Body := fun _ f s =>
  let ws := f.payload.drop 1
  lenOk (decide (20 ≤ f.length) && decide (4 * ws.length = fld (ws.getD 0 0) 16 12 + 16)) s <|
  refuse (!isManager s) eState s <| withPartner f s fun k x =>
  let s1 := sendOn k kCommand (bytesOf (lset ws 2 (wd x.mbSess))) s
  ⟨stLater, 0, [], { s1 with cas := { s1.cas with fwd := s1.cas.fwd ++ [⟨k, f.mb, f.tag⟩] } }⟩

/-- The response: the numbers of sessions, lost sessions and refusals; their devices, a refusal's reason in [31:24]. -/
def bodyCasWorkerList : Body := fun _ f s =>
  lenIs f 0 s <| refuse (!isManager s) eState s <|
  let up := s.cas.sess.filterMap (fun q => match q.2 with | some x => if x.up then some x.device else none | none => none)
  ok ([wd up.length, wd s.cas.lost.length, wd s.cas.refused.length] ++ up.map wd ++ s.cas.lost.map wd ++
    s.cas.refused.map (fun r => wd (r.1 + r.2 * 2 ^ 24))) s

/-! ### The owner certificate (R521, R533) -/

/-- A certificate replaced or removed: SEC_STAT.OWNER and the measurement follow, and every session ends. -/
def ownerSet (cert : List Byte) (s : State) : State :=
  let t := if s.sec.owner.isEmpty then s else leaveAll s
  measureOwner (wrBit secBase sbOwner (!cert.isEmpty) { t with sec := { t.sec with owner := cert } })

/-- Word 0: the certificate's length; its bytes; a record of action 2 while one is installed.  DESIGN CHOICE (log entry 37) -/
def bodyOwnerCertSet : Body := fun _ f s =>
  let n := (pw f 0).toNat
  let w := (n + 3) / 4
  let more := if s.sec.owner.isEmpty then 0 else 200
  lenOk (decide (4 ≤ f.length)) s <| inRange (decide (1 ≤ n ∧ n ≤ 2048)) 0 s <|
  lenIs f (4 + 4 * w + more) s <|
  let cert := payloadBytes f 1 n
  inRange (Config.certOk cert) 1 s <|
  if more = 0 then ok [] (ownerSet cert s)
  else
    let r := checkRecord 2 cert (payloadBytes f (1 + w) 200) s
    if r.1 then ok [] (ownerSet cert r.2) else err eAuth 0 r.2

def bodyOwnerCertClear : Body := fun _ f s =>
  lenIs f 200 s <| refuse s.sec.owner.isEmpty eState s <|
  let r := checkRecord 3 [] (payloadBytes f 0 200) s
  if r.1 then ok [] (ownerSet [] r.2) else err eAuth 0 r.2

end Sys2Proof.Machine
end

