-- ==== Sys2Proof/Machine/Islands.lean ====
section
/-! DEFINITION. The voltage islands (chapter 2): the demand ratio, the loop's evaluation, the ceiling fault, the commit of
the island settings, and the commands of R58. -/

namespace Sys2Proof.Machine
open Sys2Proof

/-! ### Registers -/

def pwiTiming : Nat := pwiBase + 0x04
def pwiRatio : Nat := pwiBase + 0x08
def pwiCeilTime : Nat := pwiBase + 0x0C
def pwiCommitReg : Nat := pwiBase + 0x10
def pwiStat : Nat := pwiBase + 0x14
def pwiPend (w : Nat) : Nat := pwiBase + 0x20 + 4 * w
def islCfg (i : Nat) : Nat := pwiBase + 0x100 + 4 * i
def islLoop (i : Nat) : Nat := pwiBase + 0x300 + 4 * i
def islStat (i : Nat) : Nat := pwiBase + 0x500 + 4 * i
def islPace (i : Nat) : Nat := pwiBase + 0x700 + 4 * i
def islSteps (i : Nat) : Nat := pwiBase + 0x900 + 4 * i
def islPeak (i : Nat) : Nat := pwiBase + 0xB00 + 4 * i

def islFloor (s : State) (i : Nat) : Nat := rdF s (islCfg i) 0 6
def islCeil (s : State) (i : Nat) : Nat := rdF s (islCfg i) 8 6
def islMode (s : State) (i : Nat) : Nat := rdF s (islCfg i) 16 2
def islCode (s : State) (i : Nat) : Nat := rdF s (islStat i) 0 6

def noIsl : IslSt := ⟨none, none, none, none, none⟩
def islGet (s : State) (i : Nat) : IslSt := tget noIsl s.isl i
def islPut (i : Nat) (x : IslSt) (s : State) : State := { s with isl := tset noIsl s.isl i x }

/-! ### Service (R42, R49) -/

/-- The unit that an island serves: a pipeline's physical index, a glen, or none (R42, R483). -/
def islUnit (i : Nat) : Option (Nat × Nat) :=
  let d := i / 48
  let l := i % 48
  if l < 32 then some (1, 16 * d + l / 2)
  else if l < 34 then some (1, 32 + d)
  else if l < 38 then some (2, 4 * d + l - 34)
  else none

/-- The register blocks that make up any other island's block, by BAR0 address [25:16] (R42, R482): Plain, scheduler,
Saddle endpoint, gate lists and redundancy, the east die's services; the segment distributor and the west die's
management-channel endpoint have no registers. -/
def islBlocks (i : Nat) : List Nat :=
  let d := i / 48
  let l := i % 48
  let at_ := fun (a : Nat) => a / 65536
  if l < 38 then []
  else if l < 42 then [at_ (bpmBase d)]
  else if l < 44 then [at_ (schBase d)]
  else if l = 44 then [at_ (sadBase d)]
  else if l = 45 then [at_ (gatBase d), at_ (freBase d)]
  else if l = 47 ∧ d = 0 then [at_ pmcBase, at_ fioBase, at_ casBase]
  else []

/-- An island is out of service under R49: its unit is, or it is a replaced pipeline's or an idle spare's; every register
block that it serves is held in reset. -/
def islOos (s : State) (i : Nat) : Bool :=
  match islUnit i with
  | some (1, n) => outOfService s 1 n || (if n < 32 then spareServes s n else s.bus.spareOf.getD (n - 32) 0 == 0)
  | some (k, n) => outOfService s k n
  | none => (islBlocks i).all (fun b => outOfService s 7 b) && !(islBlocks i).isEmpty

/-! ### The loop (R44 to R53) -/

/-- A measured voltage lies more than 15 mV below the one that a code commands. -/
def belowCode (mv code : Nat) : Bool := decide (mv + 15 < 600 + 5 * code)

/-- The commanded voltage set: VCODE, its flags, whether the voltage last measured lies low for it, and the extremes since
the last read. -/
def setCode (i c : Nat) (s : State) : State :=
  let v := setFld (rd s (islStat i)) 0 6 c
  let v1 := setBit (setBit v 6 (c == islFloor s i)) 7 (c == islCeil s i)
  let p := rd s (islPeak i)
  let p1 := setFld (setFld p 0 6 (max (fld p 0 6) c)) 16 6 (min (fld p 16 6) c)
  wr (islPeak i) p1 (wr (islStat i) (setBit v1 9 (belowCode (fld v1 16 10) c)) s)

/-- The code at which an island leaves reset (R49). -/
abbrev resetCode : Nat := 40

/-- An island follows its block out of service, where it sits at its floor, or into service again, where its loop runs from
that voltage, or from code 40 when the block was held in reset (R49). -/
def islFollow (fromReset : Bool) (i : Nat) (s : State) : State :=
  if islOos s i = rdBit s (islStat i) 28 then s
  else if islOos s i then
    islPut i noIsl (wrBit (islStat i) 8 false (wrBit (islStat i) 28 true (setCode i (islFloor s i) s)))
  else
    let s1 := wrBit (islStat i) 28 false s
    if fromReset then setCode i resetCode s1 else s1
def islService (fromReset : Bool) (s : State) : State := (List.range islCount).foldl (fun t i => islFollow fromReset i t) s

/-- A time in ns of the 1 GHz count has come: `n` ns have passed since `t`, where there is one. -/
def elapsed (s : State) (t : Option Nat) (n : Nat) : Bool :=
  match t with
  | none => true
  | some u => decide (n ≤ s.tim.cnt - u)

/-- The length of a ratio window in ns. -/
def ratioLen (s : State) : Nat := 64 * 2 ^ rdF s pwiTiming 24 4

/-- A ratio window completes: the step time measured, the ratio of R44 in units of 1/256, the measured voltage.  A window
is judged by the length in force as it ends and by the step time as measured, not as STEP_PS saturates it.
DEDUCED (log entry 43) -/
def ratioWindow (i arrivals stepPs mv : Nat) (s : State) : State :=
  if !elapsed s (islGet s i).window (ratioLen s) then s
  else
    let ratio := arrivals * stepPs * 256 / (ratioLen s * 1000 * islUnits i)
    let s1 := wrBit (islStat i) 9 (belowCode mv (islCode s i)) (wrF (islStat i) 16 10 mv s)
    islPut i { islGet s i with window := some s.tim.cnt }
      (wr (islPace i) (wd (min stepPs 4095 + min ratio 4095 * 2 ^ 16)) s1)

/-- The measured voltage lies more than 15 mV below the commanded one. -/
def regLow (s : State) (i : Nat) : Bool := belowCode (rdF s (islStat i) 16 10) (islCode s i)

def raiseWanted (s : State) (i occ : Nat) : Bool :=
  decide (rdF s (islLoop i) 8 5 < occ) || decide (rdF s pwiRatio 0 8 ≤ rdF s (islPace i) 16 12)
def lowerOk (s : State) (i occ : Nat) : Bool :=
  decide (occ ≤ rdF s (islLoop i) 0 5) && decide (rdF s (islPace i) 16 12 < rdF s pwiRatio 8 8)

/-- One 5 mV step of an automatic loop: the new code, the dwell timer, the last lower (R45). -/
def autoStep (s : State) (i occ : Nat) : Nat × IslSt :=
  let v := islCode s i
  let x := islGet s i
  let now := s.tim.cnt
  if v < islFloor s i then (v + 1, { x with dwell := none })
  else if islCeil s i < v then (v - 1, { x with dwell := none })
  else if raiseWanted s i occ then (if v < islCeil s i then v + 1 else v, { x with dwell := none })
  else if lowerOk s i occ then
    let start := x.dwell.getD now
    let rested := match x.lowered with
      | none => true
      | some t => decide (rdF s pwiTiming 16 8 * 100 ≤ now - t)
    if rdF s pwiTiming 8 8 * 100 ≤ now - start ∧ rested = true ∧ islFloor s i < v then
      (v - 1, { x with dwell := some start, lowered := some now })
    else (v, { x with dwell := some start })
  else (v, { x with dwell := none })

/-- The next code in each mode: HOLD keeps it, outside a newly committed window too, and FIXED moves to FIXED_V one step an
evaluation.  DEDUCED (log entry 43) -/
def islStep (s : State) (i occ : Nat) : Nat × IslSt :=
  let v := islCode s i
  match islMode s i with
  | 0 => autoStep s i occ
  | 2 =>
    let f := rdF s (islCfg i) 20 6
    (if v < f then v + 1 else if f < v then v - 1 else v, { islGet s i with dwell := none })
  | _ => (v, { islGet s i with dwell := none })

/-- Pinned at an evaluation (R52). -/
def islPinned (s : State) (i occ : Nat) : Bool :=
  regLow s i || (raiseWanted s i occ && (islMode s i != 0 || islCode s i == islCeil s i))

/-- The pending bit of an island. -/
def islPend (s : State) (i : Nat) : Bool := rdBit s (pwiPend (i / 32)) (i % 32)

/-- An island pinned for longer than the ceiling time raises ISL_CEILING once (R53). -/
def ceilingCheck (i : Nat) (s : State) : State :=
  match (islGet s i).pinned with
  | none => s
  | some t =>
    let lim := rdF s pwiCeilTime 0 20 * 1000
    if !islPend s i && (decide (lim < s.tim.cnt - t) || decide (lim = 0)) then
      raise srcIslCeiling i 9 i (wrBit (pwiPend (i / 32)) (i % 32) true s)
    else s

/-- The network-time domain, whose ticks drive the loops, is stopped (R50). -/
def ticksStopped (s : State) : Bool := s.col.stopped.contains 36

/-- One evaluation (R45 to R53), a raise interval after the last: an island out of service sits at its floor with its loop
stopped. -/
def evaluate (i occ steps : Nat) (s : State) : State :=
  let s0 := incBy (islSteps i) steps (wrF (islStat i) 10 6 occ s)
  if ticksStopped s then s0
  else if islOos s i then islFollow false i s0
  else if !elapsed s (islGet s i).evaluated (rdF s pwiTiming 0 8) then s0
  else
    let pin := islPinned s i occ
    let r := islStep s i occ
    let x := { r.2 with pinned := if pin then some ((islGet s i).pinned.getD s.tim.cnt) else none,
                        evaluated := some s.tim.cnt }
    let s1 := islPut i x (setCode i r.1 s0)
    let v := rd s1 (islStat i)
    let v1 := setFld (setBit (setBit v 8 pin) 28 false) 26 2 (islMode s i)
    let s2 := wr (islStat i) v1 s1
    if rdF s pwiCeilTime 0 20 = 0 then ceilingCheck i s2 else s2

/-- Every island in service goes to its ceiling when the ticks stop (R50). -/
def islandsToCeiling (s : State) : State :=
  (List.range islCount).foldl (fun t i => if islOos t i then t else setCode i (islCeil t i) t) s

def execRatioWindowEnd (i arrivals stepPs milliVolts : Nat) (s : State) : Out3 :=
  if i < islCount ∧ milliVolts < 1024 then .next (ratioWindow i arrivals stepPs milliVolts s) else .fault .illFormed
def execIslandEvaluation (i occupancy steps : Nat) (s : State) : Out3 :=
  if i < islCount ∧ occupancy ≤ 32 then .next (evaluate i occupancy steps s) else .fault .illFormed
def execIslCeilingExpiry (i : Nat) (s : State) : Out3 :=
  if i < islCount then .next (ceilingCheck i s) else .fault .illFormed

/-- A read of PWI_ISL_PEAK restarts both extremes (R60). -/
def peakRestart (i : Nat) (s : State) : State :=
  wr (islPeak i) (wd (islCode s i + islCode s i * 2 ^ 16)) s

/-! ### The commit (R59, R60) -/

def pwiGroup (a : Nat) : Bool :=
  a == pwiTiming || a == pwiRatio || (decide (islCfg 0 ≤ a) && decide (a < islCfg islCount)) ||
  (decide (islLoop 0 ≤ a) && decide (a < islLoop islCount))

/-- The REASON for which an island's staged settings are refused: 1 FLOOR above CEIL or a code above 60, 2 marks, 3 MODE
or FIXED_V. -/
def islFails (s : State) (i : Nat) : List Nat :=
  let c := rdStg s (islCfg i)
  let l := rdStg s (islLoop i)
  let fl := fld c 0 6
  let ce := fld c 8 6
  (if ce < fl ∨ 60 < fl ∨ 60 < ce then [1] else []) ++
  (if fld l 8 5 ≤ fld l 0 5 then [2] else []) ++
  (if fld c 16 2 = 3 ∨ (fld c 16 2 = 2 ∧ (fld c 20 6 < fl ∨ ce < fld c 20 6)) then [3] else [])

def pwiFails (s : State) : List Nat :=
  let r := rdStg s pwiRatio
  let t := rdStg s pwiTiming
  ((List.range islCount).flatMap (fun i => islFails s i)) ++
  (if fld r 0 8 ≤ fld r 8 8 then [4] else []) ++
  (if fld t 0 8 < 4 ∨ fld t 16 8 = 0 ∨ 6 < fld t 24 4 then [5] else [])

/-- The lowest island that causes a refusal for a reason. -/
def islCause (s : State) (r : Nat) : Nat :=
  if r ≤ 3 then ((List.range islCount).find? (fun i => (islFails s i).contains r)).getD 0 else 0

def pwiCommit (s : State) : State :=
  let t := commitGroup pwiStat pwiCommitReg pwiGroup (pwiFails s) (commitStaged pwiGroup) s
  match refusedWith t pwiStat with
  | some r => wrF pwiStat 8 7 (islCause s r) t
  | none => t
def pwiDiscard (s : State) : State := discardGroup pwiStat pwiCommitReg pwiGroup s

/-! ### Commands (R58) -/

def bodyIslCfgSet : Body := fun _ f s =>
  lenIs f 20 s <|
  commitOne pwiStat (fun _ => []) s (pwiCommit ((maskBits f 0 3).foldl
    (fun t i => stgM (islCfg i) 0x03F33F3F (pw f 3) (stgM (islLoop i) 0x1F1F (pw f 4) t)) s))

def bodyIslStatus : Body := fun _ f s =>
  lenIs f 4 s <| inRange (decide ((pw f 0).toNat < islCount)) 0 s <|
  let i := (pw f 0).toNat
  ok [rd s (islCfg i), rd s (islLoop i), rd s (islStat i), rd s (islPace i), rd s (islSteps i), rd s (islPeak i)]
    (peakRestart i s)

def bodyIslCeilTime : Body := fun _ f s =>
  lenIs f 4 s <| inRange (decide (pf f 0 20 12 = 0)) 0 s <| ok [] (wrM pwiCeilTime 0xFFFFF (pw f 0) s)

def bodyIslLoopTiming : Body := fun _ f s =>
  lenIs f 8 s <|
  commitOne pwiStat (fun _ => []) s (pwiCommit (stgM pwiTiming 0x0FFFFFFF (pw f 0) (stgM pwiRatio 0xFFFF (pw f 1) s)))

/-- Pending bits cleared: the islands are re-armed. -/
def ceilRearm (w : Nat) (v : Word) (s : State) : State := wr (pwiPend w) (rd s (pwiPend w) &&& ~~~v) s

def bodyIslCeilRearm : Body := fun _ f s =>
  lenIs f 12 s <| ok [] ((List.range 3).foldl (fun t w => ceilRearm w (pw f w) t) s)

end Sys2Proof.Machine
end

