-- ==== Sys2Proof/Machine/ColCells.lean ====
section
/-! DEFINITION. Clock domains and col cells (chapter 3): clock monitors, the events of the cells, and the commands of R81. -/

namespace Sys2Proof.Machine
open Sys2Proof

/-! ### Clock monitors (R62, R63) -/

/-- The UNIT that CLK_ABSENT and PLL_UNLOCK report for a domain (R483). -/
def domUnit (d : Nat) : Nat × Nat :=
  if d < 32 then (4, d) else if d = 33 then (5, 0) else if d = 34 then (5, 1) else if d = 35 then (6, 0) else (0, 0)

/-- A port group domain that firmware has parked. -/
def parked (s : State) (d : Nat) : Bool := rdBit s (domStat d) 3

/-- A clock declared absent, of a domain that stops: the monitor's bits, the fault, the islands at their ceilings for
domain 36. -/
def domainStops (d : Nat) (s : State) : State :=
  let quiet := d == 37 || parked s d
  let s1 := { s with col := { s.col with stopped := if s.col.stopped.contains d then s.col.stopped else s.col.stopped ++ [d] } }
  let v := setFld (setBit (rd s1 (domStat d)) 0 false) 16 16 0
  let s2 := allClocks d (wr (domStat d) (if quiet then v else setBit v 2 true) s1)
  let s3 := if quiet then s2 else raise srcClkAbsent d (domUnit d).1 (domUnit d).2 s2
  if d = 36 then islandsToCeiling s3 else s3

/-- Network time runs from SYSCLK, not from TIME_10M_IN (R284). -/
def timeFromSysclk (s : State) : Bool := !rdBit s (timBase + 4) 2

/-- The domains that stop with SYSCLK: host PCIe, both stacks, the MP, the MRAM controller, and network time while it runs
from SYSCLK (R61, R63). -/
def sysclkDomains (s : State) : List Nat := [32, 33, 34, 35] ++ (if timeFromSysclk s then [36] else []) ++ [39]

/-- Board management's clock declared absent: SYSCLK is gone.  The domain runs on its oscillator; the other domains of
SYSCLK stop. -/
def sysclkLost (s : State) : State :=
  let v := setFld (setBit (setBit (setBit (rd s (domStat 38)) 0 false) 1 true) 2 true) 16 16 0
  let s1 := raise srcClkFallback 0 0 0 (raise srcClkAbsent 38 0 0 (allClocks 38 (wr (domStat 38) v s)))
  (sysclkDomains s).foldl (fun t d => if t.col.stopped.contains d then t else domainStops d t) s1

/-- A clock declared absent. -/
def clockAbsent (d : Nat) (s : State) : State := if d = 38 then sysclkLost s else domainStops d s

/-- A clock declared present again with its measured period; releases that waited for it complete (R80), and doorbells
counted for the MP are delivered (R74). -/
def clockPresent (d periodPs : Nat) (s : State) : State :=
  let s1 := { s with col := { s.col with stopped := s.col.stopped.filter (fun x => x != d) } }
  let s2 := allClocks d (wrF (domStat d) 16 16 (min periodPs 65535) (wrBit (domStat d) 0 true s1))
  let s3 := releaseWaiting d s2
  if d = 35 then ringsDelivered s3 else s3

/-- Domain 38 runs on its oscillator. -/
def onOscillator (s : State) : Bool := rdBit s (domStat 38) 1

/-- Domain 38 leaves its oscillator: SYSCLK has been present for 100 µs. -/
def sysclkBack (s : State) : State :=
  if onOscillator s then allClocks 38 (wrBit (domStat 38) 0 true (wrBit (domStat 38) 1 false s)) else s
def execSysclkSwitchback (s : State) : Out3 := .next (sysclkBack s)

/-! ### Clearing (R71, R73, R82, R83) -/

/-- STALL_STICKY of a cell cleared with its pending bit; OVF cleared with its pending bit and the accumulator's bit. -/
def clearSticky (c : Nat) (s : State) : State :=
  wrBit (colStallPend (c / 32)) (c % 32) false (wrBit (cellStat c) 8 false s)
def clearOvf (c : Nat) (s : State) : State :=
  let s1 := setCell c { cellOf s c with accOvf := false } s
  wrBit (colOvfPend (c / 32)) (c % 32) false (wrBit (cellStat c) 9 false s1)
def clearResync (c : Nat) (s : State) : State := wrBit (cellStat c) 10 false s

/-- Writes of the W1C registers. -/
def cellStatWrite (c : Nat) (v : Word) (s : State) : State :=
  let s1 := if bit v 8 then clearSticky c s else s
  let s2 := if bit v 9 then clearOvf c s1 else s1
  if bit v 10 then clearResync c s2 else s2
def pendCells (w : Nat) (v : Word) : List Nat := ((bitsOf 32 v.toNat).map (32 * w + ·)).filter (· < cellCount)
def stallPendWrite (w : Nat) (v : Word) (s : State) : State := (pendCells w v).foldl (fun t c => clearSticky c t) s
def ovfPendWrite (w : Nat) (v : Word) (s : State) : State := (pendCells w v).foldl (fun t c => clearOvf c t) s

/-! ### Events -/

def ofType (c t : Nat) : Bool := decide (c < cellCount) && cellType c == t
def execColTransferStart (c value : Nat) (s : State) : Out3 :=
  if ofType c cellV then .next (transferStart c value s) else .fault .illFormed
def execColCapture (c : Nat) (s : State) : Out3 := if c < cellCount then .next (capture c s) else .fault .illFormed
def execColAckSeen (c : Nat) (s : State) : Out3 := if c < cellCount then .next (ackSeen c s) else .fault .illFormed
def execColFifoWrite (c word : Nat) (s : State) : Out3 :=
  if ofType c cellF then .next (fifoWrite c word s) else .fault .illFormed
def execColFifoRead (c : Nat) (s : State) : Out3 := if ofType c cellF then .next (fifoRead c s) else .fault .illFormed
def execPulseArrival (c : Nat) (s : State) : Out3 :=
  if ofType c cellP then .next (pulseArrives c s) else .fault .illFormed
def execColStallWatchdog (c : Nat) (s : State) : Out3 :=
  if c < cellCount then .next (stallCheck c s) else .fault .illFormed
def execColPartnerReset (c : Nat) (ofSource : Bool) (s : State) : Out3 :=
  if c < cellCount then .next (partnerReset c ofSource s) else .fault .illFormed

/-! ### Commands (R81) -/

def bodyColStallCfg : Body := fun _ f s =>
  lenIs f 44 s <| inRange (decide (pf f 9 16 16 = 0)) 9 s <|
  ok [] ((maskBits f 0 10).foldl (fun t c => wrM (cellCfg c) 0xFFFF (pw f 10) t) s)

def bodyColStatus : Body := fun _ f s =>
  lenIs f 4 s <| inRange (decide (pf f 0 0 16 < cellCount) && decide (pf f 0 16 16 < domCount)) 0 s <|
  let c := pf f 0 0 16
  ok [rd s (cellCfg c), rd s (cellStat c), rd s (cellDisc c), rd s (cellXfer c), rd s (domStat (pf f 0 16 16))] s

def bodyColRearm : Body := fun _ f s =>
  lenIs f 52 s <| inRange (decide (pf f 9 16 16 = 0)) 9 s <| inRange (decide (pf f 12 8 24 = 0)) 12 s <|
  let w := pw f 10
  let one := fun (t : State) (c : Nat) =>
    cellStatWrite c (wd (256 * b2n (bit w 0) + 512 * b2n (bit w 1) + 1024 * b2n (bit w 2))) t
  let s1 := (maskBits f 0 10).foldl one s
  ok [] ((maskBits f 11 2).foldl (fun t d => wrBit (domStat d) 2 false t) s1)

end Sys2Proof.Machine
end

