-- ==== Sys2Proof/Machine/ExactCmd.lean ====
section
/-! DEFINITION. The commands on exact-match tables and learning (R150, R412), the glen's budgets (R146), and the events
of the update unit, the learning notifier, the scanner and the promotion engine. -/

namespace Sys2Proof.Machine
open Sys2Proof

/-! ### Register writes with their own rule (R122, R139, R151) -/

/-- The exact-match memory of a glen holds no valid entry. -/
def emEmpty (s : State) (g : Nat) : Bool := (emAll s g).isEmpty

/-- A write of EMT_HASH_SEED or of EMT_HASH_CFG.ROT, dropped with HASH_REFUSED set while an entry is valid (R122). -/
def hashSeedWrite (g : Nat) (v : Word) (s : State) : State :=
  if emEmpty s g then wr (emtSeed g) v s else wrBit (emtHashCfg g) 8 true s
def hashCfgWrite (g : Nat) (v : Word) (s : State) : State :=
  let s1 := if bit v 8 then wrBit (emtHashCfg g) 8 false s else s
  if fld v 0 5 = rdF s (emtHashCfg g) 0 5 then s1
  else if emEmpty s g then wrF (emtHashCfg g) 0 5 (fld v 0 5) s1 else wrBit (emtHashCfg g) 8 true s1

/-- A write of EMT_AGE_CFG: one with SCAN_SLOTS 0 is dropped; a TICK that becomes non-zero starts a pass (R139). -/
def ageCfgWrite (g : Nat) (v : Word) (s : State) : State :=
  if fld v 16 12 = 0 then s
  else
    let s1 := wrM (emtAgeCfg g) 0x0FFFFFFF v s
    if rdF s (emtAgeCfg g) 0 16 = 0 ∧ fld v 0 16 ≠ 0 then scanStart g (tickFrom g s.tim.cnt s1) else s1

/-- A value that EMT_TBL_CFG takes: one with LEARN or EVICT 3 is dropped. -/
def tblCfgTakes (v : Word) : Bool := fld v 1 2 != 3 && fld v 3 2 != 3
def tblCfgWrite (g t : Nat) (v : Word) (s : State) : State := if tblCfgTakes v then wrM (emtTblCfg g t) 0x003FFCFF v s else s

/-- The staged group of a glen's budgets, its commit, which takes effect at the next period boundary (R29, R433), and
its discard. -/
def glnBudget (g i : Nat) : Nat := glnBase g + 0x100 + 4 * i
def glnBudgetCommitReg (g : Nat) : Nat := glnBase g + 0x10C
def glnBudgetStat (g : Nat) : Nat := glnBase g + 0x110
def glnBudgetGroup (g a : Nat) : Bool := decide (glnBudget g 0 ≤ a) && decide (a < glnBudgetCommitReg g)
def glnBudgetFails (s : State) (g : Nat) : List Nat :=
  let v := fun i lo => fld (rdStg s (glnBudget g i)) lo 15
  if 16460 < v 0 0 + v 0 16 + v 1 0 + v 1 16 + v 2 0 then [1] else []
def glnBudgetCommit (g : Nat) (s : State) : State :=
  commitGroup (glnBudgetStat g) (glnBudgetCommitReg g) (glnBudgetGroup g) (glnBudgetFails s g)
    (armStaged (glnBudgetGroup g)) s
def glnBudgetDiscard (g : Nat) (s : State) : State :=
  discardGroup (glnBudgetStat g) (glnBudgetCommitReg g) (glnBudgetGroup g) s

/-! ### Commands -/

/-- The KEY that three payload words spell, word 0 lowest. -/
def key96 (f : Frame) (i : Nat) : Nat := (pw f i).toNat + (pw f (i + 1)).toNat * 2 ^ 32 + (pw f (i + 2)).toNat * 2 ^ 64
def key96Words (k : Nat) : List Word := [wd k, wd (k / 2 ^ 32), wd (k / 2 ^ 64)]

/-- The fifth result word of TBL_LOOKUP (R412). -/
def entryTail (e : EmEntry) : Word := wd (e.age + b2n e.isStatic * 2 ^ 12 + b2n e.valid * 2 ^ 13 + e.table * 2 ^ 14)

def bodyEmTableCfg : Body := fun _ f s =>
  lenIs f 8 s <| inRange (decide (pf f 0 2 30 = 0)) 0 s <| inRange (tblCfgTakes (pw f 1)) 1 s <|
  eachGlen f (fun g t => tblCfgWrite g (pf f 0 0 2) (pw f 1) t) s

def bodyEmKeyLayout : Body := fun _ f s =>
  lenIs f 36 s <| inRange (decide (pf f 0 6 26 = 0)) 0 s <|
  let k := pf f 0 0 6
  commitOn false f (fun g t =>
    let t1 := stgM (emtKeyHdr g k 0) 0xF7 (pw f 1) (stgM (emtKeyHdr g k 1) 0xF7 (pw f 5) t)
    let t2 := (List.range 3).foldl (fun x w => stgM (emtKeyBytes g k 0 w) 0x7F7F7F7F (pw f (2 + w))
      (stgM (emtKeyBytes g k 1 w) 0x7F7F7F7F (pw f (6 + w)) x)) t1
    keyCommit g t2) emtKeyStat s

def bodyEmPortCfg : Body := fun _ f s =>
  lenIs f 8 s <| inRange (decide (pf f 0 8 24 = 0) && portExists s (pf f 0 0 8)) 0 s <|
  ok [] (wrM (emtPortCfg (pf f 0 0 8)) 0x1FFF (pw f 1) s)

def bodyTblInsert : Body := fun _ f s =>
  lenIs f 20 s <| inRange (decide (pf f 0 3 29 = 0)) 0 s <|
  onUnits false f (fun g t x => opSubmit g (.emInsert (pf f 0 0 2) (key96 f 1) (pw f 4) (bit (pw f 0) 2)) (some t) x) s

def bodyTblDelete : Body := fun _ f s =>
  lenIs f 16 s <| inRange (decide (pf f 0 2 30 = 0)) 0 s <|
  onUnits false f (fun g t x => opSubmit g (.emDelete (pf f 0 0 2) (key96 f 1)) (some t) x) s

/-- A debug read of a glen's memory, charged to the debug budget, and a command that makes one: it waits for its slot (R27,
R438). -/
def debugRead (g m n : Nat) (s : State) : State := charge (glenMem g m) actDebug n s
def debugSlot (g m : Nat) (s : State) (k : State → CmdRes) : CmdRes :=
  needSlot [glenMem g m] actDebug s (k (debugRead g m 1 s))

def bodyTblLookup : Body := fun _ f s =>
  lenIs f 16 s <| inRange (decide (pf f 0 2 30 = 0)) 0 s <|
  scopeOne f 8 s fun g =>
    let table := pf f 0 0 2
    let k := key96 f 1
    let b := wd (homeBucket s g table k)
    debugSlot g 0 s fun s1 =>
    match emFind s g table k with
    | some h => ok ([wd (b2n h.inOvf * 256)] ++ key96Words k ++ [h.e.action, entryTail h.e, b]) s1
    | none => ok [wd rNotFound, 0, 0, 0, 0, 0, b] s1

/-- The payload of TBL_FLUSH is not laid down; this model's is: word 0 the table, word 1 [7:0] a port, [8] select that
port, [9] static entries, [10] entries that are not static.  DESIGN CHOICE (log entry 28) -/
def bodyTblFlush : Body := fun _ f s =>
  lenIs f 8 s <| inRange (decide (pf f 0 2 30 = 0)) 0 s <| inRange (decide (pf f 1 11 21 = 0)) 1 s <|
  onUnits false f (fun g t x => opSubmit g
    (.emFlush (pf f 0 0 2) (bit (pw f 1) 8) (pf f 1 0 8) (bit (pw f 1) 9) (bit (pw f 1) 10)) (some t) x) s

def bodyTblBulkInsert : Body := fun _ f s =>
  lenOk (decide (f.length % 16 = 0) && decide (16 ≤ f.length)) s <|
  onEntries false f (f.length / 16) (fun i g t x =>
    opSubmit g (.emInsert (f.opts % 4) (key96 f (4 * i)) (pw f (4 * i + 3)) (nbit f.opts 2)) (some t) x) s

/-- The next valid entry of a table from a position on: buckets slot by slot, then the overflow store. -/
def iterate (s : State) (g table start : Nat) : Option (Nat × EmHit) :=
  match (ofUnit s.glens.em g).find? (fun p => decide (start ≤ p.1) && p.2.valid && p.2.table == table) with
  | some p => some (p.1, ⟨false, p.1 % 4, p.2⟩)
  | none =>
    ((ovfValid s g).find? (fun p => decide (start ≤ 524288 + p.1) && p.2.e.table == table)).map
      (fun p => (524288 + p.1, ⟨true, p.1, p.2.e⟩))

/-- The payload of TBL_ITERATE is not laid down; this model's is: word 0 the table, word 1 the token, 0 to begin; the
answer's word 0 is the token that goes on, 0 at the end, and the entry follows as TBL_LOOKUP gives it.  DESIGN CHOICE (log entry 28) -/
def bodyTblIterate : Body := fun _ f s =>
  lenIs f 8 s <| inRange (decide (pf f 0 2 30 = 0)) 0 s <| inRange (decide ((pw f 1).toNat ≤ 524288 + 8192)) 1 s <|
  scopeOne f 8 s fun g =>
    debugSlot g 0 s fun s1 =>
    match iterate s g (pf f 0 0 2) (pw f 1).toNat with
    | some (n, h) => ok ([wd (n + 1)] ++ key96Words h.e.key ++ [h.e.action, entryTail h.e]) s1
    | none => ok [0, 0, 0, 0, 0, 0] s1

def bodyLearnRingCfg : Body := fun _ f s =>
  lenIs f 16 s <| inRange (decide (pf f 0 2 4 ≤ 8)) 0 s <|
  scopeOne f 8 s fun g =>
    let b := emtRing g
    ok [] (wrM (emtFilter g) 0xFFFF (pw f 3) (ringCfgWrite b 8 (pw f 0) (wr (b + 4) (pw f 2) (wrM b 0xFFFFF000 (pw f 1) s))))

/-- The payload of LEARN_POLICY is not laid down; this model's is: word 0 the table, word 1 0 OFF, 1 SAME_DIE,
2 ALL_GLENS.  DESIGN CHOICE (log entry 28) -/
def bodyLearnPolicy : Body := fun _ f s =>
  lenIs f 8 s <| inRange (decide (pf f 0 2 30 = 0)) 0 s <| inRange (decide ((pw f 1).toNat ≤ 2)) 1 s <|
  ok [] { s with glens := { s.glens with learnPol := tset 1 s.glens.learnPol (pf f 0 0 2) (pw f 1).toNat } }

def bodyAgeCfg : Body := fun _ f s =>
  lenIs f 4 s <| inRange (decide (pf f 0 16 12 ≠ 0)) 0 s <| eachGlen f (fun g t => ageCfgWrite g (pw f 0) t) s

def bodyGlenBudgetSet : Body := fun _ f s =>
  lenIs f 12 s <|
  let res := fun i => decide (pf f i 15 1 = 0) && decide (pf f i 31 1 = 0)
  inRange (res 0) 0 s <| inRange (res 1) 1 s <| inRange (res 2) 2 s <|
  commitOn false f (fun g t => glnBudgetCommit g (stgM (glnBudget g 0) 0x7FFF7FFF (pw f 0)
    (stgM (glnBudget g 1) 0x7FFF7FFF (pw f 1) (stgM (glnBudget g 2) 0x7FFF (pw f 2) t)))) glnBudgetStat s

def bodyTblCapacity : Body := fun _ f s =>
  lenIs f 0 s <| readUnits 8 f (fun g =>
    let used := ((ofUnit s.glens.em g).filter (fun p => p.2.valid)).length
    let ovf := (ovfValid s g).length
    let ret := (ofUnit s.glens.bktRetired g).length
    let ovfRet := (ofUnit s.glens.ovfRetired g).length
    [wd used, wd ovf, wd ((131072 - ret) * 4 - used + (8192 - ovfRet - ovf)), wd ret]) s

/-! ### Events -/

/-- The operation at the head of a memory's queue of the glen's update unit is granted its slots; `verifyFails` says that
its verify read found bad data twice (R126 to R131). -/
def execGlenUpdateOperation (g m : Nat) (verifyFails : Bool) (s : State) : Out3 :=
  if g < 8 ∧ m < 3 then .next (opServe g m (fun op => !isRouteOp op) verifyFails s) else .fault .illFormed

/-- The first promotion queued; one whose verify read fails keeps its overflow entry (R129, R132). -/
def promotionServe (g : Nat) (verifyFails : Bool) (s : State) : State :=
  let u := glenMem g 0
  match tget [] s.glens.promo g with
  | [] => s
  | b :: rest =>
    if hasSlot s u actLearn then
      let s1 := { s with glens := { s.glens with promo := tset [] s.glens.promo g rest } }
      match promotable s1 g b with
      | some (j, o, i) =>
        charge u actLearn 3 (if verifyFails then verifyFailed g b s1 else queuePromotion g b (promote g b j o i s1))
      | none => s1
    else waited u actLearn s

def execPromotion (g : Nat) (verifyFails : Bool) (s : State) : Out3 :=
  needs (decide (g < 8)) (if g < 8 then promotionServe g verifyFails s else s)

/-- A NEW or MOVED whose frame has proved good gets its slot (R134 to R136). -/
def execLearnNotifyService (x : LearnTry) (s : State) : Out3 :=
  if x.glen < 8 then .next (learnService x.glen x.verifyFails s) else .fault .illFormed

/-- A queued age refresh gets its slot (R138). -/
def execAgeRefresh (g : Nat) (s : State) : Out3 := if g < 8 then .next (ageRefresh g s) else .fault .illFormed

/-- The glen's aging tick falls due (R137). -/
def execAgeTick (g : Nat) (s : State) : Out3 := if g < 8 then .next (ageTick g s) else .fault .illFormed

/-- The scanner's next visit (R139). -/
def execAgeScanBucket (x : ScanRead) (s : State) : Out3 :=
  if x.glen < 8 then .next (ageScan x.glen x.bad s) else .fault .illFormed

/-- The moderation time of a ring has passed (R143, R394): its interrupt, provided PROD has advanced. -/
def ringDue (b modNs : Nat) (s : State) : Bool :=
  (ringSt s b).advanced &&
  match (ringSt s b).lastIrq with
  | none => true
  | some t => decide (modNs ≤ s.tim.cnt - t)

/-- A ring's interrupt when its moderation time is over. -/
def ringModerate (r : RingName) (s : State) : State :=
  let b := ringBase r
  match r with
  | .response m =>
    if ringDue b (rdF s (mbxReg m mbxIrqOff) 8 8 * 1000) s then
      completionSignal m (setRing b { ringSt s b with lastIrq := some s.tim.cnt, advanced := false } s)
    else s
  | _ => if ringDue b (rdF s (b + 8) 16 8 * 1000) s then ringIrq b s else s

def execRingIrqModeration (ring : RingName) (s : State) : Out3 :=
  if ringExists ring then .next (ringModerate ring s) else .fault .illFormed

/-! ### Replication by firmware (R145) -/

/-- The learn record with an index, as it was last written into the MP's memory at its place (R140). -/
def learnRecord (s : State) (g i : Nat) : Option (List Word) :=
  s.out.reverse.findSome? (fun o => match o with
    | .ring b j host a ws =>
      if b = emtRing g ∧ j = i ∧ host = false ∧ a = ringAddr s (emtRing g) 256 32 i then some ws else none
    | _ => none)

/-- The glens of a policy's scope for an origin. -/
def policyScope (s : State) (table g : Nat) : List Nat :=
  match tget 1 s.glens.learnPol table with
  | 0 => []
  | 1 => (List.range 4).map (fun i => 4 * dieOfGlen g + i)
  | _ => List.range 8

def originOf (s : State) (table k : Nat) : Option Nat :=
  (s.glens.origin.find? (fun o => o.1 == table && o.2.1 == k)).map (·.2.2)
def setOrigin (table k : Nat) (g : Option Nat) (s : State) : State :=
  let rest := s.glens.origin.filter (fun o => !(o.1 == table && o.2.1 == k))
  { s with glens := { s.glens with origin := match g with
      | some x => rest ++ [(table, k, x)]
      | none => rest } }

/-- An operation that firmware issues in each glen of a list that is not under test. -/
def issueAll (op : GlenOp) (gs : List Nat) (s : State) : State :=
  gs.foldl (fun t g => if outOfService t 2 g then t else (opSubmit g op none t).2) s

/-- The action that firmware copies: of the record of an INSERTED; with the ingress port for a MOVED, but as the static
entry has it where the entry is static; of a plain station for a NEW. -/
def originAction (ws : List Word) : Word :=
  let reason := fld (ws.getD 0 0) 0 8
  let port := fld (ws.getD 1 0) 0 8
  if reason = lrInserted ∨ bit (ws.getD 0 0) 10 = true then ws.getD 2 0
  else if reason = lrMoved then setFld (ws.getD 2 0) 14 8 port
  else actToPort port

/-- Firmware applies the policy to one record of glen g. -/
def replicate (g : Nat) (ws : List Word) (s : State) : State :=
  let w0 := ws.getD 0 0
  let reason := fld w0 0 8
  let table := fld w0 8 2
  let k := (ws.getD 4 0).toNat + (ws.getD 5 0).toNat * 2 ^ 32 + (ws.getD 6 0).toNat * 2 ^ 64
  if tget 1 s.glens.learnPol table = 0 then s
  else if reason = lrNew ∨ reason = lrMoved ∨ reason = lrInserted then
    issueAll (.emInsert table k (originAction ws) (bit w0 10)) (policyScope s table g) (setOrigin table k (some g) s)
  else if reason = lrAged then
    match originOf s table k with
    | none => s
    | some o =>
      if o = g then issueAll (.emDelete table k) (List.range 8) (setOrigin table k none s)
      else
        match emFind s o table k with
        | some h => issueAll (.emInsert table k h.e.action h.e.isStatic) [g] s
        | none => s
  else s

/-- Firmware reads the next record of a learn ring it owns, applies the policy and moves CONS on. -/
def learnConsume (g : Nat) (s : State) : State :=
  let b := emtRing g
  let i := (rd s (b + 0x10)).toNat
  if !fwRestored s || !rdBit s (b + 8) 0 || rdBit s (b + 8) 1 || ringFill s b == 0 then s
  else
    match learnRecord s g i with
    | none => s
    | some ws => wr (b + 0x10) (wd (i + 1)) (replicate g ws s)

def execLearnReplicate (g : Nat) (s : State) : Out3 := if g < 8 then .next (learnConsume g s) else .fault .illFormed

end Sys2Proof.Machine
end

