-- ==== Sys2Proof/Machine/PrefixCmd.lean ====
section
/-! DEFINITION. The commands on prefix routes and the TCAM (R188, R412), the search port (R184 to R187), and the events
of the prefix update unit and the scrubs (R161, R181 to R183). -/

namespace Sys2Proof.Machine
open Sys2Proof

/-! ### Layouts, VRFs and the scrub period -/

/-- The payload of LPM_KEY_LAYOUT follows R410: word 0 the layout, word 1 LPM_KEY_CFG. -/
def bodyLpmKeyLayout : Body := fun _ f s =>
  lenIs f 8 s <| inRange (decide (pf f 0 6 26 = 0)) 0 s <|
  commitOn false f (fun g t => keyCommit g (stgM (lpmKeyCfg g (pf f 0 0 6)) 0x007FFF0F (pw f 1) t)) emtKeyStat s

def bodyLpmPortVrf : Body := fun _ f s =>
  lenIs f 8 s <| inRange (decide (pf f 0 8 24 = 0) && portExists s (pf f 0 0 8)) 0 s <|
  ok [] (wrM (lpmPortVrf (pf f 0 0 8)) 0xFF (pw f 1) s)

/-- The payload of TCAM_KEY_LAYOUT follows R410: word 0 the layout, word 1 TCM_KEY_HDR, words 2 to 21 TCM_KEY_BYTES. -/
def bodyTcamKeyLayout : Body := fun _ f s =>
  lenIs f 88 s <| inRange (decide (pf f 0 6 26 = 0)) 0 s <|
  let k := pf f 0 0 6
  commitOn false f (fun g t =>
    keyCommit g ((List.range 20).foldl (fun x w => stgM (tcmKeyBytes g k w) 0x7F7F7F7F (pw f (2 + w)) x)
      (stgM (tcmKeyHdr g k) 0xFF1 (pw f 1) t))) emtKeyStat s

def bodyTcamScrubCfg : Body := fun _ f s => lenIs f 4 s <| eachGlen f (fun g t => wrM (tcmScrubCfg g) 0xFFFF (pw f 0) t) s

/-! ### Routes -/

/-- The route that four payload words from `i` on spell (R412); IPv6 routes carry 64 bits of address. -/
def routeAt (f : Frame) (i : Nat) : Route :=
  let fam := pf f i 8 1
  ⟨pf f i 0 8, fam, if fam = 0 then (pw f (i + 1)).toNat else (pw f (i + 1)).toNat * 2 ^ 32 + (pw f (i + 2)).toNat,
   pf f i 16 7, pf f (i + 3) 0 16, pf f (i + 3) 16 5⟩

/-- The first word of a route that is out of range: its length, its prefix, its next hops (R157). -/
def routeFault (f : Frame) (i : Nat) (del : Bool) : Option Nat :=
  let r := routeAt f i
  if pf f i 9 7 ≠ 0 ∨ pf f i 23 8 ≠ 0 ∨ famMax r.fam < r.len then some i
  else if r.pfx % 2 ^ (famBits r.fam - r.len) ≠ 0 then some (i + 1)
  else if r.fam = 0 ∧ pw f (i + 2) ≠ 0 then some (i + 2)
  else if !del && (decide (r.count = 0) || decide (16 < r.count) || decide (65536 < r.nh + r.count)) then some (i + 3)
  else none

def checkRoute (f : Frame) (i : Nat) (del : Bool) (s : State) (k : CmdRes) : CmdRes :=
  match routeFault f i del with
  | some w => err eRange (min w 255) s
  | none => k

/-- On a route command a SCOPE of 0 names all eight glens (R160). -/
def allGlens (f : Frame) : Frame := if f.scope = 0 then { f with scope := 255 } else f

def addOp (r : Route) : GlenOp := .routeAdd r.vrf r.fam r.pfx r.len r.nh r.count
def delOp (r : Route) : GlenOp := .routeDel r.vrf r.fam r.pfx r.len

def bodyRouteAdd : Body := fun _ f s =>
  lenIs f 16 s <| inRange (!bit (pw f 0) 31) 0 s <| checkRoute f 0 false s <|
  onUnits false (allGlens f) (fun g t x => opSubmit g (addOp (routeAt f 0)) (some t) x) s

def bodyRouteDelete : Body := fun _ f s =>
  lenIs f 12 s <| inRange (!bit (pw f 0) 31) 0 s <| checkRoute f 0 true s <|
  onUnits false (allGlens f) (fun g t x => opSubmit g (delOp (routeAt f 0)) (some t) x) s

def bodyRouteBulk : Body := fun _ f s =>
  lenOk (decide (f.length % 16 = 0) && decide (16 ≤ f.length)) s <|
  match (List.range (f.length / 16)).findSome? (fun i => routeFault f (4 * i) (bit (pw f (4 * i)) 31)) with
  | some w => err eRange (min w 255) s
  | none => onEntries false (allGlens f) (f.length / 16) (fun i g t x =>
      let r := routeAt f (4 * i)
      opSubmit g (if bit (pw f (4 * i)) 31 then delOp r else addOp r) (some t) x) s

def bodyRouteLookup : Body := fun _ f s =>
  lenIs f 12 s <| inRange (decide (pf f 0 9 23 = 0)) 0 s <|
  scopeOne f 8 s fun g => debugSlot g 0 s fun s1 =>
    let r := routeAt f 0
    match longest r.vrf r.fam r.pfx (routesOf s g) with
    | some x =>
      let a := if x.fam = 0 then [wd x.pfx, 0] else [wd (x.pfx / 2 ^ 32), wd x.pfx]
      ok ([0, wd (x.vrf + x.fam * 2 ^ 8 + x.len * 2 ^ 16)] ++ a ++ [wd (x.nh + x.count * 2 ^ 16)]) s1
    | none => ok [wd rNotFound, 0, 0, 0, 0] s1

/-- Several operations for one element: the last one carries its ticket. -/
def submitAll (g : Nat) (t : Ticket) : List GlenOp → State → Nat × State
  | [], s => (rDone, s)
  | [op], s => opSubmit g op (some t) s
  | op :: rest, s => submitAll g t rest (opSubmit g op none s).2

def bodyNexthopSet : Body := fun _ f s =>
  let n := (pw f 1).toNat
  inRange (decide (f.length < 8) || (decide (1 ≤ n) && decide (n ≤ 1018))) 1 s <| lenIs f (8 + 4 * n) s <|
  inRange (decide ((pw f 0).toNat + n ≤ 65536)) 0 s <|
  onUnits false (allGlens f) (fun g t x =>
    submitAll g t ((List.range n).map (fun i => GlenOp.nextHop ((pw f 0).toNat + i) (pw f (2 + i)))) x) s

def bodyRouteCapacity : Body := fun _ f s =>
  lenIs f 0 s <| readUnits 8 f (fun g =>
    let used := routeUnits (routesOf s g)
    [wd used, wd (393216 - 12 * rowsRetired s g - used), wd (rowsRetired s g), 0]) s

/-! ### Rules -/

/-- A rule's payload from word `i` on: its index in word `i`, its header in word `i + 1`. -/
def ruleLen (f : Frame) (i : Nat) : Nat := 4 * (i + 2) + 24 * pf f (i + 1) 0 4 + 8
def ruleWords (f : Frame) (i : Nat) : List Word := f.payload.drop (i + 2)

/-- The checks of a rule's payload: WIDTH in range before LENGTH is judged, then the index, the header, the action. -/
def checkRule (f : Frame) (i : Nat) (s : State) (k : CmdRes) : CmdRes :=
  let w := pf f (i + 1) 0 4
  inRange (decide (f.length < 4 * (i + 2)) || (decide (1 ≤ w) && decide (w ≤ 8))) (i + 1) s <|
  lenIs f (ruleLen f i) s <|
  inRange (decide ((pw f i).toNat < 16384)) i s <| inRange (decide (pf f (i + 1) 8 8 = 0)) (i + 1) s <|
  inRange (actionOk (pw f (i + 2 + 6 * w)) (pw f (i + 3 + 6 * w))) (i + 2 + 6 * w) s k

def bodyTcamRuleWrite : Body := fun _ f s =>
  checkRule f 0 s <| onUnits false f (fun g t x =>
    opSubmit g (.tcamWrite (pw f 0).toNat (pw f 1).toNat (ruleWords f 0)) (some t) x) s

def bodyTcamRuleDelete : Body := fun _ f s =>
  lenIs f 4 s <| inRange (decide ((pw f 0).toNat < 16384)) 0 s <|
  onUnits false f (fun g t x => opSubmit g (.tcamDelete (pw f 0).toNat) (some t) x) s

def bodyTcamRuleReplace : Body := fun _ f s =>
  checkRule f 1 s <| inRange (decide ((pw f 0).toNat < 16384)) 0 s <|
  onUnits false f (fun g t x =>
    opSubmit g (.tcamReplace (pw f 0).toNat (pw f 1).toNat (pw f 2).toNat (ruleWords f 1)) (some t) x) s

def bodyTcamActionSet : Body := fun _ f s =>
  lenIs f 12 s <| inRange (!bit (pw f 0) 14 || actionOk (pw f 1) (pw f 2)) 1 s <|
  onUnits false f (fun g t x => opSubmit g
    (.tcamAction (pf f 0 0 14) (bit (pw f 0) 14) (bit (pw f 0) 15) (pf f 0 16 16) (pw f 1) (pw f 2)) (some t) x) s

/-- The 51 words of a rule (R437): header, eight slices, the two action words. -/
def ruleRecord (r : Rule) : List Word :=
  [ruleHdr r] ++ ((List.range 8).flatMap (fun j => sliceOut (r.array.getD j (0, 0)))) ++ [r.act0, r.act1]

def bodyTcamRuleRead : Body := fun _ f s =>
  lenIs f 4 s <| inRange (decide ((pw f 0).toNat < 16384)) 0 s <|
  scopeOne f 8 s fun g => debugSlot g 1 s fun s1 => needSlot [glenMem g 2] actDebug s <|
    ok (ruleRecord (ruleGet s g (pw f 0).toNat)) (debugRead g 2 1 s1)

/-! ### The search port (R184 to R187) -/

/-- One glen's checked winner: false hits are excluded one after another, and the search is made again. -/
def portWinner (g w grp : Nat) (k : List Nat) : Nat → State → Option (Nat × Rule) × State
  | 0, s => (none, s)
  | n + 1, s =>
    match winner (matching s g w grp k) with
    | none => (none, s)
    | some p => if checkOk w grp k p.2 then (some p, s) else portWinner g w grp k n (debugRead g 1 1 (falseHit g p.1 s))

/-- A COUNT search (R185): the winner of each glen named, three words a glen, then the count of matching rules. -/
def searchCount (gs : List Nat) (w grp : Nat) (k : List Nat) (s : State) : CmdRes :=
  let n := (gs.map (fun g => (matching s g w grp k).length)).sum
  let r := gs.foldl (fun (acc : List Word × State) g =>
    let q := portWinner g w grp k ((matching acc.2 g w grp k).length + 1) (debugRead g 1 1 acc.2)
    (acc.1 ++ (match q.1 with
      | some p => [wd (p.1 + 2 ^ 15 + p.2.prio * 2 ^ 16), p.2.act0, p.2.act1]
      | none => [0, 0, 0]), q.2)) ([], s)
  ok (r.1 ++ [wd (min n 65535)]) r.2

/-- A rule's place in the order of R186: PRIO, index, glen. -/
def stepKey (p : Nat × Nat × Rule) : Nat := (p.2.2.prio * 2 ^ 14 + p.2.1) * 8 + p.1

/-- The matching rules of the glens named, in that order. -/
def stepOrder (s : State) (gs : List Nat) (w grp : Nat) (k : List Nat) : List (Nat × Nat × Rule) :=
  (gs.flatMap (fun g => (matching s g w grp k).map (fun p => (g, p.1, p.2)))).mergeSort
    (fun a b => decide (stepKey a ≤ stepKey b))

/-- The first of a list that passes its check; false hits before it are excluded and skipped. -/
def stepFirst (w grp : Nat) (k : List Nat) : List (Nat × Nat × Rule) → State → Option (Nat × Nat × Rule) × State
  | [], s => (none, s)
  | p :: ps, s => if checkOk w grp k p.2.2 then (some p, s) else stepFirst w grp k ps (falseHit p.1 p.2.1 s)

/-- The resume token of a rule as two words (R187). -/
def tokenOf (s : State) (p : Nat × Nat × Rule) : List Word :=
  [wd (p.2.2.prio + p.2.1 * 2 ^ 16), wd (p.1 + (rd s (tcmGen p.1)).toNat % 2 ^ 24 * 2 ^ 8)]

/-- A STEP search (R186).  Answer: word 0 [0] END, [1] TIE, [2] MULTI, [3] CHANGED; word 1 [13:0] index, [18:16] glen;
words 2 and 3 the action; words 4 and 5 the token. -/
def searchStep (gs : List Nat) (w grp : Nat) (k : List Nat) (tok : Option (Word × Word)) (s : State) : CmdRes :=
  let s1 := gs.foldl (fun t g => debugRead g 1 1 t) s
  let all := stepOrder s1 gs w grp k
  let changed := match tok with
    | some (_, hi) => (rd s1 (tcmGen (fld hi 0 3))).toNat % 2 ^ 24 != fld hi 8 24
    | none => false
  let rest := match tok with
    | some (lo, hi) =>
      if bit hi 7 then [] else
        all.filter (fun p => decide ((fld lo 0 16 * 2 ^ 14 + fld lo 16 14) * 8 + fld hi 0 3 < stepKey p))
    | none => all
  match stepFirst w grp k rest s1 with
  | (some p, s2) =>
    let tie := all.any (fun q => stepKey q != stepKey p && q.2.2.prio == p.2.2.prio)
    ok ([wd (2 * b2n tie + 4 * b2n (decide (1 < all.length)) + 8 * b2n changed), wd (p.2.1 + p.1 * 2 ^ 16),
      p.2.2.act0, p.2.2.act1] ++ tokenOf s2 p) s2
  | (none, s2) =>
    ok ([wd (1 + 8 * b2n changed), 0, 0, 0] ++ (match tok with
      | some (lo, hi) => [lo, setBit hi 7 true]
      | none => [0, 0x80])) s2

/-- The payload of TCAM_SEARCH is not laid down; this model's is: word 0 [3:0] WIDTH, [7:4] GROUP, [8] a token is given;
words 1 and 2 the token; words 3 to 22 the key, byte 4i in [31:24] of word 3 + i.  DESIGN CHOICE (log entry 28) -/
def bodyTcamSearch : Body := fun _ f s =>
  lenIs f 92 s <| inRange (decide (1 ≤ pf f 0 0 4) && decide (pf f 0 0 4 ≤ 8) && decide (pf f 0 9 23 = 0)) 0 s <|
  let tok := bit (pw f 0) 8
  inRange (!tok || decide (pf f 1 30 2 = 0)) 1 s <| inRange (!tok || decide (pf f 2 3 4 = 0)) 2 s <|
  scopeSome f s <|
  let kb := (List.range 20).flatMap (fun i => beBytes 4 (pw f (3 + i)).toNat)
  let w := pf f 0 0 4
  let gs := bitsOf 8 f.scope
  needSlot (gs.map (fun g => glenMem g 1)) actDebug s <|
  if mbPrivileged s f then searchCount gs w (pf f 0 4 4) (keySlices kb w) s
  else searchStep gs w (pf f 0 4 4) (keySlices kb w) (if tok then some (pw f 1, pw f 2) else none) s

/-! ### Events -/

/-- A route change that is granted its slots finds a prefix bucket row bad as it reads it (R36, R161): the row is flagged
and awaits firmware's rewrite from its records, in which the change stands. -/
def prefixRead (g m : Nat) (badRow : Option Nat) (s : State) : State :=
  match badRow, updQueue s (glenMem g m) with
  | some i, q :: _ => if m = 0 ∧ isRouteOp q.op = true ∧ hasSlot s (glenMem g m) actUpdate = true then badPrefix g i s else s
  | _, _ => s

/-- The route or next-hop change at the head of its queue is granted its slots (R162, R163). -/
def execPrefixUpdateOperation (g m : Nat) (badRow : Option Nat) (s : State) : Out3 :=
  if g < 8 ∧ m < 3 ∧ badRow.all (fun i => decide (i < 32768)) = true then
    .next (opServe g m isRouteOp false (prefixRead g m badRow s))
  else .fault .illFormed

/-- A PENDING element of a unit's queue completes (R402). -/
def execPendingElementComplete (g m : Nat) (s : State) : Out3 :=
  if g < 8 ∧ m < 3 then .next (opServe g m (fun _ => true) false s) else .fault .illFormed

/-- A scrub of n accesses gets its slots (R27, R31). -/
def scrubbed (g m n : Nat) (act : State → State) (s : State) : State :=
  let u := glenMem g m
  if hasSlot s u actScrub then act (charge u actScrub n s) else waited u actScrub s

/-- A pivot compared with its mirror; one that differs is rewritten (R161). -/
def pivotScrub (g i : Nat) (s : State) : State :=
  if tget false s.glens.pivotBad (key g i) then
    raise srcLpmPivotFix i 2 g
      { s with glens := { s.glens with pivotBad := tset false s.glens.pivotBad (key g i) false } }
  else s

def execPivotScrub (g i : Nat) (s : State) : Out3 :=
  if g < 8 ∧ i < 32768 then .next (scrubbed g 0 1 (pivotScrub g i) s) else .fault .illFormed

def isWide (r : Rule) : Bool := decide (3 ≤ fld r.hdr 0 4)

/-- The slices of a rule that differ from its mirror or record, and whether its header does. -/
def badSlices (r : Rule) : List Nat := (List.range r.slices.length).filter (fun j => r.array[j]? != r.slices[j]?)
def ruleDiffers (r : Rule) : Bool := bit r.hdr 8 && (!(badSlices r).isEmpty || r.hdr != ruleHdr r)

/-- A difference that a scrub finds is a scrub fix of the slices that differ, and the rule is restored; a slice with three
events in 24 h is retired (R182, R183). -/
def ruleFix (g i : Nat) (s : State) : State :=
  let s1 := (badSlices (ruleGet s g i)).foldl (fun t j => sliceEvent g (i + j) t) s
  restoreOrMove g i (raise srcTcmScrubFix i 2 g s1)

/-- The glen's own scrub of a wide rule, at one slot a slice, and its restoration at the slots that it writes. -/
def wideScrub (g i : Nat) (s : State) : State :=
  let r := ruleGet s g i
  scrubbed g 1 r.slices.length (fun t =>
    if ruleDiffers r then ruleFix g i (charge (glenMem g 1) actScrub (restoreSlots r) t) else retireSlices g i t) s
def execWideRuleScrub (g i : Nat) (s : State) : Out3 :=
  if g < 8 ∧ i < 16384 then .next (if isWide (ruleGet s g i) then wideScrub g i s else s) else .fault .illFormed

/-- An excluded wide rule rewritten by the glen from its mirror (R181). -/
def execWideRuleRestore (g i : Nat) (s : State) : Out3 :=
  if g < 8 ∧ i < 16384 then
    let r := ruleGet s g i
    .next (if isWide r && r.exclude then scrubbed g 1 (restoreSlots r) (restoreOrMove g i) s else s)
  else .fault .illFormed

/-- Firmware's rewrite of a narrow rule, through the update activity of both memories (R177, R181). -/
def narrowFix (g i : Nat) (fix : State → State) (s : State) : State :=
  if hasSlot s (glenMem g 1) actUpdate ∧ hasSlot s (glenMem g 2) actUpdate then
    fix (charge (glenMem g 2) actUpdate 2 (charge (glenMem g 1) actUpdate (restoreSlots (ruleGet s g i)) s))
  else waited (glenMem g 1) actUpdate s

/-- Firmware reads one narrow rule back, at one slot a slice, restores a difference, clears EXCLUDE and retires failing
slices; a PERIOD of 0 stops the scrub, not the restoration of an excluded rule (R181 to R183). -/
def narrowScrub (g i : Nat) (s : State) : State :=
  let r := ruleGet s g i
  if isWide r || !fwUp s then s
  else if r.exclude then narrowFix g i (restoreOrMove g i) s
  else if rdF s (tcmScrubCfg g) 0 16 = 0 then s
  else scrubbed g 1 (max 1 r.slices.length) (fun t =>
    if ruleDiffers r then narrowFix g i (ruleFix g i) t else retireSlices g i t) s

def execNarrowRuleScrub (g i : Nat) (s : State) : Out3 :=
  if g < 8 ∧ i < 16384 then .next (narrowScrub g i s) else .fault .illFormed

end Sys2Proof.Machine
end

