-- ==== Sys2Proof/Machine/Fio.lean ====
section
/-! DEFINITION. Field inputs and outputs (R335 to R355): filtered edges, event records, publication, outputs, fail
states. -/

namespace Sys2Proof.Machine
open Sys2Proof

abbrev fioFiStat : Nat := fioBase + 0x10
abbrev fioFiRaw : Nat := fioBase + 0x14
abbrev fioFoStat : Nat := fioBase + 0x18
abbrev fioForceEn : Nat := fioBase + 0x1C
abbrev fioForceVal : Nat := fioBase + 0x20
abbrev fioEtype : Nat := fioBase + 0x24
abbrev fioSrcMac : Nat := fioBase + 0x28
abbrev fioUtc : Nat := fioBase + 0x30
def fiCfg (i : Nat) : Nat := fioBase + 0x100 + 4 * i
def fiCount (i : Nat) : Nat := fioBase + 0x200 + 4 * i
def foCfg (j : Nat) : Nat := fioBase + 0x300 + 4 * j
abbrev fcEvtLost : Nat := 0
abbrev fcFoIgnored : Nat := 3
abbrev fcFoNop : Nat := 4
abbrev fcTeSkip : Nat := 5
abbrev fcMismatch : Nat := 6

/-- An input that nothing has moved; an output in its fail state, driven low (R353). -/
def restIn : FiIn := ⟨false, none, none, 0, 0, 0, false, 0, 0, false⟩
def fiOf (s : State) (i : Nat) : FiIn := tget restIn s.fio.ins i
def setFi (i : Nat) (x : FiIn) (s : State) : State := { s with fio := { s.fio with ins := tset restIn s.fio.ins i x } }
def restOut : FoOut := ⟨false, false, true, false, false, 0, false, 0, 0, 0, false⟩
def foOf (s : State) (j : Nat) : FoOut := tget restOut s.fio.outs j
def setFo (j : Nat) (x : FoOut) (s : State) : State := { s with fio := { s.fio with outs := tset restOut s.fio.outs j x } }
def restPub : PubSt := ⟨[], [], false, 0, false, 0, 0, 0, 0, 0, 0⟩
def pubOf (s : State) (j : Nat) : PubSt := tget restPub s.fio.pubs j
def setPub (j : Nat) (x : PubSt) (s : State) : State := { s with fio := { s.fio with pubs := tset restPub s.fio.pubs j x } }

/-! ### Event records (R338, R339) -/

def qualNow (s : State) : Nat := b2n (timValid s) + 2 * b2n (rdBit s timStat 1)

/-- A record of R339. -/
def eventBytes (mem : Nat) (level loss bounced : Bool) (mseq ns qual source : Nat) : List Nat :=
  [mem, b2n level + 2 * b2n loss + 4 * b2n bounced, mseq / 256 % 256, mseq % 256] ++
  (beBytes 6 (ns / 10 ^ 9) ++ beBytes 4 (ns % 10 ^ 9)).map (·.toNat) ++ [qual, source]

/-- An event enters the unit's queue of 256, or is lost; the Bool says that it entered. -/
def queueEvent (mem : Nat) (bytes : List Nat) (ring : Bool) (s : State) : Bool × State :=
  if s.fio.evq.length < 256 then (true, { s with fio := { s.fio with evq := s.fio.evq ++ [⟨mem, bytes, ring⟩] } })
  else (false, raise srcFioEvtLost 0 10 mem (inc (fioCnt fcEvtLost) s))

/-! ### Inputs (R335 to R338) -/

def fiInv (s : State) (i : Nat) : Bool := rdBit s (fiCfg i) 20
def fiFilt (s : State) (i : Nat) : Nat := min 1000000 (rdF s (fiCfg i) 0 20)
def fiLogical (s : State) (i : Nat) : Bool := (fiOf s i).pin != fiInv s i

/-- An accepted edge. -/
def acceptEdge (i : Nat) (l : Bool) (stamp : Nat) (bounced : Bool) (s : State) : State :=
  let x := fiOf s i
  let m := (x.mseq + 1) % 65536
  let ce := rdF s (fiCfg i) 21 2
  let s1 := if (if l then ce % 2 = 1 else 2 ≤ ce) then inc (fiCount i) s else s
  let s2 := wrBit fioFiStat i l s1
  let r := queueEvent i (eventBytes i l x.loss bounced m stamp (qualNow s) 0) (rdBit s (fiCfg i) 23) s2
  setFi i { x with acc := some l, first := none, moves := 0, mseq := m, loss := !r.1, last := stamp, qual := qualNow s,
                   seen := true } r.2

/-- The pin logic runs on the clock of domain 36. -/
def fioStopped (s : State) : Bool := s.col.stopped.contains 36

/-- The level has been stable for FILT: accepted, cancelled, or taken as the first level. -/
def fiStable (i : Nat) (s : State) : State :=
  let x := fiOf s i
  let l := fiLogical s i
  match x.acc with
  | none => wrBit fioFiStat i l (setFi i { x with acc := some l, first := none, moves := 0 } s)
  | some a =>
    if l = a then setFi i { x with first := none, moves := 0 } s
    else acceptEdge i l (x.first.getD (netNs s)) (decide (1 < x.moves)) s

/-- A transition of the logical level; while the clock is away the level is not sampled. -/
def fiMoved (i : Nat) (s : State) : State :=
  if fioStopped s then s
  else
  let x := fiOf s i
  let s1 := wrBit fioFiRaw i (fiLogical s i)
    (setFi i { x with first := if x.first.isSome then x.first else some (netNs s), moves := x.moves + 1, since := s.tim.cnt } s)
  if fiFilt s1 i = 0 then fiStable i s1 else s1

def fiTransition (i : Nat) (pin : Bool) (s : State) : State :=
  if (fiOf s i).pin = pin then s else fiMoved i (setFi i { fiOf s i with pin := pin } s)
def execFiTransition (i : Nat) (pin : Bool) (s : State) : Out3 :=
  needs (decide (i < 32)) (if i < 32 then fiTransition i pin s else s)

/-- FILT ns have passed since the last transition. -/
def fiFiltered (i : Nat) (s : State) : State :=
  if fioStopped s ∨ s.tim.cnt < (fiOf s i).since + fiFilt s i then s else fiStable i s
def execFiFilterExpiry (i : Nat) (s : State) : Out3 := needs (decide (i < 32)) (if i < 32 then fiFiltered i s else s)

/-- A write of FIO_FI_CFG: a change of INV moves the logical level. -/
def fiCfgWrite (i : Nat) (v : Word) (s : State) : State :=
  let old := fiInv s i
  let s1 := wrM (fiCfg i) 0xFFFFFF v s
  if fiInv s1 i = old then s1 else fiMoved i s1

/-! ### Outputs (R347 to R354) -/

def foInv (s : State) (j : Nat) : Bool := rdBit s (foCfg j) 24

/-- The level that an output drives. -/
def foLevel (s : State) (j : Nat) : Bool :=
  let x := foOf s j
  if x.fail then x.failLevel
  else if rdBit s fioForceEn j then rdBit s fioForceVal j != foInv s j
  else x.state != foInv s j

/-- The pin follows; a change of its level is an event with a SOURCE.  While the clock of the pin logic is away only a fail
level reaches the pin (R353). -/
def foRefresh (j source : Nat) (s : State) : State :=
  let x := foOf s j
  let l := foLevel s j
  if l = x.level ∨ (fioStopped s ∧ source ≠ 4) then s
  else
    let m := (x.mseq + 1) % 65536
    let t := netNs s
    let r := queueEvent (32 + j) (eventBytes (32 + j) (l != foInv s j) x.loss false m t (qualNow s) source)
      (rdBit s (foCfg j) 28) s
    setFo j { x with level := l, mseq := m, loss := !r.1, last := t, qual := qualNow s } r.2

/-- An operation on an output: 0 set, 1 clear, 2 pulse. -/
def foOp (j op source : Nat) (s : State) : State :=
  let x := foOf s j
  if x.fail then inc (fioCnt fcFoIgnored) s
  else
    match op with
    | 0 => foRefresh j source (setFo j { x with state := true, pulse := false } s)
    | 1 => foRefresh j source (setFo j { x with state := false, pulse := false } s)
    | 2 =>
      if rdF s (foCfg j) 0 24 = 0 then inc (fioCnt fcFoNop) s
      else if x.state && !x.pulse then s
      else foRefresh j source (setFo j { x with state := true, pulse := true, ends := s.tim.cnt + rdF s (foCfg j) 0 24 * 1000 } s)
    | _ => s

/-- A pulse timer that has run out clears the state. -/
def pulseEnds (j : Nat) (s : State) : State :=
  let x := foOf s j
  if !x.pulse ∨ s.tim.cnt < x.ends then s else foRefresh j 6 (setFo j { x with state := false, pulse := false } s)
def execFoPulseExpiry (j : Nat) (s : State) : Out3 := needs (decide (j < 16)) (if j < 16 then pulseEnds j s else s)

/-- The readback differs from the driven level for 1 µs (R352). -/
def readback (j : Nat) (pin : Bool) (s : State) : State :=
  if rdBit s (foCfg j) 27 && pin != (foOf s j).level then
    let s1 := inc (fioCnt fcMismatch) s
    if rdBit s1 fioFoStat (16 + j) then s1 else raise srcFioFoMismatch j 10 (32 + j) (wrBit fioFoStat (16 + j) true s1)
  else s
def execFoReadbackTimeout (j : Nat) (pin : Bool) (s : State) : Out3 :=
  needs (decide (j < 16)) (if j < 16 then readback j pin s else s)

/-- A trigger leaves the queue for its pin (R349); it waits while the pin logic has no clock. -/
def trigApply (s : State) : State :=
  match s.fio.trig with
  | [] => s
  | (pin, op) :: rest => if fioStopped s then s else foOp pin op 1 { s with fio := { s.fio with trig := rest } }
def execPacketTriggerApply (s : State) : Out3 := .next (trigApply s)

/-- The level of a fail state: hold, low, high. -/
def failLevelOf (s : State) (j : Nat) (was : Bool) : Bool :=
  match rdF s (foCfg j) 25 2 with
  | 1 => false
  | 2 => true
  | _ => was

/-- An output enters its fail state. -/
def failOut (j : Nat) (s : State) : State :=
  let x := foOf s j
  if x.fail then s
  else foRefresh j 4 (wrBit fioFoStat j true
    (setFo j { x with fail := true, pulse := false, was := x.level, failLevel := failLevelOf s j x.level } s))
def failOuts (s : State) : State := (List.range 16).foldl (fun t j => failOut j t) s

/-- A write of FIO_FO_CFG; FAIL 3 leaves the field. -/
def foCfgWrite (j : Nat) (v : Word) (s : State) : State :=
  let v' := if fld v 25 2 = 3 then setFld v 25 2 (rdF s (foCfg j) 25 2) else v
  let s1 := wrM (foCfg j) 0x1FFFFFFF v' s
  let x := foOf s1 j
  if x.fail then foRefresh j 4 (setFo j { x with failLevel := failLevelOf s1 j x.was } s1) else foRefresh j 3 s1

/-- The force registers written: outputs that fail count what they ignore (R350, R355). -/
def forceWrite (a : Nat) (mask : Nat) (v : Word) (s : State) : State :=
  let s1 := wr a ((rd s a &&& ~~~(wd mask)) ||| (v &&& wd mask)) s
  (bitsOf 16 mask).foldl (fun t j => if (foOf t j).fail then inc (fioCnt fcFoIgnored) t else foRefresh j 3 t) s1

/-- A release (R355). -/
def foRelease (j : Nat) (s : State) : State :=
  let x := foOf s j
  if !x.fail then s
  else foRefresh j 5 (wrBit fioFoStat j false
    (setFo j { x with fail := false, pulse := false, state := x.failLevel != foInv s j } s))

/-- The pin record loaded in step 2: its fail levels are in force (R353, R354). -/
def pinRecordLoad (s : State) : State :=
  let s1 := s.fio.pinRec.foldl (fun t q => match q.2 with | some v => wr (foCfg q.1) v t | none => t) s
  let s2 := { s1 with fio := { s1.fio with ready := true } }
  (List.range 16).foldl (fun t j =>
    let x := foOf t j
    if x.fail then foRefresh j 4 (wrBit fioFoStat j true (setFo j { x with failLevel := failLevelOf t j x.was } t)) else t) s2

/-- The clock of the pin logic returns: inputs that moved meanwhile are sampled, outputs follow their state. -/
def fioResume (s : State) : State :=
  let t := (List.range 32).foldl (fun t i => if rdBit t fioFiRaw i = fiLogical t i then t else fiMoved i t) s
  (List.range 16).foldl (fun t j => foRefresh j 3 t) t

/-! ### Time events (R351) -/

def noTev : TimeEvt := ⟨0, 0, false, 0, 0, 0⟩
def tevOf (s : State) (i : Nat) : TimeEvt := tget noTev s.fio.tev i
def setTev (i : Nat) (x : TimeEvt) (s : State) : State := { s with fio := { s.fio with tev := tset noTev s.fio.tev i x } }

def timeEvent (i : Nat) (s : State) : State :=
  let x := tevOf s i
  if !x.en || !timValid s || decide (netNs s < x.next) then s
  else
    let k := if x.period = 0 then 0 else (netNs s - x.next) / x.period
    let y := if x.period = 0 then { x with en := false } else { x with next := x.next + (k + 1) * x.period }
    foOp x.pin x.op 2 (setTev i y (incBy (fioCnt fcTeSkip) k s))
def execTimeEventFire (i : Nat) (s : State) : Out3 := needs (decide (i < 64)) (if i < 64 then timeEvent i s else s)

/-! ### Publication (R341 to R346).  A set's words: 0 [1:0] FORMAT, [7:4] PORT_EN, [8] TAGGED, [11:9] PCP, [27:16] VID;
1 FI_MASK; 2 [15:0] FO_MASK, [31:16] TENANT; 3 PORTS; 4 and 5 DA; 6 [15:0] T1, [31:16] T0.  DESIGN CHOICE (log entry 36) -/

def pubW (x : PubSt) (i : Nat) : Word := x.cfg.getD i 0
def pubFormat (x : PubSt) : Nat := fld (pubW x 0) 0 2
def pubPorts (x : PubSt) : List Nat := (bitsOf 4 (fld (pubW x 0) 4 4)).map (fun i => fld (pubW x 3) (8 * i) 8)
def pubPcp (x : PubSt) : Nat := fld (pubW x 0) 9 3
def pubTenant (x : PubSt) : Nat := fld (pubW x 2) 16 16
def pubMember (x : PubSt) (m : Nat) : Bool := if m < 32 then bit (pubW x 1) m else bit (pubW x 2) (m - 32)
def pubT1 (x : PubSt) : Nat := fld (pubW x 6) 0 16
def pubT0 (x : PubSt) : Nat := fld (pubW x 6) 16 16

/-- The interval that repetitions do not reach, in µs. -/
def pubLimit (x : PubSt) : Nat := if pubT0 x = 0 then 65536000 else pubT0 x * 1000

def srcMac (s : State) : List Byte := beBytes 2 (rdF s (fioSrcMac + 4) 0 16) ++ beBytes 4 (rd s fioSrcMac).toNat

/-- Accepted levels of the inputs and output levels. -/
def fiState (s : State) : Nat := (rd s fioFiStat).toNat
def foState (s : State) : Nat := (List.range 16).foldl (fun n j => n + b2n (foOf s j).level * 2 ^ j) 0

/-- Eight events to a frame; a state without events has one frame. -/
def chunks : Nat → List (List Nat) → List (List (List Nat))
  | 0, l => [l]
  | n + 1, l => if l.length ≤ 8 then [l] else l.take 8 :: chunks n (l.drop 8)
def pubChunks (x : PubSt) : List (List (List Nat)) := chunks 32 x.events

/-- Levels of FO and FI members, as one number with the inputs lowest, before some events happened. -/
def undoEvents (evs : List (List Nat)) (n : Nat) : Nat := evs.foldl (fun n e => Nat.xor n (2 ^ e.headD 0)) n

/-- A compact frame (R344) with the events `evs`, after which the state's events `later` came. -/
def compactFrame (s : State) (j : Nat) (x : PubSt) (evs later : List (List Nat)) (seq : Nat) (rep : Bool) : List Byte :=
  let levels := undoEvents later (fiState s + foState s * 2 ^ 32)
  let tag := if bit (pubW x 0) 8 then beBytes 2 0x8100 ++ beBytes 2 (pubPcp x * 8192 + fld (pubW x 0) 16 12) else []
  let dev := if casRole s = 0 then 0 else rdF s casDevId 0 20
  beBytes 2 (fld (pubW x 5) 0 16) ++ beBytes 4 (pubW x 4).toNat ++ srcMac s ++ tag ++ beBytes 2 (rdF s fioEtype 0 16) ++
  beBytes 1 1 ++ beBytes 1 (evs.length + 16 * b2n rep) ++ beBytes 3 dev ++ beBytes 1 j ++ beBytes 4 (seq % 2 ^ 32) ++
  beBytes 4 levels ++ beBytes 2 (levels / 2 ^ 32) ++ evs.flatMap (fun e => e.map (BitVec.ofNat 8))

/-- A UtcTime of a time in ns. -/
def utcTime (s : State) (t : Nat) : List Byte :=
  let q := b2n (rdBit s fioUtc 31) * 128 + b2n (!rdBit s timStat 1) * 64 + b2n (!timValid s) * 32 + 24
  beBytes 4 (unsgn 32 ((t / 10 ^ 9 : Int) - rdF s fioUtc 0 16)) ++ beBytes 3 (t % 10 ^ 9 * 2 ^ 24 / 10 ^ 9) ++ beBytes 1 q

def noTmpl : Goose := ⟨[], 0, 0, 0, []⟩

/-- A GOOSE frame (R345): the template with its places filled. -/
def gooseFrame (s : State) (j : Nat) (x : PubSt) : List Byte :=
  let g := tget noTmpl s.fio.tmpl j
  let b0 := g.bytes.map (BitVec.ofNat 8)
  let b1 := overwrite (overwrite (overwrite b0 g.stOff (beBytes 4 x.stNum)) g.sqOff (beBytes 4 x.sqNum)) g.tOff (utcTime s x.at_)
  g.pos.foldl (fun b p =>
    let lvl := if p.2.1 < 32 then nbit (fiState s) p.2.1 else nbit (foState s) (p.2.1 - 32)
    let t := if p.2.1 < 32 then (fiOf s p.2.1).last else (foOf s (p.2.1 - 32)).last
    overwrite b p.1 (if p.2.2 = 0 then [if lvl then 1 else 0] else utcTime s t)) b1

/-- Set 0's frame as the Primrose plan sends it (R448): an HSR tag with the east die's generator 16,383, LAN A on port 7. -/
def primroseFrame (bs : List Byte) (p seq : Nat) : List Byte :=
  let o := afterTags bs 4 12
  let b := bs.take o ++ beBytes 2 0x892F ++ beBytes 2 (b2n (p == 135) * 4096 + (bs.length - o + 4) % 4096) ++ beBytes 2 seq ++ bs.drop o
  padFrame b

/-- One frame of a set to its ports. -/
def pubSend (j : Nat) (x : PubSt) (bs : List Byte) (s : State) : State :=
  if j = 0 ∧ s.start.handedOver = false then
    let q := drawSeq 0 16383 s
    (pubPorts x).foldl (fun t p => if ringPort p then ringSend p (primroseFrame bs p q.1) t else t) q.2
  else
    sendFrom 34 (pubPorts x) bs (pubPcp x) (pubTenant x) none false true s

/-- The frames of a set's present state. -/
def pubFrames (j : Nat) (rep : Bool) (s : State) : State :=
  let x := pubOf s j
  match pubFormat x with
  | 1 => (pubChunks x).zipIdx.foldl (fun t q => pubSend j x (compactFrame t j x q.1 (x.events.drop (8 * (q.2 + 1))) (x.frameSeq + q.2) rep) t) s
  | 2 => pubSend j x (gooseFrame s j x) s
  | _ => s

def wrapOne (n : Nat) : Nat := if n + 1 < 2 ^ 32 then n + 1 else 1

/-- A new state (R342). -/
def pubState (j : Nat) (events : List (List Nat)) (s : State) : State :=
  let x := pubOf s j
  if pubFormat x = 0 then s
  else
    let iv := if pubT1 x ≠ 0 ∧ pubT1 x < pubLimit x then pubT1 x else 0
    let y := { x with events := events, fresh := false, interval := iv, beats := decide (iv = 0) && decide (pubT0 x ≠ 0),
                      frameSeq := x.seqNext + 1, stNum := wrapOne x.stNum, sqNum := 0, at_ := netNs s, sentAt := s.tim.cnt }
    let z := { y with seqNext := (x.seqNext + (pubChunks y).length) % 2 ^ 32 }
    pubFrames j false (setPub j z s)

/-- The repetition whose interval has passed. -/
def pubRepeat (j : Nat) (s : State) : State :=
  let x := pubOf s j
  let due := x.sentAt + x.interval * 1000
  if x.interval = 0 ∨ pubFormat x = 0 ∨ s.tim.cnt < due then s
  else
    let n := 2 * x.interval
    let more := decide (n < pubLimit x)
    pubFrames j true (setPub j { x with sqNum := wrapOne x.sqNum, interval := if more then n else 0,
                                        beats := !more && decide (pubT0 x ≠ 0), sentAt := due } s)
def execPubRepetition (j : Nat) (s : State) : Out3 := needs (decide (j < 8)) (if j < 8 then pubRepeat j s else s)

/-- The heartbeat whose T0 has passed. -/
def pubBeat (j : Nat) (s : State) : State :=
  let x := pubOf s j
  let due := x.sentAt + pubT0 x * 10 ^ 6
  if !x.beats ∨ pubFormat x = 0 ∨ s.tim.cnt < due then s
  else pubFrames j true (setPub j { x with sqNum := wrapOne x.sqNum, sentAt := due } s)
def execPubHeartbeat (j : Nat) (s : State) : Out3 := needs (decide (j < 8)) (if j < 8 then pubBeat j s else s)

/-- The event queue taken by the frame builder: records to the event ring, and one new state for each set of which an
event is a set event (R340, R342). -/
def fioDrain (s : State) : State :=
  if s.fio.evq.isEmpty then s
  else
    let q := s.fio.evq
    let s0 := { s with fio := { s.fio with evq := [] } }
    let s1 := q.foldl (fun t e =>
      if e.ring then
        (ringPost (fioBase + fioEventRing) 256 1 (((List.range 4).map (fun i =>
          wd (e.bytes.getD (4 * i) 0 + e.bytes.getD (4 * i + 1) 0 * 2 ^ 8 + e.bytes.getD (4 * i + 2) 0 * 2 ^ 16 +
            e.bytes.getD (4 * i + 3) 0 * 2 ^ 24)))) t).2
      else t) s0
    (List.range 8).foldl (fun t j =>
      let mine := (q.filter (fun e => pubMember (pubOf t j) e.mem)).map (·.bytes)
      if mine.isEmpty then t else pubState j mine t) s1

/-- The Primrose publication of reset (R346), which starts in step 4. -/
def primrosePub (s : State) : PubSt :=
  { restPub with cfg := [wd (1 + 3 * 16 + 256 + 7 * 512 + (4080 + rdF s (glbBase + 0x20) 3 3) * 2 ^ 16), 0xFFFFFFFF, 0,
                         wd (7 + 135 * 256), 0x4E000001, 0x034D, wd (2000 + 1000 * 2 ^ 16)] }

/-! ### Commands (R357); their payloads are this model's -/

def ringPortsOk (s : State) (x : PubSt) : Bool := (pubPorts x).all (fun p => portExists s p)

/-- Word 0 the input, word 1 an FIO_FI_CFG value. -/
def bodyFiCfg : Body := fun _ f s =>
  lenIs f 8 s <| inRange (decide ((pw f 0).toNat < 32)) 0 s <| inRange (decide (pf f 1 24 8 = 0)) 1 s <|
  ok [] (fiCfgWrite (pw f 0).toNat (pw f 1) s)

/-- Word 0 the first input, word 1 how many.  Five words for each: [0] accepted level, [1] sampled level, [2] an edge has
been accepted, [15:8] its QUAL, [31:16] MSEQ; FIO_FI_COUNT; the last edge's NS and SEC. -/
def bodyFiRead : Body := fun _ f s =>
  lenIs f 8 s <| inRange (decide ((pw f 0).toNat < 32)) 0 s <| inRange (decide ((pw f 0).toNat + (pw f 1).toNat ≤ 32)) 1 s <|
  ok ((List.range (pw f 1).toNat).flatMap (fun k =>
    let i := (pw f 0).toNat + k
    let x := fiOf s i
    [wd (b2n (rdBit s fioFiStat i) + 2 * b2n (rdBit s fioFiRaw i) + 4 * b2n x.seen + x.qual * 2 ^ 8 + x.mseq * 2 ^ 16),
     rd s (fiCount i), wd (x.last % 10 ^ 9), loW (x.last / 10 ^ 9), hiW (x.last / 10 ^ 9)])) s

/-- Word 0 the set, words 1 to 7 its fields. -/
def bodyFioPubSet : Body := fun _ f s =>
  lenIs f 32 s <| inRange (decide ((pw f 0).toNat < 8)) 0 s <|
  let x := { pubOf s (pw f 0).toNat with cfg := (List.range 7).map (fun i => pw f (1 + i)), fresh := true }
  inRange (decide (pubFormat x ≠ 3) && decide (pf f 1 2 2 = 0) && decide (pf f 1 12 4 = 0) && decide (pf f 1 28 4 = 0)) 1 s <|
  inRange (ringPortsOk s x) 4 s <| inRange (decide (pf f 6 16 16 = 0)) 6 s <|
  ok [] (pubState (pw f 0).toNat [] (setPub (pw f 0).toNat { x with interval := 0, beats := false, fresh := false } s))

/-- Word 0 [2:0] the set, [24:16] template bytes; word 1 [8:0] ST_OFF, [24:16] SQ_OFF; word 2 [8:0] T_OFF, [21:16] data
positions; a word for each, [8:0] offset, [21:16] member, [24] kind; then the bytes. -/
def bodyFioGooseTemplate : Body := fun _ f s =>
  lenOk (decide (12 ≤ f.length)) s <|
  let n := pf f 0 16 9
  let k := pf f 2 16 6
  lenIs f (12 + 4 * k + 4 * ((n + 3) / 4)) s <|
  inRange (decide (pf f 0 3 13 = 0) && decide (n ≤ 256) && decide (pf f 0 25 7 = 0)) 0 s <|
  inRange (decide (pf f 1 0 9 + 4 ≤ n) && decide (pf f 1 16 9 + 4 ≤ n)) 1 s <|
  inRange (decide (pf f 2 0 9 + 8 ≤ n) && decide (k ≤ 48)) 2 s <|
  let pos := (List.range k).map (fun i => (pf f (3 + i) 0 9, pf f (3 + i) 16 6, pf f (3 + i) 24 1))
  match pos.findIdx? (fun p => decide (48 ≤ p.2.1) || decide (n < p.1 + (if p.2.2 = 0 then 1 else 8))) with
  | some i => err eRange (3 + i) s
  | none =>
    let bytes := (List.range n).map (fun i => fld (pw f (3 + k + i / 4)) (8 * (i % 4)) 8)
    ok [] { s with fio := { s.fio with tmpl := tset noTmpl s.fio.tmpl (pf f 0 0 3) ⟨bytes, pf f 1 0 9, pf f 1 16 9, pf f 2 0 9, pos⟩ } }

/-- Word 0 an FIO_EVT_CFG value, words 1 and 2 the base. -/
def bodyFioEventRingCfg : Body := fun _ f s =>
  lenIs f 12 s <| inRange (decide (pf f 0 2 4 ≤ 8)) 0 s <|
  let b := fioBase + fioEventRing
  ok [] (ringCfgWrite b 8 (pw f 0) (wr (b + 4) (pw f 2) (wrM b 0xFFFFF000 (pw f 1) s)))

def bodyFioUtcOffset : Body := fun _ f s =>
  lenIs f 4 s <| inRange (decide (pf f 0 16 15 = 0)) 0 s <| ok [] (wr fioUtc (pw f 0) s)

/-- Word 0 the output, word 1 an FIO_FO_CFG value, which the pin record keeps (R354). -/
def bodyFoCfg : Body := fun _ f s =>
  lenIs f 8 s <| inRange (decide ((pw f 0).toNat < 16)) 0 s <|
  inRange (decide (pf f 1 29 3 = 0) && decide (pf f 1 25 2 ≠ 3)) 1 s <|
  let j := (pw f 0).toNat
  let s1 := foCfgWrite j (pw f 1) s
  ok [] { s1 with fio := { s1.fio with pinRec := tset none s1.fio.pinRec j (some (rd s1 (foCfg j))) } }

/-- Words 0 and 1 are masked writes of FIO_FO_FORCE_EN and FIO_FO_FORCE_VAL, mask in [31:16]. -/
def bodyFoForce : Body := fun _ f s =>
  lenIs f 8 s <|
  ok [] (forceWrite fioForceEn (pf f 0 16 16) (pw f 0) (forceWrite fioForceVal (pf f 1 16 16) (pw f 1) s))

/-- Word 0 [5:0] the event, [11:8] PIN, [13:12] OP, [16] EN; words 1 to 3 START NS and SEC; word 4 PERIOD. -/
def bodyFoTimeEvent : Body := fun _ f s =>
  lenIs f 20 s <|
  inRange (decide (pf f 0 6 2 = 0) && decide (pf f 0 12 2 ≠ 3) && decide (pf f 0 14 2 = 0) && decide (pf f 0 17 15 = 0)) 0 s <|
  inRange (decide ((pw f 1).toNat < 10 ^ 9)) 1 s <| inRange (decide (pf f 3 16 16 = 0)) 3 s <|
  let start := w64 (pw f 2) (pw f 3) * 10 ^ 9 + (pw f 1).toNat
  let period := (pw f 4).toNat
  let soon := netNs s + 1000
  let en := bit (pw f 0) 16
  inRange (!(en && period == 0 && decide (start < soon))) 1 s <|
  let next := if period = 0 ∨ netNs s ≤ start then start else start + (soon - start + period - 1) / period * period
  ok [] (setTev (pf f 0 0 6) ⟨pf f 0 8 4, pf f 0 12 2, en, start, period, next⟩ s)

/-- Word 0 a mask of outputs. -/
def bodyFoRelease : Body := fun _ f s =>
  lenIs f 4 s <| inRange (decide (pf f 0 16 16 = 0)) 0 s <| refuse (decide (4 ≤ s.fcl.hold)) eBusy s <|
  ok [] ((bitsOf 16 (pw f 0).toNat).foldl (fun t j => foRelease j t) s)

/-- Word 0 the first output, word 1 how many.  Three words for each: [0] logical state, [1] pin level, [2] fail, [3] forced,
[4] pulse running, [31:16] MSEQ; the last change's NS and SEC [31:0]; then the seven counters. -/
def bodyFoRead : Body := fun _ f s =>
  lenIs f 8 s <| inRange (decide ((pw f 0).toNat < 16)) 0 s <| inRange (decide ((pw f 0).toNat + (pw f 1).toNat ≤ 16)) 1 s <|
  ok ((List.range (pw f 1).toNat).flatMap (fun k =>
    let j := (pw f 0).toNat + k
    let x := foOf s j
    [wd (b2n x.state + 2 * b2n x.level + 4 * b2n x.fail + 8 * b2n (rdBit s fioForceEn j) + 16 * b2n x.pulse + x.mseq * 2 ^ 16),
     wd (x.last % 10 ^ 9), loW (x.last / 10 ^ 9)]) ++ (List.range 7).map (fun i => rd s (fioCnt i))) s

end Sys2Proof.Machine
end

