-- ==== Sys2Proof/Machine/Primrose.lean ====
section
/-! DEFINITION. The Primrose plan (R444 to R448), the drop to Primrose (R454), firmware going down (R461, R462), and what
a level 5 reaction stops (R480). -/

namespace Sys2Proof.Machine
open Sys2Proof

/-! ### Pins (R442, R449, R550) -/

abbrev glbStatus : Nat := glbBase + 0x24
abbrev sbFault : Nat := 0
abbrev sbSafe : Nat := 1
abbrev sbTherm : Nat := 2
abbrev sbFull : Nat := 3
abbrev sbWarm : Nat := 4
abbrev sbWestUp : Nat := 5

/-- PWRGD: low, toggling, or high. -/
inductive Pwrgd where
  | low | toggling | high
  deriving DecidableEq, Repr
def pwrgd (s : State) : Pwrgd :=
  if !s.start.rails || s.start.inReset then .low else if rdBit s glbStatus sbFull then .high else .toggling

/-! ### Frames on the ring ports (R445 to R447) -/

def otherRing (p : Nat) : Nat := if p = 7 then 135 else 7
def ringDomain (q : Nat) : Nat := if q = 7 then 14 else 15

/-- Where the first tag after the addresses and a Gnoyr tag lies. -/
def firstTag (s : State) (bs : List Byte) : Nat := if beAt bs 12 2 = casEtype s then 28 else 12

/-- The HSR sequence number of a safety frame: the safety VLAN outermost, PCP 6 or 7, an HSR tag after the VLAN tags. -/
def safetySeq (s : State) (bs : List Byte) : Option Nat :=
  let o := firstTag s bs
  let tci := beAt bs (o + 2) 2
  let h := afterTags bs 4 o
  if isVlan (beAt bs o 2) = true ∧ tci % 4096 = 4080 + rdF s (glbBase + 0x20) 3 3 ∧ 6 ≤ tci / 8192 ∧ beAt bs h 2 = 0x892F ∧
      h + 6 ≤ bs.length then some (beAt bs (h + 4) 2)
  else none

/-- The copy for the MP: dropped while firmware is down or when 64 wait. -/
def ringToMp (bs : List Byte) (mac seq : Nat) (s : State) : State :=
  let r := dupCheck 0 mac seq 13 s
  if !r.1 then bumpPri 2 r.2
  else if !fwUp r.2 || decide (64 ≤ r.2.start.mpq.length) then bumpPri 3 r.2
  else { r.2 with start := { r.2.start with mpq := r.2.start.mpq ++ [bs] } }

/-- The copy for the other ring port. -/
def ringRelay (p : Nat) (bs : List Byte) (mac seq : Nat) (s : State) : State :=
  let q := otherRing p
  let r := dupCheck (dieOf q) mac seq (ringDomain q) s
  if r.1 then ringSend q bs (bumpPri 0 r.2) else bumpPri 2 r.2

/-- The plan's treatment of a frame (R445). -/
def ringFrame (p : Nat) (bs : List Byte) (good : Bool) (s : State) : State :=
  if 1518 < bs.length then bumpPri 4 s
  else if bytesAt bs 6 6 = srcMac s then s
  else match safetySeq s bs with
    | some seq => if good then ringToMp bs (beAt bs 6 6) seq (ringRelay p bs (beAt bs 6 6) seq s) else bumpPri 1 s
    | none => bumpPri 1 s

/-- A frame on a ring port that the plan has: lost while the plan does not run or the port is down. -/
def execPrimroseFrame (p : Nat) (bytes : List Byte) (good : Bool) (s : State) : Out3 :=
  needs (ringPort p && decide (14 ≤ bytes.length))
    (if ringPort p && decide (14 ≤ bytes.length) && primrosePort s p && s.start.plan && portUp s p then
      ringFrame p bytes good s else s)

/-- Firmware takes one waiting MP copy. -/
def mpqTake (s : State) : State :=
  if fwUp s then { s with start := { s.start with mpq := s.start.mpq.drop 1 } } else s

/-! ### Firmware down (R397, R403, R404, R461, R462) -/

/-- Every mailbox session ends, and with it its transfer buffer (R411). -/
def endSessions (s : State) : State := { s with mbx := { s.mbx with sess := [], xfer := [] } }

/-- A command that had begun is answered with E_RESTARTED; DETAIL 0, for the journal holds nothing of it. -/
def restartAnswer (k op : Nat) (s : State) : State :=
  let m := k % 8
  let p := k / 8
  if m = 2 then
    match mb2Of s p with
    | ws :: rest => respondSession op (frameOf 2 p ws).2 ⟨eRestarted, 0, [], setMb2 p rest s⟩
    | [] => s
  else if mbRing s m then
    let cons := mbxReg m mbxCmdConsOff
    respondRing op (frameOf m 0 (readSlot m (rd s cons).toNat s)).2 ⟨eRestarted, 0, [], inc cons s⟩
  else if mbBusy s m then respondRegister op (frameOf m 0 (readArea m s)).2 ⟨eRestarted, 0, [], s⟩
  else s

/-- The commands that were executing when firmware went down, those with a worker among them, are answered once it is back;
those that waited for a lock had not begun. -/
def answerRestarted (s : State) : State :=
  let fs := s.cas.fwd.filter (fun w => decide (w.mb < 5))
  let ws := s.mbx.waits.filter (fun w => !lockedOut s w.1 w.2 && !(fs.any (fun x => x.mb == w.1)))
  let s1 := fs.foldl (fun t w => answerForward w eRestarted 0 [] t) { s with cas := { s.cas with fwd := [] } }
  let s2 := ws.foldl (fun t w => restartAnswer w.1 w.2 t) s1
  { s2 with mbx := { s2.mbx with waits := [] } }

/-- FW_UP clears; sessions end, the staging lists of gates are gone (R413), the MP's queues empty, and so is
its ring of dumps (R504). -/
def firmwareDown (s : State) : State :=
  let s1 := wrBit mbxFwStat 3 false (wrBit mbxFwStat 0 false (endSessions s))
  { s1 with start := { s1.start with loader := false, mpq := [] }, mbx := { s1.mbx with gateStg := [] },
            ucode := { s1.ucode with gaps := [] }, dmp := { s1.dmp with latest := [] } }

/-! ### The drop to Primrose (R454) -/

/-- A handed-over ring port returns to the plan; its configuration is held for the next hand-over. -/
def ringBack (s : State) : State :=
  if !s.start.handedOver then s
  else
    let regs := [7, 135].flatMap (fun p => [engPortProf 0 p, engPortProf 1 p, frePortCfg p])
    let held := regs.map (fun a => (a, rd s a))
    let s1 := regs.foldl (fun t a => wr a (resetOf a) t) s
    { s1 with start := { s1.start with handedOver := false, held := held } }

/-- Every queue of the ports other than the ring ports is flushed (R255). -/
def flushOthers (s : State) : State :=
  (allPorts s).foldl (fun t p => if ringPort p then t else
    (portNodes t (dieOf p) (p % 128)).foldl (fun u n => flushNode dropLink (dieOf p) n u) t) s

def dropToPrimrose (s : State) : State :=
  let s1 := flushOthers { s with start := { s.start with dropped := true }, mbx := { s.mbx with waits := [] } }
  failOuts (wrF mbxFwStat 1 2 0 (firmwareDown (wrBit glbStatus sbSafe true (wrBit glbStatus sbFull false (ringBack s1)))))

/-- The boot ROM loader answers MB0 and MB3 (R467): FW_UP with STAGE 0. -/
def loaderUp (s : State) : State :=
  let s1 := wrBit mbxFwStat 0 true (wrF mbxFwStat 1 2 0 s)
  { s1 with start := { s1.start with loader := true } }

/-- The Primrose plan begins (R446, R448): own address and LIFETIME of the duplicate tables, the ring ports' profiles, and
publication set 0 while it holds the Primrose publication or nothing. -/
def enterPrimrose (s : State) : State :=
  let own := fun (t : State) (d : Nat) =>
    let a := freBase d + 0x40
    let t1 := wr (a + 4) (wd (Config.baseMac / 2 ^ 32 + 2 ^ 31)) (wr a (wd Config.baseMac) t)
    if rdF t1 (freDupCfg d) 0 16 = 0 then wrF (freDupCfg d) 0 16 400 t1 else t1
  let s1 := own (own s 0) 1
  let s2 := { s1 with start := { s1.start with plan := true, bistFail := false } }
  let s3 := if (pubOf s2 0).cfg.isEmpty then setPub 0 (primrosePub s2) s2 else s2
  if pubFormat (pubOf s3 0) ≠ 0 then pubState 0 [] s3 else s3

/-! ### Failed starts (R464 to R466) -/

/-- Causes of a failed start (R469). -/
abbrev causeOverrun : Nat := 1
abbrev causeBist : Nat := 2
abbrev causePuf : Nat := 3
abbrev causeImage : Nat := 4
abbrev causeHbm : Nat := 5
abbrev causeJournal : Nat := 6
abbrev causeFirmware : Nat := 7
abbrev causeWest : Nat := 8

/-- A failure in step 6, or in firmware before RESTORED. -/
def imageCause (f : FailRec) : Bool := f.step == 6 || f.cause == causeFirmware

/-- Failed starts of the last 60 s. -/
def recentFails (s : State) : List FailRec := s.start.fails.filter (fun f => decide (s.tim.cnt < f.time + 60 * 10 ^ 9))

/-- A start fails at a step for a cause: recorded, the engine in Primrose or kept out of it, and a failed-repeat start,
unless it is the third within 60 s. -/
def startFail (step cause : Nat) (s : State) : State :=
  let f : FailRec := ⟨s.tim.cnt, step, cause⟩
  let swap := rdF s (glbBase + 0x20) 6 2 = 0 ∧ s.start.reached = false ∧ imageCause f = true ∧ (match s.start.fails.getLast? with | some g => imageCause g | none => false) = true
  let l := recentFails s ++ [f]
  let bist := step == 3 && cause == causeBist
  let s1 := raise srcStartFail 0 0 0 { s with start := { s.start with
    fails := l, reached := false, restarting := false, swap := if swap then !s.start.swap else s.start.swap } }
  let s2 := if bist then
      failOuts (firmwareDown (wrBit glbStatus sbFault true (wrBit glbStatus sbSafe true
        { s1 with start := { s1.start with bistFail := true, plan := false } })))
    else dropToPrimrose s1
  if 3 ≤ l.length then
    loaderUp (raise srcStartLoop 0 0 0 { s2 with start := { s2.start with loop := true } })
  else { s2 with start := { s2.start with kind := 3, step := if bist then 2 else 4, began := s.tim.cnt, origin := s.tim.cnt, toPeony := 0 } }

/-! ### Level 5 (R480, R481) -/

/-- All forwarding stops; FAULT_N asserted, the outputs in their fail state, the MP held in reset. -/
def holdAll (s : State) : State :=
  failOuts (wrBit glbStatus sbFault true (wrBit glbStatus sbFull false
    (firmwareDown { s with fcl := { s.fcl with hold := 5 } })))

end Sys2Proof.Machine
end

