-- ==== Sys2Proof/Machine/Units.lean ====
section
/-! DEFINITION. The units that reactions and tests act on (R482 to R490): isolation, spare pipelines, sibling service,
resets, rows remapped at once. -/

namespace Sys2Proof.Machine
open Sys2Proof

/-! ### States and where they show (R488, R493) -/

/-- The pipeline that does an index's work: the spare, or itself. -/
def workerOf (s : State) (n : Nat) : Nat := if spareServes s n then 32 + n / 16 else n

/-- The register of a physical pipeline, whichever index reaches it (R421). -/
def pipReg (s : State) (n off : Nat) : Nat := pipBase (physPip s n) + off
def glnStat (g : Nat) : Nat := glnBase g + 4

/-- A unit's state, and its registers' view of it. -/
def showUnit (kind idx : Nat) (s : State) : State :=
  let u := unitOf s kind idx
  if kind = 1 then
    let a := pipReg s idx 4
    wrF (pipReg s idx 0) 0 2 u.state (wrF a 0 2 u.state (wrBit a 4 u.pass (wrBit a 5 u.fail s)))
  else if kind = 2 then wrF (glnStat idx) 0 2 u.state (wrBit (glnStat idx) 4 u.pass (wrBit (glnStat idx) 5 u.fail s))
  else s
def setState (kind idx st : Nat) (s : State) : State :=
  let since := if st = 1 then s.tim.cnt else 0
  islService false (showUnit kind idx (setUnit kind idx { unitOf s kind idx with state := st, since := since } s))

/-- A unit of R482 is out of service (R475, R483). -/
def unitOos (s : State) (kind idx : Nat) : Bool :=
  match kind with
  | 1 => outOfService s 1 (workerOf s idx)
  | 3 => outOfService s 3 idx || outOfService s 2 (idx / 80)
  | 9 => islOos s idx
  | 0 => false
  | k => outOfService s k idx

/-! ### Blocks reset and restored from the shadow (R405, R495) -/

/-- Every configuration register of some addresses takes its shadow value; counters and status stay. -/
def restoreRegs (p : Nat → Bool) (s : State) : State :=
  let mine := ((s.regs.map (·.1)) ++ (s.shadow.regs.map (·.1))).filter (fun a => p a && configReg a)
  mine.foldl (fun t a => { t with regs := tset (resetOf a) t.regs a (shadowValue t a) }) s
def inPip (n a : Nat) : Bool := decodeAddr a == some (.pip n, a - pipBase n)

/-- A pipeline takes another's configuration, in force and shadow (R486), and its counters (R511). -/
def copyPip (src dst : Nat) (s0 : State) : State :=
  let counts := (s0.regs.filter (fun q => (inPip src q.1 || inPip dst q.1) && !configReg q.1 && decide (16 ≤ q.1 % 65536))).map
    (fun q => q.1 % 65536)
  let s := counts.foldl (fun t o =>
    { t with regs := tset (resetOf (pipBase dst + o)) t.regs (pipBase dst + o) (tget (resetOf (pipBase src + o)) t.regs (pipBase src + o)) }) s0
  let mine := (s.shadow.regs.map (·.1)).filter (fun a => inPip src a && configReg a)
  let sh := mine.foldl (fun m a => tset none m (a - pipBase src + pipBase dst) (tget none s.shadow.regs a))
    (s.shadow.regs.filter (fun q => !inPip dst q.1))
  restoreRegs (inPip dst) { s with shadow := { s.shadow with regs := sh } }

/-! ### Pipelines (R486, R487) -/

/-- The packets in a pipeline's parse contexts and the copies in its rewrite contexts. -/
def inContexts (n : Nat) (s : State) : List Nat × List Nat :=
  let ks := s.path.pkts.filterMap (fun q => match q.2 with
    | some x => if x.pip = n ∧ x.phase ≠ .fifo ∧ x.phase ≠ .admitted then some q.1 else none
    | none => none)
  let cs := s.path.copies.filterMap (fun q => match q.2 with
    | some x => if pgOf x.port = n ∧ x.phase ≠ .waiting ∧ x.phase ≠ .queued then some q.1 else none
    | none => none)
  (ks, cs)

/-- They are discarded (R486). -/
def dropContexts (n : Nat) (s : State) : State :=
  let ks := (inContexts n s).1
  let cs := (inContexts n s).2
  let s1 := cs.foldl (fun t c => discardCopy c 7 t) (ks.foldl (fun t k => discardPkt k 2 t) s)
  incBy (pipBase n + 0x10) (ks.length + cs.length) s1

/-- The index whose packets a physical pipeline carries. -/
def indexOf (s : State) (n : Nat) : Nat := if n < 32 then n else match s.bus.spareOf.getD (n - 32) 0 with | 0 => n | k + 1 => 16 * (n - 32) + k

/-- The die's spare is free to replace a pipeline. -/
def spareFree (s : State) (d : Nat) : Bool := s.bus.spareOf.getD d 0 == 0 && !outOfService s 1 (32 + d)

/-- Isolation: contexts discarded, the islands at their floors (R49). -/
def isolatePip (n : Nat) (s : State) : State := setState 1 n 2 (dropContexts (indexOf s n) s)

/-- Level 2 on a pipeline: isolated, and re-homed by firmware when its spare is free and not bespoken. -/
def degradePip (n : Nat) (s : State) : State :=
  if outOfService s 1 n then s
  else
    let s1 := isolatePip n s
    if 32 ≤ n then s1
    else if spareFree s (n / 16) && !s.fcl.rehome.any (fun m => m / 16 == n / 16) then
      { s1 with fcl := { s1.fcl with rehome := s1.fcl.rehome ++ [n] } }
    else raise srcRehomeFail 0 1 n s1

/-- Firmware re-homes a pipeline: registers copied, indices exchanged, the spare in service (R486, R421). -/
def takeover (n : Nat) (s : State) : State :=
  let d := n / 16
  let s1 := copyPip n (32 + d) { s with fcl := { s.fcl with rehome := s.fcl.rehome.filter (· ≠ n) } }
  let s2 := islService false { s1 with bus := { s1.bus with spareOf := s1.bus.spareOf.set d (n % 16 + 1) } }
  let s3 := wrBit (pipBase n + 4) 2 true (setState 1 (32 + d) 0 s2)
  raise srcRehomeDone 0 1 n s3

/-- A pipeline takes its port group back from the spare. -/
def takeBack (n : Nat) (s : State) : State :=
  let d := n / 16
  let s1 := wrBit (pipBase n + 4) 2 false (dropContexts n s)
  let s2 := copyPip (32 + d) n { s1 with bus := { s1.bus with spareOf := s1.bus.spareOf.set d 0 } }
  raise srcRehomeDone 0 1 n (setState 1 n 0 (setState 1 (32 + d) 0 s2))

def execSpareTakeover (n : Nat) (s : State) : Out3 :=
  needs (decide (n < 32)) (if s.fcl.rehome.contains n && fwUp s && spareFree s (n / 16) then takeover n s else s)

/-! ### Glens (R490) -/

def siblingOf (g : Nat) : Nat := if g % 2 = 0 then g + 1 else g - 1

/-- Sibling service under PLAN 0: the sibling serves the glen's ports, and firmware installs into it the exact-match
entries that it holds records of. -/
def siblingService (g : Nat) (s : State) : State :=
  let b := siblingOf g
  let s1 := wrBit (glnStat g) 3 true (wrBit (glnStat b) 2 true s)
  if fwUp s then
    ((emRecs s).filter (fun r => r.glen == g)).foldl
      (fun t r => (opSubmit b (.emInsert r.table r.key r.action r.isStatic) none t).2) s1
  else s1
def siblingEnd (g : Nat) (s : State) : State := wrBit (glnStat g) 3 false (wrBit (glnStat (siblingOf g)) 2 false s)

/-! ### Resets (R75, R482) -/

/-- The clock domain of a unit that has one: a port group's, a stack's (R7). -/
def unitDomain (kind idx : Nat) : Option Nat :=
  if kind = 4 then some idx else if kind = 5 then some (33 + idx) else none
def inDomain (kind idx : Nat) (act : Nat → State → State) (s : State) : State :=
  match unitDomain kind idx with
  | some d => act d s
  | none => s

/-- A unit held in reset: a pipeline's contexts are lost, the cells of a port group or a stack see their partner absent. -/
def holdReset (kind idx : Nat) (s : State) : State :=
  let s1 := inDomain kind idx domainReset (islService false (setUnit kind idx { unitOf s kind idx with inReset := true } s))
  if kind = 1 then dropContexts (indexOf s1 idx) s1
  else if kind = 5 then wrF (hbmBase idx + 4) 0 3 1 s1
  else s1

/-- A unit released from reset: its registers from the shadow, its cells in RESYNC, a stack trained in full. -/
def releaseReset (kind idx : Nat) (s : State) : State :=
  let u := unitOf s kind idx
  if !u.inReset then s
  else
    let s1 := inDomain kind idx domainReleased (islService true (setUnit kind idx { u with inReset := false } s))
    if kind = 1 then restoreRegs (inPip idx) s1
    else if kind = 2 then restoreRegs (fun a => decodeAddr a == some (.gln idx, a - glnBase idx)) s1
    else if kind = 4 then s1
    else if kind = 5 then incSat (hbmBase idx + 8) 24 8 (wrBit (hbmBase idx + 4) 4 false (wrF (hbmBase idx + 4) 0 3 3 s1))
    else restoreRegs (fun a => blockIndex a == idx) s1
def execBlockResetRelease (kind idx : Nat) (s : State) : Out3 := .next (releaseReset kind idx s)

/-- A stack out of service: spilling on its die stops (R239). -/
def stackOut (d : Nat) (s : State) : State := setState 5 d 2 (wrF (hbmBase d + 4) 0 3 4 s)

/-! ### Rows remapped at once (R482) -/

/-- A row flagged for the third time. -/
def flagNow (cls mac row spares : Nat) (retire : State → State) (s : State) : State :=
  flagRow cls mac row spares retire { s with bud := { s.bud with rowFlags := tset 0 s.bud.rowFlags (key cls (mac * 2 ^ 20 + row)) 2 } }

/-- The row that a source named by ADDR; overflow entries, next hops and wide memories have no spare row to take. -/
def rowNow (src addr idx : Nat) (s : State) : State :=
  if src = srcEmtParity ∧ idx < 640 then
    flagNow clsEm (bktFlagMac (idx / 80) addr) (addr % 2048) 16 (retireBucket (idx / 80) addr) s
  else if src = srcLpmParity ∧ idx < 640 then
    flagNow clsPfx (idx / 80 * 16 + addr / 2048) (addr % 2048) 16 (retirePrefix (idx / 80) addr) s
  else if src = srcGatParity ∧ addr < 256 then flagNow clsGat (addr / 16) (addr % 16) (Config.rowSpares clsGat)
    (raise srcSpareExhausted (addr % 16) 8 0) s
  else if src = srcSchParity ∧ idx < 2 then flagNow clsSch (16 * idx + addr / 2048) (addr % 2048) 16 (retireNode idx addr)
    (flushNode dropFlush idx addr s)
  else if src = srcPlainParity ∧ idx < 2 then
    let p := fld (wd addr) 0 19 / 16
    flagPage idx p (pagePut idx p { pageGet s idx p with flags := 2 } s)
  else s

end Sys2Proof.Machine
end

