-- ==== Sys2Proof/Machine/Faults.lean ====
section
/-! DEFINITION. The fault collector (R471 to R485, R492) and the fault and unit commands (R488, R491, R557). -/

namespace Sys2Proof.Machine
open Sys2Proof

/-! ### FCL's registers -/

abbrev fclCfg : Nat := fclBase + 0x04
abbrev fclStatus : Nat := fclBase + 0x10
abbrev fclConseq : Nat := fclBase + 0x20
abbrev fclOpen : Nat := fclBase + 0x30
abbrev fclAlso : Nat := fclBase + 0x40
abbrev fclFirst : Nat := fclBase + 0x50
abbrev fclLvl : Nat := fclBase + 0x70
abbrev fclLogStat : Nat := fclBase + 0x80
abbrev fclLogData : Nat := fclBase + 0x90
def fclSrcCfg (n : Nat) : Nat := fclBase + 0x100 + 4 * n
def fclCnt (n : Nat) : Nat := fclBase + 0x400 + 4 * n
def fclNbr (n w : Nat) : Nat := fclBase + 0x1000 + 16 * n + 4 * w
abbrev srcCount : Nat := 112

/-- Bit n of a register file of 32-bit words. -/
def maskBit (s : State) (base n : Nat) : Bool := rdBit s (base + 4 * (n / 32)) (n % 32)
def setMaskBit (base n : Nat) (b : Bool) (s : State) : State := wrBit (base + 4 * (n / 32)) (n % 32) b s
def maskRead (s : State) (base : Nat) : Nat :=
  (rd s base).toNat + (rd s (base + 4)).toNat * 2 ^ 32 + (rd s (base + 8)).toNat * 2 ^ 64 + (rd s (base + 12)).toNat * 2 ^ 96

def sevOf (s : State) (n : Nat) : Nat := rdF s (fclSrcCfg n) 0 3
def classOf (s : State) (n : Nat) : Nat := rdF s (fclSrcCfg n) 3 5

/-- Class levels, and whether a class is open (R474). -/
def lvlOf (s : State) (c : Nat) : Nat := rdF s (fclLvl + 4 * (c / 8)) (4 * (c % 8)) 3
def setLvl (c v : Nat) (s : State) : State := wrF (fclLvl + 4 * (c / 8)) (4 * (c % 8)) 3 v s
def classOpen (s : State) (c : Nat) : Bool :=
  (List.range srcCount).any (fun n => maskBit s fclOpen n && classOf s n == c)

/-- Classes that are no longer open fall to level 0. -/
def settleLevels (s : State) : State :=
  (List.range 32).foldl (fun t c => if classOpen t c then t else setLvl c 0 t) s

/-- FCL_STATUS bits cleared: acknowledged (R472, R474). -/
def acknowledge (w : Nat) (v : Word) (s : State) : State :=
  settleLevels ([fclStatus, fclOpen, fclConseq].foldl (fun t b => wr (b + 4 * w) (rd t (b + 4 * w) &&& ~~~v) t) s)

/-- FCL_FIRST_SRC.VALID cleared: the next capture is armed (R477). -/
def firstRearm (s : State) : State :=
  (List.range 4).foldl (fun t w => wr (fclAlso + 4 * w) 0 t) (wrBit fclFirst 31 false s)

/-- FCL_LOG_STAT.COUNT and the head record, as the registers show them. -/
def showLog (s : State) : State :=
  (List.range 7).foldl (fun t j => wr (fclLogData + 4 * j) ((s.fcl.log.headD []).getD j 0) t)
    (wrF fclLogStat 0 6 s.fcl.log.length s)
def logPop (s : State) : State := showLog { s with fcl := { s.fcl with log := s.fcl.log.drop 1 } }

/-- A record appended to the log of 32, or lost (R478). -/
def logRecord (src : Nat) (r : List Word) (s : State) : State :=
  if s.fcl.log.length < 32 then showLog { s with fcl := { s.fcl with log := s.fcl.log ++ [r] } }
  else
    let t := incSat fclLogStat 16 16 s
    if src = srcFclLogLost then t else raise srcFclLogLost 0 0 0 t

/-- Firmware drains the log and keeps the latest 64 records. -/
def logDrain (s : State) : State :=
  let k := s.fcl.kept ++ s.fcl.log
  showLog { s with fcl := { s.fcl with log := [], kept := k.drop (k.length - 64) } }
def execFaultLogDrain (s : State) : Out3 := .next (if fwUp s then logDrain s else s)

/-! ### Reactions (R480 to R483) -/

/-- The unit that a reaction acts on. -/
def actUnit (s : State) (r : Raise) : Option (Nat × Nat) :=
  let is := fun (k : Nat) => if r.kind = k then some (k, r.idx) else none
  match srcUnit r.src with
  | .none => none
  | .p => is 1
  | .g => if r.kind = 3 then some (2, r.idx / 80) else is 2
  | .pg => is 4
  | .h => is 5
  | .mp => some (6, 0)
  | .b => is 7
  | .r => is 8
  | .u =>
    if r.kind = 9 then
      match islUnit r.idx with
      | some (1, n) =>
        if 32 ≤ n then (if s.bus.spareOf.getD (n - 32) 0 = 0 then none else some (1, indexOf s n))
        else if spareServes s n then none else some (1, n)
      | x => x
    else if [1, 2, 4, 5, 6, 7].contains r.kind then some (r.kind, r.idx) else none

/-- Tests in progress are aborted; their units stay isolated (R488). -/
def abortTests (s : State) : State :=
  s.fcl.units.foldl (fun t q =>
    if q.2.state = 3 then raise srcTestAbort 0 (q.1 / 2 ^ 32) (q.1 % 2 ^ 32) (setState (q.1 / 2 ^ 32) (q.1 % 2 ^ 32) 2 t) else t) s

/-- The MP reset: a firmware restart, or a failed start while firmware has not restored (R461, R464). -/
def mpReset (s : State) : State :=
  if fwStage s = 0 ∨ s.fcl.hold = 5 then s
  else if fwRestored s then domainReset 35 (firmwareDown { s with start := { s.start with restarting := true } })
  else startFail s.start.step causeFirmware s

/-- Level 4: the engine drops to Primrose and the loader answers; nothing further in Primrose. -/
def levelFour (s : State) : State :=
  if fwStage s = 0 then s
  else
    let t := loaderUp (dropToPrimrose (abortTests s))
    { t with fcl := { t.fcl with hold := max 4 t.fcl.hold }, start := { t.start with step := 4, reached := false, restarting := false } }

/-- A reaction of level 2 or 3 on a unit. -/
def actOn (lvl : Nat) (r : Raise) (kind idx : Nat) (s : State) : State :=
  match kind with
  | 1 => if lvl = 2 then degradePip (workerOf s idx) s else holdReset 1 (workerOf s idx) s
  | 2 => if lvl = 2 then siblingService idx (setState 2 idx 2 s) else holdReset 2 idx s
  | 4 => holdReset 4 idx s
  | 5 => if lvl = 2 then stackOut idx s else holdReset 5 idx s
  | 6 => if r.src = srcMpWatchdog ∧ s.start.restarting = true then s else mpReset s
  | 7 => holdReset 7 idx s
  | 8 => rowNow r.src r.addr r.idx s
  | _ => s

def react (lvl : Nat) (r : Raise) (s : State) : State :=
  if lvl < 2 then s
  else if lvl = 4 then levelFour s
  else if 5 ≤ lvl then holdAll (abortTests s)
  else match actUnit s r with
    | some (k, i) => actOn lvl r k i s
    | none => s

/-! ### Windows (R476, R485) -/

/-- The mask that a raise's window covers. -/
def windowMask (s : State) (r : Raise) : Nat :=
  let m := maskRead s (fclNbr r.src 0)
  if m ≠ 0 ∨ srcUnit r.src ≠ .u then m
  else match actUnit s r with
    | some (1, _) => nbrP
    | some (2, _) => nbrG
    | some (4, _) => nbrPg
    | some (7, _) => nbrB
    | _ => 0

def earliest : List Window → Option Window
  | [] => none
  | w :: ws => match earliest ws with
    | some v => if v.ends < w.ends then some v else some w
    | none => some w

/-- A window opened; the sixteen in use lose the one that ends first. -/
def openWindow (mask : Nat) (s : State) : State :=
  let us := rdF s fclCfg 0 16
  if us = 0 then s
  else
    let live := s.fcl.windows.filter (fun w => decide (s.tim.cnt < w.ends))
    let kept := if live.length < 16 then live else match earliest live with | some w => live.erase w | none => live
    { s with fcl := { s.fcl with windows := kept ++ [⟨mask, s.tim.cnt + 1000 * us⟩] } }
def windowExpiry (i : Nat) (s : State) : State :=
  if s.fcl.windows[i]?.any (fun w => decide (w.ends ≤ s.tim.cnt)) then
    { s with fcl := { s.fcl with windows := s.fcl.windows.eraseIdx i } }
  else s
def execFaultWindowExpiry (i : Nat) (s : State) : Out3 := .next (windowExpiry i s)

/-! ### One sample (R474) -/

/-- A fault record (R473) with its SEQ. -/
def faultRecord (s : State) (r : Raise) (lvl : Nat) (esc : Bool) (seq : Nat) : List Word :=
  [wd (r.src + sevOf s r.src * 2 ^ 8 + lvl * 2 ^ 11 + b2n esc * 2 ^ 14 + b2n r.injected * 2 ^ 15 + b2n (timValid s) * 2 ^ 16),
   wd r.addr, wd (r.idx + r.kind * 2 ^ 12 + r.master * 2 ^ 16 + r.access * 2 ^ 19), wd (netNanos s), wd (netSec s),
   wd (netSec s / 2 ^ 32 % 2 ^ 16), wd seq]

def interrupt (s : State) : State :=
  let a := if rdBit s fclCfg 16 then emit (.irqMp fclBase) s else s
  if rdBit a fclCfg 17 then emit (.msix 0 fclBase) a else a

/-- The source is only a consequence. -/
def consequential (s : State) (r : Raise) : Bool :=
  decide (sevOf s r.src ≤ 3) &&
  (unitOos s r.kind r.idx || s.fcl.windows.any (fun w => decide (s.tim.cnt < w.ends) && nbit w.mask r.src) || s.fcl.hold == 5)

/-- One source of a sample; the Bool says that this sample has made a capture. -/
def takeSource (r : Raise) (a : Bool × Bool × State) : Bool × Bool × State :=
  let s := a.2.2
  let was := maskBit s fclStatus r.src
  let s0 := setMaskBit fclStatus r.src true s
  if consequential s0 r then (a.1, a.2.1, setMaskBit fclConseq r.src true s0)
  else
    let sev := sevOf s0 r.src
    let c := classOf s0 r.src
    let esc := c != 0 && classOpen s0 c
    let lvl := if esc then min (max sev (lvlOf s0 c) + 1) 5 else sev
    let s1 := if c = 0 then s0 else setLvl c (max (lvlOf s0 c) lvl) (setMaskBit fclOpen r.src true s0)
    let mask := windowMask s1 r
    let s2 := react lvl r s1
    let s3 := if 2 ≤ lvl ∨ rdBit s2 (fclSrcCfg r.src) 9 = true then openWindow mask s2 else s2
    let ws := faultRecord s3 r lvl esc (s3.fcl.seq + 1)
    let s4 := { s3 with fcl := { s3.fcl with seq := s3.fcl.seq + 1 } }
    let held := rdBit s4 fclFirst 31
    let cap := !held && !a.1
    let s5 := if cap then
        wrBit fclFirst 31 true (ws.zipIdx.foldl (fun t q => wr (fclFirst + 4 * q.2) q.1 t) s4)
      else if a.2.1 then setMaskBit fclAlso r.src true s4 else s4
    let s6 := logRecord r.src ws s5
    (true, a.2.1 || cap, if 1 ≤ lvl ∧ (was = false ∨ 2 ≤ lvl) then interrupt s6 else s6)

/-- The sources taken: severity descending, then number; each with its first raise. -/
def takenSources (s : State) (l : List Raise) : List Raise :=
  [7, 6, 5, 4, 3, 2, 1, 0].flatMap (fun v => (List.range srcCount).filterMap (fun n =>
    if sevOf s n = v ∧ rdBit s (fclSrcCfg n) 8 = false then l.find? (fun r => r.src == n) else none))

def faultSample (s : State) : State :=
  let l := s.fcl.raised
  let s1 := l.foldl (fun t r => inc (fclCnt r.src) t)
    { s with fcl := { s.fcl with raised := [], windows := s.fcl.windows.filter (fun w => decide (s.tim.cnt < w.ends)) } }
  ((takenSources s1 l).foldl (fun a r => takeSource r a) (false, false, s1)).2.2
def execFaultSample (s : State) : Out3 := .next (faultSample s)

/-! ### Error conditions (R35, R470, R484) -/

/-- A UNIT value that R482 names. -/
def unitNamed (kind idx : Nat) : Bool :=
  match kind with
  | 0 => idx == 0
  | 1 => decide (idx < 34)
  | 2 => decide (idx < 8)
  | 3 => decide (idx < 640)
  | 4 => decide (idx < 32)
  | 5 => decide (idx < 2)
  | 6 => idx == 0
  | 7 => decide (idx < 1024)
  | 8 => decide (idx < 4096)
  | 9 => decide (idx < 96)
  | 10 => decide (idx < 48)
  | _ => false

/-- More than 1,000 corrected errors of a stack in one second raise HBM_CORR_RATE once; the count carries its second. -/
def hbmCorrected (d : Nat) (s : State) : State :=
  let sec := s.tim.cnt / 10 ^ 9
  let old := s.start.corr.getD d 0
  let n := if old / 2 ^ 32 = sec then old % 2 ^ 32 + 1 else 1
  let s1 := inc (hbmBase d + 0x20) { s with start := { s.start with corr := s.start.corr.set d (sec * 2 ^ 32 + n) } }
  if n = 1001 then raise srcHbmCorrRate 0 5 d s1 else s1

/-- A row of a stack fails: retired, or the stack taken out of service when its list of 4,096 is full (R470). -/
def hbmRow (d : Nat) (s : State) : State :=
  let s1 := raise srcHbmUncorr 0 5 d (inc (hbmBase d + 0x24) s)
  let rows := rdF s1 (hbmBase d + 0x10) 0 16
  if 4096 ≤ rows then stackOut d (raise srcHbmRetireFull 0 5 d s1)
  else wr (hbmBase d + 0x10) (wd (rows + 1 + (4096 - (rows + 1)) * 2 ^ 16)) s1

/-- A slice of the TCAM array upset, or a rule's header there. -/
def ruleFlip (g i j v m : Nat) (s : State) : State :=
  let r := ruleGet s g i
  ruleRaw g i { r with array := lset r.array j (v % 2 ^ 80, m % 2 ^ 80) } s
def headerFlip (g i h : Nat) (s : State) : State := ruleRaw g i (withHdr (wd h) (ruleGet s g i)) s

def hwError (e : HwErr) (s : State) : Out3 :=
  match e with
  | .source n addr kind idx =>
    needs (decide (n < srcCount) && decide (addr < 2 ^ 32) && unitNamed kind idx)
      (if n < srcCount ∧ addr < 2 ^ 32 ∧ unitNamed kind idx = true then
        raise n addr kind idx (if n = srcThermWarn then
          wrBit glbStatus sbTherm true { s with start := { s.start with thermHot := true } } else s) else s)
  | .ruleFlip g i j v m =>
    needs (decide (g < 8) && decide (i < 16384)) (if g < 8 ∧ i < 16384 then
      (if (ruleGet s g i).valid ∧ j < (ruleGet s g i).width then ruleFlip g i j v m s else s) else s)
  | .headerFlip g i h =>
    needs (decide (g < 8) && decide (i < 16384)) (if g < 8 ∧ i < 16384 then
      (if (ruleGet s g i).valid then headerFlip g i h s else s) else s)
  | .pivotFlip g i =>
    needs (decide (g < 8) && decide (i < 32768)) (if g < 8 ∧ i < 32768 then
      { s with glens := { s.glens with pivotBad := tset false s.glens.pivotBad (key g i) true } } else s)
  | .registerFlip a stg =>
    needs (match regAt a with | some (_, d, _, _) => d.rw != 0 | none => false)
      (if (match regAt a with | some (_, d, _, _) => d.rw != 0 | none => false) then
        { s with bus := if stg then { s.bus with badStg := s.bus.badStg.filter (· ≠ physAddr s a) ++ [physAddr s a] }
                        else { s.bus with badPar := s.bus.badPar.filter (· ≠ physAddr s a) ++ [physAddr s a] } } else s)
  | .hbmCorrected d => needs (decide (d < 2)) (if d < 2 then hbmCorrected d s else s)
  | .hbmRow d => needs (decide (d < 2)) (if d < 2 then hbmRow d s else s)
def execHardwareErrorEvent (e : HwErr) (s : State) : Out3 := hwError e s

/-- A hang watchdog's source, and the unit: a pipeline, a glen, or the scheduler's block of a die. -/
def execContextHangWatchdog (src idx : Nat) (s : State) : Out3 :=
  if src = srcPrsCtxHang ∨ src = srcRweCtxHang ∨ src = srcPipeHang then
    needs (decide (idx < 34)) (if idx < 34 then raise src 0 1 idx s else s)
  else if src = srcGlnHang then needs (decide (idx < 8)) (if idx < 8 then raise src 0 2 idx s else s)
  else if src = srcSchHang then needs (decide (idx < 2)) (if idx < 2 then raise src 0 7 (schBase idx / 65536) s else s)
  else .fault .illFormed

/-- Words that a block's receivers refused (R508). -/
abbrev kRefused : Nat := 97

/-- A word refused for the n-th time in a row by a receiver of block b, BAR0 address [25:16] (R33 to R35); `pip` is the
pipeline whose word it is, where it is one's: a step of that pipeline is a wasted slot. -/
def wordRefused (blk : Blk) (b n : Nat) (pip : Option Nat) (s : State) : State :=
  match blk with
  | .sad d =>
    let s1 := inc (sadBase d + 4) s
    if n = 16 then raise srcSaddleStuck 0 0 0 (wrBit (sadBase d) 2 true s1)
    else if n < 16 then wrBit (sadBase d) 2 false s1 else s1
  | _ =>
    let s1 := bump kRefused b 0 32 1 s
    let s2 := match pip with
      | some p => { s1 with path := { s1.path with wasted := tmod 0 s1.path.wasted p (· + 1) } }
      | none => s1
    let u := match blk with
      | .pip p => (1, p)
      | .gln g => (2, g)
      | .pg p => (4, p)
      | _ => (7, b)
    if n = 16 then raise srcChanStuck 0 u.1 u.2 s2 else s2
def execChannelWordRefusal (w : WordAt) (n : Nat) (s : State) : Out3 :=
  match decodeAddr (w.block * 65536) with
  | some (blk, _) => if n = 0 ∨ w.pip.any (fun p => decide (32 ≤ p)) then .fault .illFormed else .next (wordRefused blk w.block n w.pip s)
  | none => .fault .illFormed

def execSaddleLaneRealign (d words : Nat) (s : State) : Out3 :=
  needs (decide (d < 2) && decide (words ≤ 64)) (if d < 2 ∧ words ≤ 64 then
    raise srcSaddleDeskew 0 0 0 (inc (sadBase d + 8) (incBy (sadBase d + 4) words s)) else s)
def execSaddleMgmtWatchdog (s : State) : Out3 := .next (raise srcSaddleMgmtLoss 0 0 0 s)

/-- The MP watchdog expires: the source is raised, and firmware restarts (R461). -/
def execMpWatchdogExpiry (s : State) : Out3 := .next (mpReset (raise srcMpWatchdog 0 6 0 s))

/-- The highest sensor is at 105 °C or below again. -/
def execThermNRelease (s : State) : Out3 := .next (wrBit glbStatus sbTherm false { s with start := { s.start with thermHot := false } })

/-! ### Drain, test, return (R488 to R490) -/

/-- The units that can be tested in service. -/
def testable (kind : Nat) : Bool := [1, 2, 3, 4, 5, 10].contains kind

/-- A macro's state is its glen's as well. -/
def setBoth (kind idx st : Nat) (s : State) : State :=
  if kind = 3 then setState 2 (idx / 80) st (setState 3 idx st s) else setState kind idx st s

/-- A drain: no new work; a pipeline's work is re-homed first. -/
def unitDrain (kind idx : Nat) (s : State) : State :=
  if kind = 1 ∧ idx < 32 then setState 1 idx 1 (takeover idx s) else setBoth kind idx 1 s

/-- A draining unit is isolated, a pipeline that no spare serves once it holds nothing or 1 ms has passed, when what it still
holds is discarded (R488). -/
def drained (kind idx : Nat) (s : State) : State :=
  if (unitOf s kind idx).state ≠ 1 then s
  else if kind = 1 ∧ spareServes s idx = false ∧ inContexts (indexOf s idx) s ≠ ([], []) ∧
      s.tim.cnt < (unitOf s 1 idx).since + 10 ^ 6 then s
  else if kind = 1 ∧ idx < 32 ∧ spareServes s idx = false then isolatePip idx s
  else setBoth kind idx 2 s
def execUnitDrainComplete (kind idx : Nat) (s : State) : Out3 :=
  needs (unitNamed kind idx) (if unitNamed kind idx then drained kind idx s else s)

/-- The in-service test traffic of a spare: a frame of its own in a cell, under its own index (R224, R489).  The spec gives
its length no value: it is free. -/
def spareTraffic (d : Nat) (s : State) : State :=
  let r := freeW s
  let q := allocate d ⟨32 + d, r.1.toNat % 16385, false, [], [288 + d]⟩ r.2
  match q.1 with
  | .ok a => (release d (32 + d) (288 + d) (wd a) q.2).2
  | .error _ => q.2

def unitTest (kind idx plan : Nat) (s : State) : State :=
  let s1 := setBoth kind idx 3 s
  let g := if kind = 3 then idx / 80 else idx
  if kind = 2 ∨ kind = 3 then
    let s2 := setUnit 2 g { unitOf s1 2 g with plan := plan } s1
    if plan = 0 then siblingService g s2 else s2
  else if kind = 5 then wrF (hbmBase idx + 4) 0 3 1 s1
  else if kind = 1 ∧ 32 ≤ idx then spareTraffic (idx - 32) s1
  else s1

/-- A test ends; a failure raises the unit's BIST source. -/
def unitTested (kind idx : Nat) (pass : Bool) (s : State) : State :=
  if (unitOf s kind idx).state ≠ 3 then s
  else
    let done_ := fun (k i : Nat) (t : State) => showUnit k i (setUnit k i { unitOf t k i with state := 2, pass := pass, fail := !pass } t)
    let s1 := done_ kind idx s
    let s2 := if kind = 3 then done_ 2 (idx / 80) s1 else s1
    let s3 := if kind = 5 then incSat (hbmBase idx + 8) 24 8 (wrF (hbmBase idx + 4) 0 3 (if pass then 3 else 4) s2) else s2
    if pass then s3
    else match kind with
      | 1 => raise srcPipBistFail 0 1 idx s3
      | 2 | 3 => raise srcGlnBistFail 0 kind idx s3
      | 4 => raise srcPgBistFail 0 4 idx s3
      | _ => s3
def execUnitTestComplete (kind idx : Nat) (pass : Bool) (s : State) : Out3 :=
  needs (unitNamed kind idx) (if unitNamed kind idx then unitTested kind idx pass s else s)

/-- An isolated pipeline of a die is re-homed once the spare is free (R487). -/
def wakeRehome (d : Nat) (s : State) : State :=
  if spareFree s d && !s.fcl.rehome.any (fun m => m / 16 == d) then
    match ((List.range 16).map (16 * d + ·)).find? (fun n => (unitOf s 1 n).state == 2 && !spareServes s n) with
    | some n => { s with fcl := { s.fcl with rehome := s.fcl.rehome ++ [n] } }
    | none => s
  else s

def unitReturn (kind idx : Nat) (s : State) : State :=
  if kind = 1 then
    let s1 := if spareServes s idx then takeBack idx s else setState 1 idx 0 s
    wakeRehome (if idx < 32 then idx / 16 else idx - 32) { s1 with fcl := { s1.fcl with rehome := s1.fcl.rehome.filter (· ≠ idx) } }
  else if kind = 2 ∨ kind = 3 then
    let g := if kind = 3 then idx / 80 else idx
    setBoth kind idx 0 (siblingEnd g (setUnit 2 g { unitOf s 2 g with plan := 0 } s))
  else if kind = 5 then setState 5 idx 0 (wrF (hbmBase idx + 4) 0 3 3 s)
  else setBoth kind idx 0 s

/-- A write of PIP_CTL.MODE through an index: the next state of the order, or dropped (R493). -/
def pipModeWrite (n v : Nat) (s : State) : State :=
  let p := physPip s n
  let old := (unitOf s 1 p).state
  if v = (old + 1) % 4 then
    (if v = 2 then isolatePip p s else if v = 0 then setState 1 p 0 s else setState 1 p v s)
  else s

/-! ### Commands (R557) -/

def bodyFaultStatus : Body := fun _ f s =>
  lenIs f 0 s <| ok ((List.range 4).map (fun w => rd s (fclStatus + 4 * w)) ++ (List.range 4).map (fun w => rd s (fclConseq + 4 * w)) ++
    (List.range 4).map (fun w => rd s (fclLvl + 4 * w)) ++ (List.range 7).map (fun w => rd s (fclFirst + 4 * w)) ++
    (List.range 4).map (fun w => rd s (fclAlso + 4 * w))) s

def bodyFaultLog : Body := fun _ f s =>
  lenIs f 4 s <|
  let l := s.fcl.kept.filter (fun r => decide ((pw f 0).toNat ≤ (r.getD 6 0).toNat))
  ok (wd l.length :: l.flatten) s

/-- Word 3 of a mask names sources to 111 only. -/
def maskOk (v : Word) : Bool := fld v 16 16 == 0

def bodyFaultAck : Body := fun _ f s =>
  lenIs f 16 s <| inRange (maskOk (pw f 3)) 3 s <|
  let s1 := (List.range 4).foldl (fun t w => acknowledge w (pw f w) t) s
  ok [] (if nbit f.opts 0 then firstRearm s1 else s1)

def fclLocked (s : State) : Bool := rdBit s fclCfg 18

def bodyFaultSrcCfg : Body := fun _ f s =>
  lenIs f 24 s <| inRange (decide ((pw f 0).toNat < srcCount)) 0 s <|
  inRange (decide (pf f 1 0 3 ≤ 5) && decide (pf f 1 10 22 = 0)) 1 s <| inRange (maskOk (pw f 5)) 5 s <|
  refuse (fclLocked s) eState s <|
  let n := (pw f 0).toNat
  ok [] ((List.range 4).foldl (fun t w => wr (fclNbr n w) (pw f (2 + w)) t) (wr (fclSrcCfg n) (pw f 1) s))

def bodyFaultWindow : Body := fun _ f s =>
  lenIs f 4 s <| inRange (decide (pf f 0 18 14 = 0)) 0 s <| refuse (fclLocked s) eState s <|
  ok [] (wrM fclCfg 0x3FFFF (pw f 0) s)

def bodyFaultLock : Body := fun _ f s => lenIs f 0 s <| ok [] (wrBit fclCfg 18 true s)

def bodyFaultInject : Body := fun _ f s =>
  lenIs f 12 s <| inRange (decide ((pw f 0).toNat < srcCount)) 0 s <|
  inRange (decide (pf f 2 16 16 = 0) && unitNamed (pf f 2 12 4) (pf f 2 0 12)) 2 s <|
  ok [] { s with fcl := { s.fcl with raised := s.fcl.raised ++
    [⟨(pw f 0).toNat, (pw f 1).toNat, pf f 2 12 4, pf f 2 0 12, 7, 0, true⟩] } }

/-- Word 0 a UNIT value that names a unit. -/
def withUnit (f : Frame) (s : State) (k : Nat → Nat → CmdRes) : CmdRes :=
  let kind := pf f 0 12 4
  let idx := pf f 0 0 12
  inRange (decide (pf f 0 16 16 = 0) && unitNamed kind idx && decide (kind ≠ 0)) 0 s <| k kind idx

/-- No spare can take a pipeline's work. -/
def noSpare (s : State) (kind idx : Nat) : Bool := kind == 1 && decide (idx < 32) && !spareFree s (idx / 16)

def bodyUnitDrain : Body := fun _ f s =>
  lenIs f 4 s <| withUnit f s fun kind idx =>
  refuse (!testable kind) eUnsupported s <|
  refuse (decide ((unitOf s kind idx).state ≠ 0) || (kind == 1 && decide (idx < 32) && spareServes s idx)) eState s <|
  refuse (noSpare s kind idx || (kind == 1 && decide (32 ≤ idx) && s.bus.spareOf.getD (idx - 32) 0 != 0)) eBusy s <|
  ok [] (unitDrain kind idx s)

def bodyUnitTest : Body := fun _ f s =>
  lenIs f 8 s <| withUnit f s fun kind idx =>
  inRange (decide (pf f 1 1 31 = 0) && (decide (pf f 1 0 1 = 0) || kind == 2 || kind == 3)) 1 s <|
  refuse (!testable kind) eUnsupported s <|
  refuse (decide ((unitOf s kind idx).state ≠ 2)) eState s <|
  let g := if kind = 3 then idx / 80 else idx
  refuse ((kind == 2 || kind == 3) && decide (pf f 1 0 1 = 0) && outOfService s 2 (siblingOf g)) eState s <|
  ok [] (unitTest kind idx (pf f 1 0 1) s)

def bodyUnitReturn : Body := fun _ f s =>
  lenIs f 4 s <| withUnit f s fun kind idx =>
  refuse (!testable kind) eUnsupported s <|
  refuse (decide ((unitOf s kind idx).state ≠ 2)) eState s <| ok [] (unitReturn kind idx s)

/-- The word of a unit in UNIT_STATUS. -/
def unitWord (s : State) (kind idx : Nat) : Word :=
  let u := unitOf s kind idx
  wd (idx + kind * 2 ^ 12 + u.state * 2 ^ 16 + b2n u.pass * 2 ^ 18 + b2n u.fail * 2 ^ 19 +
    b2n (kind == 1 && spareServes s idx) * 2 ^ 20)
def bodyUnitStatus : Body := fun _ f s =>
  lenIs f 0 s <| ok ((List.range 34).map (unitWord s 1) ++ (List.range 8).map (unitWord s 2) ++ (List.range 32).map (unitWord s 4) ++
    (List.range 2).map (unitWord s 5) ++ (List.range 48).map (unitWord s 10)) s

def bodyRehome : Body := fun _ f s =>
  lenIs f 4 s <| withUnit f s fun kind idx =>
  inRange (kind == 1 && decide (idx < 32)) 0 s <|
  refuse (spareServes s idx) eState s <| refuse (noSpare s kind idx) eBusy s <|
  ok [] (takeover idx (isolatePip idx s))

end Sys2Proof.Machine
end

