-- ==== Sys2Proof/Machine/Dumps.lean ====
section
/-! DEFINITION. Counters, dumps and sampling (R495 to R518). -/

namespace Sys2Proof.Machine
open Sys2Proof

/-! ### Records (R505 to R508) -/

/-- A record: INDEX, KIND, OOS, PARITY and its words. -/
structure DumpRec where
  idx : Nat
  kind : Nat
  oos : Bool
  words : List Word
  deriving DecidableEq, Repr

def recWords (parity : Bool) (r : DumpRec) : List Word :=
  wd (r.idx + r.kind * 2 ^ 20 + r.words.length * 2 ^ 24 + b2n r.oos * 2 ^ 30 + b2n parity * 2 ^ 31) :: r.words

/-- Counters as words: of 32 bits, and of 64 bits low word first. -/
def c32 (s : State) (kind idx pos : Nat) : List Word := [wd (cntOf s kind idx pos)]
def c64 (s : State) (kind idx pos : Nat) : List Word := [loW (cntOf s kind idx pos), hiW (cntOf s kind idx pos)]
def regsFrom (s : State) (a n : Nat) : List Word := (List.range n).map (fun i => rd s (a + 4 * i))

/-- The range of a set's indexed records. -/
def pmcSet (k off : Nat) : Nat := pmcBase + 0x100 + 0x10 * k + off
def inSet (s : State) (k i : Nat) : Bool :=
  decide (rdF s (pmcSet k 4) 0 19 ≤ i) && decide (i ≤ rdF s (pmcSet k 8) 0 19)

/-- Keys of a table in ascending order, as glen or die and index. -/
def keysOf {α : Type} (m : Sparse α) : List (Nat × Nat) := m.map (fun q => (q.1 / 2 ^ 32, q.1 % 2 ^ 32))

/-- A port's record (R508). -/
def portDump (s : State) (p : Nat) : DumpRec :=
  ⟨p, 0, outOfService s 4 (pgOf p), (List.range 12).flatMap (fun i => c64 s kPort p (2 * i)) ++
    (List.range 8).flatMap (fun i => c32 s kPort p (24 + i)) ++ [rd s (gatCntOverrun p), rd s (gatCntStep p)] ++ c32 s kPort p 34⟩

def portSet (s : State) : List DumpRec :=
  ((List.range 256).filter (fun p => portExists s p && inSet s 0 p)).map (portDump s) ++
  ((List.range 2).filter (inSet s 0)).map (fun d => ⟨d, 1, false, regsFrom s (freCnt d 0) 5⟩) ++
  [⟨0, 2, false, regsFrom s (casCnt 0) 8 ++ [rd s timCntTsLost]⟩]

def pipeSet (s : State) : List DumpRec :=
  ((List.range 32).filter (inSet s 1)).map (fun n =>
    ⟨n, 0, unitOos s 1 n, regsFrom s (slotReg n 0) 10 ++ regsFrom s (engCnt 0 n 0) 12 ++ regsFrom s (engCnt 1 n 0) 12 ++
      [rd s (pipBase n + 0x10)]⟩)

/-- The budget use of a memory with n activities: slots of its work, slots granted, waits, the longest wait. -/
def useWords (s : State) (u n : Nat) : List Word :=
  c32 s kBudget u 0 ++ (List.range n).flatMap (fun a => c32 s kBudget u (1 + a)) ++
  (List.range n).flatMap (fun a => c32 s kBudget u (8 + a)) ++ c32 s kBudget u 16

def glenSet (s : State) : List DumpRec :=
  ((List.range 8).filter (inSet s 2)).map (fun g =>
    ⟨g, 0, outOfService s 2 g, regsFrom s (emtCnt g 0) 14 ++ regsFrom s (lpmCnt g 0) 4 ++ regsFrom s (tcmCnt g 0) 6 ++
      regsFrom s (stmCnt g 0) 6 ++ [wd ((ofUnit s.glens.em g).filter (fun q => q.2.valid)).length, wd (rdF s (emtOcc g) 0 14),
      wd (rdF s (lpmOcc g) 0 19), wd (rdF s (tcmOcc g) 0 16)]⟩) ++
  ((List.range 24).filter (inSet s 2)).map (fun u => ⟨u, 1, outOfService s 2 (u / 3), useWords s u 5⟩)

def ctxDump (s : State) (g i : Nat) : DumpRec :=
  let w := ctxIdx g i
  let bins := if bit ((ctxGet s g i).getD 2 0) 2 then (List.range 16).flatMap (fun j => c32 s kCtx w (xBins + j)) else []
  ⟨w, 0, outOfService s 2 g, (List.range 3).flatMap (fun j => c32 s kCtx w j) ++ c64 s kCtx w xPassBytes ++
    (List.range 4).flatMap (fun j => c32 s kCtx w (xDropBlocked + j)) ++ bins⟩
def streamSet (s : State) : List DumpRec :=
  ((keysOf s.streams.ctx).filter (fun q => bit ((ctxGet s q.1 q.2).getD 0 0) 0 && inSet s 3 (ctxIdx q.1 q.2))).map
    (fun q => ctxDump s q.1 q.2) ++
  ((keysOf s.fre.rcv).filter (fun q => bit (rcvGet s q.1 q.2).w0 0 && inSet s 3 (rcvIdx q.1 q.2))).map (fun q =>
    ⟨rcvIdx q.1 q.2, 1, false, (List.range 8).flatMap (fun j => c32 s kRcv (rcvIdx q.1 q.2) j)⟩)

def polSet (s : State) : List DumpRec :=
  ((keysOf s.streams.meters).filter (fun q => inSet s 4 (meterIdx q.1 q.2))).map (fun q =>
    let w := meterIdx q.1 q.2
    ⟨w, 0, outOfService s 2 q.1, (List.range 3).flatMap (fun j => c32 s kMeter w j) ++ c64 s kMeter w 3 ++ c64 s kMeter w 4⟩) ++
  ((List.range 8).filter (inSet s 4)).map (fun g => ⟨g, 1, outOfService s 2 g, [rd s (polCntProv g)]⟩)

/-- The enabled nodes of a die, ascending. -/
def nodesOn (s : State) (d : Nat) : List Nat :=
  (List.range 128 ++ ((keysOf s.sch.nodes).filter (fun q => q.1 == d && decide (128 ≤ q.2))).map (·.2)).filter
    (fun n => nodeEn (nodeGet s d n))
def queueDump (s : State) (d i : Nat) : DumpRec :=
  let w := queueIdx d i
  ⟨w, 0, false, c32 s kQueue w 0 ++ c64 s kQueue w 1 ++ c32 s kQueue w 2 ++ c64 s kQueue w 3 ++
    (List.range 8).flatMap (fun j => c32 s kQueue w (4 + j))⟩
def queueSet (s : State) : List DumpRec :=
  (List.range 2).flatMap (fun d => ((nodesOn s d).flatMap (fun n => (List.range 8).map (8 * n + ·))).filterMap (fun i =>
    if inSet s 5 (queueIdx d i) then some (queueDump s d i) else none)) ++
  (List.range 2).flatMap (fun d => (nodesOn s d).filterMap (fun n =>
    let w := nodeIdx d n
    if inSet s 5 w then some ⟨w, 1, false, c32 s kNode w 0 ++ c64 s kNode w 1 ++ c64 s kNode w 3 ++ c64 s kNode w 5⟩ else none)) ++
  ((List.range 256).filter (fun p => portExists s p && inSet s 5 p)).map (fun p =>
    ⟨p, 2, outOfService s 4 (pgOf p), c32 s kSchPort p 0 ++ c64 s kSchPort p 1⟩) ++
  ((List.range 2).filter (inSet s 5)).map (fun d => ⟨d, 3, false, regsFrom s (schCnt d 0) 4 ++ useWords s (schMem d) 3⟩)

def bufferSet (s : State) : List DumpRec :=
  ((List.range 2).filter (inSet s 6)).map (fun d =>
    ⟨d, 0, false, regsFrom s (bpmPoolStat d 0) 4 ++ [rd s (bpmOwnStat d)] ++ regsFrom s (bpmCntSpill d 0) 4 ++
      [rd s (bpmCntOutgrow d), rd s (bpmCntOwnExh d), rd s (bpmCntQuarRel d), rd s (hbmBase d + 0x20), rd s (hbmBase d + 0x24)] ++
      useWords s (plainMem d) 3⟩) ++
  (List.range 2).flatMap (fun d => ((List.range 38).filter (fun r => inSet s 6 (64 * d + r))).map (fun r =>
    ⟨64 * d + r, 1, false, regsFrom s (bpmUse d r 0) 4 ++ [rd s (bpmCntZero d r), rd s (bpmCntBadFree d r), rd s (bpmCntAdmRefuse d r)]⟩))

def islandSet (s : State) : List DumpRec :=
  ((List.range 96).filter (inSet s 7)).map (fun i =>
    ⟨i, 0, islOos s i, [wd (rdF s (islStat i) 16 10 + islCode s i * 2 ^ 16), rd s (islSteps i), rd s (islPace i)]⟩)

/-- The blocks of the register map, by BAR0 address [25:16]. -/
def blockList : List Nat := (List.range 1024).filter (fun b => match decodeAddr (b * 65536) with | some (_, 0) => true | _ => false)
def crossSet (s : State) : List DumpRec :=
  ((List.range cellCount).filter (inSet s 8)).map (fun c => ⟨c, 0, false, [rd s (cellXfer c), rd s (cellDisc c), rd s (cellStat c)]⟩) ++
  (blockList.filter (inSet s 8)).map (fun b => ⟨b, 1, outOfService s 7 b, c32 s kRefused b 0⟩) ++
  ((List.range 2).filter (inSet s 8)).map (fun d => ⟨d, 2, false, [rd s (sadBase d + 4), rd s (sadBase d + 8)]⟩)

def faultSet (s : State) : List DumpRec :=
  ((List.range 2).filter (inSet s 9)).map (fun i => ⟨i, 0, false, regsFrom s (fclCnt (56 * i)) 56⟩)

def fioSet (s : State) : List DumpRec :=
  [⟨0, 0, false, regsFrom s (fiCount 0) 32 ++ [rd s fioFiStat, wd (foState s + rdF s fioFoStat 0 16 * 2 ^ 16)] ++ regsFrom s (fioCnt 0) 7⟩]

def setRecs (s : State) (k : Nat) : List DumpRec :=
  match k with
  | 0 => portSet s
  | 1 => pipeSet s
  | 2 => glenSet s
  | 3 => streamSet s
  | 4 => polSet s
  | 5 => queueSet s
  | 6 => bufferSet s
  | 7 => islandSet s
  | 8 => crossSet s
  | 9 => faultSet s
  | _ => fioSet s

/-! ### Boundaries and writing (R497 to R504) -/

def setSt (s : State) (k : Nat) : SetSt := tget noSetSt s.dmp.sets k
def putSetSt (k : Nat) (x : SetSt) (s : State) : State := { s with dmp := { s.dmp with sets := tset noSetSt s.dmp.sets k x } }

/-- PERIOD in ns: 0 off. -/
def setPeriod (s : State) (k : Nat) : Nat :=
  let p := rdF s (pmcSet k 0) 0 24
  if p = 0 then 0 else 1000 * min (max p 100) 10000000

/-- Memories whose budget use a set reports, which starts anew at its latch. -/
def setMems (k : Nat) : List Nat := if k = 2 then List.range 24 else if k = 5 then [26, 27] else if k = 6 then [24, 25] else []
def freshUse (k : Nat) (s : State) : State :=
  { s with cnt := s.cnt.filter (fun q => !((setMems k).any (fun u => decide (cntKey kBudget u 0 ≤ q.1) && decide (q.1 < cntKey kBudget u 24)))) }

abbrev actSchDump : Nat := 2

/-- What reading a record's shadows takes (R499): one slot of the dump activity of the glen's table memory, of the
memory whose budget use it is, or of the die's scheduler.  DESIGN CHOICE (log entry 74) -/
def readThrough (k : Nat) (r : DumpRec) : Option (Nat × Nat) :=
  match k, r.kind with
  | 2, 0 => some (glenMem r.idx 0, actDump)
  | 2, _ => some (r.idx, actDump)
  | 5, 0 => some (schMem (r.idx / 262144), actSchDump)
  | 5, 1 => some (schMem (r.idx / 32768), actSchDump)
  | 5, 2 => some (schMem (r.idx / 128), actSchDump)
  | 5, _ => some (schMem r.idx, actSchDump)
  | _, _ => none

/-- Slots taken as far as the budgets go, and those still to be taken (R27). -/
def takeSlots : List (Nat × Nat) → State → List (Nat × Nat) × State
  | [], s => ([], s)
  | (u, a) :: rest, s =>
    if hasSlot s u a then takeSlots rest (charge u a 1 s)
    else
      let r := takeSlots rest (waited u a s)
      ((u, a) :: r.1, r.2)

/-- A set latched at a network time: the dump's words wait to be written. -/
def latch (k ns : Nat) (s : State) : State :=
  let x := setSt s k
  let recs := setRecs s k
  let body := recs.flatMap (recWords false)
  let blocks := (8 + body.length + 15) / 16
  let elapsed := match x.last with | some t => s.tim.cnt - t | none => 0
  let head := [wd (k + b2n x.loss * 2 ^ 8 + b2n x.stepped * 2 ^ 9 + b2n (timValid s) * 2 ^ 10 + min 65535 x.skipped * 2 ^ 16),
    wd (x.seq + 1), wd (ns % 10 ^ 9), wd (ns / 10 ^ 9), wd (ns / 10 ^ 9 / 2 ^ 32 % 2 ^ 16), wd elapsed,
    wd (elapsed / 2 ^ 32 % 2 ^ 16 + blocks * 2 ^ 16), wd recs.length]
  let all := head ++ body ++ List.replicate (16 * blocks - 8 - body.length) 0
  let y := { x with seq := x.seq + 1, last := some s.tim.cnt, stepped := false, skipped := 0, pend := all,
                    owes := recs.filterMap (readThrough k) }
  freshUse k (putSetSt k y s)

/-- The network time and the 1 GHz count of the boundary that is due, the oldest (R497): while network time is valid the
first multiple of PERIOD after `mark`, else PERIOD after the previous one's count. -/
def boundaryDue (s : State) (k : Nat) : Option (Nat × Nat) :=
  let p := setPeriod s k
  let x := setSt s k
  if p = 0 then none
  else if timValid s then
    let b := (x.mark / p + 1) * p
    if b ≤ netNs s then some (b, s.tim.cnt) else none
  else if x.base + p ≤ s.tim.cnt then some (netNs s, x.base + p) else none

/-- A boundary: the set is latched, or skips it while its dump is being written (R500). -/
def boundary (k : Nat) (s : State) : State :=
  match boundaryDue s k with
  | none => s
  | some (ns, c) =>
    let s1 := putSetSt k { setSt s k with mark := ns, base := c } s
    if (setSt s k).pend ≠ [] then
      raise srcDumpOverrun 0 0 0 (inc (pmcBase + 0x440 + 4 * k) (putSetSt k { setSt s1 k with skipped := (setSt s1 k).skipped + 1 } s1))
    else latch k ns s1

/-- A set's PERIOD written: its boundaries are sought from now on (R517). -/
def periodSet (k : Nat) (s : State) : State := putSetSt k { setSt s k with mark := netNs s, base := s.tim.cnt } s
def setCfgWrite (k : Nat) (v : Word) (s : State) : State := periodSet k (wr (pmcSet k 0) (v &&& 0x03FFFFFF) s)
def execDumpBoundary (k : Nat) (s : State) : Out3 := needs (decide (k < 11)) (if k < 11 then boundary k s else s)

/-- The place of the n-th record in a dump's words. -/
def recAt (ws : List Word) : Nat → Nat → Nat
  | 0, o => o
  | n + 1, o => recAt ws n (o + 1 + fld (ws.getD o 0) 24 6)

/-- A record whose shadow read found bad parity: its words are those of the previous dump (R501). -/
def parityIn (old : List Word) (n : Nat) (ws : List Word) : List Word :=
  let o := recAt ws n 8
  let h := ws.getD o 0
  let len := fld h 24 6
  let m := (ws.getD 7 0).toNat
  if m ≤ n then ws
  else
    let prev := match (List.range (old.getD 7 0).toNat).find? (fun j => fld (old.getD (recAt old j 8) 0) 0 30 == fld h 0 30) with
      | some j => (old.drop (recAt old j 8 + 1)).take len
      | none => List.replicate len 0
    let w1 := lset (ws.take (o + 1) ++ prev ++ ws.drop (o + 1 + len)) o (setBit h 31 true)
    lset w1 0 (setBit (w1.getD 0 0) 11 true)

/-- Firmware's copies of a written dump (R504). -/
def keepDump (k : Nat) (ws : List Word) (s : State) : State :=
  if fwUp s then
    let due := match s.dmp.mram.find? (fun q => q.1 == k) with
      | some q => decide (q.2.1 + 10 ^ 10 ≤ s.tim.cnt)
      | none => true
    { s with dmp := { s.dmp with latest := tset [] s.dmp.latest k ws,
                                 mram := if due then tput s.dmp.mram k (s.tim.cnt, ws) else s.dmp.mram } }
  else s

def dumpRing (s : State) (k : Nat) : Nat := pmcBase + 0x200 + 0x20 * rdF s (pmcSet k 0) 24 2

/-- The dump's words as they are written: record n's counter shadow may have been read with bad parity (R501). -/
def dumpWords (x : SetSt) (bad : Option Nat) : List Word :=
  match bad with
  | some n => parityIn x.prev n x.pend
  | none => x.pend

/-- A counter's shadow read bad: its row is flagged (R36). -/
def counterParity (k n : Nat) (x : SetSt) (s : State) : State :=
  let i := fld (x.pend.getD (recAt x.pend n 8) 0) 0 20
  if n < (x.pend.getD 7 0).toNat then flagSpare clsCnt k i 8 k (raise srcCntParity i 8 k s) else s

/-- The shadows read and the dump written to its ring, whole or not at all: slots that are not there yet, of the memories
read and of the host DMA activity, are waited for. -/
def dumpWrite (k : Nat) (bad : Option Nat) (s : State) : State :=
  let q := takeSlots (setSt s k).owes s
  let x := { setSt s k with owes := q.1 }
  let b := dumpRing s k
  let ws := dumpWords x bad
  let n := ws.length / 16
  if x.pend = [] then s
  else if q.1 ≠ [] then putSetSt k x q.2
  else if rdBit s (b + 8) 1 && !memFree q.2 0 actDma then waited (plainMem 0) actDma (putSetSt k x q.2)
  else
    let s1 := match bad with | some m => counterParity k m x q.2 | none => q.2
    let r := ringPost b 1024 n ws (if rdBit s (b + 8) 1 then charge (plainMem 0) actDma n s1 else s1)
    if r.1 then keepDump k ws (putSetSt k { x with pend := [], loss := false, prev := ws } r.2)
    else raise srcDumpRingLost 0 0 0 (inc (pmcBase + 0x400 + 4 * k) (putSetSt k { x with pend := [], loss := true, prev := ws } s1))
def execDumpWrite (k : Nat) (bad : Option Nat) (s : State) : Out3 := needs (decide (k < 11)) (if k < 11 then dumpWrite k bad s else s)

/-! ### Slots and overflow sampling (R509, R511, R515) -/

/-- The pipeline holds a packet whose copy found the queue of waiting enqueues full (R274). -/
def enqHeld (s : State) (n : Nat) : Bool :=
  s.path.copies.any (fun q => match q.2 with
    | some c =>
      let w := tget [] s.sch.enqWait (dieOf c.port)
      c.phase == .waiting && decide (enqQueue ≤ w.length) && !w.contains q.1 &&
        (match getPkt s c.pkt with | some x => x.pip == n | none => false)
    | none => false)

/-- A slot of a pipeline that the 1 GHz count has brought and that is not accounted yet: 25 elapse per 21 ns. -/
def slotDue (s : State) (n : Nat) : Bool :=
  decide (w64 (rd s (slotReg n 0)) (rd s (slotReg n 0 + 4)) < 25 * (s.tim.cnt - s.dmp.slot0) / 21)

def slotElapse (n : Nat) (s : State) : State :=
  let s0 := add64 (slotReg n slTotal) 1 s
  if tget false s.path.took n then
    ovfEvent n 0 (add64 (slotReg n slRetired) 1 { s0 with path := { s0.path with took := tset false s0.path.took n false } })
  else if 0 < tget 0 s.path.wasted n then
    ovfEvent n 1 (add64 (slotReg n slWasted) 1 { s0 with path := { s0.path with wasted := tmod 0 s0.path.wasted n (· - 1) } })
  else if ((fifoHead s n).isSome && !pipTakes s n) || enqHeld s n then ovfEvent n 3 (add64 (slotReg n slBack) 1 s0)
  else ovfEvent n 2 (add64 (slotReg n slFront) 1 s0)
def execSlotElapse (n : Nat) (s : State) : Out3 :=
  needs (decide (n < 32)) (if n < 32 ∧ slotDue s n = true then slotElapse n s else s)

/-- A count that has reached THRESH: the MP is interrupted and a capture armed, or one dropped while one is held. -/
def ovfReached (n : Nat) (s : State) : State :=
  if rdBit s pmcTagCfg 24 && rdBit s (pmcOvf n 0) 27 && decide (max 1 (rdF s (pmcOvf n 0) 0 24) ≤ rdF s (pmcOvf n 4) 0 24) then
    let s1 := emit (.irqMp (pmcOvf n 0)) (wrF (pmcOvf n 4) 0 24 0 s)
    if rdBit s1 (pmcOvf n 0x10) 31 then incSat (pmcOvf n 0x10) 24 6 s1
    else { s1 with path := { s1.path with capNext := s1.path.capNext.filter (· ≠ n) ++ [n] } }
  else s
def execOvfCountReached (n : Nat) (s : State) : Out3 := needs (decide (n < 32)) (if n < 32 then ovfReached n s else s)

/-- Firmware chooses the sampling mode: overflow interrupts outside Peony, under test and while a unit is out of
service. -/
def sampleMode (s : State) : State :=
  if fwUp s then wrBit pmcTagCfg 24 (fwStage s != 2 || s.fcl.units.any (fun q => decide (2 ≤ q.2.state) || q.2.inReset)) s else s

/-! ### Commands (R516) -/

/-- Word 0 the set; words 1 to 3 PMC_SET_CFG, FIRST and LAST. -/
def bodyDumpSetCfg : Body := fun _ f s =>
  lenIs f 16 s <| inRange (decide ((pw f 0).toNat < 11)) 0 s <| inRange (decide (pf f 1 26 6 = 0)) 1 s <|
  inRange (decide (pf f 2 19 13 = 0)) 2 s <| inRange (decide (pf f 3 19 13 = 0)) 3 s <|
  let k := (pw f 0).toNat
  ok [] (wr (pmcSet k 8) (pw f 3) (wr (pmcSet k 4) (pw f 2) (setCfgWrite k (pw f 1) s)))

/-- Words 1 to 3 BASE_LO, BASE_HI and CFG of a ring. -/
def ringCfgCmd (b : Nat) (f : Frame) (s : State) : CmdRes :=
  inRange (decide (pf f 1 0 12 = 0)) 1 s <| inRange (decide (pf f 3 2 4 ≤ 10)) 3 s <|
  ok [] (ringCfgWrite b 10 (pw f 3) (wr (b + 4) (pw f 2) (wr b (pw f 1) s)))
def bodyDumpRingCfg : Body := fun _ f s =>
  lenIs f 16 s <| inRange (decide ((pw f 0).toNat < 4)) 0 s <| ringCfgCmd (pmcBase + 0x200 + 0x20 * (pw f 0).toNat) f s

/-- Word 0: 0 and 1 the queue sample rings, 2 the packet sample ring. -/
def bodySampleRingCfg : Body := fun _ f s =>
  lenIs f 16 s <| inRange (decide ((pw f 0).toNat < 3)) 0 s <| ringCfgCmd (pmcBase + 0x300 + 0x20 * (pw f 0).toNat) f s

/-- Word 0 a mask of sets; one whose dump is being written is E_BUSY. -/
def bodyDumpNow : Body := fun _ f s =>
  lenIs f 4 s <| inRange (decide (pf f 0 11 21 = 0)) 0 s <|
  let l := bitsOf 11 (pw f 0).toNat
  refuse (l.any (fun k => (setSt s k).pend != [])) eBusy s <| ok [] (l.foldl (fun t k => latch k (netNs t) t) s)

/-- The words of a set's dump that DUMP_READ answers: the last one in the run, else the one kept in MRAM. -/
def dumpHeld (s : State) (k : Nat) : List Word :=
  if tget [] s.dmp.latest k = [] then
    (match s.dmp.mram.find? (fun q => q.1 == k) with | some q => q.2.2 | none => [])
  else tget [] s.dmp.latest k

/-- Word 0 the set, word 1 the first byte, word 2 the number of bytes, each a multiple of 4.  The response: the bytes of
the whole dump, then the piece. -/
def bodyDumpRead : Body := fun _ f s =>
  lenIs f 12 s <| inRange (decide ((pw f 0).toNat < 11)) 0 s <|
  let k := (pw f 0).toNat
  let ws := dumpHeld s k
  inRange (decide ((pw f 1).toNat ≤ 4 * ws.length) && decide (pf f 1 0 2 = 0)) 1 s <|
  inRange (decide ((pw f 2).toNat ≤ 4064) && decide (pf f 2 0 2 = 0)) 2 s <|
  ok (wd (4 * ws.length) :: (ws.drop ((pw f 1).toNat / 4)).take ((pw f 2).toNat / 4)) s

/-- Word 0: [7:0] the set, [11:8] KIND; word 1 INDEX.  The response is the record of R506. -/
def bodyCounterRead : Body := fun _ f s =>
  lenIs f 8 s <| inRange (decide (pf f 0 0 8 < 11) && decide (pf f 0 12 20 = 0)) 0 s <|
  let wide := wr (pmcSet (pf f 0 0 8) 8) 0x7FFFF (wr (pmcSet (pf f 0 0 8) 4) 0 s)
  match (setRecs wide (pf f 0 0 8)).find? (fun r => r.kind == pf f 0 8 4 && r.idx == (pw f 1).toNat) with
  | some r => ok (recWords false r) s
  | none => err eRange 1 s

/-- Word 0: [23:0] N, [24] MODE; word 1 the seed.  A seed loads the LFSRs. -/
def bodyPktSampleCfg : Body := fun _ f s =>
  lenIs f 8 s <| inRange (decide (pf f 0 25 7 = 0)) 0 s <| inRange (decide (pf f 1 24 8 = 0)) 1 s <|
  let s1 := wr (pmcBase + 8) (pw f 1) (wr pmcTagCfg (pw f 0) s)
  ok [] { s1 with path := { s1.path with lfsr := [] } }

/-- Word 0 a mask of pipelines, word 1 a PMC_OVF_CFG value. -/
def bodyOvfSampleCfg : Body := fun _ f s =>
  lenIs f 8 s <| inRange (decide (pf f 1 28 4 = 0)) 1 s <|
  ok [] ((bitsOf 32 (pw f 0).toNat).foldl (fun t n => wr (pmcOvf n 0) (pw f 1) t) s)

/-- Word 0 a mask of pipelines; ten words for each. -/
def bodySlotRead : Body := fun _ f s =>
  lenIs f 4 s <| ok ((bitsOf 32 (pw f 0).toNat).flatMap (fun n => regsFrom s (slotReg n 0) 10)) s

end Sys2Proof.Machine
end

