-- ==== Sys2Proof/Machine/StreamCmd.lean ====
section
/-! DEFINITION. The commands on streams, gates and meters (R219, R412), and the events of the stream memory. -/

namespace Sys2Proof.Machine
open Sys2Proof

/-- The payload of STREAM_KEY_LAYOUT follows R410: word 0 the layout, word 1 STM_KEY_CFG. -/
def bodyStreamKeyLayout : Body := fun _ f s =>
  lenIs f 8 s <| inRange (decide (pf f 0 6 26 = 0)) 0 s <|
  commitOn false f (fun g t => keyCommit g (stgM (stmKeyCfg g (pf f 0 0 6)) 0x1FFF1FFF (pw f 1) t)) emtKeyStat s

/-- The 48 key bytes of words 0 to 11, byte 4i in [31:24] of word i (R412). -/
def key384 (f : Frame) : Nat := (List.range 12).foldl (fun n i => n * 2 ^ 32 + (pw f i).toNat) 0

def bodyStreamIdAdd : Body := fun _ f s =>
  lenIs f 52 s <| inRange (decide (pf f 12 15 17 = 0)) 12 s <|
  onGlens f (fun g t => idInsert g (key384 f) (pf f 12 0 15) t) s

def bodyStreamIdDelete : Body := fun _ f s => lenIs f 48 s <| onGlens f (fun g t => idDelete g (key384 f) t) s

/-- The first word of a context record that sets a reserved bit or a history length above 1,024 (R199). -/
def ctxFault (w : Nat → Word) : Option Nat :=
  if fld (w 0) 30 2 ≠ 0 then some 0
  else if fld (w 2) 22 10 ≠ 0 ∨ 1024 < fld (w 2) 11 11 then some 2
  else if w 3 ≠ 0 then some 3 else none

/-- A context write: the BLOCKED bit written is ignored and BLOCKED is left clear. -/
def ctxWrite (g i : Nat) (w : Nat → Word) (s : State) : State := ctxPut g i [setBit (w 0) 15 false, w 1, w 2, w 3] s

def bodyStreamCtxSet : Body := fun _ f s =>
  lenIs f 20 s <| inRange (decide ((pw f 0).toNat < 32768)) 0 s <|
  match ctxFault (fun i => pw f (1 + i)) with
  | some i => err eRange (1 + i) s
  | none => eachGlen f (fun g t =>
      rcvFromCtx (32768 * g + (pw f 0).toNat) (ctxWrite g (pw f 0).toNat (fun i => pw f (1 + i)) t)) s

/-- A context's counters in the order of R507, PASS_BYTES as two words. -/
def ctxCounters (s : State) (g i : Nat) : List Word :=
  let c := fun pos => cntOf s kCtx (ctxIdx g i) pos
  [wd (c xMatch), wd (c xPassGreen), wd (c xPassYellow), loW (c xPassBytes), hiW (c xPassBytes), wd (c xDropBlocked),
   wd (c xDropSdu), wd (c xDropGate), wd (c xDropRed)]
def ctxBins (s : State) (g i : Nat) : List Word := (List.range 16).map (fun b => wd (cntOf s kCtx (ctxIdx g i) (xBins + b)))

def bodyStreamCtxRead : Body := fun _ f s =>
  lenIs f 4 s <| inRange (decide ((pw f 0).toNat < 32768)) 0 s <|
  scopeOne f 8 s fun g =>
    let i := (pw f 0).toNat
    ok ((List.range 4).map (fun j => cw (ctxGet s g i) j) ++ ctxCounters s g i) s

/-- A value of POL_STG_ADDR names a meter. -/
def polAddrOk (v : Word) : Bool :=
  decide (fld v 15 1 = 0) && decide (fld v 17 15 = 0) && (!bit v 16 || decide (fld v 0 15 ≤ 16383))

/-- What STREAM_UNBLOCK clears (R205, R412). -/
def unblock (kind : Nat) (v : Word) (g : Nat) (s : State) : State :=
  match kind with
  | 0 => let x := ctxGet s g v.toNat; ctxPut g v.toNat (x.set 0 (setBit (cw x 0) 15 false)) s
  | 1 => gatePut g v.toNat { gateGet s g v.toNat with closedInv := false } s
  | _ => let i := meterOfAddr v; let m := meterGet s g i; meterPut g i { m with w3 := setBit m.w3 10 false } s

def bodyStreamUnblock : Body := fun _ f s =>
  lenIs f 8 s <| inRange (decide ((pw f 0).toNat ≤ 2)) 0 s <|
  let k := (pw f 0).toNat
  inRange (if k = 0 then decide ((pw f 1).toNat < 32768) else if k = 1 then decide ((pw f 1).toNat < 256)
    else polAddrOk (pw f 1)) 1 s <|
  eachGlen f (fun g t => unblock k (pw f 1) g t) s

/-- A gate's list written and committed (R203, R204): the admin list, and the change time at which it takes over. -/
def gateCommit (g i : Nat) (x : GateSet) (inv : Bool) (s : State) : State :=
  gatePut g i (sgFix s { gateGet s g i with admin := x, invRxEn := inv }) s

/-- The payload of STREAM_GATE_SET is not laid down; this model's is: word 0 [7:0] the gate, [8] INV_RX_EN; word 1 LENGTH;
word 2 BASE_NS; words 3 and 4 BASE_SEC; word 5 CYCLE; word 6 EXT; then LENGTH entries.  DESIGN CHOICE (log entry 30) -/
def bodyStreamGateSet : Body := fun _ f s =>
  let n := (pw f 1).toNat
  inRange (decide (f.length < 8) || decide (n ≤ 64)) 1 s <| lenIs f (28 + 4 * n) s <|
  inRange (decide (pf f 0 9 23 = 0)) 0 s <| inRange (decide ((pw f 2).toNat < 10 ^ 9)) 2 s <|
  inRange (decide (pf f 4 16 16 = 0)) 4 s <|
  let es := (List.range n).map (fun i => pw f (7 + i))
  inRange (decide (n = 0) || decide ((pw f 5).toNat ≠ 0)) 5 s <|
  inRange (es.all (fun e => decide (fld e 5 3 = 0)) && (decide (n = 0) || es.any (fun e => decide (fld e 8 24 ≠ 0)))) 7 s <|
  let x : GateSet := ⟨n, ((pw f 3).toNat + pf f 4 0 16 * 2 ^ 32) * 10 ^ 9 + (pw f 2).toNat, (pw f 5).toNat,
    (pw f 6).toNat, es⟩
  eachGlen f (fun g t => gateCommit g (pf f 0 0 8) x (bit (pw f 0) 8) t) s

def bodyStreamCapacity : Body := fun _ f s =>
  lenIs f 0 s <| readUnits 8 f (fun g =>
    [wd (idUsed s g), wd ((ofUnit s.streams.ctx g).filter (fun p => bit (cw p.2 0) 0)).length,
     wd ((ofUnit s.streams.gates g).filter (fun p => p.2.oper.len != 0)).length,
     wd ((ofUnit s.streams.meters g).filter (fun p => p.2.w0 != 0 || p.2.w1 != 0 || p.2.w2 != 0 || p.2.w3 != 0)).length]) s

def bodyMeterSet : Body := fun v f s =>
  lenIs f 20 s <| inRange (decide (0x0301 ≤ v) || !bit (pw f 4) 7) 4 s <|
  inRange (decide (fld (pw f 0) 15 1 = 0) && decide (fld (pw f 0) 17 15 = 0)) 0 s <|
  commitOn false f (fun g t =>
    polCommit g (nbit f.opts 0) ((List.range 4).foldl (fun x i => wrStg (polData g i) (pw f (1 + i)) x)
      (wrStg (polAddr g) (pw f 0) t))) polStat s

/-- A bucket in whole bytes, signed, rounded down. -/
def bucketWord (t : Int) : Word := wd (unsgn 32 (t / unitB))

/-- A meter's record, buckets and last-update time (R412, R437). -/
def meterRecord (m : Meter) : List Word :=
  [m.w0, m.w1, m.w2, m.w3, bucketWord m.tc, bucketWord m.tp, wd m.last, 0]

def bodyMeterRead : Body := fun _ f s =>
  lenIs f 4 s <| inRange (polAddrOk (pw f 0)) 0 s <|
  scopeOne f 8 s fun g =>
    let i := meterOfAddr (pw f 0)
    let c := fun pos => cntOf s kMeter (meterIdx g i) pos
    ok (meterRecord (meterGet s g i) ++ [wd (c 0), wd (c 1), wd (c 2), loW (c 3), hiW (c 3), loW (c 4), hiW (c 4)]) s

def bodyTenantPolicerMap : Body := fun _ f s =>
  let n := (pw f 1).toNat
  inRange (decide (f.length < 8) || (decide (1 ≤ n) && decide (n ≤ 1018))) 1 s <| lenIs f (8 + 4 * n) s <|
  inRange (decide ((pw f 0).toNat + n ≤ 65536)) 0 s <|
  eachGlen f (fun g t => (List.range n).foldl (fun x i =>
    tenMapPut g ((pw f 0).toNat + i) (pw f (2 + i) &&& 0xBFFF) x) t) s

def bodyColourMapSet : Body := fun _ f s =>
  let dscp := bit (pw f 0) 0
  lenIs f (if dscp then 20 else 8) s <| inRange (decide (pf f 0 1 3 = 0) && decide (pf f 0 8 24 = 0)) 0 s <|
  let m := pf f 0 4 4
  eachGlen f (fun g t => if dscp then (List.range 4).foldl (fun x w => wr (polDscp g m w) (pw f (1 + w)) x) t
    else wr (polPcp g m) (pw f 1) t) s

def bodyHistEdgesSet : Body := fun _ f s =>
  lenIs f 64 s <| inRange (decide ((pw f 0).toNat < 64)) 0 s <|
  match (List.range 14).find? (fun i => decide ((pw f (2 + i)).toNat < (pw f (1 + i)).toNat)) with
  | some i => err eRange (2 + i) s
  | none => eachGlen f (fun g t => edgesPut g (pw f 0).toNat ((List.range 15).map (fun i => pw f (1 + i))) t) s

def bodyHistRead : Body := fun _ f s =>
  lenIs f 4 s <| inRange (decide ((pw f 0).toNat < 32768)) 0 s <|
  scopeOne f 8 s fun g => ok (ctxBins s g (pw f 0).toNat) s

/-- The management ports of a die's stream memories serve the oldest histogram report (R193, R217). -/
def execStreamMgmtRequest (d : Nat) (s : State) : Out3 := if d < 2 then .next (histServe d s) else .fault .illFormed

/-- A stream gate's committed list becomes operational (R203). -/
def execStreamGateSwitch (g i : Nat) (s : State) : Out3 :=
  if g < 8 ∧ i < 256 then .next (sgSwitch g i s) else .fault .illFormed

/-- The sweep visits a meter or policer (R212). -/
def execMeterSweep (g i : Nat) (s : State) : Out3 :=
  if g < 8 ∧ i < 49152 then .next (meterSweep g i s) else .fault .illFormed

end Sys2Proof.Machine
end

