-- ==== Sys2Proof/Machine/SchedCmd.lean ====
section
/-! DEFINITION. The scheduler's commands (R277, R412).  Payloads that the spec does not lay down are this model's. -/

namespace Sys2Proof.Machine
open Sys2Proof

/-- Local nodes held back for re-homing (R276): commands that name them are refused. -/
abbrev firstSpareNode : Nat := 31744

def bodySchPortSet : Body := fun _ f s =>
  lenIs f 8 s <| inRange (decide ((pw f 0).toNat < 256) && portExists s (pw f 0).toNat) 0 s <|
  inRange (decide (pf f 1 23 9 = 0) && decide (pf f 1 15 1 = 0) && decide (pf f 1 0 15 < firstSpareNode)) 1 s <|
  ok [] (dropDown (pw f 0).toNat (wrM (schPortCfg (pw f 0).toNat) 0x7F7FFF (pw f 1) s))

/-- A node record that a write may give (R253): no reserved bit, a weight, a port that exists. -/
def nodeWordOk (s : State) (d : Nat) (w : Word) : Bool :=
  fld w 19 13 == 0 && nodeWeight w != 0 && portExists s (128 * d + nodePort w)

/-- A record access by a command takes slots of the configuration activity, and waits for the first of them (R27). -/
def cfgSlot (d n : Nat) (s : State) : State := charge (schMem d) 0 n s
def cfgWait (f : Frame) (s : State) (k : CmdRes) : CmdRes := needSlot ((bitsOf 2 f.scope).map schMem) 0 s k

/-- A die's answer to a command that names one die: DONE. -/
def dieDone (f : Frame) (act : State → State) (s : State) : CmdRes := eachDie f (fun _ t => act t) s

def bodySchNodeSet : Body := fun _ f s =>
  lenIs f 8 s <| scopeOne f 2 s fun d =>
  let n := (pw f 0).toNat
  let w := pw f 1
  inRange (decide (n < firstSpareNode)) 0 s <| inRange (nodeWordOk s d w) 1 s <|
  let old := nodeGet s d n
  refuse ((nodePort w != nodePort old || (nodeEn old && !nodeEn w)) && !(busyQueues s d n).isEmpty) eBusy s <|
  cfgWait f s <| dieDone f (fun t => cfgSlot d 1 (nodePut d n (setBit w 18 (nodeRetired old)) t)) s

def bodySchTenantMap : Body := fun _ f s =>
  lenOk (decide (8 ≤ f.length)) s <|
  let n := f.length / 4 - 1
  inRange (decide ((pw f 0).toNat + n ≤ 65536)) 0 s <|
  match (List.range n).find? (fun i => fld (pw f (1 + i)) 16 16 != 0 ||
      decide (firstSpareNode ≤ fld (pw f (1 + i)) 0 15)) with
  | some i => err eRange (min 255 (1 + i)) s
  | none => cfgWait f s <| eachDie f (fun d t =>
      cfgSlot d n ((List.range n).foldl (fun x i => tmapPut d ((pw f 0).toNat + i) (pw f (1 + i)) x) t)) s

/-- A queue record that a write may give (R253); the word that fails. -/
def queueRecFails (r : List Word) : List Nat :=
  let qmax := fld (qw r 1) 0 16
  let on := fld (qw r 2) 0 16
  (if fld (qw r 0) 12 20 ≠ 0 ∨ qWeight r = 0 then [1] else []) ++
  (if qSpillEn r = true ∧ (on = 0 ∨ on ≤ fld (qw r 2) 16 16 ∨ (qmax ≠ 0 ∧ qmax < on)) then [3] else []) ++
  (if fld (qw r 3) 24 8 ≠ 0 then [4] else [])

/-- The record that SCH_QUEUE_SET gives: before 2.0 the payload has no spill words and SPILL_EN is reserved. -/
def bodySchQueueSet : Body := fun v f s =>
  lenIs f (if 0x0200 ≤ v then 20 else 12) s <| scopeOne f 2 s fun d =>
  let i := (pw f 0).toNat
  let old := queueGet s d i
  let r := if 0x0200 ≤ v then [pw f 1, pw f 2, pw f 3, pw f 4]
    else [setBit (pw f 1) 11 (qSpillEn old || bit (pw f 1) 11), pw f 2, qw old 2, qw old 3]
  inRange (decide (i < 262144)) 0 s <|
  inRange (decide (0x0200 ≤ v) || !bit (pw f 1) 11) 1 s <|
  match (queueRecFails r).min? with
  | some w => err eRange w s
  | none => cfgWait f s <| dieDone f (fun t => cfgSlot d 1 (queuePut d i r t)) s

/-- The local port that a command names exists on every die of its scope (R5); numbers beyond the last are the commit's to
refuse. -/
def namesPort (f : Frame) (s : State) (p : Nat) : Bool :=
  decide (128 ≤ p) || (bitsOf 2 f.scope).all (fun d => portExists s (128 * d + p))

def bodyShaperSet : Body := fun _ f s =>
  lenIs f 16 s <| inRange (decide (pf f 0 20 12 = 0)) 0 s <| scopeOne f 2 s fun _ =>
  inRange (decide (pf f 0 18 2 ≠ 1) || decide (pf f 0 0 18 < firstSpareNode)) 0 s <|
  inRange (decide (pf f 0 18 2 ≠ 2) || namesPort f s (pf f 0 0 18)) 0 s <|
  let r := onUnits true f (fun d t x =>
    let y := shpCommit d (nbit f.opts 0) (some t)
      ((List.range 3).foldl (fun z i => wrStg (shpData d i) (pw f (1 + i)) z) (wrStg (shpAddr d) (pw f 0) x))
    (if (shpWaits y d).isSome then rPending else rDone, y)) s
  match (bitsOf 2 f.scope).findSome? (fun d => refusedWith r.st (shpStat d)) with
  | some c => err eRange (0x80 + c) s
  | none => r

def bodyShaperRead : Body := fun _ f s =>
  lenIs f 4 s <| inRange (decide (pf f 0 20 12 = 0) && decide (pf f 0 0 18 < levelTop (pf f 0 18 2))) 0 s <|
  inRange (decide (pf f 0 18 2 ≠ 1) || decide (pf f 0 0 18 < firstSpareNode)) 0 s <|
  inRange (decide (pf f 0 18 2 ≠ 2) || namesPort f s (pf f 0 0 18)) 0 s <|
  scopeOne f 2 s fun d => cfgWait f s <|
    let x := shpNow s d (pf f 0 18 2) (pf f 0 0 18)
    ok [x.w0, x.w1, x.w2, bucketWord x.tc, bucketWord x.tp] (cfgSlot d 1 s)

def bodySchQueueRead : Body := fun _ f s =>
  lenIs f 4 s <| inRange (decide ((pw f 0).toNat < 262144)) 0 s <| scopeOne f 2 s fun d => cfgWait f s <|
    let i := (pw f 0).toNat
    let c := fun pos => cntOf s kQueue (queueIdx d i) pos
    ok ([wd (satF 32 (plainDepth s d i)), wd (satF 32 (hbmDepth s d i)), wd (satF 32 (headAge s d i)),
         wd (b2n (spillHeld s d i)),
         wd (c 0), loW (c 1), hiW (c 1), wd (c 2), loW (c 3), hiW (c 3)] ++
        (List.range 8).map (fun k => wd (c (4 + k)))) (cfgSlot d 1 s)

def bodySchSampleCfg : Body := fun _ f s =>
  lenIs f 12 s <| inRange (decide ((pw f 0).toNat < 8)) 0 s <| inRange (decide (pf f 1 22 10 = 0)) 1 s <|
  eachDie f (fun d t => wr (sampRange d (pw f 0).toNat) (pw f 2) (wr (sampCfg d (pw f 0).toNat) (pw f 1) t)) s

def bodySchBudgetSet : Body := fun _ f s =>
  lenIs f 8 s <| inRange (decide (pf f 0 15 1 = 0) && decide (pf f 0 31 1 = 0)) 0 s <|
  inRange (decide (pf f 1 15 1 = 0)) 1 s <|
  commitOn true f (fun d t => schBudgetCommit d
    (stgM (schBase d + 0x44) 0x7FFF (pw f 1) (stgM (schBase d + 0x40) 0x7FFF7FFF (pw f 0) t))) schBudgetStat s

/-- The first spare node that nothing uses. -/
def freeSpareNode (s : State) (d : Nat) : Option Nat :=
  ((List.range 1024).map (firstSpareNode + ·)).find? (fun n => !nodeEn (nodeGet s d n) && !nodeRetired (nodeGet s d n))

/-- A shaper record copied, its buckets set to their bursts (R275). -/
def shpCopy (d l i j : Nat) (s : State) : State :=
  let x := shpGet s d l i
  shpReplace d ⟨wd (j + l * 2 ^ 18), x.w0, x.w1, x.w2, true, none⟩ s

/-- A node's record, queue records and nine shapers copied to a spare node, every map entry and default node that names
it rewritten. -/
def rehomeNode (d n m : Nat) (s : State) : State :=
  let s1 := nodePut d m (setBit (nodeGet s d n) 18 false) s
  let s2 := (List.range 8).foldl (fun t q =>
    shpCopy d 0 (8 * n + q) (8 * m + q) (queuePut d (8 * m + q) (queueGet t d (8 * n + q)) t)) s1
  let s3 := shpCopy d 1 n m s2
  let s4 := ((ofUnit s3.sch.tmap d).filter (fun q => fld q.2 0 15 == n && bit q.2 15)).foldl
    (fun t q => tmapPut d q.1 (setFld q.2 0 15 m) t) s3
  (List.range 128).foldl (fun t p =>
    let a := schPortCfg (128 * d + p)
    if rdF t a 0 15 = n then wrF a 0 15 m t else t) s4

/-- Firmware re-homes the tenants of retired nodes, as spare nodes and slots allow (R275). -/
def nodeRehomes : List Nat → State → State
  | [], s => s
  | x :: rest, s =>
    let d := x / 32768
    match freeSpareNode s d with
    | some m =>
      if hasSlot s (schMem d) 0 then
        nodeRehomes rest (cfgSlot d 18 (rehomeNode d (x % 32768) m { s with sch := { s.sch with rehome := s.sch.rehome.filter (· ≠ x) } }))
      else nodeRehomes rest (waited (schMem d) 0 s)
    | none => nodeRehomes rest s

def bodySchNodeRehome : Body := fun _ f s =>
  lenIs f 4 s <| inRange (decide ((pw f 0).toNat < 32768)) 0 s <| scopeOne f 2 s fun d =>
  match freeSpareNode s d with
  | none => err eNoRoom 0 s
  | some m => cfgWait f s <| ok [wd m] (cfgSlot d 18 (rehomeNode d (pw f 0).toNat m s))

/-- Nodes of a die in use, retired, and spare. -/
def nodeUse (s : State) (d : Nat) : List Word :=
  let l := ofUnit s.sch.nodes d
  let listed := (l.filter (fun q => nodeEn q.2 && !nodeRetired q.2)).length
  let dflt := ((List.range 128).filter (fun n => nodeGet s d n == nodeRst n)).length
  let spare := 1024 - (l.filter (fun q => decide (firstSpareNode ≤ q.1) && (nodeEn q.2 || nodeRetired q.2))).length
  [wd (listed + dflt), wd (l.filter (fun q => nodeRetired q.2)).length, wd spare]

def bodySchCapacity : Body := fun _ f s => lenIs f 0 s <| readUnits 2 f (nodeUse s) s

def bodySchQueueFlush : Body := fun _ f s =>
  lenIs f 8 s <| inRange (decide ((pw f 0).toNat ≤ 1)) 0 s <|
  inRange (decide ((pw f 1).toNat < if pw f 0 = 0 then 262144 else firstSpareNode)) 1 s <|
  scopeOne f 2 s fun d =>
  cfgWait f s <| dieDone f (fun t => cfgSlot d 1 (if pw f 0 = 0 then flushQueue dropFlush d (pw f 1).toNat t
    else flushNode dropFlush d (pw f 1).toNat t)) s

end Sys2Proof.Machine
end

