-- ==== Sys2Proof/Machine/Start.lean ====
section
/-! DEFINITION. Starts (chapter 16): resets, the steps of R455, what a warm start keeps, the configuration restore, Aster,
Peony and the firmware restart, and the commands of R468. -/

namespace Sys2Proof.Machine
open Sys2Proof

abbrev glbStraps : Nat := glbBase + 0x20
def bootSrc (s : State) : Nat := rdF s glbStraps 6 2

/-! ### What a reset leaves (R443, R456, R457) -/

/-- Tables of the glens that survive a warm reset; retired rows survive every reset (R148, R455 step 2). -/
def keptGlens (warm : Bool) (x : Glens) : Glens :=
  let r := State.reset.glens
  let base := { r with bktRetired := x.bktRetired, ovfRetired := x.ovfRetired, pfxRetired := x.pfxRetired,
                       sliceRetired := x.sliceRetired, tickAt := x.tickAt }
  if warm then { base with em := x.em, ovf := x.ovf, routes := x.routes, nextHop := x.nextHop, pivotBad := x.pivotBad, rules := x.rules }
  else base

/-- Buckets set to their bursts. -/
def fullMeter (t : Nat) (m : Meter) : Meter :=
  { m with tc := (mCbs m : Int) * unitB, tp := (mPbs m : Int) * unitB, last := t % 2 ^ 32 }
def fullShp (t : Nat) (x : Shp) : Shp := { x with tc := sCbs x, tp := sPbs x, last := t }
def fullMeters (t : Nat) (m : Sparse Meter) : Sparse Meter := m.map (fun q => (q.1, fullMeter t q.2))
def fullShps (t : Nat) (m : Sparse Shp) : Sparse Shp := m.map (fun q => (q.1, fullShp t q.2))

/-- A recovery function as after its reset, without the count. -/
def freshRcv (t : Nat) (x : Rcv) : Rcv := { x with takeAny := true, hist := 0, p := 0, d := 0, timer := t, latAt := t, latZero := t }

/-- A port's gates with nothing running. -/
def quietGate (x : GatePort) : GatePort := { x with stg := [], tc := none, holdOp := false, holdClose := false, wire := none }

/-- A stream gate with its operational list in force from the start; a list still pending waits for network time to become
valid, when its change time is fixed anew (R293, R303). -/
def quietStreamGate (x : StreamGate) : StreamGate := { x with since := 0, tc := none, waits := x.waits || x.tc.isSome }
def quietStreamGates (m : Sparse StreamGate) : Sparse StreamGate := m.map (fun q => (q.1, quietStreamGate q.2))

/-- Registers that a warm reset keeps: FRE, FIO and gate configuration, patch banks, AGE_NOW, TCM_GEN. -/
def warmKept (a : Nat) : Bool :=
  match regAt a with
  | some (.fre _, _, _, _) | some (.fio, _, _, _) | some (.gat _, _, _, _) => configReg a
  | some (.pip _, d, _, _) => d.act == .prsBank || d.act == .rweBank || d.act == .keep 4 || d.act == .keep 5 || d.act == .keep 6 || d.act == .keep 7
  | some (.gln g, _, _, _) => a == emtAgeStat g || a == tcmGen g
  | _ => false

/-- The HBM retirement lists in MRAM. -/
def mramReg (a : Nat) : Bool := a == hbmBase 0 + 0x10 || a == hbmBase 1 + 0x10

/-- A field output held in its fail state across a reset. -/
def keptOut (x : FoOut) : FoOut := { restOut with fail := true, failLevel := x.failLevel, level := x.level, was := x.was }

/-- A pool page that is retired stays so. -/
def keptPages (m : Sparse PageSt) : Sparse PageSt := m.filter (fun q => q.2.retired)

/-- The straps' values in the registers that show them (R359, R443), and the ring ports' speed (R444). -/
def latchStraps (straps : Nat) (s0 : State) : State :=
  let role := straps % 4
  let r := if role = 3 then 0 else role
  let v := straps / 4 % 2
  let s := [7, 135].foldl (fun t p =>
    { t with ports := { t.ports with ports := tset none t.ports.ports p (some ⟨1, v, v, 1522, true, false⟩) } }) s0
  wrF casStat 2 2 role (wrF casStat 0 2 r (wrF casCfg 0 2 r (wr glbStraps (wd (straps % 2 ^ 11)) s)))

/-- The occupancy registers of the glens' tables, as the tables stand. -/
def refreshOcc (s : State) : State :=
  (List.range 8).foldl (fun t g =>
    tcmOccUpdate g (setRoutes g (routesOf t g) (occUpdate g (wrF (stmOcc g) 0 16 (idUsed t g) t)))) s

/-- The machine after a reset, before any step: what MRAM, the always-on domain and the outside hold stays, and under a
warm reset what R457 keeps. -/
def afterReset (warm : Bool) (straps : Nat) (s : State) : State :=
  let r := State.reset
  let t := s.tim.cnt
  let regs := s.regs.filter (fun q => mramReg q.1 || (warm && warmKept q.1))
  let tests := s.fcl.units.filter (fun q => q.2.state == 3)
  let x : State := { r with
    pending := s.pending, freeCtr := s.freeCtr, out := s.out, regs := regs, shadow := s.shadow
    bus := { r.bus with smbAddr := s.bus.smbAddr, smbStatus := s.bus.smbStatus }
    mbx := { r.mbx with ringMem := s.mbx.ringMem, shUsed := s.mbx.shUsed, txn := s.mbx.txn }
    glens := { keptGlens warm s.glens with tickAt := (List.range 8).foldl (fun m g => tset 0 m g t) [] }
    streams := if warm then { s.streams with histQ := [], gates := quietStreamGates s.streams.gates, meters := fullMeters t s.streams.meters }
               else r.streams
    bpm := { r.bpm with pages := keptPages s.bpm.pages, sparesUsed := s.bpm.sparesUsed }
    bud := { r.bud with sparesUsed := s.bud.sparesUsed, rowFlags := if warm then s.bud.rowFlags else [] }
    tim := { r.tim with cnt := t }
    gat := if warm then s.gat.map (fun q => (q.1, quietGate q.2)) else []
    col := { r.col with stopped := s.col.stopped }
    sch := if warm then { r.sch with shp := fullShps t s.sch.shp } else r.sch
    fre := if warm then { s.fre with rcv := s.fre.rcv.map (fun q => (q.1, freshRcv t q.2)), dup := [] } else r.fre
    fio := { r.fio with pinRec := s.fio.pinRec, outs := s.fio.outs.map (fun q => (q.1, keptOut q.2)),
                        pubs := if warm then s.fio.pubs else [], tmpl := if warm then s.fio.tmpl else [],
                        tev := if warm then s.fio.tev else [] }
    ucode := if warm then { s.ucode with gaps := [] } else r.ucode
    dmp := { r.dmp with mram := s.dmp.mram, slot0 := t }
    sec := { r.sec with owner := s.sec.owner, svn := s.sec.svn, vendor := s.sec.vendor, digests := s.sec.digests }
    start := { r.start with
      fails := s.start.fails, slots := s.start.slots, active := s.start.active, image := s.start.image,
      reached := s.start.reached, warmLow := s.start.warmLow, alive := s.start.alive, rails := s.start.rails,
      perst := s.start.perst, train := s.start.train, bistFail := s.start.bistFail, thermHot := s.start.thermHot } }
  let y := tests.foldl (fun u q => raise srcTestAbort 0 (q.1 / 2 ^ 32) (q.1 % 2 ^ 32)
    (setState (q.1 / 2 ^ 32) (q.1 % 2 ^ 32) 2 u)) (latchStraps straps (refreshOcc x))
  measurePolicy y

/-- A start begins at step 2 (R455). -/
def startAt (kind : Nat) (s : State) : State :=
  { wrBit glbStatus sbWarm (kind == 1) s with
    start := { s.start with kind := kind, step := 2, began := s.tim.cnt, origin := s.tim.cnt, toPeony := 0, loop := false } }

/-- The clock runs that step 2 waits for (R544). -/
def sysclkOk (s : State) : Bool := !onOscillator s

/-! ### RESET_N and the supplies (R449, R458, R463, R540, R551) -/

/-- Everything but the always-on domain stops: the outputs in their fail state, no plan, no firmware. -/
def stopAll (s : State) : State :=
  let s1 := wrBit glbStatus sbSafe true (wrBit glbStatus sbFull false (firmwareDown s))
  failOuts { s1 with start := { s1.start with plan := false, step := 0, ringTx := [], restarting := false } }

def resetAssert (warm : Bool) (s : State) : State :=
  if !s.start.rails || s.start.inReset then { s with start := { s.start with inReset := true, warmLow := warm } }
  else
    let rest := fun (t : State) (d : Nat) =>
      if warm && rdF t (hbmBase d + 4) 0 3 == 3 then wrF (hbmBase d + 4) 0 3 2 t else t
    let s1 := rest (rest (stopAll s) 0) 1
    { s1 with start := { s1.start with inReset := true, warmLow := warm } }
def execResetNAssert (warm : Bool) (s : State) : Out3 := .next (resetAssert warm s)

/-- RESET_N deasserted: warm when WARM_N was low at both samples, a shadow is committed, the last start reached Peony and
the retention check passes (R456, R551). -/
def resetDeassert (straps : Nat) (warm retained : Bool) (s : State) : State :=
  if !s.start.inReset then s
  else if !s.start.rails then { s with start := { s.start with inReset := false } }
  else
    let w := warm && s.start.warmLow && retained && s.shadow.any && s.start.reached
    let s1 := afterReset w straps (if w then timeChanges s else s)
    startAt (b2n w) { s1 with start := { s1.start with inReset := false, reached := s.start.reached } }
def execResetNDeassert (straps : Nat) (warm retained : Bool) (s : State) : Out3 := .next (resetDeassert straps warm retained s)

/-- VIN good: every rail reports good; the start that follows is cold.  It waits while the RESET_N land is held. -/
def vinGood (straps : Nat) (s : State) : State :=
  if s.start.rails then s
  else
    let s0 := { s with col := { s.col with stopped := [] } }
    let s1 := afterReset false straps s0
    let s2 : State := { s1 with
      start := { s1.start with rails := true, alive := true, inReset := s.start.inReset, reached := false, thermHot := false }
      bus := { s1.bus with smbAddr := none, smbStatus := 0 } }
    if s2.start.inReset then { s2 with start := { s2.start with step := 0 } } else startAt 0 s2
def execVinGood (straps : Nat) (s : State) : Out3 := .next (vinGood straps s)

/-- The rails switch off, all but the always-on and MRAM rails; FAULT_N is asserted. -/
def railsOff (s : State) : State :=
  if !s.start.rails then s
  else
    let s1 := wrBit glbStatus sbWestUp false (wrBit glbStatus sbFault true (stopAll s))
    { s1 with start := { s1.start with rails := false, reached := false } }
def execVinRailShutdown (s : State) : Out3 := .next (railsOff s)
def execVinOvervoltage (s : State) : Out3 := .next (railsOff (raise srcVinHigh 0 0 0 s))
def execThermalShutdown (s : State) : Out3 := .next (railsOff s)
def execVinLowDetect (s : State) : Out3 := .next (raise srcVinLow 0 0 0 s)
def execVinHighDetect (s : State) : Out3 := .next (raise srcVinHigh 0 0 0 s)

/-- The always-on rail switches off too: FO pins are pulled down. -/
def vinLoss (s : State) : State :=
  let s1 := railsOff s
  { s1 with fio := { s1.fio with outs := s1.fio.outs.map (fun q => (q.1, { q.2 with level := false })) }
            start := { s1.start with alive := false } }
def execVinLoss (s : State) : Out3 := .next (vinLoss s)

/-! ### Steps 5 to 8 -/

/-- The image that step 6 loads: the active slot's, or the other's under R465. -/
def bootSlot (s : State) : Nat := if s.start.swap then 1 - s.start.active else s.start.active
def bootImage (s : State) : List Byte := if bootSrc s = 2 then s.start.image else s.start.slots.getD (bootSlot s) []

/-- An image that may run: signed by Moennum, its security version not below SVN_MIN (R523). -/
def imageRuns (s : State) (b : List Byte) : Bool := Config.imageOk b && decide (s.sec.svn ≤ Config.imageSvn b % 256)

/-- An image takes effect, measured before it does (R530). -/
def runImage (b : List Byte) (s : State) : State :=
  let s1 := measure 2 (digest b) s
  { s1 with start := { s1.start with image := b } }

/-- Step 5: the key is held, and the identity unit loads what MRAM keeps. -/
def stepFive (s : State) : State :=
  let s1 := wrF secBase 8 8 s.sec.svn (wrBit secBase sbOwner (!s.sec.owner.isEmpty) (wrBit secBase sbKeyOk true s))
  measureOwner (measurePolicy (wrBit secCfg 0 s.sec.vendor s1))

/-- A failure of step 7 bars stored training from the start that follows it (R455). -/
def trainedWrong (s : State) : Bool :=
  s.start.kind == 3 && (match s.start.fails.getLast? with | some f => f.step == 7 | none => false)

/-- Stored training is usable within 20 °C of its temperature, and not after a failure of step 7 (R455, R458). -/
def storedOk (s : State) (d celsius : Nat) : Bool :=
  match s.start.train.getD d none with
  | none => false
  | some t => decide (s.start.kind ≠ 0) && decide (celsius ≤ t + 20) && decide (t ≤ celsius + 20) &&
      !trainedWrong s

/-- Step 7 on one stack. -/
def trainStack (d : Nat) (r : StartReport) (s : State) : State :=
  let ok := if d = 0 then r.east else r.west
  if !ok then raise srcHbmTrainFail 0 5 d (stackOut d s)
  else
    let stored := storedOk s d r.celsius
    let b := hbmBase d
    let s1 := wrBit (b + 4) 4 stored (wrBit (b + 4) 3 true (wrF (b + 4) 0 3 3 s))
    if stored then wrF (b + 8) 16 8 ((s.start.train.getD d none).getD 0) s1
    else
      let s2 := incSat (b + 8) 24 8 (wrF (b + 8) 16 8 (min 255 r.celsius) (wrF (b + 8) 0 16 (min 65535 r.trainMs) s1))
      { s2 with start := { s2.start with train := s2.start.train.set d (some r.celsius) } }

/-- No cell of a die is in use, nor an owner record. -/
def noUse (d : Nat) (s : State) : State :=
  setOwnUsed d 0 ((List.range 38).foldl (fun t r => (List.range 4).foldl (fun u k => wr (bpmUse d r k) 0 u) t) s)

/-- Every frame is dropped and every queue is empty. -/
def noFrames (s0 : State) : State :=
  let x := State.reset
  let s := noUse 1 (noUse 0 s0)
  rebuildPools 1 (rebuildPools 0 { s with
    path := { x.path with nextPkt := s.path.nextPkt, nextCopy := s.path.nextCopy, lfsr := s.path.lfsr }
    sch := { s.sch with q := [], nodeDyn := [], portDyn := [], resUsed := [], enqWait := [], samp := [] }
    ports := { s.ports with fifo := [] } })

/-- Step 8: the tables cleared. -/
def clearTables (s : State) : State :=
  let r := State.reset
  let s1 : State := { s with
    glens := keptGlens false s.glens, streams := r.streams, gat := [],
    fre := { r.fre with dup := s.fre.dup, gens := s.fre.gens.filter (fun q => q.1 == key 0 16383) },
    sch := { r.sch with q := s.sch.q } }
  noFrames (refreshOcc s1)

/-! ### Step 9: the configuration restore (R405, R407, R450, R455) -/

/-- A port group without a port is parked (R62), and shows no absence seen. -/
def refreshParked (n : Nat) (s : State) : State :=
  let idle := !(s.ports.ports.any (fun q => q.2.isSome && pgOf q.1 == n))
  wrBit (domStat n) 3 idle (if idle then wrBit (domStat n) 2 false s else s)

/-- Ports as the shadow records them; the ring ports always exist.  Links that are up stay up. -/
def restoredPorts (s : State) : Sparse (Option PortRec) :=
  let rings := s.ports.ports.filter (fun q => ringPort q.1)
  let l := s.shadow.ports.foldl (fun m q => tset none m q.1 q.2) rings
  l.map (fun q => (q.1, q.2.map (fun r => { r with link := match portRec s q.1 with | some o => o.link | none => false })))

/-- The shadow holds a register's setting; registers that firmware has set are recorded there. -/
def shadowHas (s : State) (a : Nat) : Bool := (tget none s.shadow.regs a).isSome
def shadowKeep (l : List Nat) (s : State) : State :=
  { s with shadow := { s.shadow with regs := l.foldl (fun m a => tset none m a (some (tget (resetOf a) s.regs a))) s.shadow.regs } }

/-- The registers of layout 1's two searches, and the shipped values (R151). -/
def stationRegs (g : Nat) : List (Nat × Word) :=
  let sel := fun (first w : Nat) =>
    let l := [80, 80, first, first + 1, first + 2, first + 3, first + 4, first + 5, 80, 80, 80, 80]
    wd (l.getD (4 * w) 0 + l.getD (4 * w + 1) 0 * 2 ^ 8 + l.getD (4 * w + 2) 0 * 2 ^ 16 + l.getD (4 * w + 3) 0 * 2 ^ 24)
  [0, 1].flatMap (fun srch => (emtKeyHdr g 1 srch, 1) :: (List.range 3).map (fun w => (emtKeyBytes g 1 srch w, sel (6 * srch) w)))

/-- Aster's settings of a glen, where the shadow holds no others: table 0 enabled, then layout 1 committed. -/
def defaultLayout (g : Nat) (s : State) : State :=
  let s1 := if shadowHas s (emtTblCfg g 0) then s else shadowKeep [emtTblCfg g 0] (wrBit (emtTblCfg g 0) 0 true s)
  if (stationRegs g).any (fun q => shadowHas s q.1) then s1
  else
    let t := keyCommit g ((stationRegs g).foldl (fun u q => wrStg q.1 q.2 u) s1)
    if (refusedWith t (emtKeyStat g)).isSome then keyDiscard g t else shadowKeep ((stationRegs g).map (·.1)) t

/-- The quotas of R247: MIN and MAX of pools 0 to 3 for each requester. -/
def quotaRow (r : Nat) : List Nat × List Nat :=
  if r < 32 then ([512, 128, 64, 4], [32768, 8192, 6144, 512])
  else if r < 34 then ([0, 0, 0, 0], [64, 64, 64, 64])
  else if r = 34 then ([256, 64, 32, 8], [4096, 1024, 1024, 64])
  else if r = 35 then ([256, 64, 64, 8], [4096, 1024, 1024, 64])
  else if r = 36 then ([1024, 512, 512, 32], [65536, 16384, 12288, 1024])
  else ([256, 64, 32, 4], [2048, 512, 256, 32])

def quotaRegs (d : Nat) : List (Nat × Word) :=
  (List.range 38).flatMap (fun r => (List.range 4).flatMap (fun k =>
    [(bpmMin d r k, wd ((quotaRow r).1.getD k 0)), (bpmMax d r k, wd ((quotaRow r).2.getD k 0))]))

/-- Aster's settings of a die's BPM: YEL_KEEP an eighth of each pool, and the quotas committed, where host software has set no
others. -/
def defaultQuotas (d : Nat) (s : State) : State :=
  let s1 := (List.range 4).foldl (fun v k => if shadowHas v (bpmYelKeep d k) then v else
    shadowKeep [bpmYelKeep d k] (wr (bpmYelKeep d k) (wd ((poolGet v d k).cells / 8)) v)) s
  if s.shadow.regs.any (fun q => quotaGroup d q.1) then poolStatsUpdate d s1
  else
    let t := quotaCommit d ((quotaRegs d).foldl (fun u q => wrStg q.1 q.2 u) s1)
    if (refusedWith t (bpmQuotaStat d)).isSome then quotaDiscard d t else shadowKeep ((quotaRegs d).map (·.1)) t

/-- A patch set of the shadow: its signature checked again, then loaded and switched to. -/
def restoreSet (e : Nat) (s : State) : State :=
  let x := tget noSet s.shadow.sets (e + 1)
  let y := tget noSet s.shadow.sets (e + 3)
  let put := fun (z : PatchSet) (t : State) => if imageGood t e z.image then loadSet e z t else t
  let s1 := if x.image.isEmpty then (if (activeSet s e).image.isEmpty then s else revertSet e s)
    else if activeSet s e = x then s else switchSet e (put x s)
  if y.image.isEmpty then s1 else put y s1

/-- The tables that a warm start keeps, from the shadow. -/
def restoreTables (s : State) : State :=
  let h := s.shadow
  let t := s.tim.cnt
  let s1 := h.em.foldl (fun u r => (emInsert r.glen r.table r.key r.action r.isStatic u).st) s
  let s2 := (List.range 8).foldl (fun u g => setRoutes g ((h.routes.filter (fun q => q.1 == g)).map (·.2)) u) s1
  let s3 := h.rules.foldl (fun u q => ruleSet (q.1 / 2 ^ 32) (q.1 % 2 ^ 32) { q.2 with array := q.2.slices } u) s2
  let s4 := h.ids.foldl (fun u q => idPut (q.1 / 2 ^ 32) (q.1 % 2 ^ 32) q.2 u) s3
  { s4 with
    glens := { s4.glens with nextHop := h.nextHop }
    streams := { s4.streams with ctx := h.ctx, gates := quietStreamGates h.gates, meters := fullMeters t h.meters, tenMap := h.tenMap, edges := h.edges }
    sch := { s4.sch with shp := fullShps t h.shp }
    gat := h.gat.map (fun q => (q.1, quietGate q.2))
    fre := { s4.fre with handles := h.handles, gens := h.gens, rcv := h.rcv.map (fun q => (q.1, freshRcv t q.2)) }
    fio := { s4.fio with tmpl := h.tmpl, tev := h.tev } }

/-- A publication set of the shadow starts its state afresh. -/
def restorePubs (s : State) : State :=
  s.shadow.pubs.foldl (fun t q =>
    if (pubOf t q.1).cfg = q.2.cfg then t
    else pubState q.1 [] (setPub q.1 { q.2 with events := [], interval := 0, beats := false, fresh := false } t)) s

/-- The records that every start rebuilds from the shadow. -/
def restoreRecords (s : State) : State :=
  let h := s.shadow
  let s1 : State := { s with
    ports := { s.ports with ports := restoredPorts s, mcast := h.mcast, mirrors := h.mirrors, tuning := [] }
    glens := { s.glens with learnPol := h.learnPol }
    sch := { s.sch with tmap := h.tmap, nodes := h.nodes, queues := h.queues }
    tim := { s.tim with ptp := h.ptp }
    cas := { s.cas with join := h.casJoin, prio := h.casPrio, allow := h.casAllow }
    start := { s.start with handedOver := h.handedOver, held := h.held, dropped := false } }
  restorePubs ((List.range 32).foldl (fun t n => refreshParked n t) s1)

/-- Step 9 of a cold, warm or failed-repeat start; the dump sets seek their boundaries from here on (R497), and lists that
are pending get their change times where network time is valid (R293). -/
def restoreAll (s : State) : State :=
  let s1 := rebuildPools 1 (rebuildPools 0 (restoreRegs (fun _ => true) s))
  let s2 := defaultQuotas 1 (defaultQuotas 0 ((List.range 8).foldl (fun t g => defaultLayout g t) s1))
  let s3 := if s.start.kind = 1 then s2 else restoreTables s2
  let s4 := noFrames (restoreRecords s3)
  let s5 := (List.range 11).foldl (fun t k => periodSet k t) (restoreSet 1 (restoreSet 0 s4))
  if timValid s5 then sgValidity (gatesValid s5) else (gatedPorts s5).foldl (fun t p => gateRefresh p t) s5

/-! ### Aster and Peony (R450, R451) -/

/-- Firmware runs: FW_UP with STAGE 1, RESTORED clear. -/
def enterAster (s : State) : State :=
  let s1 := wrBit mbxFwStat 3 false (wrBit mbxFwStat 0 true (wrF mbxFwStat 1 2 1 s))
  { s1 with start := { s1.start with loader := false } }

def enterPeony (s : State) : State :=
  let s1 := wrBit glbStatus sbFull true (wrBit glbStatus sbSafe false (wrF mbxFwStat 1 2 2 (wrBit mbxFwStat 3 true s)))
  { s1 with start := { s1.start with step := 10, began := s.tim.cnt, reached := true, swap := false, toPeony := (s.tim.cnt - s.start.origin) / 10 ^ 6 } }

/-! ### The steps (R455) -/

/-- The supervisor runs a start: not in reset, START_LOOP or a hold. -/
def startRuns (s : State) : Bool :=
  s.start.rails && !s.start.inReset && !s.start.loop && decide (s.fcl.hold = 0) && decide (2 ≤ s.start.step) && decide (s.start.step ≤ 9)

def goStep (n : Nat) (s : State) : State := { s with start := { s.start with step := n, began := s.tim.cnt } }

/-- Step 6 waits for an image, or there is none by design (R443). -/
def noImage (s : State) : Bool := bootSrc s == 3 || (bootSrc s == 2 && s.start.loader)

/-- The image of step 6, checked in full, or by its hash on a warm start. -/
def stepSix (s : State) : State :=
  let b := bootImage s
  let good := if s.start.kind = 1 then digest b == digestOf s 2 else imageRuns s b
  if good then goStep 7 (runImage b { s with start := { s.start with active := bootSlot s, swap := false } })
  else startFail 6 causeImage (raise srcSecImageAuth 0 0 0 s)

/-- Steps 2 to 4: the pin record; what follows the Primrose-path BIST, which a warm start does not run; the plan. -/
def earlyStep (s : State) : State :=
  if s.start.step = 2 then
    let s1 := pinRecordLoad s
    let rows := fun (d : Nat) (t : State) => wrF (hbmBase d + 0x10) 16 16 (4096 - rdF t (hbmBase d + 0x10) 0 16) t
    let s2 := rows 1 (rows 0 s1)
    if s.start.kind = 1 then goStep 4 (wrBit glbStatus sbFault false s2) else goStep 3 s2
  else if s.start.step = 3 then
    let s1 := wrBit glbStatus sbFault false s
    goStep 4 { s1 with start := { s1.start with bistFail := false } }
  else goStep 5 (enterPrimrose s)

/-- Steps 5 to 9.  After step 5 the loader comes up where no image is at hand. -/
def lateStep (r : StartReport) (s : State) : State :=
  match s.start.step with
  | 5 =>
    let s1 := goStep 6 (stepFive s)
    if 2 ≤ bootSrc s then loaderUp s1 else s1
  | 6 => if noImage s then s else stepSix s
  | 7 =>
    let s1 := trainStack 1 r (trainStack 0 r s)
    if r.east || r.west then goStep 8 s1 else startFail 7 causeHbm s1
  | 8 => goStep 9 (enterAster (if s.start.kind = 1 then s else clearTables s))
  | 9 =>
    let s1 := restoreAll s
    if rdBit s1 glbStatus sbWestUp then enterPeony s1 else startFail 9 causeWest s1
  | _ => s

/-- The maximum of the step in progress in ns (R459); `stored` says that step 7 restores stored training on both stacks. -/
def stepMax (s : State) (stored : Bool) : Nat :=
  let us := match s.start.step with
    | 2 => 800
    | 3 => 2000
    | 4 => 1000
    | 5 => 15000
    | 6 => if s.start.kind = 1 then 20000 else 60000
    | 7 => if stored then 5000 else 450000
    | 8 => 12000
    | _ => if s.start.kind = 1 then 100000 else 1600000
  us * 1000

/-- The step in progress has overrun its maximum (R464): step 2 while it waits for SYSCLK, and step 6 while it waits for an
image, run under none (R443, R544). -/
def overrun (s : State) (stored : Bool) : Bool :=
  decide (s.start.began + stepMax s stored < s.tim.cnt) && !(s.start.step == 2 && !sysclkOk s) && !(s.start.step == 6 && noImage s)

/-- A step ends well; step 2 waits for SYSCLK.  A step that ends after its maximum has failed.  The islands follow the units that the step finds out of service (R49). -/
def stepDone (r : StartReport) (s : State) : State :=
  if !startRuns s then s
  else
    let s1 := wrBit (sadBase 0) 1 r.westUp (wrBit glbStatus sbWestUp r.westUp s)
    if s.start.step = 2 ∧ sysclkOk s = false then s1
    else if overrun s (storedOk s 0 r.celsius && storedOk s 1 r.celsius) then startFail s.start.step causeOverrun s1
    else islService false (if s.start.step ≤ 4 then earlyStep s1 else lateStep r s1)

/-- What R464 finds in a step: its overrun, or the step's own failure. -/
def causeFits (s : State) (cause : Nat) : Bool :=
  match cause with
  | 1 => overrun s (decide (s.start.kind ≠ 0) && !trainedWrong s && s.start.train.all Option.isSome)
  | 2 => s.start.step == 3
  | 3 => s.start.step == 5
  | 4 => s.start.step == 6 && !noImage s
  | 5 => s.start.step == 7
  | 6 => s.start.step == 9
  | 7 => s.start.step == 9
  | 8 => s.start.step == 9
  | _ => false

def stepFails (cause : Nat) (s : State) : State :=
  if startRuns s && causeFits s cause then
    startFail s.start.step cause (if cause = 3 then raise srcSecPufFail 0 0 0 s else if cause = 4 then raise srcSecImageAuth 0 0 0 s else s)
  else s
def execStartStepOverrun (cause : Nat) (s : State) : Out3 :=
  needs (decide (1 ≤ cause) && decide (cause ≤ 8)) (if 1 ≤ cause ∧ cause ≤ 8 then stepFails cause s else s)

/-- Peony held for 60 s: the failure record is cleared (R466). -/
def execPeonyHoldTimer (s : State) : Out3 :=
  .next (if s.start.step = 10 ∧ s.start.began + 60 * 10 ^ 9 ≤ s.tim.cnt then { s with start := { s.start with fails := [] } } else s)

/-! ### The firmware restart (R404, R406, R455, R461, R462) -/

/-- The shadow log applied: each entry's masked value becomes the register's shadow, a staged group's is the value in
force, lost blocks are read back. -/
def applyLogEntry (s : State) (e : LogEntry) : State :=
  if stagedReg e.addr || commitReg e.addr then shadowStaged (e.addr / 65536) s
  else
  let old := shadowValue s e.addr
  let v := BitVec.ofNat 32 ((old.toNat &&& (2 ^ 32 - 1 - e.mask)) ||| (e.value.toNat &&& e.mask))
  { s with shadow := { s.shadow with any := true, regs := tset none s.shadow.regs e.addr (some v) } }
def mbxLostMap (i : Nat) : Nat := mbxBase + 0x40 + 4 * i
def blockLost (s : State) (blk : Nat) : Bool := rdBit s (mbxLostMap (blk / 32)) (blk % 32)
def recoverLost (s : State) : State :=
  let lost := s.regs.filter (fun q => blockLost s (q.1 / 65536))
  let old := s.shadow.regs.filter (fun q => blockLost s (q.1 / 65536))
  let s1 := (lost ++ old.map (fun q => (q.1, (0 : Word)))).foldl (fun t q => shadowReg q.1 t) s
  (List.range 32).foldl (fun t i => wr (mbxLostMap i) 0 t) s1
def applyLog (s : State) : State :=
  let s1 := s.mbx.log.foldl applyLogEntry s
  recoverLost { s1 with mbx := { s1.mbx with log := [] } }

/-- The image that a restart runs: the one that ran, or the one activated meanwhile, checked in full. -/
def restartImage (s : State) : State :=
  let b := if bootSrc s < 2 then s.start.slots.getD s.start.active [] else s.start.image
  if digest b = digestOf s 2 then runImage b s
  else if imageRuns s b then runImage b s
  else startFail 6 causeImage (raise srcSecImageAuth 0 0 0 s)

/-- The restart ends: the shadow brought up to date and compared with the registers, RESTARTS up, FW_UP and RESTORED set,
interrupted commands answered. -/
def restartEnd (s : State) : State :=
  if !s.start.restarting then s
  else
    let s1 := restartImage (domainReleased 35 s)
    if !s1.start.restarting then s1
    else
      let s2 := restoreRegs (fun _ => true) (applyLog s1)
      let s3 := incSat mbxFwStat 16 16 (wrBit mbxFwStat 3 true (wrBit mbxFwStat 0 true s2))
      answerRestarted { s3 with ports := { s3.ports with tuning := [] }, start := { s3.start with restarting := false, kind := 2, step := 10 } }

/-- A firmware restart: the MP reset, unless that has begun, and the reload. -/
def firmwareRestart (s : State) : State := restartEnd (if s.start.restarting then s else mpReset s)

/-! ### Commands (R468, R469) -/

/-- The seven words of R469. -/
def startStatusWords (s : State) : List Word :=
  let x := s.start
  let last := x.fails.getLast?
  [wd (fwStage s + x.kind * 2 ^ 2 + x.step * 2 ^ 4 + b2n x.loop * 2 ^ 8 + b2n x.loader * 2 ^ 9 + x.active * 2 ^ 10 + b2n x.handedOver * 2 ^ 11),
   wd (min 255 (recentFails s).length + (match last with | some f => f.step * 2 ^ 8 + f.cause * 2 ^ 16 | none => 0)),
   wd x.toPeony] ++ (List.range 4).map (fun i => wd (cntOf s kPrimrose 0 i))
def bodyStartStatus : Body := fun _ f s => lenIs f 0 s <| ok (startStatusWords s) s

def bodyFwRestart : Body := fun _ f s =>
  lenIs f 0 s <| refuse (decide (fwStage s = 0)) eState s <| ok [] (mpReset s)

/-- Word 0 the image's bytes in the transfer buffer.  DESIGN CHOICE (log entry 39) -/
def bodyFwBoot : Body := fun _ f s =>
  lenIs f 4 s <| inRange (decide ((pw f 0).toNat ≤ 65536)) 0 s <|
  refuse (!s.start.loader || s.start.loop || decide (s.fcl.hold ≠ 0) || decide (bootSrc s ≠ 2) || decide (s.start.step ≠ 6)) eState s <|
  let b := xferBytes s (mbKey f) (pw f 0).toNat
  if !imageRuns s b then err eAuth 0 (raise srcSecImageAuth 0 0 0 s)
  else
    let t := wrBit mbxFwStat 0 false (runImage b s)
    ok [] (goStep 7 { t with start := { t.start with loader := false } })

/-- Word 0 [0] SOURCE, 0 the transfer buffer or 1 host memory; word 1 the bytes; words 2 and 3 the host address.
DESIGN CHOICE (log entry 39) -/
def bodyFwImageWrite : Body := fun _ f s =>
  lenIs f 16 s <|
  let host := bit (pw f 0) 0
  inRange (decide (pf f 0 1 31 = 0) && !(host && decide (1 < f.mb))) 0 s <|
  inRange (host || decide ((pw f 1).toNat ≤ 65536)) 1 s <|
  let r := imageFrom f host (pw f 1).toNat (w64 (pw f 2) (pw f 3)) s
  if !imageRuns r.2 r.1 then err eAuth 0 (raise srcSecImageAuth 0 0 0 r.2)
  else ok [] { r.2 with start := { r.2.start with slots := r.2.start.slots.set (1 - r.2.start.active) r.1 } }

/-- Word 0 the slot.  DESIGN CHOICE (log entry 39) -/
def bodyFwSlotSelect : Body := fun _ f s =>
  lenIs f 4 s <| inRange (decide ((pw f 0).toNat < 2)) 0 s <|
  let t := { s with start := { s.start with active := (pw f 0).toNat, swap := false } }
  ok [] (if nbit f.opts 0 then mpReset t else t)

/-- The ring ports handed over: the values held for them take effect; a profile not set is 0x00 (R453). -/
def handOver (s : State) : State :=
  let s1 := [7, 135].foldl (fun t p => wr (engPortProf 1 p) 0 (wr (engPortProf 0 p) 0 t)) s
  let s2 := s.start.held.foldl (fun t q => wr q.1 q.2 t) s1
  { s2 with start := { s2.start with handedOver := true, held := [] } }
def bodyPrimroseHandover : Body := fun _ f s =>
  lenIs f 0 s <| refuse s.start.handedOver eState s <| ok [] (handOver s)

/-- The failure record cleared and a failed-repeat start begun, from step 2 after a Primrose-path BIST failure. -/
def startRetry (s : State) : State :=
  let s1 := dropToPrimrose (abortTests s)
  { s1 with fcl := { s1.fcl with hold := 0 }
            start := { s1.start with fails := [], loop := false, kind := 3, restarting := false, reached := false,
                                     step := if s.start.bistFail then 2 else 4, began := s.tim.cnt, origin := s.tim.cnt, toPeony := 0 } }
def bodyStartRetry : Body := fun _ f s => lenIs f 0 s <| ok [] (startRetry s)

end Sys2Proof.Machine
end

