-- ==== Sys2Proof/Machine/Session.lean ====
section
/-! DEFINITION. The commands of groups 0x00 and 0x01 (R396 to R399, R409, R411, R415, R416): sessions, the engine, the
shadow, ports, multicast groups and mirrors. -/

namespace Sys2Proof.Machine
open Sys2Proof

/-! ### The engine as HELLO shows it (R396, R399) -/

def stackServes (s : State) (d : Nat) : Bool := rdF s (hbmBase d + 4) 0 3 == 3 && !outOfService s 5 d

/-- The capability bitmap of a mailbox, bits 0 to 31, in a session at version `v`: a bit that a later version added reads 0
(R398). -/
def capBits (v : Nat) (f : Frame) (s : State) : Nat :=
  let fw := fwStage s != 0
  [decide (f.mb < 2), casRole s == 2, casRole s == 1 && (casSessUp s 0 || casSessUp s 1), stackServes s 0 && stackServes s 1,
   fw, !s.sec.owner.isEmpty, dbgUnlocked s, fw && decide (0x0301 ≤ v), fw && decide (0x0301 ≤ v), mbPrivileged s f,
   spareFree s 0, spareFree s 1, true, fw && decide (0x0302 ≤ v)].zipIdx.foldl
    (fun n q => n + b2n q.1 * 2 ^ q.2) 0

/-- The firmware version: the loader's is 0 (R467). -/
def fwVersion (s : State) : Word := if fwStage s = 0 then 0 else Config.fwVersion s.start.image

/-- Words 3 to 15 of HELLO's response. -/
def engineWords (v : Nat) (f : Frame) (s : State) : List Word :=
  [wd (fwStage s + b2n (decide (f.mb < 2)) * 4 + f.mb * 2 ^ 8), fwVersion s, wd (romId s 0), wd (romId s 1), 0,
   wd (capBits v f s)] ++ List.replicate 7 0

/-- The versions of the command set (R396). -/
def cmdVersions : List Nat := [0x0302, 0x0301, 0x0300, 0x0200, 0x0100]

/-- The transfer buffer of a mailbox is gone with its session (R411). -/
def dropXfer (k : Nat) (s : State) : State := { s with mbx := { s.mbx with xfer := clearUnit s.mbx.xfer k } }

def bodyHello : Body := fun _ f s =>
  lenIs f 16 s <|
  let low := pf f 0 0 16
  let high := pf f 0 16 16
  let w1 := wd (0x0100 + 0x0302 * 2 ^ 16)
  inRange (decide (low ≤ high)) 0 s <| inRange (decide (pw f 2 = 0)) 2 s <| inRange (decide (pw f 3 = 0)) 3 s <|
  match cmdVersions.find? (fun v => decide (low ≤ v) && decide (v ≤ high)) with
  | none => ⟨eVersion, 0, [0, w1], s⟩
  | some v =>
    let n := (s.mbx.opened + 1) % 2 ^ 32
    let num := if n = 0 then 1 else n
    let t := dropXfer (mbKey f) s
    let u := { t with mbx := { t.mbx with opened := num, sess := tset ⟨0, 0, 0⟩ t.mbx.sess (mbKey f) ⟨wd num, v, pw f 1⟩ } }
    ok ([wd v, w1, wd num] ++ engineWords v f u) u

/-- The ordering code in ASCII, then GLB_REV.  DESIGN CHOICE (log entry 48) -/
def orderingWords (s : State) : List Word :=
  word32 [0x45, 0x55, 0x38, 0x38, 0x34, 0x30, 0x2D, if rdF s (glbBase + 4) 8 2 = 1 then 0x45 else 0x43, 0, 0, 0, 0] ++ [rd s (glbBase + 4)]
def bodyEngineInfo : Body := fun v f s => lenIs f 0 s <| ok (engineWords v f s ++ orderingWords s) s

def bodyCmdStatus : Body := fun _ f s =>
  lenIs f 4 s <| inRange (decide (pf f 0 16 16 = 0)) 0 s <|
  match (s.mbx.pend.filter (fun r => r.mb == mbKey f && r.tag == pf f 0 0 16)).getLast? with
  | none => err eRange 0 s
  | some r => ok (wd (elemStatus r.elems) :: packBytes (padDie r.die r.elems)) s

def bodyXferWrite : Body := fun _ f s =>
  lenOk (decide (4 ≤ f.length)) s <|
  let off := (pw f 0).toNat
  inRange (decide (off % 4 = 0) && decide (off + (f.length - 4) ≤ 65536)) 0 s <|
  let buf := (f.payload.drop 1).zipIdx.foldl (fun m q => tset 0 m (key (mbKey f) (off / 4 + q.2)) q.1) s.mbx.xfer
  ok [] { s with mbx := { s.mbx with xfer := buf } }

/-- MB0 to MB4 in order, then session B of MB2.  DESIGN CHOICE (log entry 48) -/
def bodySessionList : Body := fun _ f s =>
  lenIs f 0 s <| ok ([0, 1, 2, 3, 4, 10].flatMap (fun k =>
    let x := tget ⟨0, 0, 0⟩ s.mbx.sess k
    [x.number, wd x.agreed, x.client])) s

def bodyShadowInfo : Body := fun _ f s =>
  lenIs f 0 s <| ok [wd s.mbx.shUsed, wd (shadowBytes - s.mbx.shUsed), wd s.mbx.txn] s

/-- The bytes of the shadow records of some groups: the spec does not give a record's layout. -/
opaque shadowRecords (mask : Nat) (h : Shadow) : List Byte
def bodyShadowDigest : Body := fun _ f s =>
  lenIs f 4 s <| inRange (decide (pf f 0 18 14 = 0)) 0 s <| ok (digestWords (digest (shadowRecords (pf f 0 0 18) s.shadow))) s

def bodyNop : Body := fun _ f s => ok f.payload s

/-! ### Ports (R5, R415, R416) -/

def putPort (p : Nat) (r : Option PortRec) (s : State) : State :=
  { s with ports := { s.ports with ports := tset none s.ports.ports p r } }

/-- Firmware writes the tuning words of a port's group from the port records (R441). -/
def retune (p : Nat) (s : State) : State :=
  { s with ports := { s.ports with tuning := s.ports.tuning.filter (fun q => q.1 / 65536 != pgBase (pgOf p) / 65536) } }

/-- The lanes of a new port overlap an existing one's. -/
def lanesTaken (s : State) (p width : Nat) : Bool :=
  s.ports.ports.any (fun q => match q.2 with | some r => decide (q.1 < p + width) && decide (p < q.1 + r.width) | none => false)

/-- Rate code 0 to 3, FEC code 0 to 2 and width that go together. -/
def modeSupported (width rate fec : Nat) : Bool :=
  (if 2 ≤ rate then fec == 2 else fec != 2) && !(rate == 0 && width != 1 && width != 4)

def bodyPortCreate : Body := fun _ f s =>
  lenIs f 8 s <|
  let p := pf f 0 0 8
  let w := pf f 0 8 4
  let rate := pf f 0 12 2
  let fec := pf f 0 14 2
  let top := (pw f 1).toNat
  inRange (decide (pf f 0 16 16 = 0) && [1, 2, 4, 8].contains w && decide (p % w = 0) && decide (fec ≠ 3)) 0 s <|
  inRange (decide (64 ≤ top) && decide (top ≤ 16384)) 1 s <|
  if !modeSupported w rate fec then err eUnsupported 0 s
  else refuse (lanesTaken s p w) eBusy s <|
    ok [] (refreshParked (pgOf p) (retune p (putPort p (some ⟨w, rate, fec, top, false, false⟩) s)))

/-- A queue of the port holds a frame. -/
def portHolds (s : State) (p : Nat) : Bool :=
  s.path.copies.any (fun q => match q.2 with
    | some x => x.port == p && (x.phase == .queued || x.phase == .waiting)
    | none => false)

/-- A command on an existing port: word 0 names it. -/
def withPort (f : Frame) (reserved : Nat) (s : State) (k : Nat → PortRec → CmdRes) : CmdRes :=
  let p := pf f 0 0 8
  match portRec s p with
  | some r => inRange (decide ((pw f 0).toNat / 2 ^ reserved = 0)) 0 s (k p r)
  | none => err eRange 0 s

def bodyPortDelete : Body := fun _ f s =>
  lenIs f 4 s <| withPort f 8 s fun p r =>
  refuse (primrosePort s p) eState s <| refuse (r.admin || portHolds s p) eBusy s <|
  ok [] (refreshParked (pgOf p) (putPort p none s))

def bodyPortAdmin : Body := fun _ f s =>
  lenIs f 4 s <| withPort f 9 s fun p r =>
  refuse (primrosePort s p) eState s <|
  let t := putPort p (some { r with admin := bit (pw f 0) 8 }) s
  ok [] (if bit (pw f 0) 8 then t else dropDown p t)

/-- MAC_PORT_STAT of a lane (R441); LOCAL_FAULT and REMOTE_FAULT, which no rule ties to the state, are free. -/
def portStat (p : Nat) (s : State) : Word × State :=
  match portRec s p with
  | none => (0, s)
  | some r =>
    let x := freeW s
    (wd (1 + b2n r.admin * 2 + b2n r.link * 4 + r.width * 2 ^ 3 + r.rate * 2 ^ 7 + r.fec * 2 ^ 9 + fld x.1 0 2 * 2 ^ 11 +
      b2n (preemptActive x.2 p) * 2 ^ 13), x.2)

/-- Word 0 as MAC_PORT_STAT; words 1 to 4 FEC blocks corrected and uncorrectable, 64 bits each; word 5 the signal state of
the lanes, which is free.  DESIGN CHOICE (log entry 48) -/
def bodyPortStatus : Body := fun _ f s =>
  lenIs f 4 s <| withPort f 8 s fun p r =>
  let x := portStat p s
  let y := freeW x.2
  let c := fun pos => cntOf s kPort p pos
  ok [x.1, loW (c 20), hiW (c 20), loW (c 22), hiW (c 22), wd (fld y.1 0 8 % 2 ^ r.width)] y.2

/-! ### Multicast groups and mirrors -/

def bodyMcastGroupSet : Body := fun _ f s =>
  lenIs f 36 s <| inRange (decide (pf f 0 16 16 = 0)) 0 s <|
  let map := (List.range 8).foldl (fun n i => n + (pw f (1 + i)).toNat * 2 ^ (32 * i)) 0
  match (bitsOf 256 map).find? (fun p => !portExists s p) with
  | some p => err eRange (1 + p / 32) s
  | none => ok [] { s with ports := { s.ports with mcast := tset 0 s.ports.mcast (pw f 0).toNat map } }

def bodyMcastGroupRead : Body := fun _ f s =>
  lenIs f 4 s <| inRange (decide (pf f 0 16 16 = 0)) 0 s <|
  ok (pw f 0 :: (List.range 8).map (fun i => wd (tget 0 s.ports.mcast (pw f 0).toNat / 2 ^ (32 * i)))) s

def bodyMirrorCfg : Body := fun _ f s =>
  lenIs f 16 s <| withPort f 10 s fun p _ =>
  inRange (decide (pf f 1 16 16 = 0)) 1 s <| inRange (decide (pf f 2 14 18 = 0)) 2 s <|
  let m : Mirror := ⟨bit (pw f 0) 8, bit (pw f 0) 9, (pw f 1).toNat, (pw f 2).toNat, (pw f 3).toNat⟩
  ok [] { s with ports := { s.ports with mirrors := tset none s.ports.mirrors p (if m.ingress || m.egress then some m else none) } }

end Sys2Proof.Machine
end

