-- ==== Sys2Proof/Machine/CommandRows.lean ====
section
/-! DEFINITION. The rows of the command set (R386 to R415): each command of the catalogue through its mailbox, and the
table by which firmware finds a command from its opcode. -/

namespace Sys2Proof.Machine
open Sys2Proof

/-- What a command through its mailbox leaves: on MB2 the response goes out in RESPONSE frames (R395). -/
def commandRow (ci : CmdInfo) (body : Body) (f : Frame) (s : State) : Out3 :=
  if f.wf then .next (sendResponses (mailboxCommand ci body f s)) else .fault .illFormed

/-- HELLO (R396). -/
def execHello (f : Frame) (s : State) : Out3 := commandRow ciHello bodyHello f s
/-- ENGINE_INFO (R415). -/
def execEngineInfo (f : Frame) (s : State) : Out3 := commandRow ciEngineInfo bodyEngineInfo f s
/-- CMD_STATUS (R402). -/
def execCmdStatus (f : Frame) (s : State) : Out3 := commandRow ciCmdStatus bodyCmdStatus f s
/-- XFER_WRITE (R411). -/
def execXferWrite (f : Frame) (s : State) : Out3 := commandRow ciXferWrite bodyXferWrite f s
/-- SESSION_LIST (R415). -/
def execSessionList (f : Frame) (s : State) : Out3 := commandRow ciSessionList bodySessionList f s
/-- SHADOW_INFO (R409). -/
def execShadowInfo (f : Frame) (s : State) : Out3 := commandRow ciShadowInfo bodyShadowInfo f s
/-- SHADOW_DIGEST (R415). -/
def execShadowDigest (f : Frame) (s : State) : Out3 := commandRow ciShadowDigest bodyShadowDigest f s
/-- NOP (R415). -/
def execNop (f : Frame) (s : State) : Out3 := commandRow ciNop bodyNop f s
/-- PORT_CREATE (R416). -/
def execPortCreate (f : Frame) (s : State) : Out3 := commandRow ciPortCreate bodyPortCreate f s
/-- PORT_DELETE (R416). -/
def execPortDelete (f : Frame) (s : State) : Out3 := commandRow ciPortDelete bodyPortDelete f s
/-- PORT_ADMIN (R415). -/
def execPortAdmin (f : Frame) (s : State) : Out3 := commandRow ciPortAdmin bodyPortAdmin f s
/-- PORT_STATUS (R415). -/
def execPortStatus (f : Frame) (s : State) : Out3 := commandRow ciPortStatus bodyPortStatus f s
/-- MCAST_GROUP_SET (R416). -/
def execMcastGroupSet (f : Frame) (s : State) : Out3 := commandRow ciMcastGroupSet bodyMcastGroupSet f s
/-- MCAST_GROUP_READ (R415). -/
def execMcastGroupRead (f : Frame) (s : State) : Out3 := commandRow ciMcastGroupRead bodyMcastGroupRead f s
/-- MIRROR_CFG (R415). -/
def execMirrorCfg (f : Frame) (s : State) : Out3 := commandRow ciMirrorCfg bodyMirrorCfg f s
/-- EM_TABLE_CFG (R412). -/
def execEmTableCfg (f : Frame) (s : State) : Out3 := commandRow ciEmTableCfg bodyEmTableCfg f s
/-- EM_KEY_LAYOUT (R412). -/
def execEmKeyLayout (f : Frame) (s : State) : Out3 := commandRow ciEmKeyLayout bodyEmKeyLayout f s
/-- EM_PORT_CFG (R412). -/
def execEmPortCfg (f : Frame) (s : State) : Out3 := commandRow ciEmPortCfg bodyEmPortCfg f s
/-- TBL_INSERT (R127). -/
def execTblInsert (f : Frame) (s : State) : Out3 := commandRow ciTblInsert bodyTblInsert f s
/-- TBL_DELETE (R131). -/
def execTblDelete (f : Frame) (s : State) : Out3 := commandRow ciTblDelete bodyTblDelete f s
/-- TBL_LOOKUP (R412). -/
def execTblLookup (f : Frame) (s : State) : Out3 := commandRow ciTblLookup bodyTblLookup f s
/-- TBL_FLUSH (R150). -/
def execTblFlush (f : Frame) (s : State) : Out3 := commandRow ciTblFlush bodyTblFlush f s
/-- TBL_BULK_INSERT (R412). -/
def execTblBulkInsert (f : Frame) (s : State) : Out3 := commandRow ciTblBulkInsert bodyTblBulkInsert f s
/-- TBL_ITERATE (R150). -/
def execTblIterate (f : Frame) (s : State) : Out3 := commandRow ciTblIterate bodyTblIterate f s
/-- LEARN_RING_CFG (R412). -/
def execLearnRingCfg (f : Frame) (s : State) : Out3 := commandRow ciLearnRingCfg bodyLearnRingCfg f s
/-- LEARN_POLICY (R145). -/
def execLearnPolicy (f : Frame) (s : State) : Out3 := commandRow ciLearnPolicy bodyLearnPolicy f s
/-- AGE_CFG (R412). -/
def execAgeCfg (f : Frame) (s : State) : Out3 := commandRow ciAgeCfg bodyAgeCfg f s
/-- GLEN_BUDGET_SET (R412). -/
def execGlenBudgetSet (f : Frame) (s : State) : Out3 := commandRow ciGlenBudgetSet bodyGlenBudgetSet f s
/-- TBL_CAPACITY (R149). -/
def execTblCapacity (f : Frame) (s : State) : Out3 := commandRow ciTblCapacity bodyTblCapacity f s
/-- LPM_KEY_LAYOUT (R188). -/
def execLpmKeyLayout (f : Frame) (s : State) : Out3 := commandRow ciLpmKeyLayout bodyLpmKeyLayout f s
/-- LPM_PORT_VRF (R188). -/
def execLpmPortVrf (f : Frame) (s : State) : Out3 := commandRow ciLpmPortVrf bodyLpmPortVrf f s
/-- ROUTE_ADD (R157). -/
def execRouteAdd (f : Frame) (s : State) : Out3 := commandRow ciRouteAdd bodyRouteAdd f s
/-- ROUTE_DELETE (R412). -/
def execRouteDelete (f : Frame) (s : State) : Out3 := commandRow ciRouteDelete bodyRouteDelete f s
/-- ROUTE_LOOKUP (R412). -/
def execRouteLookup (f : Frame) (s : State) : Out3 := commandRow ciRouteLookup bodyRouteLookup f s
/-- ROUTE_BULK (R412). -/
def execRouteBulk (f : Frame) (s : State) : Out3 := commandRow ciRouteBulk bodyRouteBulk f s
/-- NEXTHOP_SET (R158). -/
def execNexthopSet (f : Frame) (s : State) : Out3 := commandRow ciNexthopSet bodyNexthopSet f s
/-- ROUTE_CAPACITY (R412). -/
def execRouteCapacity (f : Frame) (s : State) : Out3 := commandRow ciRouteCapacity bodyRouteCapacity f s
/-- TCAM_KEY_LAYOUT (R188). -/
def execTcamKeyLayout (f : Frame) (s : State) : Out3 := commandRow ciTcamKeyLayout bodyTcamKeyLayout f s
/-- TCAM_RULE_WRITE (R173). -/
def execTcamRuleWrite (f : Frame) (s : State) : Out3 := commandRow ciTcamRuleWrite bodyTcamRuleWrite f s
/-- TCAM_RULE_DELETE (R173). -/
def execTcamRuleDelete (f : Frame) (s : State) : Out3 := commandRow ciTcamRuleDelete bodyTcamRuleDelete f s
/-- TCAM_RULE_REPLACE (R174). -/
def execTcamRuleReplace (f : Frame) (s : State) : Out3 := commandRow ciTcamRuleReplace bodyTcamRuleReplace f s
/-- TCAM_ACTION_SET (R175). -/
def execTcamActionSet (f : Frame) (s : State) : Out3 := commandRow ciTcamActionSet bodyTcamActionSet f s
/-- TCAM_RULE_READ (R412). -/
def execTcamRuleRead (f : Frame) (s : State) : Out3 := commandRow ciTcamRuleRead bodyTcamRuleRead f s
/-- TCAM_SEARCH (R184). -/
def execTcamSearch (f : Frame) (s : State) : Out3 := commandRow ciTcamSearch bodyTcamSearch f s
/-- TCAM_SCRUB_CFG (R182). -/
def execTcamScrubCfg (f : Frame) (s : State) : Out3 := commandRow ciTcamScrubCfg bodyTcamScrubCfg f s
/-- STREAM_KEY_LAYOUT (R219). -/
def execStreamKeyLayout (f : Frame) (s : State) : Out3 := commandRow ciStreamKeyLayout bodyStreamKeyLayout f s
/-- STREAM_ID_ADD (R196). -/
def execStreamIdAdd (f : Frame) (s : State) : Out3 := commandRow ciStreamIdAdd bodyStreamIdAdd f s
/-- STREAM_ID_DELETE (R412). -/
def execStreamIdDelete (f : Frame) (s : State) : Out3 := commandRow ciStreamIdDelete bodyStreamIdDelete f s
/-- STREAM_CTX_SET (R199). -/
def execStreamCtxSet (f : Frame) (s : State) : Out3 := commandRow ciStreamCtxSet bodyStreamCtxSet f s
/-- STREAM_CTX_READ (R219). -/
def execStreamCtxRead (f : Frame) (s : State) : Out3 := commandRow ciStreamCtxRead bodyStreamCtxRead f s
/-- STREAM_UNBLOCK (R412). -/
def execStreamUnblock (f : Frame) (s : State) : Out3 := commandRow ciStreamUnblock bodyStreamUnblock f s
/-- STREAM_GATE_SET (R203). -/
def execStreamGateSet (f : Frame) (s : State) : Out3 := commandRow ciStreamGateSet bodyStreamGateSet f s
/-- STREAM_CAPACITY (R412). -/
def execStreamCapacity (f : Frame) (s : State) : Out3 := commandRow ciStreamCapacity bodyStreamCapacity f s
/-- METER_SET (R213). -/
def execMeterSet (f : Frame) (s : State) : Out3 := commandRow ciMeterSet bodyMeterSet f s
/-- METER_READ (R412). -/
def execMeterRead (f : Frame) (s : State) : Out3 := commandRow ciMeterRead bodyMeterRead f s
/-- TENANT_POLICER_MAP (R216). -/
def execTenantPolicerMap (f : Frame) (s : State) : Out3 := commandRow ciTenantPolicerMap bodyTenantPolicerMap f s
/-- COLOUR_MAP_SET (R215). -/
def execColourMapSet (f : Frame) (s : State) : Out3 := commandRow ciColourMapSet bodyColourMapSet f s
/-- HIST_EDGES_SET (R218). -/
def execHistEdgesSet (f : Frame) (s : State) : Out3 := commandRow ciHistEdgesSet bodyHistEdgesSet f s
/-- HIST_READ (R219). -/
def execHistRead (f : Frame) (s : State) : Out3 := commandRow ciHistRead bodyHistRead f s
/-- BPM_POOL_LAYOUT (R245). -/
def execBpmPoolLayout (f : Frame) (s : State) : Out3 := commandRow ciBpmPoolLayout bodyBpmPoolLayout f s
/-- BPM_QUOTA_SET (R246). -/
def execBpmQuotaSet (f : Frame) (s : State) : Out3 := commandRow ciBpmQuotaSet bodyBpmQuotaSet f s
/-- BPM_STATUS (R248). -/
def execBpmStatus (f : Frame) (s : State) : Out3 := commandRow ciBpmStatus bodyBpmStatus f s
/-- BPM_BUDGET_SET (R412). -/
def execBpmBudgetSet (f : Frame) (s : State) : Out3 := commandRow ciBpmBudgetSet bodyBpmBudgetSet f s
/-- BPM_YELLOW_KEEP (R226). -/
def execBpmYellowKeep (f : Frame) (s : State) : Out3 := commandRow ciBpmYellowKeep bodyBpmYellowKeep f s
/-- BPM_AUDIT (R243). -/
def execBpmAudit (f : Frame) (s : State) : Out3 := commandRow ciBpmAudit bodyBpmAudit f s
/-- BPM_CAPACITY (R248). -/
def execBpmCapacity (f : Frame) (s : State) : Out3 := commandRow ciBpmCapacity bodyBpmCapacity f s
/-- SCH_PORT_SET (R277). -/
def execSchPortSet (f : Frame) (s : State) : Out3 := commandRow ciSchPortSet bodySchPortSet f s
/-- SCH_NODE_SET (R253). -/
def execSchNodeSet (f : Frame) (s : State) : Out3 := commandRow ciSchNodeSet bodySchNodeSet f s
/-- SCH_TENANT_MAP (R251). -/
def execSchTenantMap (f : Frame) (s : State) : Out3 := commandRow ciSchTenantMap bodySchTenantMap f s
/-- SCH_QUEUE_SET (R253). -/
def execSchQueueSet (f : Frame) (s : State) : Out3 := commandRow ciSchQueueSet bodySchQueueSet f s
/-- SHAPER_SET (R267). -/
def execShaperSet (f : Frame) (s : State) : Out3 := commandRow ciShaperSet bodyShaperSet f s
/-- SHAPER_READ (R277). -/
def execShaperRead (f : Frame) (s : State) : Out3 := commandRow ciShaperRead bodyShaperRead f s
/-- SCH_QUEUE_READ (R277). -/
def execSchQueueRead (f : Frame) (s : State) : Out3 := commandRow ciSchQueueRead bodySchQueueRead f s
/-- SCH_SAMPLE_CFG (R270). -/
def execSchSampleCfg (f : Frame) (s : State) : Out3 := commandRow ciSchSampleCfg bodySchSampleCfg f s
/-- SCH_BUDGET_SET (R412). -/
def execSchBudgetSet (f : Frame) (s : State) : Out3 := commandRow ciSchBudgetSet bodySchBudgetSet f s
/-- SCH_NODE_REHOME (R275). -/
def execSchNodeRehome (f : Frame) (s : State) : Out3 := commandRow ciSchNodeRehome bodySchNodeRehome f s
/-- SCH_CAPACITY (R276). -/
def execSchCapacity (f : Frame) (s : State) : Out3 := commandRow ciSchCapacity bodySchCapacity f s
/-- SCH_QUEUE_FLUSH (R277). -/
def execSchQueueFlush (f : Frame) (s : State) : Out3 := commandRow ciSchQueueFlush bodySchQueueFlush f s
/-- TIME_GET (R305). -/
def execTimeGet (f : Frame) (s : State) : Out3 := commandRow ciTimeGet bodyTimeGet f s
/-- TIME_SET (R282). -/
def execTimeSet (f : Frame) (s : State) : Out3 := commandRow ciTimeSet bodyTimeSet f s
/-- TIME_STEP (R282). -/
def execTimeStep (f : Frame) (s : State) : Out3 := commandRow ciTimeStep bodyTimeStep f s
/-- TIME_SLEW (R282). -/
def execTimeSlew (f : Frame) (s : State) : Out3 := commandRow ciTimeSlew bodyTimeSlew f s
/-- TIME_SOURCE (R284). -/
def execTimeSource (f : Frame) (s : State) : Out3 := commandRow ciTimeSource bodyTimeSource f s
/-- TIME_PPS_CFG (R289). -/
def execTimePpsCfg (f : Frame) (s : State) : Out3 := commandRow ciTimePpsCfg bodyTimePpsCfg f s
/-- TIME_PORT_ADJ (R285). -/
def execTimePortAdj (f : Frame) (s : State) : Out3 := commandRow ciTimePortAdj bodyTimePortAdj f s
/-- PTP_INSTANCE_SET (R288). -/
def execPtpInstanceSet (f : Frame) (s : State) : Out3 := commandRow ciPtpInstanceSet bodyPtpInstanceSet f s
/-- GATE_LIST_SET (R413). -/
def execGateListSet (f : Frame) (s : State) : Out3 := commandRow ciGateListSet bodyGateListSet f s
/-- GATE_LIST_READ (R305). -/
def execGateListRead (f : Frame) (s : State) : Out3 := commandRow ciGateListRead bodyGateListRead f s
/-- GATE_PORT_CFG (R300). -/
def execGatePortCfg (f : Frame) (s : State) : Out3 := commandRow ciGatePortCfg bodyGatePortCfg f s
/-- GATE_LIST_DISCARD (R293). -/
def execGateListDiscard (f : Frame) (s : State) : Out3 := commandRow ciGateListDiscard bodyGateListDiscard f s
/-- FRE_PORT_CFG (R332). -/
def execFrePortCfg (f : Frame) (s : State) : Out3 := commandRow ciFrePortCfg bodyFrePortCfg f s
/-- FRE_HANDLE_MAP (R319). -/
def execFreHandleMap (f : Frame) (s : State) : Out3 := commandRow ciFreHandleMap bodyFreHandleMap f s
/-- FRE_GEN_SET (R320). -/
def execFreGenSet (f : Frame) (s : State) : Out3 := commandRow ciFreGenSet bodyFreGenSet f s
/-- FRE_RCV_SET (R323). -/
def execFreRcvSet (f : Frame) (s : State) : Out3 := commandRow ciFreRcvSet bodyFreRcvSet f s
/-- FRE_RCV_READ (R333). -/
def execFreRcvRead (f : Frame) (s : State) : Out3 := commandRow ciFreRcvRead bodyFreRcvRead f s
/-- FRE_RCV_RESET (R333). -/
def execFreRcvReset (f : Frame) (s : State) : Out3 := commandRow ciFreRcvReset bodyFreRcvReset f s
/-- FRE_DUP_CFG (R333). -/
def execFreDupCfg (f : Frame) (s : State) : Out3 := commandRow ciFreDupCfg bodyFreDupCfg f s
/-- FRE_DUP_STATUS (R333). -/
def execFreDupStatus (f : Frame) (s : State) : Out3 := commandRow ciFreDupStatus bodyFreDupStatus f s
/-- UCODE_PATCH_LOAD (R109). -/
def execUcodePatchLoad (f : Frame) (s : State) : Out3 := commandRow ciUcodePatchLoad bodyUcodePatchLoad f s
/-- UCODE_PATCH_SWITCH (R107). -/
def execUcodePatchSwitch (f : Frame) (s : State) : Out3 := commandRow ciUcodePatchSwitch bodyUcodePatchSwitch f s
/-- UCODE_PATCH_REVERT (R106). -/
def execUcodePatchRevert (f : Frame) (s : State) : Out3 := commandRow ciUcodePatchRevert bodyUcodePatchRevert f s
/-- UCODE_QUERY (R111). -/
def execUcodeQuery (f : Frame) (s : State) : Out3 := commandRow ciUcodeQuery bodyUcodeQuery f s
/-- PORT_PARSE_PROFILE (R111). -/
def execPortParseProfile (f : Frame) (s : State) : Out3 := commandRow ciPortParseProfile bodyPortParseProfile f s
/-- RWE_PORT_PROFILE (R333). -/
def execRwePortProfile (f : Frame) (s : State) : Out3 := commandRow ciRwePortProfile bodyRwePortProfile f s
/-- FI_CFG (R357). -/
def execFiCfg (f : Frame) (s : State) : Out3 := commandRow ciFiCfg bodyFiCfg f s
/-- FI_READ (R357). -/
def execFiRead (f : Frame) (s : State) : Out3 := commandRow ciFiRead bodyFiRead f s
/-- FIO_PUB_SET (R341). -/
def execFioPubSet (f : Frame) (s : State) : Out3 := commandRow ciFioPubSet bodyFioPubSet f s
/-- FIO_GOOSE_TEMPLATE (R345). -/
def execFioGooseTemplate (f : Frame) (s : State) : Out3 := commandRow ciFioGooseTemplate bodyFioGooseTemplate f s
/-- FIO_EVENT_RING_CFG (R340). -/
def execFioEventRingCfg (f : Frame) (s : State) : Out3 := commandRow ciFioEventRingCfg bodyFioEventRingCfg f s
/-- FIO_UTC_OFFSET (R345). -/
def execFioUtcOffset (f : Frame) (s : State) : Out3 := commandRow ciFioUtcOffset bodyFioUtcOffset f s
/-- FO_CFG (R354). -/
def execFoCfg (f : Frame) (s : State) : Out3 := commandRow ciFoCfg bodyFoCfg f s
/-- FO_FORCE (R350). -/
def execFoForce (f : Frame) (s : State) : Out3 := commandRow ciFoForce bodyFoForce f s
/-- FO_TIME_EVENT (R351). -/
def execFoTimeEvent (f : Frame) (s : State) : Out3 := commandRow ciFoTimeEvent bodyFoTimeEvent f s
/-- FO_RELEASE (R355). -/
def execFoRelease (f : Frame) (s : State) : Out3 := commandRow ciFoRelease bodyFoRelease f s
/-- FO_READ (R357). -/
def execFoRead (f : Frame) (s : State) : Out3 := commandRow ciFoRead bodyFoRead f s
/-- CAS_ROLE_SET (R359). -/
def execCasRoleSet (f : Frame) (s : State) : Out3 := commandRow ciCasRoleSet bodyCasRoleSet f s
/-- CAS_DEVICE_ID (R383). -/
def execCasDeviceId (f : Frame) (s : State) : Out3 := commandRow ciCasDeviceId bodyCasDeviceId f s
/-- CAS_PORT_CFG (R361). -/
def execCasPortCfg (f : Frame) (s : State) : Out3 := commandRow ciCasPortCfg bodyCasPortCfg f s
/-- CAS_BUDGET_SET (R383). -/
def execCasBudgetSet (f : Frame) (s : State) : Out3 := commandRow ciCasBudgetSet bodyCasBudgetSet f s
/-- CAS_RELAY_CFG (R383). -/
def execCasRelayCfg (f : Frame) (s : State) : Out3 := commandRow ciCasRelayCfg bodyCasRelayCfg f s
/-- CAS_JOIN_CFG (R383). -/
def execCasJoinCfg (f : Frame) (s : State) : Out3 := commandRow ciCasJoinCfg bodyCasJoinCfg f s
/-- CAS_LEAVE (R381). -/
def execCasLeave (f : Frame) (s : State) : Out3 := commandRow ciCasLeave bodyCasLeave f s
/-- CAS_SESSION_READ (R383). -/
def execCasSessionRead (f : Frame) (s : State) : Out3 := commandRow ciCasSessionRead bodyCasSessionRead f s
/-- CAS_FORWARD (R383). -/
def execCasForward (f : Frame) (s : State) : Out3 := commandRow ciCasForward bodyCasForward f s
/-- CAS_WORKER_LIST (R379). -/
def execCasWorkerList (f : Frame) (s : State) : Out3 := commandRow ciCasWorkerList bodyCasWorkerList f s
/-- FAULT_STATUS (R557). -/
def execFaultStatus (f : Frame) (s : State) : Out3 := commandRow ciFaultStatus bodyFaultStatus f s
/-- FAULT_LOG (R557). -/
def execFaultLog (f : Frame) (s : State) : Out3 := commandRow ciFaultLog bodyFaultLog f s
/-- FAULT_ACK (R472). -/
def execFaultAck (f : Frame) (s : State) : Out3 := commandRow ciFaultAck bodyFaultAck f s
/-- FAULT_SRC_CFG (R557). -/
def execFaultSrcCfg (f : Frame) (s : State) : Out3 := commandRow ciFaultSrcCfg bodyFaultSrcCfg f s
/-- FAULT_WINDOW (R557). -/
def execFaultWindow (f : Frame) (s : State) : Out3 := commandRow ciFaultWindow bodyFaultWindow f s
/-- UNIT_DRAIN (R488). -/
def execUnitDrain (f : Frame) (s : State) : Out3 := commandRow ciUnitDrain bodyUnitDrain f s
/-- UNIT_TEST (R490). -/
def execUnitTest (f : Frame) (s : State) : Out3 := commandRow ciUnitTest bodyUnitTest f s
/-- UNIT_RETURN (R488). -/
def execUnitReturn (f : Frame) (s : State) : Out3 := commandRow ciUnitReturn bodyUnitReturn f s
/-- UNIT_STATUS (R557). -/
def execUnitStatus (f : Frame) (s : State) : Out3 := commandRow ciUnitStatus bodyUnitStatus f s
/-- REHOME (R486). -/
def execRehome (f : Frame) (s : State) : Out3 := commandRow ciRehome bodyRehome f s
/-- FAULT_INJECT (R557). -/
def execFaultInject (f : Frame) (s : State) : Out3 := commandRow ciFaultInject bodyFaultInject f s
/-- FAULT_LOCK (R491). -/
def execFaultLock (f : Frame) (s : State) : Out3 := commandRow ciFaultLock bodyFaultLock f s
/-- DUMP_SET_CFG (R516). -/
def execDumpSetCfg (f : Frame) (s : State) : Out3 := commandRow ciDumpSetCfg bodyDumpSetCfg f s
/-- DUMP_RING_CFG (R516). -/
def execDumpRingCfg (f : Frame) (s : State) : Out3 := commandRow ciDumpRingCfg bodyDumpRingCfg f s
/-- DUMP_NOW (R498). -/
def execDumpNow (f : Frame) (s : State) : Out3 := commandRow ciDumpNow bodyDumpNow f s
/-- DUMP_READ (R504). -/
def execDumpRead (f : Frame) (s : State) : Out3 := commandRow ciDumpRead bodyDumpRead f s
/-- COUNTER_READ (R516). -/
def execCounterRead (f : Frame) (s : State) : Out3 := commandRow ciCounterRead bodyCounterRead f s
/-- SAMPLE_RING_CFG (R516). -/
def execSampleRingCfg (f : Frame) (s : State) : Out3 := commandRow ciSampleRingCfg bodySampleRingCfg f s
/-- PKT_SAMPLE_CFG (R512). -/
def execPktSampleCfg (f : Frame) (s : State) : Out3 := commandRow ciPktSampleCfg bodyPktSampleCfg f s
/-- OVF_SAMPLE_CFG (R515). -/
def execOvfSampleCfg (f : Frame) (s : State) : Out3 := commandRow ciOvfSampleCfg bodyOvfSampleCfg f s
/-- SLOT_READ (R516). -/
def execSlotRead (f : Frame) (s : State) : Out3 := commandRow ciSlotRead bodySlotRead f s
/-- START_STATUS (R469). -/
def execStartStatus (f : Frame) (s : State) : Out3 := commandRow ciStartStatus bodyStartStatus f s
/-- FW_RESTART (R461). -/
def execFwRestart (f : Frame) (s : State) : Out3 := commandRow ciFwRestart bodyFwRestart f s
/-- FW_BOOT (R467). -/
def execFwBoot (f : Frame) (s : State) : Out3 := commandRow ciFwBoot bodyFwBoot f s
/-- FW_IMAGE_WRITE (R523). -/
def execFwImageWrite (f : Frame) (s : State) : Out3 := commandRow ciFwImageWrite bodyFwImageWrite f s
/-- FW_SLOT_SELECT (R468). -/
def execFwSlotSelect (f : Frame) (s : State) : Out3 := commandRow ciFwSlotSelect bodyFwSlotSelect f s
/-- PRIMROSE_HANDOVER (R453). -/
def execPrimroseHandover (f : Frame) (s : State) : Out3 := commandRow ciPrimroseHandover bodyPrimroseHandover f s
/-- START_RETRY (R466). -/
def execStartRetry (f : Frame) (s : State) : Out3 := commandRow ciStartRetry bodyStartRetry f s
/-- ID_CERT_READ (R534). -/
def execIdCertRead (f : Frame) (s : State) : Out3 := commandRow ciIdCertRead bodyIdCertRead f s
/-- MEASUREMENT_READ (R530). -/
def execMeasurementRead (f : Frame) (s : State) : Out3 := commandRow ciMeasurementRead bodyMeasurementRead f s
/-- OWNER_CERT_SET (R521). -/
def execOwnerCertSet (f : Frame) (s : State) : Out3 := commandRow ciOwnerCertSet bodyOwnerCertSet f s
/-- OWNER_CERT_CLEAR (R521). -/
def execOwnerCertClear (f : Frame) (s : State) : Out3 := commandRow ciOwnerCertClear bodyOwnerCertClear f s
/-- SVN_COMMIT (R523). -/
def execSvnCommit (f : Frame) (s : State) : Out3 := commandRow ciSvnCommit bodySvnCommit f s
/-- SPDM_MSG (R531). -/
def execSpdmMsg (f : Frame) (s : State) : Out3 := commandRow ciSpdmMsg bodySpdmMsg f s
/-- DEBUG_UNLOCK (R527). -/
def execDebugUnlock (f : Frame) (s : State) : Out3 := commandRow ciDebugUnlock bodyDebugUnlock f s
/-- DEBUG_LOCK (R528). -/
def execDebugLock (f : Frame) (s : State) : Out3 := commandRow ciDebugLock bodyDebugLock f s
/-- DEBUG_POLICY (R529). -/
def execDebugPolicy (f : Frame) (s : State) : Out3 := commandRow ciDebugPolicy bodyDebugPolicy f s
/-- ISL_CFG_SET (R58). -/
def execIslCfgSet (f : Frame) (s : State) : Out3 := commandRow ciIslCfgSet bodyIslCfgSet f s
/-- ISL_STATUS (R58). -/
def execIslStatus (f : Frame) (s : State) : Out3 := commandRow ciIslStatus bodyIslStatus f s
/-- ISL_CEIL_TIME (R58). -/
def execIslCeilTime (f : Frame) (s : State) : Out3 := commandRow ciIslCeilTime bodyIslCeilTime f s
/-- ISL_LOOP_TIMING (R58). -/
def execIslLoopTiming (f : Frame) (s : State) : Out3 := commandRow ciIslLoopTiming bodyIslLoopTiming f s
/-- ISL_CEIL_REARM (R58). -/
def execIslCeilRearm (f : Frame) (s : State) : Out3 := commandRow ciIslCeilRearm bodyIslCeilRearm f s
/-- COL_STALL_CFG (R81). -/
def execColStallCfg (f : Frame) (s : State) : Out3 := commandRow ciColStallCfg bodyColStallCfg f s
/-- COL_STATUS (R81). -/
def execColStatus (f : Frame) (s : State) : Out3 := commandRow ciColStatus bodyColStatus f s
/-- COL_REARM (R81). -/
def execColRearm (f : Frame) (s : State) : Out3 := commandRow ciColRearm bodyColRearm f s

def commandPart0 : List (CmdInfo × Body) :=
  [(ciHello, bodyHello),
   (ciEngineInfo, bodyEngineInfo),
   (ciCmdStatus, bodyCmdStatus),
   (ciXferWrite, bodyXferWrite),
   (ciSessionList, bodySessionList),
   (ciShadowInfo, bodyShadowInfo),
   (ciShadowDigest, bodyShadowDigest),
   (ciNop, bodyNop),
   (ciPortCreate, bodyPortCreate),
   (ciPortDelete, bodyPortDelete),
   (ciPortAdmin, bodyPortAdmin),
   (ciPortStatus, bodyPortStatus),
   (ciMcastGroupSet, bodyMcastGroupSet),
   (ciMcastGroupRead, bodyMcastGroupRead),
   (ciMirrorCfg, bodyMirrorCfg),
   (ciEmTableCfg, bodyEmTableCfg),
   (ciEmKeyLayout, bodyEmKeyLayout),
   (ciEmPortCfg, bodyEmPortCfg),
   (ciTblInsert, bodyTblInsert),
   (ciTblDelete, bodyTblDelete)]

def commandPart1 : List (CmdInfo × Body) :=
  [(ciTblLookup, bodyTblLookup),
   (ciTblFlush, bodyTblFlush),
   (ciTblBulkInsert, bodyTblBulkInsert),
   (ciTblIterate, bodyTblIterate),
   (ciLearnRingCfg, bodyLearnRingCfg),
   (ciLearnPolicy, bodyLearnPolicy),
   (ciAgeCfg, bodyAgeCfg),
   (ciGlenBudgetSet, bodyGlenBudgetSet),
   (ciTblCapacity, bodyTblCapacity),
   (ciLpmKeyLayout, bodyLpmKeyLayout),
   (ciLpmPortVrf, bodyLpmPortVrf),
   (ciRouteAdd, bodyRouteAdd),
   (ciRouteDelete, bodyRouteDelete),
   (ciRouteLookup, bodyRouteLookup),
   (ciRouteBulk, bodyRouteBulk),
   (ciNexthopSet, bodyNexthopSet),
   (ciRouteCapacity, bodyRouteCapacity),
   (ciTcamKeyLayout, bodyTcamKeyLayout),
   (ciTcamRuleWrite, bodyTcamRuleWrite),
   (ciTcamRuleDelete, bodyTcamRuleDelete)]

def commandPart2 : List (CmdInfo × Body) :=
  [(ciTcamRuleReplace, bodyTcamRuleReplace),
   (ciTcamActionSet, bodyTcamActionSet),
   (ciTcamRuleRead, bodyTcamRuleRead),
   (ciTcamSearch, bodyTcamSearch),
   (ciTcamScrubCfg, bodyTcamScrubCfg),
   (ciStreamKeyLayout, bodyStreamKeyLayout),
   (ciStreamIdAdd, bodyStreamIdAdd),
   (ciStreamIdDelete, bodyStreamIdDelete),
   (ciStreamCtxSet, bodyStreamCtxSet),
   (ciStreamCtxRead, bodyStreamCtxRead),
   (ciStreamUnblock, bodyStreamUnblock),
   (ciStreamGateSet, bodyStreamGateSet),
   (ciStreamCapacity, bodyStreamCapacity),
   (ciMeterSet, bodyMeterSet),
   (ciMeterRead, bodyMeterRead),
   (ciTenantPolicerMap, bodyTenantPolicerMap),
   (ciColourMapSet, bodyColourMapSet),
   (ciHistEdgesSet, bodyHistEdgesSet),
   (ciHistRead, bodyHistRead),
   (ciBpmPoolLayout, bodyBpmPoolLayout)]

def commandPart3 : List (CmdInfo × Body) :=
  [(ciBpmQuotaSet, bodyBpmQuotaSet),
   (ciBpmStatus, bodyBpmStatus),
   (ciBpmBudgetSet, bodyBpmBudgetSet),
   (ciBpmYellowKeep, bodyBpmYellowKeep),
   (ciBpmAudit, bodyBpmAudit),
   (ciBpmCapacity, bodyBpmCapacity),
   (ciSchPortSet, bodySchPortSet),
   (ciSchNodeSet, bodySchNodeSet),
   (ciSchTenantMap, bodySchTenantMap),
   (ciSchQueueSet, bodySchQueueSet),
   (ciShaperSet, bodyShaperSet),
   (ciShaperRead, bodyShaperRead),
   (ciSchQueueRead, bodySchQueueRead),
   (ciSchSampleCfg, bodySchSampleCfg),
   (ciSchBudgetSet, bodySchBudgetSet),
   (ciSchNodeRehome, bodySchNodeRehome),
   (ciSchCapacity, bodySchCapacity),
   (ciSchQueueFlush, bodySchQueueFlush),
   (ciTimeGet, bodyTimeGet),
   (ciTimeSet, bodyTimeSet)]

def commandPart4 : List (CmdInfo × Body) :=
  [(ciTimeStep, bodyTimeStep),
   (ciTimeSlew, bodyTimeSlew),
   (ciTimeSource, bodyTimeSource),
   (ciTimePpsCfg, bodyTimePpsCfg),
   (ciTimePortAdj, bodyTimePortAdj),
   (ciPtpInstanceSet, bodyPtpInstanceSet),
   (ciGateListSet, bodyGateListSet),
   (ciGateListRead, bodyGateListRead),
   (ciGatePortCfg, bodyGatePortCfg),
   (ciGateListDiscard, bodyGateListDiscard),
   (ciFrePortCfg, bodyFrePortCfg),
   (ciFreHandleMap, bodyFreHandleMap),
   (ciFreGenSet, bodyFreGenSet),
   (ciFreRcvSet, bodyFreRcvSet),
   (ciFreRcvRead, bodyFreRcvRead),
   (ciFreRcvReset, bodyFreRcvReset),
   (ciFreDupCfg, bodyFreDupCfg),
   (ciFreDupStatus, bodyFreDupStatus),
   (ciUcodePatchLoad, bodyUcodePatchLoad),
   (ciUcodePatchSwitch, bodyUcodePatchSwitch)]

def commandPart5 : List (CmdInfo × Body) :=
  [(ciUcodePatchRevert, bodyUcodePatchRevert),
   (ciUcodeQuery, bodyUcodeQuery),
   (ciPortParseProfile, bodyPortParseProfile),
   (ciRwePortProfile, bodyRwePortProfile),
   (ciFiCfg, bodyFiCfg),
   (ciFiRead, bodyFiRead),
   (ciFioPubSet, bodyFioPubSet),
   (ciFioGooseTemplate, bodyFioGooseTemplate),
   (ciFioEventRingCfg, bodyFioEventRingCfg),
   (ciFioUtcOffset, bodyFioUtcOffset),
   (ciFoCfg, bodyFoCfg),
   (ciFoForce, bodyFoForce),
   (ciFoTimeEvent, bodyFoTimeEvent),
   (ciFoRelease, bodyFoRelease),
   (ciFoRead, bodyFoRead),
   (ciCasRoleSet, bodyCasRoleSet),
   (ciCasDeviceId, bodyCasDeviceId),
   (ciCasPortCfg, bodyCasPortCfg),
   (ciCasBudgetSet, bodyCasBudgetSet),
   (ciCasRelayCfg, bodyCasRelayCfg)]

def commandPart6 : List (CmdInfo × Body) :=
  [(ciCasJoinCfg, bodyCasJoinCfg),
   (ciCasLeave, bodyCasLeave),
   (ciCasSessionRead, bodyCasSessionRead),
   (ciCasForward, bodyCasForward),
   (ciCasWorkerList, bodyCasWorkerList),
   (ciFaultStatus, bodyFaultStatus),
   (ciFaultLog, bodyFaultLog),
   (ciFaultAck, bodyFaultAck),
   (ciFaultSrcCfg, bodyFaultSrcCfg),
   (ciFaultWindow, bodyFaultWindow),
   (ciUnitDrain, bodyUnitDrain),
   (ciUnitTest, bodyUnitTest),
   (ciUnitReturn, bodyUnitReturn),
   (ciUnitStatus, bodyUnitStatus),
   (ciRehome, bodyRehome),
   (ciFaultInject, bodyFaultInject),
   (ciFaultLock, bodyFaultLock),
   (ciDumpSetCfg, bodyDumpSetCfg),
   (ciDumpRingCfg, bodyDumpRingCfg),
   (ciDumpNow, bodyDumpNow)]

def commandPart7 : List (CmdInfo × Body) :=
  [(ciDumpRead, bodyDumpRead),
   (ciCounterRead, bodyCounterRead),
   (ciSampleRingCfg, bodySampleRingCfg),
   (ciPktSampleCfg, bodyPktSampleCfg),
   (ciOvfSampleCfg, bodyOvfSampleCfg),
   (ciSlotRead, bodySlotRead),
   (ciStartStatus, bodyStartStatus),
   (ciFwRestart, bodyFwRestart),
   (ciFwBoot, bodyFwBoot),
   (ciFwImageWrite, bodyFwImageWrite),
   (ciFwSlotSelect, bodyFwSlotSelect),
   (ciPrimroseHandover, bodyPrimroseHandover),
   (ciStartRetry, bodyStartRetry),
   (ciIdCertRead, bodyIdCertRead),
   (ciMeasurementRead, bodyMeasurementRead),
   (ciOwnerCertSet, bodyOwnerCertSet),
   (ciOwnerCertClear, bodyOwnerCertClear),
   (ciSvnCommit, bodySvnCommit),
   (ciSpdmMsg, bodySpdmMsg),
   (ciDebugUnlock, bodyDebugUnlock)]

def commandPart8 : List (CmdInfo × Body) :=
  [(ciDebugLock, bodyDebugLock),
   (ciDebugPolicy, bodyDebugPolicy),
   (ciIslCfgSet, bodyIslCfgSet),
   (ciIslStatus, bodyIslStatus),
   (ciIslCeilTime, bodyIslCeilTime),
   (ciIslLoopTiming, bodyIslLoopTiming),
   (ciIslCeilRearm, bodyIslCeilRearm),
   (ciColStallCfg, bodyColStallCfg),
   (ciColStatus, bodyColStatus),
   (ciColRearm, bodyColRearm)]

/-- Every command with what it does (R414). -/
def commandTable : List (CmdInfo × Body) :=
  commandPart0 ++ commandPart1 ++ commandPart2 ++ commandPart3 ++ commandPart4 ++ commandPart5 ++ commandPart6 ++ commandPart7 ++ commandPart8

/-- The command of an opcode. -/
def findCommand (op : Nat) : Option (CmdInfo × Body) := commandTable.find? (fun q => q.1.op == op)

end Sys2Proof.Machine
end

