-- ==== Sys2Proof/Machine/Firmware.lean ====
section
/-! DEFINITION. The mailboxes as their partners drive them (R393 to R395, R403): the command area, doorbells, ring indices,
and firmware taking what waits; the events after which it does. -/

namespace Sys2Proof.Machine
open Sys2Proof

/-! ### Firmware takes a command from words (R388, R390) -/

/-- The header's reserved bits or LENGTH are wrong, whatever the opcode. -/
def headerBad (f : Frame) : Bool := f.rsvd || decide (4080 < f.length) || decide (f.length % 4 ≠ 0)

def runWords (respond : Nat → Frame → CmdRes → State) (wait : CmdRes → State) (m p : Nat) (ws : List Word) (s : State) :
    State :=
  let q := frameOf m p ws
  match findCommand q.1 with
  | some c =>
    let r := takeCommand c.1 c.2 q.2 s
    if later r.status then wait r else respond q.1 q.2 r
  | none => respond q.1 q.2 (err (if headerBad q.2 then eFormat else eOpcode) 0 s)

/-- The command that a register-mode mailbox holds. -/
def runArea (m : Nat) (s : State) : State :=
  if mbBusy s m && !mbRing s m && fwTakes s m && !forwards s m then
    let s1 := { s with mbx := { s.mbx with early := tset 0 s.mbx.early m 0 } }
    runWords respondRegister (fun r => r.st) m 0 (readArea m s1) s1
  else s

/-- The commands that a ring holds, as far as the response ring has room. -/
def runRing : Nat → Nat → State → State
  | 0, _, s => s
  | n + 1, m, s =>
    if mbRing s m && fwTakes s m && decide (cmdWaiting s m ≠ 0) && rspRoom s m && !forwards s m then
      let cons := mbxReg m mbxCmdConsOff
      runRing n m (runWords respondRing (ringLater m) m 0 (readSlot m (rd s cons).toNat s) (inc cons s))
    else s

/-- The commands that an MB2 session has waiting. -/
def runSession : Nat → Nat → State → State
  | 0, _, s => s
  | n + 1, p, s =>
    match mb2Of s p with
    | [] => s
    | ws :: rest => if fwTakes s 2 then runSession n p (runWords respondSession (sessionLater p ws) 2 p ws (setMb2 p rest s)) else s

/-- Everything that waits, in ascending mailbox order (R401). -/
def runWaiting (s : State) : State :=
  let s1 := runRing 256 1 (runArea 1 (runRing 256 0 (runArea 0 s)))
  sendResponses (runArea 4 (runArea 3 (runSession 8 1 (runSession 8 0 s1))))

/-- What firmware does whenever it has nothing else to do: the commands that wait, the audits that it owes, the tenants of
retired nodes. -/
def fwWork (s : State) : State :=
  let s1 := runWaiting s
  if fwUp s1 && !s1.col.stopped.contains 35 then nodeRehomes s1.sch.rehome (auditsDue s1) else s1

/-! ### The partner's side (R393, R394) -/

/-- A write of 1 to MBX_DOORBELL: ignored while BUSY is set, which DB_REFUSED shows, and in ring mode. -/
def doorbell (m : Nat) (s : State) : State :=
  let st := mbxReg m mbxStatOff
  if mbRing s m then s
  else if mbBusy s m then wrBit st 2 true s
  else
    let s1 := wrBit st 0 true s
    if fwTakes s1 m then runWaiting (rung m s1) else countEarly m s1

/-- A write to the command area: dropped while BUSY is set. -/
def areaWrite (m i : Nat) (v : Word) (s : State) : State :=
  if mbBusy s m then wrBit (mbxReg m mbxStatOff) 3 true s
  else { s with mbx := { s.mbx with area := tset 0 s.mbx.area (areaKey m i) v } }

def cmdProdWrite (m : Nat) (v : Word) (s : State) : State :=
  if mbRingSize s m < (v - rd s (mbxReg m mbxCmdConsOff)).toNat then wrBit (mbxReg m mbxStatOff) 5 true s
  else runWaiting (wr (mbxReg m mbxCmdProdOff) v s)

def rspConsWrite (m : Nat) (v : Word) (s : State) : State :=
  if mbRingSize s m < (rd s (mbxReg m mbxRspProdOff) - v).toNat then wrBit (mbxReg m mbxStatOff) 5 true s
  else runWaiting (wr (mbxReg m mbxRspConsOff) v s)

/-- Entries that host software makes visible in its command ring, from CMD_PROD on. -/
def hostEntries (m : Nat) (es : List (List Word)) (s : State) : State :=
  es.zipIdx.foldl (fun t q => writeSlot m ((rd s (mbxReg m mbxCmdProdOff)).toNat + q.2) q.1 t) s

/-- A write of MBX_RING_CFG: a change of RING_EN with BUSY set or a ring not empty is dropped whole; a SIZE of 6 or 7 keeps
the old one. -/
def mbRingCfgWrite (m : Nat) (v : Word) (s : State) : State :=
  let a := mbxReg m mbxRingCfgOff
  let st := mbxReg m mbxStatOff
  let on := bit v 0
  let change := on != rdBit s a 0
  let empty := decide (cmdWaiting s m = 0) && rd s (mbxReg m mbxRspProdOff) == rd s (mbxReg m mbxRspConsOff)
  if 1 < m then s
  else if change && (mbBusy s m || !empty) then wrBit st 5 true s
  else
    let size := if fld v 1 3 < 6 then fld v 1 3 else rdF s a 1 3
    let s1 := wrBit st 4 on (wr a (wd (b2n on + 2 * size)) s)
    if change && on then
      wr (mbxReg m mbxCmdConsOff) (rd s (mbxReg m mbxCmdProdOff)) (wr (mbxReg m mbxRspProdOff) (rd s (mbxReg m mbxRspConsOff)) s1)
    else s1

/-! ### Events after which firmware takes what waits -/

/-- A start step ends (R455); firmware and the loader answer what has waited (R403). -/
def execStartStepDone (r : StartReport) (s : State) : Out3 := .next (runWaiting (stepDone r s))

/-- A firmware restart (R461). -/
def execFirmwareRestart (s : State) : Out3 := .next (runWaiting (firmwareRestart s))

/-- A reassembled COMMAND run of a session (R395): executed behind those that wait, a ninth answered with E_BUSY. -/
def sessionWords (p : Nat) (ws : List Word) (s : State) : State :=
  if (mb2Of s p).length < 8 then runSession 8 p (setMb2 p (mb2Of s p ++ [ws]) s)
  else
    let q := frameOf 2 p ws
    respondSession q.1 q.2 (err eBusy 0 s)

/-- A cascade control frame is taken (R374). -/
def execControlFrameReceive (s : State) : Out3 :=
  .next (if casRuns s then runWaiting (takeControl sessionWords s) else s)

end Sys2Proof.Machine
end

