-- ==== Sys2Proof/Machine/Windows.lean ====
section
/-! DEFINITION. The indirect table windows (R435 to R438): the records they reach, a READ and a WRITE, and an operation
that waits for its access slot.  Record layouts that the spec does not lay down are this model's: DESIGN CHOICE (log entry 26). -/

namespace Sys2Proof.Machine
open Sys2Proof

/-! ### The tables (R437) -/

/-- Words of a table's record, 0 for a TABLE value that names none. -/
def winWords (t : Nat) : Nat :=
  match t with
  | 0x01 => 20 | 0x02 => 6 | 0x04 => 64 | 0x05 => 1 | 0x06 => 51 | 0x07 => 52 | 0x08 => 4 | 0x09 => 1 | 0x0A => 8
  | 0x0B => 8 | 0x0C => 1 | 0x0D => 15 | 0x0E => 25 | 0x10 => 1 | 0x11 => 1 | 0x12 => 4 | 0x13 => 6 | 0x18 => 2
  | 0x20 => 1 | 0x21 => 1 | 0x22 => 8 | 0x23 => 4 | 0x28 => 16
  | _ => 0

/-- Values of UNIT that a table has: glens, dies, or one. -/
def winUnits (t : Nat) : Nat := if t < 0x10 then 8 else if t < 0x28 then 2 else 1

/-- An INDEX that a table has.  For table 0x28, [15:0] is a set, a time event, or 8 × template + word group. -/
def winIndexOk (t i : Nat) : Bool :=
  match t with
  | 0x01 => decide (i < 131072) | 0x02 => decide (i < 8192) | 0x04 => decide (i < 32768) | 0x05 => decide (i < 65536)
  | 0x06 => decide (i < 16384) | 0x07 => decide (i < 8192) | 0x08 => decide (i < 32768) | 0x09 => decide (i < 32768)
  | 0x0A => decide (i < 256) | 0x0B => decide (i < 49152) | 0x0C => decide (i < 65536) | 0x0D => decide (i < 64)
  | 0x0E => decide (i < 32768) | 0x10 => decide (i < 65536) | 0x11 => decide (i < 32768) | 0x12 => decide (i < 262144)
  | 0x13 => decide (i < 2 ^ 20) && decide (i % 2 ^ 18 < levelTop (i / 2 ^ 18))
  | 0x18 => decide (i < 262144) | 0x20 => decide (i < 262144) | 0x21 => decide (i < 16384) | 0x22 => decide (i < 4096)
  | 0x23 => decide (i < 16384)
  | 0x28 => if i / 65536 = 0 then decide (i < 8) else decide (i / 65536 ≤ 2) && decide (i % 65536 < 64)
  | _ => false

/-- A table that a window writes; the operational gate lists are read-only. -/
def winWritable (t i : Nat) : Bool :=
  match t with
  | 0x05 | 0x06 | 0x08 | 0x0C | 0x0D | 0x10 | 0x11 | 0x12 | 0x20 | 0x21 | 0x22 => true
  | 0x18 => i / 1024 % 2 == 0
  | _ => false

/-! ### Access slots (R438) -/

/-- The slots that an operation needs are there. -/
def winReady (s : State) (q : WinOp) : Bool :=
  let dbg := fun m => hasSlot s (glenMem q.unit m) actDebug
  match q.table, q.write with
  | 0x01, _ | 0x02, _ | 0x04, _ => dbg 0
  | 0x05, false => dbg 2
  | 0x06, false => dbg 1 && dbg 2
  | 0x05, true => updQueue s (glenMem q.unit 2) = [] && hasSlot s (glenMem q.unit 2) actUpdate
  | 0x06, true => updQueue s (glenMem q.unit 1) = [] && hasSlot s (glenMem q.unit 1) actUpdate &&
      hasSlot s (glenMem q.unit 2) actUpdate
  | 0x10, _ | 0x11, _ | 0x12, _ | 0x13, _ => hasSlot s (schMem q.unit) 0
  | _, _ => true

/-- The budgeted memory and activity that an operation waits for, for the count of its wait (R507). -/
def winWaits (q : WinOp) (s : State) : State :=
  let act := if q.write then actUpdate else actDebug
  match q.table with
  | 0x01 | 0x02 | 0x04 => waited (glenMem q.unit 0) actDebug s
  | 0x05 => waited (glenMem q.unit 2) act s
  | 0x06 => waited (glenMem q.unit 1) act s
  | _ => waited (schMem q.unit) 0 s

/-- The slots that a READ takes. -/
def winCharge (t u : Nat) (s : State) : State :=
  match t with
  | 0x01 | 0x02 | 0x04 => debugRead u 0 1 s
  | 0x05 => debugRead u 2 1 s
  | 0x06 => debugRead u 2 1 (debugRead u 1 1 s)
  | 0x10 | 0x11 | 0x12 | 0x13 => charge (schMem u) 0 1 s
  | _ => s

/-! ### READ (R436) -/

def emWords (e : EmEntry) : List Word := key96Words e.key ++ [e.action, entryTail e]

/-- Twelve key words and the context word, whose bit 15 is VALID. -/
def idWords (e : StreamId) : List Word :=
  (List.range 12).map (fun j => wd (e.key / 2 ^ (32 * (11 - j)))) ++ [wd (e.ctx + b2n e.valid * 2 ^ 15)]

/-- A gate's eight parameter words: the operational LENGTH, BASE_NS, BASE_SEC, CYCLE, EXT; [0] INV_RX_EN, [1]
CLOSED_INV_RX, [2] an admin list waits; the admin LENGTH. -/
def gateParams (x : StreamGate) : List Word :=
  let o := x.oper
  [wd o.len, wd (o.base % 10 ^ 9), loW (o.base / 10 ^ 9), hiW (o.base / 10 ^ 9), wd o.cycle, wd o.ext,
   wd (b2n x.invRxEn + 2 * b2n x.closedInv + 4 * b2n x.tc.isSome), wd x.admin.len]

def gateWord (x : StreamGate) (i : Nat) : Word :=
  (if i / 64 % 2 = 0 then x.admin else x.oper).entries.getD (i % 64) 0

/-- A port's gate entry: the admin bank with its staged entries, or the operational bank. -/
def portGateWords (s : State) (p i : Nat) : List Word :=
  let e := if i / 1024 % 2 = 0 then bankEntry (stagedBank s p).entries (i % 1024)
    else bankEntry (gatOf s p).oper.entries (i % 1024)
  [e.1, e.2]

def rcvWords (x : Rcv) : List Word :=
  [x.w0, x.w1, x.w2, wd (b2n x.takeAny + x.seq * 2 ^ 16), wd x.hist, wd x.p, wd x.d, wd x.timer]

def dupWords : Option DupEnt → List Word
  | some e => [wd e.mac, wd (e.mac / 2 ^ 32 + e.domain * 2 ^ 16), wd (e.seq + 2 ^ 16), wd e.time]
  | none => [0, 0, 0, 0]

def pubWords (x : PubSt) : List Word :=
  x.cfg ++ [wd x.interval, wd x.frameSeq, wd x.seqNext, wd x.stNum, wd x.sqNum, wd (x.at_ % 10 ^ 9),
    loW (x.at_ / 10 ^ 9), hiW (x.at_ / 10 ^ 9)]
def tevWords (x : TimeEvt) : List Word :=
  [wd (x.pin * 2 ^ 8 + x.op * 2 ^ 12 + b2n x.en * 2 ^ 16), wd (x.start % 10 ^ 9), loW (x.start / 10 ^ 9),
   hiW (x.start / 10 ^ 9), wd x.period, wd (x.next % 10 ^ 9), loW (x.next / 10 ^ 9), hiW (x.next / 10 ^ 9)]

/-- Word group r of a template: 0 its sizes and offsets, 1 to 4 its bytes, 5 to 7 its data positions. -/
def tmplWords (x : Goose) (r : Nat) : List Word :=
  (List.range 16).map (fun j =>
    if r = 0 then
      match j with
      | 0 => wd (x.bytes.length * 2 ^ 16)
      | 1 => wd (x.stOff + x.sqOff * 2 ^ 16)
      | 2 => wd (x.tOff + x.pos.length * 2 ^ 16)
      | _ => 0
    else if r ≤ 4 then
      let b := fun k => x.bytes.getD (64 * (r - 1) + 4 * j + k) 0
      wd (b 0 + b 1 * 2 ^ 8 + b 2 * 2 ^ 16 + b 3 * 2 ^ 24)
    else
      let q := x.pos.getD (16 * (r - 5) + j) (0, 0, 0)
      wd (q.1 + q.2.1 * 2 ^ 16 + q.2.2 * 2 ^ 24))

/-- n free values: what a bucket row of the prefix table spells is not laid down. -/
def freeWords : Nat → State → List Word × State
  | 0, s => ([], s)
  | n + 1, s => let r := freeW s; let q := freeWords n r.2; (r.1 :: q.1, q.2)

/-- The words of one record, padded later to the window. -/
def winRecord (t u i : Nat) (s : State) : List Word × State :=
  match t with
  | 0x01 => ((List.range 4).flatMap (fun j => emWords (bktGet s u i j)), s)
  | 0x02 => let o := tget emptyOvf s.glens.ovf (key u i); (emWords o.e ++ [wd o.home], s)
  | 0x04 => freeWords 64 s
  | 0x05 => ([nhGet s u i], s)
  | 0x06 => (ruleRecord (ruleGet s u i), s)
  | 0x07 => ((List.range 4).flatMap (fun j => idWords (idGet s u (4 * i + j))), s)
  | 0x08 => (ctxGet s u i, s)
  | 0x09 => ([gateWord (gateGet s u (i / 128)) i], s)
  | 0x0A => (gateParams (gateGet s u i), s)
  | 0x0B => (meterRecord (meterGet s u i), s)
  | 0x0C => ([tenMapGet s u i], s)
  | 0x0D => (edgesGet s u i, s)
  | 0x0E => (ctxCounters s u i ++ ctxBins s u i, s)
  | 0x10 => ([tmapGet s u i], s)
  | 0x11 => ([nodeGet s u i], s)
  | 0x12 => (queueGet s u i, s)
  | 0x13 =>
    let x := shpNow s u (i / 2 ^ 18) (i % 2 ^ 18)
    ([x.w0, x.w1, x.w2, bucketWord x.tc, bucketWord x.tp, wd x.last], s)
  | 0x18 => (portGateWords s (128 * u + i / 2048) i, s)
  | 0x20 => ([freHandle s u i], s)
  | 0x21 => ([wd (genNext s u i)], s)
  | 0x22 => (rcvWords (rcvGet s u i), s)
  | 0x23 => (dupWords ((dupGet s u (i / 4))[i % 4]?), s)
  | 0x28 => (match i / 65536 with
      | 0 => pubWords (pubOf s i)
      | 1 => tevWords (tevOf s (i % 65536))
      | _ => tmplWords (tget noTmpl s.fio.tmpl (i % 65536 / 8)) (i % 8), s)
  | _ => ([], s)

/-! ### WRITE (R436) -/

/-- What a WRITE reports: RESULT and OUTCOME of WIN_STAT, and the state. -/
structure WinRes where
  result : Nat
  outcome : Nat
  st : State

def winRefused (s : State) : WinRes := ⟨4, rFailed, s⟩
def winDone (s : State) : WinRes := ⟨1, rDone, s⟩
def winCode (r : Nat × State) : WinRes :=
  ⟨if r.1 = rNotFound ∨ r.1 = rFull ∨ r.1 = rFailed then 4 else 1, r.1, r.2⟩

/-- A TCAM rule's record (R437): the header, eight slices, the action words.  A valid rule takes a change of PRIO or action
alone; a header with VALID clear writes the rule without installing it, or removes it. -/
def winRule (g i : Nat) (w : Nat → Word) (s : State) : WinRes :=
  let hdr := (w 0).toNat
  let n := hdr % 16
  let ws := (List.range (6 * n)).map (fun j => w (1 + j)) ++ [w 49, w 50]
  let new := ruleOf hdr ws
  let old := ruleGet s g i
  let same := decide (old.width = new.width) && decide (old.group = new.group) && decide (old.slices = new.slices)
  if n = 0 ∨ 8 < n ∨ fld (w 0) 10 6 ≠ 0 ∨ actionOk (w 49) (w 50) = false then winRefused s
  else if old.valid then
    if !same then winRefused s
    else
      let r := opNow g (.tcamAction i true true (hdr / 2 ^ 16) (w 49) (w 50)) s
      winCode (if bit (w 0) 8 then r else opNow g (.tcamDelete i) r.2)
  else if bit (w 0) 8 then winCode (opNow g (.tcamWrite i hdr ws) s)
  else if placeOk s g i n then
    winDone (charge (glenMem g 2) actUpdate 2 (charge (glenMem g 1) actUpdate (n + 1)
      (genUp g (b2n old.exclude) (ruleSet g i new s))))
  else winRefused s

def winNode (d n : Nat) (w : Word) (s : State) : WinRes :=
  let old := nodeGet s d n
  let moved := nodePort w != nodePort old || (nodeEn old && !nodeEn w)
  if firstSpareNode ≤ n ∨ !nodeWordOk s d w ∨ (moved && !(busyQueues s d n).isEmpty) then winRefused s
  else winDone (charge (schMem d) 0 1 (nodePut d n (setBit w 18 (nodeRetired old)) s))

def winTmap (d t : Nat) (w : Word) (s : State) : WinRes :=
  if fld w 16 16 ≠ 0 ∨ (bit w 15 && decide (firstSpareNode ≤ fld w 0 15)) then winRefused s
  else winDone (charge (schMem d) 0 1 (tmapPut d t w s))

def winQueue (d i : Nat) (r : List Word) (s : State) : WinRes :=
  if queueRecFails r = [] then winDone (charge (schMem d) 0 1 (queuePut d i r s)) else winRefused s

def winEdges (g i : Nat) (e : List Word) (s : State) : WinRes :=
  if (List.range 14).any (fun j => decide ((e.getD (j + 1) 0).toNat < (e.getD j 0).toNat)) then winRefused s
  else winDone (edgesPut g i e s)

def winRcv (d f : Nat) (w : Nat → Word) (s : State) : WinRes :=
  if rcvFails (w 0) (w 2) = [] then
    winDone (rcvConfig d f (w 0) (w 1) (w 2) s)
  else winRefused s

/-- The record in WIN_DATA applied as its chapter lays down for a command write. -/
def winApply (t u i : Nat) (w : Nat → Word) (s : State) : WinRes :=
  if t < 0x10 ∧ outOfService s 2 u then ⟨4, rOos, s⟩
  else
    match t with
    | 0x05 => winCode (opNow u (.nextHop i (w 0)) s)
    | 0x06 => winRule u i w s
    | 0x08 => match ctxFault w with
      | some _ => winRefused s
      | none => winDone (ctxWrite u i w s)
    | 0x0C => winDone (tenMapPut u i (w 0 &&& 0xBFFF) s)
    | 0x0D => winEdges u i ((List.range 15).map w) s
    | 0x10 => winTmap u i (w 0) s
    | 0x11 => winNode u i (w 0) s
    | 0x12 => winQueue u i ((List.range 4).map w) s
    | 0x18 => winDone (gatEntryWrite (128 * u + i / 2048) (i % 1024) (w 0, w 1) s)
    | 0x20 => if fld (w 0) 15 1 ≠ 0 ∨ fld (w 0) 29 3 ≠ 0 then winRefused s else winDone (setHandle u i (w 0) s)
    | 0x21 => if fld (w 0) 16 16 ≠ 0 then winRefused s else winDone (setGen u i (fld (w 0) 0 16) s)
    | 0x22 => winRcv u i w s
    | _ => ⟨3, 0, s⟩

/-! ### A row whose replay is bad too (R36) -/

/-- The parity fault of the table that a READ finds bad, its row flagged. -/
def winParity (t u i : Nat) (s : State) : State :=
  match t with
  | 0x01 => badBucket u i s
  | 0x02 => retireOvf u i (raise srcEmtParity i 8 (0xF00 + u) s)
  | 0x04 => badPrefix u i s
  | 0x05 => flagSpare clsRule (2 * u) i 8 u (raise srcLpmParity i 8 (0xF00 + u) s)
  | 0x06 => flagSpare clsRule (2 * u + 1) i 8 u (raise srcTcmParity i 8 u s)
  | 0x10 | 0x11 | 0x12 | 0x13 => if t = 0x11 then nodeParity u i s else if t = 0x12 then nodeParity u (i / 8) s
      else raise srcSchParity i 8 u s
  | 0x18 => flagSpare clsGat ((128 * u + i / 2048) / 16) ((128 * u + i / 2048) % 16) 8 0
      (raise srcGatParity (128 * u + i / 2048) 8 0 s)
  | 0x20 | 0x21 | 0x22 => raise srcFreParity i 0 0 s
  | 0x23 => raise srcFreDupParity i 0 0 s
  | 0x28 => s
  | _ => flagSpare clsStm (16 * u + t) i 8 u (raise srcStmParity i 8 u s)

/-! ### An operation -/

def winTable (w : Nat) : Nat := winBase w
def winIndex (w : Nat) : Nat := winBase w + 0x4
def winStat (w : Nat) : Nat := winBase w + 0xC
def winData (w k : Nat) : Nat := winBase w + 0x100 + 4 * k

/-- RESULT and OUTCOME of the operation that has ended. -/
def winEnd (w result outcome : Nat) (s : State) : State :=
  wrF (winStat w) 16 8 outcome (wrF (winStat w) 0 4 (2 * result) s)

/-- A window's data registers given a record, words beyond it 0. -/
def winFill (w : Nat) (ws : List Word) (s : State) : State :=
  (List.range 64).foldl (fun t k => wr (winData w k) (ws.getD k 0) t) s

/-- The master that a window belongs to (R435). -/
def winOwner (w : Nat) : Nat := match w with | 0 => 0 | 1 => 1 | 2 => 3 | _ => 4

/-- A write of an admin gate entry is a staged write, which starts the 1 ms rule's timer (R432). -/
def winStaged (q : WinOp) (s : State) : State :=
  let p := 128 * q.unit + q.index / 2048
  if q.table = 0x18 ∧ q.write ∧ !(gatOf s p).pending then openGroup (gatCommit p) (winOwner q.win) s else s

/-- An operation that has its slots runs. -/
def winRun (q : WinOp) (s : State) : State :=
  let r : WinRes :=
    if q.write then
      winApply q.table q.unit q.index (fun k => if k < winWords q.table then rd s (winData q.win k) else 0) s
    else if q.bad then ⟨5, 0, winParity q.table q.unit q.index (winCharge q.table q.unit s)⟩
    else
      let x := winRecord q.table q.unit q.index (winCharge q.table q.unit s)
      ⟨1, 0, winFill q.win x.1 x.2⟩
  winStaged q (winEnd q.win r.result r.outcome r.st)

/-- WIN_CMD: READ or WRITE; both do nothing, and BUSY drops either. -/
def winCmd (w : Nat) (v : Word) (bad : Bool) (s : State) : State :=
  let t := rdF s (winTable w) 0 8
  let q : WinOp := ⟨w, t, rdF s (winTable w) 8 3, rdF s (winIndex w) 0 24, bit v 1, bad⟩
  if rdBit s (winStat w) 0 then wrBit (winStat w) 4 true s
  else if bit v 0 == bit v 1 then s
  else if winWords t = 0 ∨ winUnits t ≤ q.unit ∨ winIndexOk t q.index = false then winEnd w 2 0 s
  else if q.write ∧ winWritable t q.index = false then winEnd w 3 0 s
  else if winReady s q then winRun q s
  else winWaits q (wrBit (winStat w) 0 true { s with bus := { s.bus with winQ := s.bus.winQ ++ [q] } })

/-- A write of WIN_TABLE, which shows the record's words. -/
def winTableWrite (w : Nat) (v : Word) (s : State) : State :=
  wrF (winStat w) 8 8 (winWords (fld v 0 8)) (wrM (winTable w) 0x7FF v s)

/-- A write of WIN_DATA. -/
def winDataWrite (w k : Nat) (v : Word) (s : State) : State :=
  if rdBit s (winStat w) 0 then wrBit (winStat w) 4 true s else wr (winData w k) v s

/-- Operations that wait get their slots, in the order in which they began. -/
def winServe (s : State) : State :=
  s.bus.winQ.foldl (fun t q =>
    if winReady t q then winRun q { t with bus := { t.bus with winQ := t.bus.winQ.filter (fun x => x.win != q.win) } }
    else winWaits q t) s

end Sys2Proof.Machine
end

