-- ==== Sys2Proof/Machine/Access.lean ====
section
/-! DEFINITION. Register accesses (R422 to R431): bus errors and their capture, the standing of masters, what a read and a
write of each register does, staged groups, and the shadow log (R406).  Master 2 addresses its own BAR; every other
master addresses BAR0. -/

namespace Sys2Proof.Machine
open Sys2Proof

/-! ### Masters (R425, R426) -/

/-- Master indices of R425: 0 MP, 1 PF0, 2 PF1, 3 board controller, 4 debugger. -/
def masterOk (m : Nat) : Bool := decide (m ≤ 4)
def masterSecure (s : State) (m : Nat) : Bool := m == 0 || (m == 4 && dbgUnlocked s)
def masterPriv (s : State) (m : Nat) : Bool := m == 1 || m == 3 || masterSecure s m

/-- The bits of a register that a master is not admitted to. -/
def hiddenBits (s : State) (m : Nat) (b : Blk) (d : RegDesc) : Nat :=
  match b with
  | .win w => if m = winOwner w then 0 else all32
  | _ => (if masterPriv s m then 0 else d.prv) ||| (if masterSecure s m then 0 else d.sec)

/-- An access dropped in part or whole is counted once. -/
def guardCount (m : Nat) (s : State) : State := incSat (glbBase + 0x40 + 4 * m) 0 32 s

/-! ### Bus errors (R424) -/

abbrev glbCapAddr : Nat := glbBase + 0x80
abbrev glbCapInfo : Nat := glbBase + 0x84
abbrev glbParStat : Nat := glbBase + 0x90

def reasonUnlisted : Nat := 1
def reasonOutside : Nat := 2
def reasonPartial : Nat := 3
def reasonPartner : Nat := 4
def reasonReset : Nat := 5

/-- The block is held in reset or isolated for test: RESET_N, steps 2 and 3 of a start for every block but the management
blocks below 0xA_0000, the west die while WEST_UP is 0, a unit's own state.  Block 16 of a die reaches a re-homed pipeline
all the same (R421). -/
def blockHeld (s : State) (a : Nat) (b : Blk) : Bool :=
  s.start.inReset || !s.start.rails || (decide (0xA0000 ≤ a) && decide (s.start.step < 4)) ||
  (decide (0x02000000 ≤ a) && decide (a < 0x03000000) && !rdBit s (glbBase + 0x24) 5) || outOfService s 7 (blockIndex a) ||
  (match b with
   | .pip n => outOfService s 1 (physPip s n) && !(decide (32 ≤ n) && physPip s n != n)
   | .gln g => outOfService s 2 g
   | .pg n => outOfService s 4 n
   | .hbm d => outOfService s 5 d
   | _ => false)

/-- The register cell of a port group has its partner absent or is in RESYNC (R78). -/
def partnerAway (s : State) (b : Blk) : Bool :=
  match b with
  | .pg n => rdF s (cellStat (4 * n + 2)) 0 3 == 2 || rdF s (cellStat (4 * n + 2)) 0 3 == 3
  | _ => false

/-- A register as an access finds it: its BAR0 address, block, row and instance. -/
structure Target where
  addr : Nat
  blk : Blk
  reg : RegDesc
  i : Nat
  j : Nat

/-- The BAR0 address of an offset of PF1's BAR, which maps the MB1 page (R386). -/
def pf1Addr (off : Nat) : Option Nat :=
  if off < 0x40 then some (mbxBase + 0x140 + off)
  else if 0x2000 ≤ off ∧ off < 0x4000 then some (mbxBase + 0x4000 + (off - 0x2000))
  else none

/-- The register that an access of a master reaches, or the REASON of its bus error, the first in the order of R424. -/
def busTarget (s : State) (m a : Nat) (full : Bool) : Except Nat Target :=
  match (if m = 2 then pf1Addr a else some a) with
  | none => .error reasonUnlisted
  | some x =>
    match decodeAddr x with
    | none => .error reasonOutside
    | some (b, off) =>
      if blockHeld s x b then .error reasonReset
      else if partnerAway s b then .error reasonPartner
      else match findReg (blockRegs b) off with
        | none => .error reasonUnlisted
        | some (d, i, j) => if full then .ok ⟨x, b, d, i, j⟩ else .error reasonPartial

/-- A bus error: counted, raised, the first captured; every other register is unchanged. -/
def busError (m a : Nat) (write : Bool) (reason : Nat) (s : State) : State :=
  let s1 := raiseAcc srcRegBusErr a m (if write then 2 else 1) (incSat (glbBase + 0x60 + 4 * m) 0 32 s)
  let s2 := if write ∧ (m = 1 ∨ m = 2) then { s1 with bus := { s1.bus with aerAbort := true } } else s1
  if rdBit s2 glbCapInfo 31 then s2
  else wr glbCapInfo (wd (reason + 8 * m + 64 * b2n write + 2 ^ 31)) (wr glbCapAddr (wd (a % 2 ^ 26)) s2)

/-- What a master's access has returned. -/
def answer (m : Nat) (c : Completion) (s : State) : State :=
  { s with bus := { s.bus with done := tset none s.bus.done m (some c) } }

/-! ### Configuration parity (R428) -/

/-- The register has RW fields, which carry parity. -/
def protectedReg (a : Nat) : Bool :=
  match regAt a with
  | some (_, d, _, _) => d.rw != 0
  | none => false

/-- Bad parity detected: raised, and posted to the restore queue unless it is there already. -/
def parityFound (a : Nat) (s : State) : State :=
  let s1 := raise srcCfgParity a 0 0 s
  if s1.bus.restoreQ.contains (physAddr s a) then s1
  else { s1 with bus := { s1.bus with restoreQ := s1.bus.restoreQ ++ [physAddr s a] } }
def parityRead (t : Target) (s : State) : State :=
  if t.reg.rw ≠ 0 ∧ s.bus.badPar.contains (physAddr s t.addr) then parityFound t.addr s else s

/-- The logical port of instance i of a port register. -/
def portOf (b : Blk) (i : Nat) : Nat :=
  match b with
  | .gln g => 32 * g + i
  | .sch d | .gat d | .fre d => 128 * d + i
  | .pip n => 8 * n + i
  | _ => i

/-- The register belongs to a port number that is unused (R5): the access is refused, a write dropped and a read 0.
DEDUCED (log entry 66) -/
def namesUnused (s : State) (t : Target) : Bool := t.reg.perPort && portUnused s (portOf t.blk t.i)

/-! ### Reads -/

/-- A mailbox's page or area index, from an address in the MBX block. -/
def mbxPage (a : Nat) : Nat := (a - mbxBase - 0x100) / 0x40
def mbxArea (a : Nat) : Nat := (a - mbxBase - 0x2000) / 0x2000

def latchKey (s : State) (m a : Nat) : Nat := key m (physAddr s a)

/-- A tuning word of port group n (R441). -/
def tuneWord (s : State) (n a : Nat) : Word :=
  (tget none s.ports.tuning a).getD
    (Config.laneTable a ((List.range 8).map (fun k => (portRec s (8 * n + k)).map (fun r => (r.width, r.rate, r.fec)))))

/-- What a read returns before guards, and its read effects. -/
def readValue (m : Nat) (t : Target) (s : State) : Word × State :=
  let a := t.addr
  match t.reg.rd with
  | .mbxArea => (tget 0 s.mbx.area (areaKey (mbxArea a) t.i), s)
  | .mbxResp => ((tget [] s.mbx.resp (mbxArea a)).getD t.i 0, s)
  | .timFrac => let s1 := latchTime s; (rd s1 a, s1)
  | .ppsCap => (rd s a, takeCapture s)
  | .peak => (rd s a, peakRestart t.i s)
  | .secStat => (secStat s, s)
  | .lo64 => (rd s a, { s with bus := { s.bus with
      hiLatch := tset none s.bus.hiLatch (latchKey s m (a + 4)) (some (rd s (a + 4))) } })
  | .hi64 => ((tget none s.bus.hiLatch (latchKey s m a)).getD (rd s a),
      { s with bus := { s.bus with hiLatch := tset none s.bus.hiLatch (latchKey s m a) none } })
  | _ =>
    match t.blk, t.reg.act with
    | _, .staged | _, .gatStaged => (rdStg s a, s)
    | .pg n, .tune => (tuneWord s n a, s)
    | .pg n, _ => if t.reg.name = "MAC_PORT_STAT" then portStat (8 * n + t.i) s else (rd s a, s)
    | _, _ => (rd s a, s)

/-- One dword read: guarded fields read 0, and a guarded register has no read effect. -/
def readTarget (m : Nat) (t : Target) (s : State) : Word × State :=
  let h := hiddenBits s m t.blk t.reg
  if namesUnused s t then (0, s)
  else if h = all32 then (0, guardCount m (parityRead t s))
  else
    let r := readValue m t (parityRead t s)
    (r.1 &&& ~~~(wd h), if h = 0 then r.2 else guardCount m r.2)

/-! ### Writes -/

/-- RW fields stored, W1C fields cleared by ones. -/
def storeFields (a : Nat) (d : RegDesc) (v : Word) (s : State) : State :=
  let old := rd s a
  wr a (((old &&& ~~~(wd d.rw)) ||| (v &&& wd d.rw)) &&& ~~~(v &&& wd d.w1c)) s

/-- COMMIT and DISCARD: both together discard (R431). -/
def commitBits (v : Word) (commit discard : State → State) (s : State) : State :=
  if bit v 1 then discard s else if bit v 0 then commit s else s

/-- The commit register of the staged group that a register belongs to (R434). -/
def groupCommit (b : Blk) (off p : Nat) : Nat :=
  match b with
  | .gln g => if off < 0x10000 then glnBudgetCommitReg g else if 0x50000 ≤ off then polCommitReg g else emtKeyCommit g
  | .bpm d => if off < 0x20 then bpmLayoutCommitReg d else if off < 0x1000 then bpmBudgetCommitReg d else bpmQuotaCommitReg d
  | .sch d => if off < 0x100 then schBudgetCommitReg d else shpCommitReg d
  | .gat _ => gatCommit p
  | _ => pwiCommitReg

/-- A write of a port's profile: held for a Primrose ring port (R416); on block 16 of a die the profile is only checked. -/
def profileWrite (e n i a : Nat) (v : Word) (s0 : State) : State :=
  let p := 8 * n + i
  let s := if bit v 8 then wrBit a 8 false s0 else s0
  if n < 32 then
    if ringPort p && !s.start.handedOver && profOk e (fld v 0 8) then portCfgWrite p a 0xFF v s else portProfWrite e p v s0
  else if profOk e (fld v 0 8) then wrF a 0 8 (fld v 0 8) s else wrBit a 8 true s

/-- The registers whose act is `keep`: port settings and entries with an effect of their own. -/
def keepWrite (k : Nat) (t : Target) (v : Word) (s : State) : State :=
  let a := t.addr
  let p := portOf t.blk t.i
  match k, t.blk with
  | 0, .sch _ => if portExists s p then dropDown p (portCfgWrite p a t.reg.rw v s) else s
  | 0, _ => if portExists s p then portCfgWrite p a t.reg.rw v s else s
  | 1, .pip n => profileWrite 0 n t.i a v s
  | 2, .pip n => profileWrite 1 n t.i a v s
  | 3, _ =>
    let v' := if fld v 1 2 = 0 ∨ fld v 1 2 = 3 then setFld v 1 2 (rdF s a 1 2) else v
    if portExists s t.i then portCfgWrite t.i a 7 v' s else s
  | 4, .pip n => matchWrite 0 n t.i v s
  | 5, .pip n => profWrite 0 n t.i v s
  | 6, .pip n => matchWrite 1 n t.i v s
  | 7, .pip n => profWrite 1 n t.i v s
  | 8, _ => foCfgWrite t.i v s
  | 9, _ => fiCfgWrite t.i v s
  | _, _ => let s1 := wrM a t.reg.rw v s; { s1 with path := { s1.path with lfsr := [] } }

/-- FCL_CFG and FCL_SRC_CFG (R492): LOCK is never cleared; SEV 6 and 7 leave the field. -/
def fclCfgWrite (v : Word) (s : State) : State := wrM fclCfg 0x7FFFF (setBit v 18 (bit v 18 || fclLocked s)) s
def fclSrcWrite (a : Nat) (v : Word) (s : State) : State :=
  wrM a 0x3FF (if 6 ≤ fld v 0 3 then setFld v 0 3 (rdF s a 0 3) else v) s

/-- A write of a window register. -/
def winWrite (w off : Nat) (t : Target) (v : Word) (bad : Bool) (s : State) : State :=
  if off = 0 then winTableWrite w v s
  else if off = 8 then winCmd w v bad s
  else if off < 0x100 then storeFields t.addr t.reg v s
  else winDataWrite w t.i v s

/-- A write to a staged register: the staged copy, and the 1 ms rule's timer. -/
def stageWrite (m off : Nat) (t : Target) (v : Word) (s : State) : State :=
  openGroup (groupCommit t.blk off (portOf t.blk t.i)) m (stgM t.addr t.reg.rw v s)

/-- The effect of a write on each register; `bad` says that the row a window READ names has bad parity twice. -/
def writeEffect (m off : Nat) (t : Target) (v : Word) (bad : Bool) (s : State) : State :=
  let a := t.addr
  let store := storeFields a t.reg v s
  match t.blk, t.reg.act with
  | .win w, _ => winWrite w off t v bad s
  | _, .staged => stageWrite m off t v s
  | .gat d, .gatStaged =>
    let p := 128 * d + t.i
    let s1 := gatStagedWrite p ((off - 0x1004) % 0x40 / 4) v t.reg.rw s
    if (gatOf s p).pending then s1 else openGroup (gatCommit p) m s1
  | .gat d, .gatListCommit => commitBits v (gatListCommit (128 * d + t.i)) (gatListDiscard (128 * d + t.i)) s
  | .gat d, .gatPortCfg => gatPortCfgWrite (128 * d + t.i) v s
  | .mbx, .mbxDoorbell => if bit v 0 then doorbell (mbxPage a) s else s
  | .mbx, .mbxRingCfg => mbRingCfgWrite (mbxPage a) v s
  | .mbx, .mbxCmdProd => cmdProdWrite (mbxPage a) v s
  | .mbx, .mbxRspCons => rspConsWrite (mbxPage a) v s
  | .mbx, .mbxArea => areaWrite (mbxArea a) t.i v s
  | _, .fclCfg => fclCfgWrite v s
  | _, .fclStatus => acknowledge t.i v s
  | _, .fclFirst => if bit v 31 then firstRearm s else s
  | _, .fclLogPop => if bit v 0 then logPop s else s
  | _, .fclSrcCfg => fclSrcWrite a v s
  | .pip n, .pipCtl => pipModeWrite n (fld v 0 2) s
  | .pip n, .prsBank => bankWrite 0 n v s
  | .pip n, .rweBank => bankWrite 1 n v s
  | .pip n, .prsPatchAddr => patchAddrWrite 0 n v s
  | .pip n, .rwePatchAddr => patchAddrWrite 1 n v s
  | .pip n, .prsPatchData => patchDataWrite 0 n t.i v s
  | .pip n, .rwePatchData => patchDataWrite 1 n t.i v s
  | _, .ringCfg top => ringCfgWrite (a - 8) top v s
  | .pmc, .ringCons => ringConsWrite (a - 0x10) (if off < 0x300 then 1024 else 256) v s
  | _, .ringCons => ringConsWrite (a - 0x10) 256 v s
  | _, .pwiCommit => commitBits v pwiCommit pwiDiscard s
  | _, .colCellStat => cellStatWrite t.i v s
  | _, .colStallPend => stallPendWrite t.i v s
  | _, .colOvfPend => ovfPendWrite t.i v s
  | .gln g, .glnBudgetCommit => commitBits v (glnBudgetCommit g) (glnBudgetDiscard g) s
  | .gln g, .emtKeyCommit => commitBits v (keyCommit g) (keyDiscard g) s
  | .gln g, .emtHash => if off = 0x10004 then hashCfgWrite g v s else hashSeedWrite g v s
  | .gln g, .emtAgeCfg => ageCfgWrite g v s
  | .gln g, .emtTblCfg => tblCfgWrite g t.i v s
  | .gln g, .stmSeed => if idUsed s g = 0 then wr a v s else wrBit (stmOcc g) 31 true s
  | .gln g, .polStgCommit => commitBits v (polCommit g (bit v 2)) (polDiscard g) s
  | .bpm d, .bpmLayoutCommit => commitBits v (layoutCommit d) (layoutDiscard d) s
  | .bpm d, .bpmQuotaCommit => commitBits v (quotaCommit d) (quotaDiscard d) s
  | .bpm d, .bpmBudgetCommit => commitBits v (plainBudgetCommit d) (plainBudgetDiscard d) s
  | _, .bpmEpoch => if fld v 0 8 = 0 then s else store
  | .sch d, .schBudgetCommit => commitBits v (schBudgetCommit d) (schBudgetDiscard d) s
  | .sch d, .schShpCommit => commitBits v (shpCommit d (bit v 2) none) (shpDiscard d) s
  | _, .timStepGo => if bit v 0 then timStepGo s else s
  | _, .timCfg => timCfgWrite v s
  | _, .foForceEn => forceWrite fioForceEn (fld v 16 16) v s
  | _, .foForceVal => forceWrite fioForceVal (fld v 16 16) v s
  | _, .fioEtype => if fld v 0 16 < 0x600 then s else store
  | _, .casCfg => casCfgWrite v s
  | _, .casDevId => if fld v 0 20 = 0xFFFFF then s else store
  | _, .casEtype => if fld v 0 16 < 0x600 then s else store
  | _, .casTiming => storeFields a t.reg (if fld v 0 16 = 0 then setFld v 0 16 (rdF s a 0 16) else v) s
  | _, .dumpSet => setCfgWrite t.i v s
  | .pg _, .tune => { s with ports := { s.ports with tuning := tset none s.ports.tuning a (some v) } }
  | .fre d, .freDupSeed => dupSeedWrite d v s
  | _, .secDbgReq => if bit v 0 then issueNonce s else s
  | _, .secCfg => measurePolicy store
  | _, .keep k => keepWrite k t v s
  | _, _ => store

/-! ### The shadow log (R406) -/

/-- The mask of a logged write: the fields that it writes. -/
def logMask (t : Target) (v : Word) : Nat :=
  match t.reg.act with
  | .foForceEn | .foForceVal => fld v 16 16
  | _ => t.reg.rw

/-- A write to a configuration register, or to the commit of a staged group, by a master other than the MP is posted; a full log loses the entry.  Firmware,
while it is up, applies the log at once. -/
def postLog (m : Nat) (t : Target) (v : Word) (s : State) : State :=
  if m = 0 ∨ (configReg t.addr || commitAct t.reg.act) = false then s
  else if s.mbx.log.length < 4096 then
    let s1 := { s with mbx := { s.mbx with log := s.mbx.log ++ [⟨t.addr, v, logMask t v, m⟩] } }
    if fwUp s1 ∧ fwStage s1 ≠ 0 ∧ !s1.col.stopped.contains 35 then applyLog s1 else s1
  else
    let k := t.addr / 65536
    wrBit (mbxLostMap (k / 32)) (k % 32) true (raise srcCfgLogLost 0 0 0 (inc (mbxBase + 0x20) s))

/-! ### Accesses -/

/-- FCL_CFG.LOCK drops a write of the fault configuration by every master but the MP (R492). -/
def lockDrops (s : State) (m : Nat) (t : Target) : Bool :=
  m != 0 && fclLocked s && (t.reg.act == .fclCfg || t.reg.act == .fclSrcCfg || t.reg.act == .fclNbr)

/-- A register written: its parity is good again. -/
def parityFresh (a : Nat) (s : State) : State :=
  { s with bus := { s.bus with badPar := s.bus.badPar.filter (fun x => x != physAddr s a) } }

/-- One dword written to a register that the access reaches. -/
def writeTarget (m : Nat) (t : Target) (v : Word) (bad : Bool) (s : State) : State :=
  if namesUnused s t then s
  else if hiddenBits s m t.blk t.reg ≠ 0 ∨ lockDrops s m t then guardCount m s
  else
    let off := match decodeAddr t.addr with | some (_, o) => o | none => 0
    postLog m t v (writeEffect m off t v bad (if t.reg.act = .staged then s else parityFresh t.addr s))

/-- A dword write by a master, with its byte enables. -/
def busWriteWith (m a be : Nat) (v : Word) (bad : Bool) (s : State) : State :=
  match busTarget s m a (be == 15) with
  | .error r => answer m ⟨false, []⟩ (busError m a true r s)
  | .ok t => answer m ⟨true, []⟩ (writeTarget m t v bad s)
def busWrite (m a : Nat) (v : Word) (s : State) : State := busWriteWith m a 15 v false s

/-- A dword read by a master. -/
def busRead (m a : Nat) (s : State) : State :=
  match busTarget s m a true with
  | .error r => answer m ⟨false, [0]⟩ (busError m a false r s)
  | .ok t => let r := readTarget m t s; answer m ⟨true, [r.1]⟩ r.2

/-- The dwords of a read request in ascending order, none read when one of them meets a bus error (R422). -/
def readDwords (m : Nat) : List Nat → State → List Word × State
  | [], s => ([], s)
  | a :: rest, s =>
    match busTarget s m a true with
    | .error _ => ([], s)
    | .ok t =>
      let r := readTarget m t s
      let q := readDwords m rest r.2
      (r.1 :: q.1, q.2)
def firstError (s : State) (m : Nat) : List Nat → Option (Nat × Nat)
  | [] => none
  | a :: rest =>
    match busTarget s m a true with
    | .error r => some (a, r)
    | .ok _ => firstError s m rest

end Sys2Proof.Machine
end

