-- ==== Sys2Proof/Machine/Triggers.lean ====
section
/-! DEFINITION. The register accesses that the table lists as commands of their own, and what the block does by itself
around its registers: the 1 ms rule, the parity checker and firmware's restores, clock monitors, the budget period. -/

namespace Sys2Proof.Machine
open Sys2Proof

/-! ### Any register -/

/-- An access that the buses can make (R422): a master of R425, a dword address. -/
def accessOk (m a : Nat) : Bool := masterOk m && decide (a % 4 = 0) && decide (a < 2 ^ 32)

def execRegisterWrite (m a be : Nat) (v : Word) (s : State) : Out3 :=
  needs (accessOk m a && decide (be < 16)) (busWriteWith m a be v false s)

/-- The address names a register of a staged group. -/
def isStaged (a : Nat) : Bool :=
  match regAt a with
  | some (_, d, _, _) => d.act == .staged || d.act == .gatStaged
  | none => false
def execStagedRegisterWrite (m a : Nat) (v : Word) (s : State) : Out3 :=
  needs (accessOk m a && isStaged a) (busWrite m a v s)

/-- The timer of a staged group runs out, 1 ms after the period's first staged write: raised once, with the commit
register's address and the last writer (R432). -/
def uncommitted (commit : Nat) (s : State) : State :=
  match tget none s.bus.open_ commit with
  | some u =>
    if u.raised || decide (s.tim.cnt < u.since + 10 ^ 6) then s
    else
      let s1 := { s with bus := { s.bus with open_ := tset none s.bus.open_ commit (some { u with raised := true }) } }
      raiseAcc srcCfgUncommitted commit u.lastMaster 2 s1
  | none => s
def execCfgUncommittedTimeout (commit : Nat) (s : State) : Out3 := .next (uncommitted commit s)

/-- The address names the low word of a 64-bit counter. -/
def isCounterLo (a : Nat) : Bool :=
  match regAt a with
  | some (_, d, _, _) => d.rd == .lo64
  | none => false
def execCounterLoRead (m a : Nat) (s : State) : Out3 := needs (accessOk m a && isCounterLo a) (busRead m a s)
def execTimReadFrac (m : Nat) (s : State) : Out3 := needs (masterOk m) (busRead m timReadFrac s)
def execPwiIslPeakRead (m i : Nat) (s : State) : Out3 := needs (masterOk m && decide (i < islCount)) (busRead m (islPeak i) s)

/-! ### Commits and discards of staged groups (R431) -/

def commitW : Word := 1
def discardW : Word := 2
/-- COMMIT with RESET_BKT as the sender gives it. -/
def commitBkt (reset : Bool) : Word := if reset then 5 else 1

def execPwiCommit (m : Nat) (s : State) : Out3 := needs (masterOk m) (busWrite m pwiCommitReg commitW s)
def execPwiDiscard (m : Nat) (s : State) : Out3 := needs (masterOk m) (busWrite m pwiCommitReg discardW s)
def execPwiCeilPendClear (m w : Nat) (v : Word) (s : State) : Out3 :=
  needs (masterOk m && decide (w < 3)) (busWrite m (pwiPend w) v s)

def glenOk (m g : Nat) : Bool := masterOk m && decide (g < 8)
def dieOk (m d : Nat) : Bool := masterOk m && decide (d < 2)
def execGlnBudgetCommit (m g : Nat) (s : State) : Out3 := needs (glenOk m g) (busWrite m (glnBudgetCommitReg g) commitW s)
def execGlnBudgetDiscard (m g : Nat) (s : State) : Out3 := needs (glenOk m g) (busWrite m (glnBudgetCommitReg g) discardW s)
def execEmtKeyCommit (m g : Nat) (s : State) : Out3 := needs (glenOk m g) (busWrite m (emtKeyCommit g) commitW s)
def execEmtKeyDiscard (m g : Nat) (s : State) : Out3 := needs (glenOk m g) (busWrite m (emtKeyCommit g) discardW s)
def execPolStgCommit (m g : Nat) (reset : Bool) (s : State) : Out3 :=
  needs (glenOk m g) (busWrite m (polCommitReg g) (commitBkt reset) s)
def execPolStgDiscard (m g : Nat) (s : State) : Out3 := needs (glenOk m g) (busWrite m (polCommitReg g) discardW s)
def execBpmLayoutCommit (m d : Nat) (s : State) : Out3 := needs (dieOk m d) (busWrite m (bpmLayoutCommitReg d) commitW s)
def execBpmLayoutDiscard (m d : Nat) (s : State) : Out3 := needs (dieOk m d) (busWrite m (bpmLayoutCommitReg d) discardW s)
def execBpmQuotaCommit (m d : Nat) (s : State) : Out3 := needs (dieOk m d) (busWrite m (bpmQuotaCommitReg d) commitW s)
def execBpmQuotaDiscard (m d : Nat) (s : State) : Out3 := needs (dieOk m d) (busWrite m (bpmQuotaCommitReg d) discardW s)
def execBpmBudgetCommit (m d : Nat) (s : State) : Out3 := needs (dieOk m d) (busWrite m (bpmBudgetCommitReg d) commitW s)
def execBpmBudgetDiscard (m d : Nat) (s : State) : Out3 := needs (dieOk m d) (busWrite m (bpmBudgetCommitReg d) discardW s)
def execSchBudgetCommit (m d : Nat) (s : State) : Out3 := needs (dieOk m d) (busWrite m (schBudgetCommitReg d) commitW s)
def execSchBudgetDiscard (m d : Nat) (s : State) : Out3 := needs (dieOk m d) (busWrite m (schBudgetCommitReg d) discardW s)
def execSchShpCommit (m d : Nat) (reset : Bool) (s : State) : Out3 :=
  needs (dieOk m d) (busWrite m (shpCommitReg d) (commitBkt reset) s)
def execSchShpDiscard (m d : Nat) (s : State) : Out3 := needs (dieOk m d) (busWrite m (shpCommitReg d) discardW s)
def execGatListCommit (m p : Nat) (s : State) : Out3 :=
  needs (masterOk m && decide (p < 256)) (busWrite m (gatCommit p) commitW s)
def execGatListDiscard (m p : Nat) (s : State) : Out3 :=
  needs (masterOk m && decide (p < 256)) (busWrite m (gatCommit p) discardW s)

/-! ### Seeds and rings -/

/-- The exact-match seed, or the register that holds ROT. -/
def execEmtHashWrite (m g : Nat) (seed : Bool) (v : Word) (s : State) : Out3 :=
  needs (glenOk m g) (busWrite m (if seed then emtSeed g else emtHashCfg g) v s)
def execStmHashSeedWrite (m g : Nat) (v : Word) (s : State) : Out3 := needs (glenOk m g) (busWrite m (stmSeed g) v s)
def execFreDupSeedWrite (m d : Nat) (v : Word) (s : State) : Out3 := needs (dieOk m d) (busWrite m (freDupSeed d) v s)

/-- A record ring with registers of its own. -/
def recordRing : RingName → Bool
  | .response _ => false
  | r => ringExists r
def execRingConsWrite (m : Nat) (ring : RingName) (v : Word) (s : State) : Out3 :=
  needs (masterOk m && recordRing ring) (busWrite m (ringBase ring + 0x10) v s)
/-- A write of a ring's configuration with EN set. -/
def execRingEnableWrite (m : Nat) (ring : RingName) (v : Word) (s : State) : Out3 :=
  needs (masterOk m && recordRing ring) (busWrite m (ringBase ring + 8) (setBit v 0 true) s)

/-! ### Network time -/

def execTimStepGo (m : Nat) (s : State) : Out3 := needs (masterOk m) (busWrite m (timStep + 8) 1 s)
def execTimRateAdjWrite (m : Nat) (v : Word) (s : State) : Out3 := needs (masterOk m) (busWrite m timRateAdj v s)
def execTimSrcSelect (m : Nat) (src : Bool) (s : State) : Out3 :=
  needs (masterOk m) (busWrite m timCfg (setBit (rd s timCfg) 20 src) s)

/-! ### Field outputs, cascade, col cells -/

def execFioFoForceEnWrite (m : Nat) (v : Word) (s : State) : Out3 := needs (masterOk m) (busWrite m fioForceEn v s)
def execFioFoForceValWrite (m : Nat) (v : Word) (s : State) : Out3 := needs (masterOk m) (busWrite m fioForceVal v s)
def execFoMismatchRearm (m j : Nat) (s : State) : Out3 :=
  needs (masterOk m && decide (j < 16)) (busWrite m fioFoStat (wd (2 ^ (16 + j))) s)
def execCasRoleWrite (m role : Nat) (s : State) : Out3 :=
  needs (masterOk m && decide (role < 4)) (busWrite m casCfg (setFld (rd s casCfg) 0 2 role) s)
def execCasAuthFailRearm (m : Nat) (s : State) : Out3 := needs (masterOk m) (busWrite m casStat 0x100 s)
/-- Through COL_CELL_STAT, or through the pending bit. -/
def execColStallStickyClear (m c : Nat) (pend : Bool) (s : State) : Out3 :=
  needs (masterOk m && decide (c < cellCount))
    (if pend then busWrite m (colStallPend (c / 32)) (wd (2 ^ (c % 32))) s else busWrite m (cellStat c) 0x100 s)
def execColOvfClear (m c : Nat) (pend : Bool) (s : State) : Out3 :=
  needs (masterOk m && decide (c < cellCount))
    (if pend then busWrite m (colOvfPend (c / 32)) (wd (2 ^ (c % 32))) s else busWrite m (cellStat c) 0x200 s)

/-! ### Microcode -/

def pipOk (m n : Nat) : Bool := masterOk m && decide (n < 34)
def execPrsBankSwitch (m n : Nat) (s : State) : Out3 := needs (pipOk m n) (busWrite m (engBank 0 n) 2 s)
def execRweBankSwitch (m n : Nat) (s : State) : Out3 := needs (pipOk m n) (busWrite m (engBank 1 n) 2 s)
def execPrsPatchAddrWrite (m n : Nat) (v : Word) (s : State) : Out3 := needs (pipOk m n) (busWrite m (engPatchAddr 0 n) v s)
def execPrsPatchDataWrite (m n : Nat) (v : Word) (s : State) : Out3 := needs (pipOk m n) (busWrite m (engPatchData 0 n 0) v s)
def execRwePatchAddrWrite (m n : Nat) (v : Word) (s : State) : Out3 := needs (pipOk m n) (busWrite m (engPatchAddr 1 n) v s)
def execRwePatchDataWrite (m n : Nat) (v : Word) (s : State) : Out3 := needs (pipOk m n) (busWrite m (engPatchData 1 n 0) v s)

/-! ### Captures, faults, identity -/

def execBpmCaptureRearm (m d : Nat) (s : State) : Out3 := needs (dieOk m d) (busWrite m (bpmBase d + 0x104) 0x80000000 s)
def execBuserrCaptureRearm (m : Nat) (s : State) : Out3 := needs (masterOk m) (busWrite m glbCapInfo 0x80000000 s)
def execFclStatusClear (m w : Nat) (v : Word) (s : State) : Out3 :=
  needs (masterOk m && decide (w < 4)) (busWrite m (fclStatus + 4 * w) v s)
def execFclFirstRearm (m : Nat) (s : State) : Out3 := needs (masterOk m) (busWrite m fclFirst 0x80000000 s)
def execFclLogPop (m : Nat) (s : State) : Out3 := needs (masterOk m) (busWrite m (fclBase + 0x84) 1 s)
def execFclLockSet (m : Nat) (s : State) : Out3 := needs (masterOk m) (busWrite m fclCfg (setBit (rd s fclCfg) 18 true) s)
def execPipCtlModeWrite (m n mode : Nat) (s : State) : Out3 :=
  needs (pipOk m n && decide (mode < 4)) (busWrite m (pipBase n) (wd mode) s)
def execOvfCaptureRearm (m p : Nat) (s : State) : Out3 :=
  needs (masterOk m && decide (p < 32)) (busWrite m (pmcOvf p 0x10) 0x80000000 s)
def execSecDbgReq (m : Nat) (s : State) : Out3 := needs (masterOk m) (busWrite m (secBase + 8) 1 s)

/-! ### Windows (R436) -/

/-- READ of window w; `bad` says that the row reads with bad parity twice (R36). -/
def execWinRead (m w : Nat) (bad : Bool) (s : State) : Out3 :=
  needs (masterOk m && decide (w < 4)) (busWriteWith m (winBase w + 8) 15 1 bad s)
def execWinWrite (m w : Nat) (s : State) : Out3 := needs (masterOk m && decide (w < 4)) (busWriteWith m (winBase w + 8) 15 2 false s)

/-! ### Mailboxes (R393, R394) -/

/-- The address at which a master finds an offset of a mailbox's page or areas: PF1 has MB1's page in its own BAR. -/
def mbPageAddr (m mb off : Nat) : Nat := if m = 2 ∧ mb = 1 then off else mbxReg mb off
def mbAreaAddr (m mb i : Nat) : Nat := if m = 2 ∧ mb = 1 then 0x2000 + 4 * i else mbxBase + 0x2000 + 0x2000 * mb + 4 * i
def mbOk (m mb : Nat) : Bool := masterOk m && decide (mb < 5)

def execMbxDoorbell (m mb : Nat) (s : State) : Out3 := needs (mbOk m mb) (busWrite m (mbPageAddr m mb mbxDoorbellOff) 1 s)
def execMbxCommandAreaWrite (m mb i : Nat) (v : Word) (s : State) : Out3 :=
  needs (mbOk m mb && decide (i < 1024)) (busWrite m (mbAreaAddr m mb i) v s)
/-- CMD_PROD written after the entries have been made visible in the ring. -/
def execMbxCmdProdWrite (m mb : Nat) (v : Word) (entries : List (List Word)) (s : State) : Out3 :=
  needs (mbOk m mb) (busWrite m (mbPageAddr m mb mbxCmdProdOff) v (if mb < 2 then hostEntries mb entries s else s))
def execMbxRspConsWrite (m mb : Nat) (v : Word) (s : State) : Out3 :=
  needs (mbOk m mb) (busWrite m (mbPageAddr m mb mbxRspConsOff) v s)
def execMbxRingEnWrite (m mb : Nat) (v : Word) (s : State) : Out3 :=
  needs (mbOk m mb) (busWrite m (mbPageAddr m mb mbxRingCfgOff) v s)

/-! ### Shadow log and parity (R406, R428, R429, R484) -/

/-- Orogiut firmware runs: it is up, past Primrose, and its clock runs. -/
def fwRuns (s : State) : Bool := fwUp s && fwStage s != 0 && !s.col.stopped.contains 35

/-- Firmware applies the log and reads back every configuration register of a block whose entries were lost. -/
def execShadowLogRecovery (s : State) : Out3 := .next (if fwRuns s then applyLog s else s)

/-- The checker visits a register and its staged copy; a pass that ends shows its duration. -/
def parityCheck (a : Nat) (pass : Option Nat) (s : State) : State :=
  let s1 := if s.bus.badPar.contains (physAddr s a) then parityFound a s else s
  let s2 := if s.bus.badStg.contains (physAddr s a) then raise srcCfgParity a 0 0 s1 else s1
  match pass with
  | some us => wrF glbParStat 0 16 (min us 65535) s2
  | none => s2
def execCfgParityCheck (a : Nat) (pass : Option Nat) (s : State) : Out3 := needs (protectedReg a) (parityCheck a pass s)

/-- What firmware restores: the shadow's value; for a register that is none of the shadow's, the value it holds. -/
def restoreValue (s : State) (a : Nat) : Word := if configReg a then shadowValue s a else tget (resetOf a) s.regs a

/-- Firmware's restore write of the oldest address queued: it stores only while the parity is still bad. -/
def restoreWrite (s : State) : State :=
  match s.bus.restoreQ with
  | [] => s
  | a :: rest =>
    let s1 := { s with bus := { s.bus with restoreQ := rest } }
    if s.bus.badPar.contains a then
      let s2 := { s1 with regs := tset (resetOf a) s1.regs a (restoreValue s a)
                          ports := { s1.ports with tuning := tset none s1.ports.tuning a none }
                          bus := { s1.bus with badPar := s1.bus.badPar.filter (fun x => x != a),
                                               restored := s1.bus.restored.filter (fun x => x.1 != a) ++ [(a, s.tim.cnt)] } }
      incSat glbParStat 16 16 s2
    else s1
def execCfgRestoreWrite (s : State) : Out3 := .next (if fwRuns s then restoreWrite s else s)

/-- 1 ms after a restore write that stored its value the register's parity is checked again. -/
def restoreVerify (a : Nat) (s : State) : State :=
  if s.bus.restored.any (fun x => x.1 == a && decide (x.2 + 10 ^ 6 ≤ s.tim.cnt)) then
    let s1 := { s with bus := { s.bus with restored := s.bus.restored.filter (fun x => x.1 != a) } }
    if s.bus.badPar.contains a then raise srcCfgRestoreFail a 7 (a / 65536) s1 else s1
  else s
def execCfgRestoreVerifyTimeout (a : Nat) (s : State) : Out3 := .next (restoreVerify a s)

/-! ### Clocks and resynchronisation (R62, R76, R77) -/

/-- The clock has been declared absent and not present again. -/
def declaredAbsent (s : State) (d : Nat) : Bool := if d = 38 then onOscillator s else s.col.stopped.contains d
def execClockAbsent (d : Nat) (s : State) : Out3 :=
  needs (decide (d < domCount)) (if d < domCount ∧ declaredAbsent s d = false then clockAbsent d s else s)

/-- A clock returns.  Network time is invalid after its domain's clock has been away; firmware takes what waited for its
own. -/
def clockBack (d periodPs : Nat) (s : State) : State :=
  let s1 := clockPresent d periodPs s
  if ¬s.col.stopped.contains d then s1
  else if d = 36 then fioResume (timeInvalid s1) else if d = 35 then runWaiting s1 else s1
def execClockPresent (d periodPs : Nat) (s : State) : Out3 :=
  needs (decide (d < domCount)) (if d < domCount then clockBack d periodPs s else s)

/-- Every frame that was arriving on a port group when its ingress cell was reset ends as errored (R77), but for those of the
ports `through`, whose last segment had passed the FIFO: the state does not hold a segment FIFO's words by frame. -/
def cutIngress (n : Nat) (through : List Nat) (s : State) : State :=
  s.path.pkts.foldl (fun t q => match q.2 with
    | some x => if pgOf x.port = n ∧ x.port ∉ through ∧ !x.complete then fcsResult q.1 false t else t
    | none => t) s

/-- Egress drops of a port (R77); no register or record of the spec shows them. -/
abbrev pcEgressDrop : Nat := 40
/-- Every frame that was leaving a port group when its egress cell was reset is dropped, and counted as an egress drop of
its port, but for those of the ports `through`. -/
def cutEgress (n : Nat) (through : List Nat) (s : State) : State :=
  s.path.copies.foldl (fun t q => match q.2 with
    | some y =>
      if pgOf y.port = n ∧ y.port ∉ through ∧ (y.phase = .launched ∨ y.phase = .ready) then bumpPort y.port pcEgressDrop 1 (discardCopy q.1 6 t)
      else t
    | none => t) s

/-- A cell resynchronises; a segment FIFO of a port group cuts the frames that were passing through it. -/
def cellResynced (c : Nat) (through : List Nat) (s : State) : State :=
  if !canResync s c then s
  else
    let s1 := resync c s
    if 128 ≤ c then s1
    else if c % 4 = 0 ∧ (cellOf s c).sync = 1 then cutIngress (c / 4) through s1
    else if c % 4 = 1 ∧ (cellOf s c).sync = 2 then cutEgress (c / 4) through s1
    else s1
def execColResyncComplete (c : Nat) (through : List Nat) (s : State) : Out3 :=
  needs (decide (c < cellCount)) (if c < cellCount then cellResynced c through s else s)

/-! ### The budget period (R27, R29, R31) -/

/-- The registers of a budget group. -/
def budgetGroup (a : Nat) : Bool :=
  (List.range 8).any (fun g => glnBudgetGroup g a) || (List.range 2).any (fun d => plainBudgetGroup d a || schBudgetGroup d a)

/-- Slots that an operation has taken beyond its activity's budget are taken from the following periods (R31). -/
def carryOver (s : State) : Sparse Nat :=
  s.bud.used.foldl (fun m q =>
    let a := q.1 % 8
    let left := if a = actScan then 0 else q.2 - budgetOf s (q.1 / 8) a
    tset 0 m q.1 left) s.bud.used

/-- The 1,024 cycles of the 1 GHz count under way (R28), and a boundary that is due: one has passed since the last. -/
def periodNow (s : State) : Nat := s.tim.cnt / 1024
def periodDue (s : State) : Bool := !s.col.stopped.contains 36 && decide (s.bud.last < periodNow s)

/-- A period begins: armed budgets take effect, slots are granted anew, what waits for them gets its own. -/
def periodBoundary (s : State) : State :=
  let s1 := { s with bud := { s.bud with used := carryOver s, periods := s.bud.periods + 1, last := periodNow s } }
  memPeriod 1 (memPeriod 0 (winServe (enqPeriod 1 (enqPeriod 0 (applyArmed budgetGroup s1)))))
def periodService (s : State) : State := if periodDue s then periodBoundary s else s
def execBudgetPeriodBoundary (s : State) : Out3 := .next (periodService s)

end Sys2Proof.Machine
end

