-- ==== Sys2Proof/Machine/Electrical.lean ====
section
/-! DEFINITION. Host, SMBus and TAP (R422, R545 to R548): read requests of the host, SMBus register access, the alert
response, REGACC, and PCIE_PERST_N. -/

namespace Sys2Proof.Machine
open Sys2Proof

/-! ### PCIe (R422, R545) -/

/-- A memory read of the host through function fn (0 or 1): every dword is checked before any is read; more than 32 are
answered with Unsupported Request. -/
def readRequest (fn addr count : Nat) (s : State) : State :=
  let m := 1 + fn
  let l := (List.range count).map (fun i => addr + 4 * i)
  if 32 < count then answer m ⟨false, []⟩ s
  else match firstError s m l with
    | some (a, r) => answer m ⟨false, []⟩ (busError m a false r s)
    | none => let q := readDwords m l s; answer m ⟨true, q.1⟩ q.2
def execPcieReadRequest (fn addr count : Nat) (s : State) : Out3 :=
  needs (decide (fn < 2) && decide (1 ≤ count) && decide (addr % 4 = 0) && decide (addr + 4 * count ≤ 2 ^ 32))
    (readRequest fn addr count s)

/-- PCIE_PERST_N resets the endpoint and domain 32 only; on its release the cells resynchronise (R75 to R79). -/
def perst (low : Bool) (s : State) : State :=
  if low then
    if s.start.perst then s
    else
      let s1 := domainReset 32 s
      { s1 with start := { s1.start with perst := true }, bus := { s1.bus with aerAbort := false } }
  else if s.start.perst then
    let s1 := domainReleased 32 s
    { s1 with start := { s1.start with perst := false } }
  else s
def execPciePerst (low : Bool) (s : State) : Out3 := .next (perst low s)

/-! ### SMBus (R546, R547) -/

/-- The SMBus interface answers from VIN good onwards. -/
def smbOn (s : State) : Bool := s.start.rails

def smbAddrOk (a : Nat) : Bool := decide (a % 4 = 0) && decide (a ≤ 0x03FFFFFC)

/-- The status of the board controller's last access: 0 done, 1 bus error. -/
def smbResult (s : State) : Nat :=
  match tget none s.bus.done 3 with
  | some c => if c.ok then 0 else 1
  | none => 0

/-- REG_WRITE: a dword written as master 3. -/
def smbWrite (a : Nat) (v : Word) (s : State) : State :=
  let s1 := busWrite 3 a v s
  { s1 with bus := { s1.bus with smbStatus := smbResult s1 } }
def execSmbRegWrite (addr : Nat) (value : Word) (s : State) : Out3 :=
  needs (smbAddrOk addr) (if smbOn s then smbWrite addr value s else s)
def execSmbRegAddr (addr : Nat) (s : State) : Out3 :=
  needs (smbAddrOk addr) (if smbOn s then { s with bus := { s.bus with smbAddr := some (wd addr) } } else s)

/-- A block read given to the board controller. -/
def smbGive (bytes : List Nat) (s : State) : State :=
  emit (.smbBytes bytes) { s with bus := { s.bus with smbRead := bytes } }
def leBytes4 (w : Word) : List Nat := (List.range 4).map (fun i => fld w (8 * i) 8)

/-- REG_READ: status and data of the dword at the address set; 0x03 while none has been set since VIN good. -/
def smbReadReg (s : State) : State :=
  match s.bus.smbAddr with
  | none => smbGive [3, 0, 0, 0, 0] s
  | some a =>
    let s1 := busRead 3 a.toNat s
    let w := match tget none s1.bus.done 3 with
      | some c => c.words.getD 0 0
      | none => 0
    smbGive (smbResult s1 :: leBytes4 w) s1
def execSmbRegRead (s : State) : Out3 := .next (if smbOn s then smbReadReg s else s)
def execSmbRegStatus (s : State) : Out3 := .next (if smbOn s then smbGive [s.bus.smbStatus] s else s)

/-- SMB_ALERT_N is asserted: a first error is captured whose REACT is 1 or more. -/
def smbAlert (s : State) : Bool := rdBit s fclFirst 31 && decide (1 ≤ rdF s fclFirst 11 3)

/-- The module's SMBus address, 0x60 + the SMB_ADDR strap; the alert response carries it in its upper seven bits. -/
def smbAddress (s : State) : Nat := 0x60 + rdF s glbStraps 8 3
def execSmbAlertResponse (s : State) : Out3 :=
  .next (if smbOn s && smbAlert s then smbGive [2 * smbAddress s] s else s)

/-- The clock held low for 25 ms ends the transaction. -/
def execSmbusClockLowTimeout (s : State) : Out3 := .next (if smbOn s then raise srcSmbErr 0 0 0 s else s)

/-! ### The TAP (R548) -/

/-- REGACC at Update-DR with GO: the access is made as master 4; the next capture shows its data, DONE and BUSERR. -/
def regacc (a : Nat) (write : Bool) (v : Word) (s : State) : State :=
  let s1 := if write then busWrite 4 a v s else busRead 4 a s
  match tget none s1.bus.done 4 with
  | some c => { s1 with bus := { s1.bus with
      tapData := if write then s1.bus.tapData else c.words.getD 0 0, tapStatus := if c.ok then 1 else 3 } }
  | none => s1
def execRegaccUpdate (addr : Nat) (write : Bool) (value : Word) (s : State) : Out3 :=
  needs (decide (addr % 4 = 0) && decide (addr < 2 ^ 26)) (regacc addr write value s)

end Sys2Proof.Machine
end

