-- ==== Sys2Proof/Machine/Dispatch.lean ====
section
/-! DEFINITION. `exec`: one arm per command, each one call of the command's meaning. -/

namespace Sys2Proof.Machine
open Sys2Proof

/-- A command's effect on everything but the queue. -/
def exec (i : Instr) (s : State) : Host.Outcome State Fault Refusal :=
  match i with
  | .hello f => Sys2Proof.Machine.execHello f s
  | .engineInfo f => Sys2Proof.Machine.execEngineInfo f s
  | .cmdStatus f => Sys2Proof.Machine.execCmdStatus f s
  | .xferWrite f => Sys2Proof.Machine.execXferWrite f s
  | .sessionList f => Sys2Proof.Machine.execSessionList f s
  | .shadowInfo f => Sys2Proof.Machine.execShadowInfo f s
  | .shadowDigest f => Sys2Proof.Machine.execShadowDigest f s
  | .nop f => Sys2Proof.Machine.execNop f s
  | .portCreate f => Sys2Proof.Machine.execPortCreate f s
  | .portDelete f => Sys2Proof.Machine.execPortDelete f s
  | .portAdmin f => Sys2Proof.Machine.execPortAdmin f s
  | .portStatus f => Sys2Proof.Machine.execPortStatus f s
  | .mcastGroupSet f => Sys2Proof.Machine.execMcastGroupSet f s
  | .mcastGroupRead f => Sys2Proof.Machine.execMcastGroupRead f s
  | .mirrorCfg f => Sys2Proof.Machine.execMirrorCfg f s
  | .emTableCfg f => Sys2Proof.Machine.execEmTableCfg f s
  | .emKeyLayout f => Sys2Proof.Machine.execEmKeyLayout f s
  | .emPortCfg f => Sys2Proof.Machine.execEmPortCfg f s
  | .tblInsert f => Sys2Proof.Machine.execTblInsert f s
  | .tblDelete f => Sys2Proof.Machine.execTblDelete f s
  | .tblLookup f => Sys2Proof.Machine.execTblLookup f s
  | .tblFlush f => Sys2Proof.Machine.execTblFlush f s
  | .tblBulkInsert f => Sys2Proof.Machine.execTblBulkInsert f s
  | .tblIterate f => Sys2Proof.Machine.execTblIterate f s
  | .learnRingCfg f => Sys2Proof.Machine.execLearnRingCfg f s
  | .learnPolicy f => Sys2Proof.Machine.execLearnPolicy f s
  | .ageCfg f => Sys2Proof.Machine.execAgeCfg f s
  | .glenBudgetSet f => Sys2Proof.Machine.execGlenBudgetSet f s
  | .tblCapacity f => Sys2Proof.Machine.execTblCapacity f s
  | .lpmKeyLayout f => Sys2Proof.Machine.execLpmKeyLayout f s
  | .lpmPortVrf f => Sys2Proof.Machine.execLpmPortVrf f s
  | .routeAdd f => Sys2Proof.Machine.execRouteAdd f s
  | .routeDelete f => Sys2Proof.Machine.execRouteDelete f s
  | .routeLookup f => Sys2Proof.Machine.execRouteLookup f s
  | .routeBulk f => Sys2Proof.Machine.execRouteBulk f s
  | .nexthopSet f => Sys2Proof.Machine.execNexthopSet f s
  | .routeCapacity f => Sys2Proof.Machine.execRouteCapacity f s
  | .tcamKeyLayout f => Sys2Proof.Machine.execTcamKeyLayout f s
  | .tcamRuleWrite f => Sys2Proof.Machine.execTcamRuleWrite f s
  | .tcamRuleDelete f => Sys2Proof.Machine.execTcamRuleDelete f s
  | .tcamRuleReplace f => Sys2Proof.Machine.execTcamRuleReplace f s
  | .tcamActionSet f => Sys2Proof.Machine.execTcamActionSet f s
  | .tcamRuleRead f => Sys2Proof.Machine.execTcamRuleRead f s
  | .tcamSearch f => Sys2Proof.Machine.execTcamSearch f s
  | .tcamScrubCfg f => Sys2Proof.Machine.execTcamScrubCfg f s
  | .streamKeyLayout f => Sys2Proof.Machine.execStreamKeyLayout f s
  | .streamIdAdd f => Sys2Proof.Machine.execStreamIdAdd f s
  | .streamIdDelete f => Sys2Proof.Machine.execStreamIdDelete f s
  | .streamCtxSet f => Sys2Proof.Machine.execStreamCtxSet f s
  | .streamCtxRead f => Sys2Proof.Machine.execStreamCtxRead f s
  | .streamUnblock f => Sys2Proof.Machine.execStreamUnblock f s
  | .streamGateSet f => Sys2Proof.Machine.execStreamGateSet f s
  | .streamCapacity f => Sys2Proof.Machine.execStreamCapacity f s
  | .meterSet f => Sys2Proof.Machine.execMeterSet f s
  | .meterRead f => Sys2Proof.Machine.execMeterRead f s
  | .tenantPolicerMap f => Sys2Proof.Machine.execTenantPolicerMap f s
  | .colourMapSet f => Sys2Proof.Machine.execColourMapSet f s
  | .histEdgesSet f => Sys2Proof.Machine.execHistEdgesSet f s
  | .histRead f => Sys2Proof.Machine.execHistRead f s
  | .bpmPoolLayout f => Sys2Proof.Machine.execBpmPoolLayout f s
  | .bpmQuotaSet f => Sys2Proof.Machine.execBpmQuotaSet f s
  | .bpmStatus f => Sys2Proof.Machine.execBpmStatus f s
  | .bpmBudgetSet f => Sys2Proof.Machine.execBpmBudgetSet f s
  | .bpmYellowKeep f => Sys2Proof.Machine.execBpmYellowKeep f s
  | .bpmAudit f => Sys2Proof.Machine.execBpmAudit f s
  | .bpmCapacity f => Sys2Proof.Machine.execBpmCapacity f s
  | .schPortSet f => Sys2Proof.Machine.execSchPortSet f s
  | .schNodeSet f => Sys2Proof.Machine.execSchNodeSet f s
  | .schTenantMap f => Sys2Proof.Machine.execSchTenantMap f s
  | .schQueueSet f => Sys2Proof.Machine.execSchQueueSet f s
  | .shaperSet f => Sys2Proof.Machine.execShaperSet f s
  | .shaperRead f => Sys2Proof.Machine.execShaperRead f s
  | .schQueueRead f => Sys2Proof.Machine.execSchQueueRead f s
  | .schSampleCfg f => Sys2Proof.Machine.execSchSampleCfg f s
  | .schBudgetSet f => Sys2Proof.Machine.execSchBudgetSet f s
  | .schNodeRehome f => Sys2Proof.Machine.execSchNodeRehome f s
  | .schCapacity f => Sys2Proof.Machine.execSchCapacity f s
  | .schQueueFlush f => Sys2Proof.Machine.execSchQueueFlush f s
  | .timeGet f => Sys2Proof.Machine.execTimeGet f s
  | .timeSet f => Sys2Proof.Machine.execTimeSet f s
  | .timeStep f => Sys2Proof.Machine.execTimeStep f s
  | .timeSlew f => Sys2Proof.Machine.execTimeSlew f s
  | .timeSource f => Sys2Proof.Machine.execTimeSource f s
  | .timePpsCfg f => Sys2Proof.Machine.execTimePpsCfg f s
  | .timePortAdj f => Sys2Proof.Machine.execTimePortAdj f s
  | .ptpInstanceSet f => Sys2Proof.Machine.execPtpInstanceSet f s
  | .gateListSet f => Sys2Proof.Machine.execGateListSet f s
  | .gateListRead f => Sys2Proof.Machine.execGateListRead f s
  | .gatePortCfg f => Sys2Proof.Machine.execGatePortCfg f s
  | .gateListDiscard f => Sys2Proof.Machine.execGateListDiscard f s
  | .frePortCfg f => Sys2Proof.Machine.execFrePortCfg f s
  | .freHandleMap f => Sys2Proof.Machine.execFreHandleMap f s
  | .freGenSet f => Sys2Proof.Machine.execFreGenSet f s
  | .freRcvSet f => Sys2Proof.Machine.execFreRcvSet f s
  | .freRcvRead f => Sys2Proof.Machine.execFreRcvRead f s
  | .freRcvReset f => Sys2Proof.Machine.execFreRcvReset f s
  | .freDupCfg f => Sys2Proof.Machine.execFreDupCfg f s
  | .freDupStatus f => Sys2Proof.Machine.execFreDupStatus f s
  | .ucodePatchLoad f => Sys2Proof.Machine.execUcodePatchLoad f s
  | .ucodePatchSwitch f => Sys2Proof.Machine.execUcodePatchSwitch f s
  | .ucodePatchRevert f => Sys2Proof.Machine.execUcodePatchRevert f s
  | .ucodeQuery f => Sys2Proof.Machine.execUcodeQuery f s
  | .portParseProfile f => Sys2Proof.Machine.execPortParseProfile f s
  | .rwePortProfile f => Sys2Proof.Machine.execRwePortProfile f s
  | .fiCfg f => Sys2Proof.Machine.execFiCfg f s
  | .fiRead f => Sys2Proof.Machine.execFiRead f s
  | .fioPubSet f => Sys2Proof.Machine.execFioPubSet f s
  | .fioGooseTemplate f => Sys2Proof.Machine.execFioGooseTemplate f s
  | .fioEventRingCfg f => Sys2Proof.Machine.execFioEventRingCfg f s
  | .fioUtcOffset f => Sys2Proof.Machine.execFioUtcOffset f s
  | .foCfg f => Sys2Proof.Machine.execFoCfg f s
  | .foForce f => Sys2Proof.Machine.execFoForce f s
  | .foTimeEvent f => Sys2Proof.Machine.execFoTimeEvent f s
  | .foRelease f => Sys2Proof.Machine.execFoRelease f s
  | .foRead f => Sys2Proof.Machine.execFoRead f s
  | .casRoleSet f => Sys2Proof.Machine.execCasRoleSet f s
  | .casDeviceId f => Sys2Proof.Machine.execCasDeviceId f s
  | .casPortCfg f => Sys2Proof.Machine.execCasPortCfg f s
  | .casBudgetSet f => Sys2Proof.Machine.execCasBudgetSet f s
  | .casRelayCfg f => Sys2Proof.Machine.execCasRelayCfg f s
  | .casJoinCfg f => Sys2Proof.Machine.execCasJoinCfg f s
  | .casLeave f => Sys2Proof.Machine.execCasLeave f s
  | .casSessionRead f => Sys2Proof.Machine.execCasSessionRead f s
  | .casForward f => Sys2Proof.Machine.execCasForward f s
  | .casWorkerList f => Sys2Proof.Machine.execCasWorkerList f s
  | .faultStatus f => Sys2Proof.Machine.execFaultStatus f s
  | .faultLog f => Sys2Proof.Machine.execFaultLog f s
  | .faultAck f => Sys2Proof.Machine.execFaultAck f s
  | .faultSrcCfg f => Sys2Proof.Machine.execFaultSrcCfg f s
  | .faultWindow f => Sys2Proof.Machine.execFaultWindow f s
  | .unitDrain f => Sys2Proof.Machine.execUnitDrain f s
  | .unitTest f => Sys2Proof.Machine.execUnitTest f s
  | .unitReturn f => Sys2Proof.Machine.execUnitReturn f s
  | .unitStatus f => Sys2Proof.Machine.execUnitStatus f s
  | .rehome f => Sys2Proof.Machine.execRehome f s
  | .faultInject f => Sys2Proof.Machine.execFaultInject f s
  | .faultLock f => Sys2Proof.Machine.execFaultLock f s
  | .dumpSetCfg f => Sys2Proof.Machine.execDumpSetCfg f s
  | .dumpRingCfg f => Sys2Proof.Machine.execDumpRingCfg f s
  | .dumpNow f => Sys2Proof.Machine.execDumpNow f s
  | .dumpRead f => Sys2Proof.Machine.execDumpRead f s
  | .counterRead f => Sys2Proof.Machine.execCounterRead f s
  | .sampleRingCfg f => Sys2Proof.Machine.execSampleRingCfg f s
  | .pktSampleCfg f => Sys2Proof.Machine.execPktSampleCfg f s
  | .ovfSampleCfg f => Sys2Proof.Machine.execOvfSampleCfg f s
  | .slotRead f => Sys2Proof.Machine.execSlotRead f s
  | .startStatus f => Sys2Proof.Machine.execStartStatus f s
  | .fwRestart f => Sys2Proof.Machine.execFwRestart f s
  | .fwBoot f => Sys2Proof.Machine.execFwBoot f s
  | .fwImageWrite f => Sys2Proof.Machine.execFwImageWrite f s
  | .fwSlotSelect f => Sys2Proof.Machine.execFwSlotSelect f s
  | .primroseHandover f => Sys2Proof.Machine.execPrimroseHandover f s
  | .startRetry f => Sys2Proof.Machine.execStartRetry f s
  | .idCertRead f => Sys2Proof.Machine.execIdCertRead f s
  | .measurementRead f => Sys2Proof.Machine.execMeasurementRead f s
  | .ownerCertSet f => Sys2Proof.Machine.execOwnerCertSet f s
  | .ownerCertClear f => Sys2Proof.Machine.execOwnerCertClear f s
  | .svnCommit f => Sys2Proof.Machine.execSvnCommit f s
  | .spdmMsg f => Sys2Proof.Machine.execSpdmMsg f s
  | .debugUnlock f => Sys2Proof.Machine.execDebugUnlock f s
  | .debugLock f => Sys2Proof.Machine.execDebugLock f s
  | .debugPolicy f => Sys2Proof.Machine.execDebugPolicy f s
  | .islCfgSet f => Sys2Proof.Machine.execIslCfgSet f s
  | .islStatus f => Sys2Proof.Machine.execIslStatus f s
  | .islCeilTime f => Sys2Proof.Machine.execIslCeilTime f s
  | .islLoopTiming f => Sys2Proof.Machine.execIslLoopTiming f s
  | .islCeilRearm f => Sys2Proof.Machine.execIslCeilRearm f s
  | .colStallCfg f => Sys2Proof.Machine.execColStallCfg f s
  | .colStatus f => Sys2Proof.Machine.execColStatus f s
  | .colRearm f => Sys2Proof.Machine.execColRearm f s
  | .smbRegWrite addr value => Sys2Proof.Machine.execSmbRegWrite addr value s
  | .smbRegAddr addr => Sys2Proof.Machine.execSmbRegAddr addr s
  | .smbRegRead => Sys2Proof.Machine.execSmbRegRead s
  | .smbRegStatus => Sys2Proof.Machine.execSmbRegStatus s
  | .smbAlertResponse => Sys2Proof.Machine.execSmbAlertResponse s
  | .regaccUpdate addr write value => Sys2Proof.Machine.execRegaccUpdate addr write value s
  | .spdmDoeRequest words => Sys2Proof.Machine.execSpdmDoeRequest words s
  | .pcieReadRequest fn addr count => Sys2Proof.Machine.execPcieReadRequest fn addr count s
  | .registerWrite m a be v => Sys2Proof.Machine.execRegisterWrite m a be v s
  | .stagedRegisterWrite m a v => Sys2Proof.Machine.execStagedRegisterWrite m a v s
  | .cfgUncommittedTimeout commit => Sys2Proof.Machine.execCfgUncommittedTimeout commit s
  | .counterLoRead m a => Sys2Proof.Machine.execCounterLoRead m a s
  | .timReadFrac m => Sys2Proof.Machine.execTimReadFrac m s
  | .pwiIslPeakRead m isl => Sys2Proof.Machine.execPwiIslPeakRead m isl s
  | .pwiCommit m => Sys2Proof.Machine.execPwiCommit m s
  | .pwiDiscard m => Sys2Proof.Machine.execPwiDiscard m s
  | .pwiCeilPendClear m w v => Sys2Proof.Machine.execPwiCeilPendClear m w v s
  | .glnBudgetCommit m g => Sys2Proof.Machine.execGlnBudgetCommit m g s
  | .glnBudgetDiscard m g => Sys2Proof.Machine.execGlnBudgetDiscard m g s
  | .emtKeyCommit m g => Sys2Proof.Machine.execEmtKeyCommit m g s
  | .emtKeyDiscard m g => Sys2Proof.Machine.execEmtKeyDiscard m g s
  | .emtHashWrite m g seed v => Sys2Proof.Machine.execEmtHashWrite m g seed v s
  | .stmHashSeedWrite m g v => Sys2Proof.Machine.execStmHashSeedWrite m g v s
  | .freDupSeedWrite m d v => Sys2Proof.Machine.execFreDupSeedWrite m d v s
  | .ringConsWrite m ring v => Sys2Proof.Machine.execRingConsWrite m ring v s
  | .ringEnableWrite m ring v => Sys2Proof.Machine.execRingEnableWrite m ring v s
  | .polStgCommit m g reset => Sys2Proof.Machine.execPolStgCommit m g reset s
  | .polStgDiscard m g => Sys2Proof.Machine.execPolStgDiscard m g s
  | .bpmLayoutCommit m d => Sys2Proof.Machine.execBpmLayoutCommit m d s
  | .bpmLayoutDiscard m d => Sys2Proof.Machine.execBpmLayoutDiscard m d s
  | .bpmQuotaCommit m d => Sys2Proof.Machine.execBpmQuotaCommit m d s
  | .bpmQuotaDiscard m d => Sys2Proof.Machine.execBpmQuotaDiscard m d s
  | .bpmBudgetCommit m d => Sys2Proof.Machine.execBpmBudgetCommit m d s
  | .bpmBudgetDiscard m d => Sys2Proof.Machine.execBpmBudgetDiscard m d s
  | .bpmCaptureRearm m d => Sys2Proof.Machine.execBpmCaptureRearm m d s
  | .schBudgetCommit m d => Sys2Proof.Machine.execSchBudgetCommit m d s
  | .schBudgetDiscard m d => Sys2Proof.Machine.execSchBudgetDiscard m d s
  | .schShpCommit m d reset => Sys2Proof.Machine.execSchShpCommit m d reset s
  | .schShpDiscard m d => Sys2Proof.Machine.execSchShpDiscard m d s
  | .shaperCommitEffect d => Sys2Proof.Machine.execShaperCommitEffect d s
  | .gatListCommit m p => Sys2Proof.Machine.execGatListCommit m p s
  | .gatListDiscard m p => Sys2Proof.Machine.execGatListDiscard m p s
  | .timStepGo m => Sys2Proof.Machine.execTimStepGo m s
  | .timRateAdjWrite m v => Sys2Proof.Machine.execTimRateAdjWrite m v s
  | .timSrcSelect m src => Sys2Proof.Machine.execTimSrcSelect m src s
  | .fioFoForceEnWrite m v => Sys2Proof.Machine.execFioFoForceEnWrite m v s
  | .fioFoForceValWrite m v => Sys2Proof.Machine.execFioFoForceValWrite m v s
  | .foMismatchRearm m j => Sys2Proof.Machine.execFoMismatchRearm m j s
  | .casRoleWrite m role => Sys2Proof.Machine.execCasRoleWrite m role s
  | .casAuthFailRearm m => Sys2Proof.Machine.execCasAuthFailRearm m s
  | .colStallStickyClear m c pend => Sys2Proof.Machine.execColStallStickyClear m c pend s
  | .colOvfClear m c pend => Sys2Proof.Machine.execColOvfClear m c pend s
  | .prsBankSwitch m n => Sys2Proof.Machine.execPrsBankSwitch m n s
  | .rweBankSwitch m n => Sys2Proof.Machine.execRweBankSwitch m n s
  | .prsPatchAddrWrite m n v => Sys2Proof.Machine.execPrsPatchAddrWrite m n v s
  | .prsPatchDataWrite m n v => Sys2Proof.Machine.execPrsPatchDataWrite m n v s
  | .rwePatchAddrWrite m n v => Sys2Proof.Machine.execRwePatchAddrWrite m n v s
  | .rwePatchDataWrite m n v => Sys2Proof.Machine.execRwePatchDataWrite m n v s
  | .buserrCaptureRearm m => Sys2Proof.Machine.execBuserrCaptureRearm m s
  | .fclStatusClear m w v => Sys2Proof.Machine.execFclStatusClear m w v s
  | .fclFirstRearm m => Sys2Proof.Machine.execFclFirstRearm m s
  | .fclLogPop m => Sys2Proof.Machine.execFclLogPop m s
  | .fclLockSet m => Sys2Proof.Machine.execFclLockSet m s
  | .pipCtlModeWrite m n mode => Sys2Proof.Machine.execPipCtlModeWrite m n mode s
  | .ovfCaptureRearm m p => Sys2Proof.Machine.execOvfCaptureRearm m p s
  | .secDbgReq m => Sys2Proof.Machine.execSecDbgReq m s
  | .winRead m w bad => Sys2Proof.Machine.execWinRead m w bad s
  | .winWrite m w => Sys2Proof.Machine.execWinWrite m w s
  | .mbxDoorbell m mb => Sys2Proof.Machine.execMbxDoorbell m mb s
  | .mbxCommandAreaWrite m mb w v => Sys2Proof.Machine.execMbxCommandAreaWrite m mb w v s
  | .mbxCmdProdWrite m mb v entries => Sys2Proof.Machine.execMbxCmdProdWrite m mb v entries s
  | .mbxRspConsWrite m mb v => Sys2Proof.Machine.execMbxRspConsWrite m mb v s
  | .mbxRingEnWrite m mb v => Sys2Proof.Machine.execMbxRingEnWrite m mb v s
  | .pendingElementComplete g m => Sys2Proof.Machine.execPendingElementComplete g m s
  | .shadowLogRecovery => Sys2Proof.Machine.execShadowLogRecovery s
  | .cfgParityCheck a pass => Sys2Proof.Machine.execCfgParityCheck a pass s
  | .cfgRestoreWrite => Sys2Proof.Machine.execCfgRestoreWrite s
  | .cfgRestoreVerifyTimeout a => Sys2Proof.Machine.execCfgRestoreVerifyTimeout a s
  | .clockAbsent d => Sys2Proof.Machine.execClockAbsent d s
  | .clockPresent d periodPs => Sys2Proof.Machine.execClockPresent d periodPs s
  | .sysclkSwitchback => Sys2Proof.Machine.execSysclkSwitchback s
  | .colTransferStart c value => Sys2Proof.Machine.execColTransferStart c value s
  | .colCapture c => Sys2Proof.Machine.execColCapture c s
  | .colAckSeen c => Sys2Proof.Machine.execColAckSeen c s
  | .colFifoWrite c word => Sys2Proof.Machine.execColFifoWrite c word s
  | .colFifoRead c => Sys2Proof.Machine.execColFifoRead c s
  | .pulseArrival c => Sys2Proof.Machine.execPulseArrival c s
  | .colStallWatchdog c => Sys2Proof.Machine.execColStallWatchdog c s
  | .colPartnerReset c ofSource => Sys2Proof.Machine.execColPartnerReset c ofSource s
  | .colResyncComplete c through => Sys2Proof.Machine.execColResyncComplete c through s
  | .ratioWindowEnd n arrivals stepPs milliVolts => Sys2Proof.Machine.execRatioWindowEnd n arrivals stepPs milliVolts s
  | .islandEvaluation n occupancy steps => Sys2Proof.Machine.execIslandEvaluation n occupancy steps s
  | .islCeilingExpiry n => Sys2Proof.Machine.execIslCeilingExpiry n s
  | .budgetPeriodBoundary => Sys2Proof.Machine.execBudgetPeriodBoundary s
  | .frameIngress p got bytes => Sys2Proof.Machine.execFrameIngress p got bytes s
  | .primroseFrame p bytes good => Sys2Proof.Machine.execPrimroseFrame p bytes good s
  | .parseContextTake n => Sys2Proof.Machine.execParseContextTake n s
  | .parseStep k got bad => Sys2Proof.Machine.execParseStep k got bad s
  | .glenLookup k bad => Sys2Proof.Machine.execGlenLookup k bad s
  | .filterStage k bad => Sys2Proof.Machine.execFilterStage k bad s
  | .frameFcsResult k good => Sys2Proof.Machine.execFrameFcsResult k good s
  | .admission k d bad => Sys2Proof.Machine.execAdmission k d bad s
  | .enqueue c => Sys2Proof.Machine.execEnqueue c s
  | .portDecision p bad => Sys2Proof.Machine.execPortDecision p bad s
  | .rewriteContextTake c => Sys2Proof.Machine.execRewriteContextTake c s
  | .rewriteStep c bad => Sys2Proof.Machine.execRewriteStep c bad s
  | .launchTime c => Sys2Proof.Machine.execLaunchTime c s
  | .egressTransmit c bad => Sys2Proof.Machine.execEgressTransmit c bad s
  | .bpmRelease d req owner ptr bad => Sys2Proof.Machine.execBpmRelease d req owner ptr bad s
  | .bpmTransfer d req old new ptr bad => Sys2Proof.Machine.execBpmTransfer d req old new ptr bad s
  | .spillCopy c => Sys2Proof.Machine.execSpillCopy c s
  | .spillReturn c bad => Sys2Proof.Machine.execSpillReturn c bad s
  | .linkDown p => Sys2Proof.Machine.execLinkDown p s
  | .linkUp p => Sys2Proof.Machine.execLinkUp p s
  | .preemptVerifyDone p good => Sys2Proof.Machine.execPreemptVerifyDone p good s
  | .channelWordRefusal w n => Sys2Proof.Machine.execChannelWordRefusal w n s
  | .saddleLaneRealign d words => Sys2Proof.Machine.execSaddleLaneRealign d words s
  | .saddleMgmtWatchdog => Sys2Proof.Machine.execSaddleMgmtWatchdog s
  | .glenUpdateOperation g m verifyFails => Sys2Proof.Machine.execGlenUpdateOperation g m verifyFails s
  | .promotion g verifyFails => Sys2Proof.Machine.execPromotion g verifyFails s
  | .learnNotifyService x => Sys2Proof.Machine.execLearnNotifyService x s
  | .ageRefresh g => Sys2Proof.Machine.execAgeRefresh g s
  | .ageTick g => Sys2Proof.Machine.execAgeTick g s
  | .ageScanBucket x => Sys2Proof.Machine.execAgeScanBucket x s
  | .ringIrqModeration ring => Sys2Proof.Machine.execRingIrqModeration ring s
  | .learnReplicate g => Sys2Proof.Machine.execLearnReplicate g s
  | .prefixUpdateOperation g m badRow => Sys2Proof.Machine.execPrefixUpdateOperation g m badRow s
  | .pivotScrub g n => Sys2Proof.Machine.execPivotScrub g n s
  | .wideRuleScrub g n => Sys2Proof.Machine.execWideRuleScrub g n s
  | .wideRuleRestore g n => Sys2Proof.Machine.execWideRuleRestore g n s
  | .narrowRuleScrub g n => Sys2Proof.Machine.execNarrowRuleScrub g n s
  | .streamMgmtRequest d => Sys2Proof.Machine.execStreamMgmtRequest d s
  | .streamGateSwitch g n => Sys2Proof.Machine.execStreamGateSwitch g n s
  | .meterSweep g n => Sys2Proof.Machine.execMeterSweep g n s
  | .shaperSweep d level n => Sys2Proof.Machine.execShaperSweep d level n s
  | .sampleBoundary d g => Sys2Proof.Machine.execSampleBoundary d g s
  | .sampleMemberRead d g => Sys2Proof.Machine.execSampleMemberRead d g s
  | .pllRelockDone => Sys2Proof.Machine.execPllRelockDone s
  | .timeSrcLoss => Sys2Proof.Machine.execTimeSrcLoss s
  | .ppsOutRise => Sys2Proof.Machine.execPpsOutRise s
  | .ppsOutFall => Sys2Proof.Machine.execPpsOutFall s
  | .ppsInEdge => Sys2Proof.Machine.execPpsInEdge s
  | .ppsInTimeout => Sys2Proof.Machine.execPpsInTimeout s
  | .gateChangeTime p => Sys2Proof.Machine.execGateChangeTime p s
  | .gateEntryStart p bad => Sys2Proof.Machine.execGateEntryStart p bad s
  | .gateHoldAssert p op1 => Sys2Proof.Machine.execGateHoldAssert p op1 s
  | .recoveryResetTimeout d f => Sys2Proof.Machine.execRecoveryResetTimeout d f s
  | .latentTestPeriod d f => Sys2Proof.Machine.execLatentTestPeriod d f s
  | .latentResetPeriod d f => Sys2Proof.Machine.execLatentResetPeriod d f s
  | .dupEntryReclaim d b => Sys2Proof.Machine.execDupEntryReclaim d b s
  | .fiTransition n pin => Sys2Proof.Machine.execFiTransition n pin s
  | .fiFilterExpiry n => Sys2Proof.Machine.execFiFilterExpiry n s
  | .pubRepetition j => Sys2Proof.Machine.execPubRepetition j s
  | .pubHeartbeat j => Sys2Proof.Machine.execPubHeartbeat j s
  | .packetTriggerApply => Sys2Proof.Machine.execPacketTriggerApply s
  | .timeEventFire n => Sys2Proof.Machine.execTimeEventFire n s
  | .foPulseExpiry j => Sys2Proof.Machine.execFoPulseExpiry j s
  | .foReadbackTimeout j pin => Sys2Proof.Machine.execFoReadbackTimeout j pin s
  | .controlFrameReceive => Sys2Proof.Machine.execControlFrameReceive s
  | .fragmentTimeout n => Sys2Proof.Machine.execFragmentTimeout n s
  | .joinHelloTimer => Sys2Proof.Machine.execJoinHelloTimer s
  | .keepaliveTimer k => Sys2Proof.Machine.execKeepaliveTimer k s
  | .sessionLossTimeout k => Sys2Proof.Machine.execSessionLossTimeout k s
  | .sessionRekeyTimer k => Sys2Proof.Machine.execSessionRekeyTimer k s
  | .vinGood straps => Sys2Proof.Machine.execVinGood straps s
  | .vinLowDetect => Sys2Proof.Machine.execVinLowDetect s
  | .vinRailShutdown => Sys2Proof.Machine.execVinRailShutdown s
  | .vinLoss => Sys2Proof.Machine.execVinLoss s
  | .vinHighDetect => Sys2Proof.Machine.execVinHighDetect s
  | .vinOvervoltage => Sys2Proof.Machine.execVinOvervoltage s
  | .resetNAssert warm => Sys2Proof.Machine.execResetNAssert warm s
  | .resetNDeassert straps warm retained => Sys2Proof.Machine.execResetNDeassert straps warm retained s
  | .pciePerst low => Sys2Proof.Machine.execPciePerst low s
  | .startStepDone r => Sys2Proof.Machine.execStartStepDone r s
  | .startStepOverrun cause => Sys2Proof.Machine.execStartStepOverrun cause s
  | .peonyHoldTimer => Sys2Proof.Machine.execPeonyHoldTimer s
  | .mpWatchdogExpiry => Sys2Proof.Machine.execMpWatchdogExpiry s
  | .firmwareRestart => Sys2Proof.Machine.execFirmwareRestart s
  | .hardwareErrorEvent e => Sys2Proof.Machine.execHardwareErrorEvent e s
  | .contextHangWatchdog src idx => Sys2Proof.Machine.execContextHangWatchdog src idx s
  | .faultSample => Sys2Proof.Machine.execFaultSample s
  | .faultWindowExpiry n => Sys2Proof.Machine.execFaultWindowExpiry n s
  | .spareTakeover n => Sys2Proof.Machine.execSpareTakeover n s
  | .faultLogDrain => Sys2Proof.Machine.execFaultLogDrain s
  | .unitDrainComplete kind idx => Sys2Proof.Machine.execUnitDrainComplete kind idx s
  | .unitTestComplete kind idx pass => Sys2Proof.Machine.execUnitTestComplete kind idx pass s
  | .dumpBoundary k => Sys2Proof.Machine.execDumpBoundary k s
  | .dumpWrite k bad => Sys2Proof.Machine.execDumpWrite k bad s
  | .slotElapse n => Sys2Proof.Machine.execSlotElapse n s
  | .ovfCountReached n => Sys2Proof.Machine.execOvfCountReached n s
  | .nonceLapse => Sys2Proof.Machine.execNonceLapse s
  | .lockoutEnd => Sys2Proof.Machine.execLockoutEnd s
  | .unlockExpiry => Sys2Proof.Machine.execUnlockExpiry s
  | .slewComplete => Sys2Proof.Machine.execSlewComplete s
  | .blockResetRelease kind idx => Sys2Proof.Machine.execBlockResetRelease kind idx s
  | .hostFrameTransmit p tc tenant bytes cookie host => Sys2Proof.Machine.execHostFrameTransmit p tc tenant bytes cookie host s
  | .thermNRelease => Sys2Proof.Machine.execThermNRelease s
  | .thermalShutdown => Sys2Proof.Machine.execThermalShutdown s
  | .smbusClockLowTimeout => Sys2Proof.Machine.execSmbusClockLowTimeout s

end Sys2Proof.Machine
end

