-- ==== Sys2Proof/Machine/Step.lean ====
section
/-! DEFINITION. One step of the block: the command at the front of the queue, or a tick of the 1 GHz clock. -/

namespace Sys2Proof.Machine
open Sys2Proof

/-- One cycle of the 1 GHz count on an empty queue: a budget period that is due begins, time advances, the field I/O unit
serves its event queue, the identity unit its timers, and firmware takes what waits for it, re-homes retired nodes and chooses the sampling mode.
DESIGN CHOICE (log entry 2) -/
def idleTick (s : State) : State := fwWork (sampleMode (mpqTake (fioDrain (secService (idle (periodService s))))))

/-- Take the command at the front of the queue and run it with the queue's rest; on an empty queue one cycle of the
network-time clock passes. -/
def step (s : State) : Host.Outcome State Fault Refusal :=
  match s.pending with
  | [] => .next (idleTick s)
  | i :: rest => exec i { s with pending := rest }

/-- `s` with the command that a word spells at the front of its queue; unchanged where the word spells none. -/
def State.withFetchWord (s : State) (nbits w : Nat) : State :=
  match decodeTableWord nbits w with
  | some i => { s with pending := i :: s.pending }
  | none => s

end Sys2Proof.Machine
end

