-- ==== Sys2Proof/Laws/Bits.lean ====
section
/-! SUPPORT. What a field and a bit of a word are after one of them is replaced. -/

namespace Sys2Proof.Machine
open Sys2Proof

theorem wd_toNat (n : Nat) : (wd n).toNat = n % 2 ^ 32 := by simp [wd]

theorem fld_lt (w : Word) (lo n : Nat) : fld w lo n < 2 ^ n := Nat.mod_lt _ (by positivity)

/-- A word is what lies above a field, the field, and what lies below it. -/
theorem fld_split (w : Word) (lo n : Nat) (h : lo + n ≤ 32) :
    ∃ q z, w.toNat = (q * 2 ^ n + fld w lo n) * 2 ^ lo + z ∧ z < 2 ^ lo ∧ q < 2 ^ (32 - lo - n) := by
  refine ⟨w.toNat / 2 ^ lo / 2 ^ n, w.toNat % 2 ^ lo, ?_, Nat.mod_lt _ (by positivity), ?_⟩
  · unfold fld
    rw [Nat.mul_comm _ (2 ^ n), Nat.div_add_mod, Nat.mul_comm, Nat.div_add_mod]
  · rw [Nat.div_div_eq_div_mul, ← pow_add]
    apply Nat.div_lt_of_lt_mul
    rw [← pow_add]
    have : lo + n + (32 - lo - n) = 32 := by omega
    rw [this]; exact w.isLt

/-- The number of a word with one field replaced. -/
theorem setFld_split (w : Word) (lo n v q z : Nat) (h : lo + n ≤ 32)
    (e : w.toNat = (q * 2 ^ n + fld w lo n) * 2 ^ lo + z) (hz : z < 2 ^ lo) (hq : q < 2 ^ (32 - lo - n)) :
    (setFld w lo n v).toNat = (q * 2 ^ n + v % 2 ^ n) * 2 ^ lo + z := by
  have hv : v % 2 ^ n < 2 ^ n := Nat.mod_lt _ (by positivity)
  have e' : w.toNat - fld w lo n * 2 ^ lo + v % 2 ^ n * 2 ^ lo = (q * 2 ^ n + v % 2 ^ n) * 2 ^ lo + z := by
    rw [e, Nat.add_mul, Nat.add_mul]; omega
  unfold setFld
  rw [wd_toNat, e']
  apply Nat.mod_eq_of_lt
  have e32 : (2 : Nat) ^ 32 = 2 ^ (32 - lo - n) * (2 ^ n * 2 ^ lo) := by
    rw [← pow_add, ← pow_add]; congr 1; omega
  have a1 : (v % 2 ^ n + 1) * 2 ^ lo ≤ 2 ^ n * 2 ^ lo := Nat.mul_le_mul_right _ hv
  have a2 : (q + 1) * (2 ^ n * 2 ^ lo) ≤ 2 ^ (32 - lo - n) * (2 ^ n * 2 ^ lo) := Nat.mul_le_mul_right _ hq
  rw [e32, Nat.add_mul]
  rw [Nat.add_mul, Nat.one_mul, ← Nat.mul_assoc] at a2
  rw [Nat.add_mul] at a1
  omega

/-- The field that was replaced. -/
theorem fld_setFld_same (w : Word) (lo n v : Nat) (h : lo + n ≤ 32) : fld (setFld w lo n v) lo n = v % 2 ^ n := by
  obtain ⟨q, z, e, hz, hq⟩ := fld_split w lo n h
  unfold fld
  rw [setFld_split w lo n v q z h e hz hq, Nat.mul_comm _ (2 ^ lo), Nat.mul_add_div (by positivity),
    Nat.div_eq_of_lt hz, Nat.add_zero, Nat.mul_comm _ (2 ^ n), Nat.mul_add_mod, Nat.mod_mod]

/-- A field that lies below or above the one replaced. -/
theorem fld_setFld_other (w : Word) (lo n v lo' n' : Nat) (h : lo + n ≤ 32) (hd : lo' + n' ≤ lo ∨ lo + n ≤ lo') :
    fld (setFld w lo n v) lo' n' = fld w lo' n' := by
  obtain ⟨q, z, e, hz, hq⟩ := fld_split w lo n h
  have hv : v % 2 ^ n < 2 ^ n := Nat.mod_lt _ (by positivity)
  have hf := fld_lt w lo n
  have e2 := setFld_split w lo n v q z h e hz hq
  unfold fld
  rw [e2, e]
  rcases hd with hd | hd
  · have low : ∀ x : Nat, (x * 2 ^ lo + z) / 2 ^ lo' % 2 ^ n' = z / 2 ^ lo' % 2 ^ n' := by
      intro x
      have e1 : x * 2 ^ lo = 2 ^ lo' * (2 ^ n' * (2 ^ (lo - lo' - n') * x)) := by
        have : (2 : Nat) ^ lo = 2 ^ lo' * (2 ^ n' * 2 ^ (lo - lo' - n')) := by
          rw [← pow_add, ← pow_add]; congr 1; omega
        rw [this]; ring
      rw [e1, Nat.mul_add_div (by positivity), Nat.mul_add_mod]
    rw [low, low]
  · have hi : ∀ x : Nat, x < 2 ^ n → ((q * 2 ^ n + x) * 2 ^ lo + z) / 2 ^ lo' = q / 2 ^ (lo' - lo - n) := by
      intro x hx
      have : (2 : Nat) ^ lo' = 2 ^ lo * (2 ^ n * 2 ^ (lo' - lo - n)) := by
        rw [← pow_add, ← pow_add]; congr 1; omega
      rw [this, ← Nat.div_div_eq_div_mul, ← Nat.div_div_eq_div_mul]
      rw [Nat.mul_comm _ (2 ^ lo), Nat.mul_add_div (by positivity), Nat.div_eq_of_lt hz, Nat.add_zero,
        Nat.mul_comm _ (2 ^ n), Nat.mul_add_div (by positivity), Nat.div_eq_of_lt hx, Nat.add_zero]
    rw [hi _ hv, hi _ hf]

@[simp] theorem bit_setBit_same (w : Word) (i : Nat) (b : Bool) (h : i < 32) : bit (setBit w i b) i = b := by
  unfold bit setBit
  rw [fld_setFld_same _ _ _ _ (by omega)]
  cases b <;> rfl

theorem bit_setBit_other (w : Word) (i j : Nat) (b : Bool) (h : i < 32) (hij : j ≠ i) :
    bit (setBit w i b) j = bit w j := by
  unfold bit setBit
  rw [fld_setFld_other _ _ _ _ _ _ (by omega) (by omega)]

/-- A number of 64 bits is its low and its high word. -/
theorem w64_loW_hiW (n : Nat) (h : n < 2 ^ 64) : w64 (loW n) (hiW n) = n := by
  unfold w64 loW hiW
  rw [wd_toNat, wd_toNat]
  omega

end Sys2Proof.Machine
end

