-- ==== Sys2Proof/Laws/Tables.lean ====
section
/-! SUPPORT. What the two operations over a sparse table do: a read after a write, the keys that a write leaves alone,
and that a write keeps the canonical form. -/

namespace Sys2Proof.Machine
open Sys2Proof

variable {α : Type}

@[simp] theorem tget_nil (d : α) (k : Nat) : tget d [] k = d := rfl

theorem tget_tput_same (d : α) (m : Sparse α) (k : Nat) (x : α) : tget d (tput m k x) k = x := by
  induction m with
  | nil => simp [tput, tget]
  | cons p m ih =>
    obtain ⟨j, v⟩ := p
    by_cases h : j = k
    · simp [tput, tget, h]
    · by_cases h' : k < j <;> simp [tput, tget, h, h', ih]

theorem tget_tput_other (d : α) (m : Sparse α) (k j : Nat) (x : α) (h : j ≠ k) :
    tget d (tput m k x) j = tget d m j := by
  induction m with
  | nil => simp [tput, tget, Ne.symm h]
  | cons p m ih =>
    obtain ⟨i, v⟩ := p
    by_cases e : i = k
    · subst e; simp [tput, tget, Ne.symm h]
    · by_cases e' : k < i <;> simp [tput, tget, e, e', ih, Ne.symm h]

theorem tget_tdrop_same (d : α) (m : Sparse α) (k : Nat) : tget d (tdrop m k) k = d := by
  induction m with
  | nil => rfl
  | cons p m ih =>
    obtain ⟨j, v⟩ := p
    by_cases h : j = k
    · simpa [tdrop, h] using ih
    · simpa [tdrop, tget, h] using ih

theorem tget_tdrop_other (d : α) (m : Sparse α) (k j : Nat) (h : j ≠ k) :
    tget d (tdrop m k) j = tget d m j := by
  induction m with
  | nil => rfl
  | cons p m ih =>
    obtain ⟨i, v⟩ := p
    by_cases e : i = k
    · subst e; simpa [tdrop, tget, Ne.symm h] using ih
    · by_cases e' : i = j
      · subst e'; simp [tdrop, tget, e]
      · simpa [tdrop, tget, e, e'] using ih

variable [DecidableEq α]

/-- A read after a write to the same key gives the record written. -/
@[simp] theorem tget_tset_same (d : α) (m : Sparse α) (k : Nat) (x : α) : tget d (tset d m k x) k = x := by
  unfold tset; split
  · next h => rw [h]; exact tget_tdrop_same ..
  · exact tget_tput_same ..

/-- A write leaves every other key alone. -/
theorem tget_tset_other (d d' : α) (m : Sparse α) (k j : Nat) (x : α) (h : j ≠ k) :
    tget d' (tset d m k x) j = tget d' m j := by
  unfold tset; split
  · exact tget_tdrop_other _ _ _ _ h
  · exact tget_tput_other _ _ _ _ _ h

/-- A write as one equation. -/
theorem tget_tset (d : α) (m : Sparse α) (k j : Nat) (x : α) :
    tget d (tset d m k x) j = if j = k then x else tget d m j := by
  split
  · next h => subst h; exact tget_tset_same ..
  · next h => exact tget_tset_other _ _ _ _ _ _ h

/-- Records selected by a property of their keys are untouched by a write to a key without it. -/
theorem filter_tset (d : α) (m : Sparse α) (k : Nat) (x : α) (p : Nat → Bool) (h : p k = false) :
    (tset d m k x).filter (fun q => p q.1) = m.filter (fun q => p q.1) := by
  unfold tset; split
  · unfold tdrop
    rw [List.filter_filter]
    apply List.filter_congr
    intro q _
    by_cases e : q.1 = k
    · simp [e, h]
    · simp [e]
  · induction m with
    | nil => simp [tput, h]
    | cons q m ih =>
      obtain ⟨j, v⟩ := q
      by_cases e : j = k
      · subst e; simp [tput, h]
      · by_cases e' : k < j <;> simp [tput, e, e', List.filter_cons, ih, h]

/-! ### The canonical form -/

variable {d : Nat → α}

theorem risesFrom_tput {m : Sparse α} {lo : Option Nat} {k : Nat} {x : α} (hm : risesFrom d lo m = true)
    (hx : x ≠ d k) (hlo : ∀ l, lo = some l → l < k) : risesFrom d lo (tput m k x) = true := by
  induction m generalizing lo with
  | nil => cases lo <;> simp_all [tput, risesFrom]
  | cons p m ih =>
    obtain ⟨j, v⟩ := p
    simp only [risesFrom, Bool.and_eq_true] at hm
    obtain ⟨⟨h1, h2⟩, h3⟩ := hm
    unfold tput
    split
    · next e =>
      subst e
      simp only [risesFrom, Bool.and_eq_true]
      exact ⟨⟨h1, by simpa using hx⟩, h3⟩
    · next e =>
      split
      · next e' =>
        simp only [risesFrom, Bool.and_eq_true]
        refine ⟨⟨?_, by simpa using hx⟩, ⟨by simpa using e', h2⟩, h3⟩
        cases lo with
        | none => rfl
        | some l => simpa using hlo l rfl
      · next e' =>
        simp only [risesFrom, Bool.and_eq_true]
        refine ⟨⟨h1, h2⟩, ih h3 ?_⟩
        intro l hl
        obtain rfl : j = l := by simpa using hl
        omega

theorem risesFrom_mono {m : Sparse α} {l k : Nat} (h : l ≤ k) (hm : risesFrom d (some k) m = true) :
    risesFrom d (some l) m = true := by
  cases m with
  | nil => rfl
  | cons p m =>
    simp only [risesFrom, Bool.and_eq_true, decide_eq_true_eq] at hm ⊢
    exact ⟨⟨by omega, hm.1.2⟩, hm.2⟩

theorem risesFrom_weaken {m : Sparse α} {lo : Option Nat} {j : Nat} (hm : risesFrom d (some j) m = true)
    (hlo : ∀ l, lo = some l → l < j) : risesFrom d lo m = true := by
  cases lo with
  | none =>
    cases m with
    | nil => rfl
    | cons p m =>
      simp only [risesFrom, Bool.and_eq_true] at hm ⊢
      exact ⟨⟨trivial, hm.1.2⟩, hm.2⟩
  | some l => exact risesFrom_mono (Nat.le_of_lt (hlo l rfl)) hm

theorem risesFrom_filter {m : Sparse α} {lo : Option Nat} (p : Nat × α → Bool) (hm : risesFrom d lo m = true) :
    risesFrom d lo (m.filter p) = true := by
  induction m generalizing lo with
  | nil => exact hm
  | cons q m ih =>
    obtain ⟨j, v⟩ := q
    simp only [risesFrom, Bool.and_eq_true] at hm
    obtain ⟨⟨h1, h2⟩, h3⟩ := hm
    rw [List.filter_cons]
    split
    · simp only [risesFrom, Bool.and_eq_true]
      exact ⟨⟨h1, h2⟩, ih h3⟩
    · refine risesFrom_weaken (ih h3) ?_
      intro l hl
      subst hl
      simpa using h1

/-- A selection of a table's records keeps its canonical form. -/
theorem canonical_filter {m : Sparse α} (p : Nat × α → Bool) (hm : canonical d m = true) :
    canonical d (m.filter p) = true := risesFrom_filter p hm

/-- A write keeps the canonical form. -/
theorem canonical_tset {m : Sparse α} (k : Nat) (x : α) (hm : canonical d m = true) :
    canonical d (tset (d k) m k x) = true := by
  unfold tset; split
  · exact canonical_filter _ hm
  · next h => exact risesFrom_tput hm h (by simp)

end Sys2Proof.Machine
end

