-- ==== Sys2Proof/Laws/Regs.lean ====
section
/-! SUPPORT. The register file: what a read gives after a write, which fields a write leaves alone, and that a write
keeps the file's canonical form. -/

namespace Sys2Proof.Machine
open Sys2Proof

/-! ### The addresses of pipelines -/

theorem physPip_lt (s : State) (n : Nat) (h : n < 34) : physPip s n < 34 := by
  unfold physPip
  split
  · split <;> omega
  · split
    · omega
    · split <;> omega

theorem physPip_invol (s : State) (n : Nat) (h : n < 34) : physPip s (physPip s n) = n := by
  by_cases h32 : n < 32
  · by_cases e : s.bus.spareOf.getD (n / 16) 0 = n % 16 + 1
    · have h1 : physPip s n = 32 + n / 16 := by unfold physPip; rw [if_pos h32, if_pos e]
      rw [h1]
      unfold physPip
      rw [if_neg (by omega), show 32 + n / 16 - 32 = n / 16 by omega, e]
      simp only [show n % 16 < 16 by omega, if_true]
      omega
    · have h1 : physPip s n = n := by unfold physPip; rw [if_pos h32, if_neg e]
      rw [h1, h1]
  · cases e : s.bus.spareOf.getD (n - 32) 0 with
    | zero =>
      have h1 : physPip s n = n := by unfold physPip; rw [if_neg h32, e]
      rw [h1, h1]
    | succ k =>
      by_cases hk : k < 16
      · have h1 : physPip s n = 16 * (n - 32) + k := by unfold physPip; rw [if_neg h32, e]; simp only [hk, if_true]
        rw [h1]
        unfold physPip
        have e1 : (16 * (n - 32) + k) / 16 = n - 32 := by omega
        have e2 : (16 * (n - 32) + k) % 16 = k := by omega
        rw [if_pos (by omega), e1, e2, if_pos e]
        omega
      · have h1 : physPip s n = n := by unfold physPip; rw [if_neg h32, e]; simp only [hk, if_false]
        rw [h1, h1]

theorem physPip_inj (s : State) (m n : Nat) (hm : m < 34) (hn : n < 34) (h : physPip s m = physPip s n) : m = n := by
  rw [← physPip_invol s m hm, h, physPip_invol s n hn]

/-- The addresses of the pipelines' blocks. -/
def pipAddr (a : Nat) : Prop := (0x1000000 ≤ a ∧ a < 0x1110000) ∨ (0x2000000 ≤ a ∧ a < 0x2110000)

theorem decodeAddr_pip (a n off : Nat) (h : decodeAddr a = some (.pip n, off)) :
    n < 34 ∧ off < 0x10000 ∧ a = pipBase n + off := by
  have die : ∀ d r, d < 2 → decodeDie d r = some (.pip n, off) → n < 34 ∧ off < 0x10000 ∧
      dieBase d + r = pipBase n + off := by
    intro d r hd hr
    unfold decodeDie at hr
    by_cases hlt : r < 0x110000
    · rw [if_pos hlt] at hr
      obtain ⟨hn, ho⟩ := Prod.mk.inj (Option.some.inj hr)
      replace hn := Blk.pip.inj hn
      subst ho
      split at hn
      · subst hn
        refine ⟨by omega, Nat.mod_lt _ (by omega), ?_⟩
        simp only [pipBase, show ¬ (32 + d < 32) by omega, if_false, show 32 + d - 32 = d by omega]
        omega
      · subst hn
        refine ⟨by omega, Nat.mod_lt _ (by omega), ?_⟩
        have e1 : (16 * d + r / 0x10000) / 16 = d := by omega
        have e2 : (16 * d + r / 0x10000) % 16 = r / 0x10000 := by omega
        simp only [pipBase, show 16 * d + r / 0x10000 < 32 by omega, if_true, e1, e2]
        omega
    · rw [if_neg hlt] at hr
      have pass : ∀ (c : Prop) [Decidable c] (x y : Option (Blk × Nat)), x ≠ some (Blk.pip n, off) →
          y ≠ some (Blk.pip n, off) → (if c then x else y) ≠ some (Blk.pip n, off) := by
        intro c _ x y hx hy
        split
        · exact hx
        · exact hy
      exfalso
      revert hr
      repeat' apply pass
      all_goals (intro e; cases e)
  unfold decodeAddr at h
  split at h
  · cases h
  · split at h
    · obtain ⟨h, -⟩ := Prod.mk.inj (Option.some.inj h)
      revert h
      generalize a / 0x10000 = q
      intro h
      split at h <;> cases h
    · split at h
      · cases h
      · split at h
        · obtain ⟨h1, h2, h3⟩ := die 0 _ (by omega) h
          refine ⟨h1, h2, ?_⟩
          rw [← h3]; simp only [dieBase]; omega
        · split at h
          · obtain ⟨h1, h2, h3⟩ := die 1 _ (by omega) h
            refine ⟨h1, h2, ?_⟩
            rw [← h3]; simp only [dieBase]; omega
          · split at h <;> cases h

theorem pipBase_add (m n x y : Nat) (hm : m < 34) (hn : n < 34) (hx : x < 0x10000) (hy : y < 0x10000)
    (h : pipBase m + x = pipBase n + y) : m = n ∧ x = y := by
  simp only [pipBase, dieBase] at h
  split at h <;> split at h <;> omega

theorem pipBase_pip (n off : Nat) (hn : n < 34) (ho : off < 0x10000) : pipAddr (pipBase n + off) := by
  simp only [pipBase, dieBase, pipAddr]
  split <;> omega

/-- Every address but a pipeline's names its own register (R421). -/
theorem physAddr_other (s : State) (a : Nat) (h : ¬ pipAddr a) : physAddr s a = a := by
  unfold physAddr
  split
  · next n off e =>
    obtain ⟨h1, h2, h3⟩ := decodeAddr_pip a n off e
    exact absurd (h3 ▸ pipBase_pip n off h1 h2) h
  · rfl

theorem decodeAddr_of_pip (a : Nat) (h : pipAddr a) : ∃ n off, decodeAddr a = some (.pip n, off) := by
  unfold decodeAddr
  rcases h with h | h
  · rw [if_neg (by omega), if_neg (by omega), if_neg (by omega), if_pos (by omega)]
    unfold decodeDie; rw [if_pos (by omega)]; exact ⟨_, _, rfl⟩
  · rw [if_neg (by omega), if_neg (by omega), if_neg (by omega), if_neg (by omega), if_pos (by omega)]
    unfold decodeDie; rw [if_pos (by omega)]; exact ⟨_, _, rfl⟩

/-- A pipeline's address reaches a pipeline's register. -/
theorem physAddr_pip (s : State) (a n off : Nat) (h : decodeAddr a = some (.pip n, off)) :
    physAddr s a = pipBase (physPip s n) + off := by
  unfold physAddr; rw [h]

/-- Two addresses name one register only if they are one address (R421). -/
theorem physAddr_inj (s : State) (a b : Nat) (h : physAddr s a = physAddr s b) : a = b := by
  have mixed : ∀ x y, pipAddr x → ¬ pipAddr y → physAddr s x ≠ physAddr s y := by
    intro x y hx hy e
    obtain ⟨n, off, ex⟩ := decodeAddr_of_pip x hx
    obtain ⟨h1, h2, -⟩ := decodeAddr_pip x n off ex
    rw [physAddr_pip s x n off ex, physAddr_other s y hy] at e
    exact hy (e ▸ pipBase_pip _ off (physPip_lt s n h1) h2)
  by_cases ha : pipAddr a <;> by_cases hb : pipAddr b
  · obtain ⟨n, x, ea⟩ := decodeAddr_of_pip a ha
    obtain ⟨m, y, eb⟩ := decodeAddr_of_pip b hb
    obtain ⟨a1, a2, a3⟩ := decodeAddr_pip a n x ea
    obtain ⟨b1, b2, b3⟩ := decodeAddr_pip b m y eb
    rw [physAddr_pip s a n x ea, physAddr_pip s b m y eb] at h
    obtain ⟨e1, e2⟩ := pipBase_add _ _ x y (physPip_lt s n a1) (physPip_lt s m b1) a2 b2 h
    rw [a3, b3, physPip_inj s n m a1 b1 e1, e2]
  · exact absurd h (mixed a b ha hb)
  · exact absurd h.symm (mixed b a hb ha)
  · rwa [physAddr_other s a ha, physAddr_other s b hb] at h

/-! ### Reads after writes -/

theorem physAddr_congr (s t : State) (a : Nat) (h : t.bus.spareOf = s.bus.spareOf) : physAddr t a = physAddr s a := by
  unfold physAddr physPip; rw [h]

/-- A register that depends on the register file and on the spares alone. -/
theorem rd_congr (s t : State) (a : Nat) (h : t.regs = s.regs) (hb : t.bus.spareOf = s.bus.spareOf) : rd t a = rd s a := by
  unfold rd; rw [physAddr_congr s t a hb, h]

/-- A read after a write. -/
theorem rd_wr (a b : Nat) (v : Word) (s : State) : rd (wr b v s) a = if a = b then v else rd s a := by
  unfold rd wr
  rw [show physAddr { s with regs := tset (resetOf (physAddr s b)) s.regs (physAddr s b) v } a = physAddr s a from
    physAddr_congr _ _ _ rfl]
  show tget _ (tset (resetOf (physAddr s b)) s.regs (physAddr s b) v) _ = _
  by_cases h : a = b
  · subst h; rw [tget_tset_same, if_pos rfl]
  · rw [tget_tset_other _ _ _ _ _ _ (fun e => h (physAddr_inj s a b e)), if_neg h]

@[simp] theorem rd_wr_same (a : Nat) (v : Word) (s : State) : rd (wr a v s) a = v := by rw [rd_wr, if_pos rfl]

theorem rd_wr_other (a b : Nat) (v : Word) (s : State) (h : a ≠ b) : rd (wr b v s) a = rd s a := by
  rw [rd_wr, if_neg h]

/-- A write keeps the register file's canonical form. -/
theorem canonical_wr (a : Nat) (v : Word) (s : State) (h : canonical resetOf s.regs = true) :
    canonical resetOf (wr a v s).regs = true := canonical_tset _ _ h

end Sys2Proof.Machine
end

