-- ==== Sys2Proof/Laws/State.lean ====
section
/-! SUPPORT. What the named operations of Machine/Ops.lean leave alone, field by field, so that no proof unfolds a record
update; the operations that write one register, as writes. -/

namespace Sys2Proof.Machine
open Sys2Proof

/-! ### A register write changes the register file alone -/

@[simp] theorem wr_pending (a : Nat) (v : Word) (s : State) : (wr a v s).pending = s.pending := rfl
@[simp] theorem wr_freeCtr (a : Nat) (v : Word) (s : State) : (wr a v s).freeCtr = s.freeCtr := rfl
@[simp] theorem wr_cnt (a : Nat) (v : Word) (s : State) : (wr a v s).cnt = s.cnt := rfl
@[simp] theorem wr_bus (a : Nat) (v : Word) (s : State) : (wr a v s).bus = s.bus := rfl
@[simp] theorem wr_mbx (a : Nat) (v : Word) (s : State) : (wr a v s).mbx = s.mbx := rfl
@[simp] theorem wr_out (a : Nat) (v : Word) (s : State) : (wr a v s).out = s.out := rfl
@[simp] theorem wr_rings (a : Nat) (v : Word) (s : State) : (wr a v s).rings = s.rings := rfl
@[simp] theorem wr_ports (a : Nat) (v : Word) (s : State) : (wr a v s).ports = s.ports := rfl
@[simp] theorem wr_glens (a : Nat) (v : Word) (s : State) : (wr a v s).glens = s.glens := rfl
@[simp] theorem wr_streams (a : Nat) (v : Word) (s : State) : (wr a v s).streams = s.streams := rfl
@[simp] theorem wr_bpm (a : Nat) (v : Word) (s : State) : (wr a v s).bpm = s.bpm := rfl
@[simp] theorem wr_bud (a : Nat) (v : Word) (s : State) : (wr a v s).bud = s.bud := rfl
@[simp] theorem wr_fcl (a : Nat) (v : Word) (s : State) : (wr a v s).fcl = s.fcl := rfl
@[simp] theorem wr_tim (a : Nat) (v : Word) (s : State) : (wr a v s).tim = s.tim := rfl
@[simp] theorem wr_gat (a : Nat) (v : Word) (s : State) : (wr a v s).gat = s.gat := rfl
@[simp] theorem wr_isl (a : Nat) (v : Word) (s : State) : (wr a v s).isl = s.isl := rfl
@[simp] theorem wr_col (a : Nat) (v : Word) (s : State) : (wr a v s).col = s.col := rfl
@[simp] theorem wr_path (a : Nat) (v : Word) (s : State) : (wr a v s).path = s.path := rfl
@[simp] theorem wr_sch (a : Nat) (v : Word) (s : State) : (wr a v s).sch = s.sch := rfl
@[simp] theorem wr_fre (a : Nat) (v : Word) (s : State) : (wr a v s).fre = s.fre := rfl
@[simp] theorem wr_fio (a : Nat) (v : Word) (s : State) : (wr a v s).fio = s.fio := rfl
@[simp] theorem wr_ucode (a : Nat) (v : Word) (s : State) : (wr a v s).ucode = s.ucode := rfl
@[simp] theorem wr_cas (a : Nat) (v : Word) (s : State) : (wr a v s).cas = s.cas := rfl
@[simp] theorem wr_dmp (a : Nat) (v : Word) (s : State) : (wr a v s).dmp = s.dmp := rfl
@[simp] theorem wr_sec (a : Nat) (v : Word) (s : State) : (wr a v s).sec = s.sec := rfl
@[simp] theorem wr_shadow (a : Nat) (v : Word) (s : State) : (wr a v s).shadow = s.shadow := rfl
@[simp] theorem wr_start (a : Nat) (v : Word) (s : State) : (wr a v s).start = s.start := rfl

/-! ### The other register operations are writes -/

theorem wrF_eq (a lo n v : Nat) (s : State) : wrF a lo n v s = wr a (setFld (rd s a) lo n v) s := rfl
theorem wrBit_eq (a i : Nat) (b : Bool) (s : State) : wrBit a i b s = wr a (setBit (rd s a) i b) s := rfl
theorem wrM_eq (a m : Nat) (v : Word) (s : State) : wrM a m v s = wr a ((rd s a &&& ~~~(wd m)) ||| (v &&& wd m)) s := rfl
theorem incBy_eq (a k : Nat) (s : State) : incBy a k s = wr a (rd s a + wd k) s := rfl
theorem inc_eq (a : Nat) (s : State) : inc a s = wr a (rd s a + 1) s := rfl
theorem incSat_eq (a lo n : Nat) (s : State) :
    incSat a lo n s = wr a (setFld (rd s a) lo n (satAdd (2 ^ n - 1) (rdF s a lo n) 1)) s := rfl

/-! ### Registers are left alone by every change of another field -/

@[simp] theorem rd_raise (src addr k i a : Nat) (s : State) : rd (raise src addr k i s) a = rd s a := rfl
@[simp] theorem rd_raiseAcc (src addr m x a : Nat) (s : State) : rd (raiseAcc src addr m x s) a = rd s a := rfl
@[simp] theorem rd_emit (o : Out) (a : Nat) (s : State) : rd (emit o s) a = rd s a := rfl
@[simp] theorem rd_bump (k i p w n a : Nat) (s : State) : rd (bump k i p w n s) a = rd s a := rfl
@[simp] theorem rd_freeW (a : Nat) (s : State) : rd (freeW s).2 a = rd s a := rfl
@[simp] theorem rd_setUnit (k i a : Nat) (u : UnitSt) (s : State) : rd (setUnit k i u s) a = rd s a := rfl
@[simp] theorem rd_setRing (b a : Nat) (r : RingSt) (s : State) : rd (setRing b r s) a = rd s a := rfl
@[simp] theorem rd_wrStg (b a : Nat) (v : Word) (s : State) : rd (wrStg b v s) a = rd s a := rfl
@[simp] theorem rd_charge (u x n a : Nat) (s : State) : rd (charge u x n s) a = rd s a := rfl

/-! ### Fields that raises, outputs and counters leave alone -/

@[simp] theorem raise_pending (src addr k i : Nat) (s : State) : (raise src addr k i s).pending = s.pending := rfl
@[simp] theorem raise_freeCtr (src addr k i : Nat) (s : State) : (raise src addr k i s).freeCtr = s.freeCtr := rfl
@[simp] theorem raise_cnt (src addr k i : Nat) (s : State) : (raise src addr k i s).cnt = s.cnt := rfl
@[simp] theorem raise_bus (src addr k i : Nat) (s : State) : (raise src addr k i s).bus = s.bus := rfl
@[simp] theorem raise_mbx (src addr k i : Nat) (s : State) : (raise src addr k i s).mbx = s.mbx := rfl
@[simp] theorem raise_out (src addr k i : Nat) (s : State) : (raise src addr k i s).out = s.out := rfl
@[simp] theorem raise_rings (src addr k i : Nat) (s : State) : (raise src addr k i s).rings = s.rings := rfl
@[simp] theorem raise_ports (src addr k i : Nat) (s : State) : (raise src addr k i s).ports = s.ports := rfl
@[simp] theorem raise_glens (src addr k i : Nat) (s : State) : (raise src addr k i s).glens = s.glens := rfl
@[simp] theorem raise_streams (src addr k i : Nat) (s : State) : (raise src addr k i s).streams = s.streams := rfl
@[simp] theorem raise_bpm (src addr k i : Nat) (s : State) : (raise src addr k i s).bpm = s.bpm := rfl
@[simp] theorem raise_bud (src addr k i : Nat) (s : State) : (raise src addr k i s).bud = s.bud := rfl
@[simp] theorem raise_tim (src addr k i : Nat) (s : State) : (raise src addr k i s).tim = s.tim := rfl
@[simp] theorem raise_gat (src addr k i : Nat) (s : State) : (raise src addr k i s).gat = s.gat := rfl
@[simp] theorem raise_isl (src addr k i : Nat) (s : State) : (raise src addr k i s).isl = s.isl := rfl
@[simp] theorem raise_col (src addr k i : Nat) (s : State) : (raise src addr k i s).col = s.col := rfl
@[simp] theorem raise_path (src addr k i : Nat) (s : State) : (raise src addr k i s).path = s.path := rfl
@[simp] theorem raise_sch (src addr k i : Nat) (s : State) : (raise src addr k i s).sch = s.sch := rfl
@[simp] theorem raise_fre (src addr k i : Nat) (s : State) : (raise src addr k i s).fre = s.fre := rfl
@[simp] theorem raise_fio (src addr k i : Nat) (s : State) : (raise src addr k i s).fio = s.fio := rfl
@[simp] theorem raise_ucode (src addr k i : Nat) (s : State) : (raise src addr k i s).ucode = s.ucode := rfl
@[simp] theorem raise_cas (src addr k i : Nat) (s : State) : (raise src addr k i s).cas = s.cas := rfl
@[simp] theorem raise_dmp (src addr k i : Nat) (s : State) : (raise src addr k i s).dmp = s.dmp := rfl
@[simp] theorem raise_sec (src addr k i : Nat) (s : State) : (raise src addr k i s).sec = s.sec := rfl
@[simp] theorem raise_shadow (src addr k i : Nat) (s : State) : (raise src addr k i s).shadow = s.shadow := rfl
@[simp] theorem raise_start (src addr k i : Nat) (s : State) : (raise src addr k i s).start = s.start := rfl
@[simp] theorem raise_regs (src addr k i : Nat) (s : State) : (raise src addr k i s).regs = s.regs := rfl
@[simp] theorem emit_pending (o : Out) (s : State) : (emit o s).pending = s.pending := rfl
@[simp] theorem emit_freeCtr (o : Out) (s : State) : (emit o s).freeCtr = s.freeCtr := rfl
@[simp] theorem emit_cnt (o : Out) (s : State) : (emit o s).cnt = s.cnt := rfl
@[simp] theorem emit_bus (o : Out) (s : State) : (emit o s).bus = s.bus := rfl
@[simp] theorem emit_mbx (o : Out) (s : State) : (emit o s).mbx = s.mbx := rfl
@[simp] theorem emit_rings (o : Out) (s : State) : (emit o s).rings = s.rings := rfl
@[simp] theorem emit_ports (o : Out) (s : State) : (emit o s).ports = s.ports := rfl
@[simp] theorem emit_glens (o : Out) (s : State) : (emit o s).glens = s.glens := rfl
@[simp] theorem emit_streams (o : Out) (s : State) : (emit o s).streams = s.streams := rfl
@[simp] theorem emit_bpm (o : Out) (s : State) : (emit o s).bpm = s.bpm := rfl
@[simp] theorem emit_bud (o : Out) (s : State) : (emit o s).bud = s.bud := rfl
@[simp] theorem emit_fcl (o : Out) (s : State) : (emit o s).fcl = s.fcl := rfl
@[simp] theorem emit_tim (o : Out) (s : State) : (emit o s).tim = s.tim := rfl
@[simp] theorem emit_gat (o : Out) (s : State) : (emit o s).gat = s.gat := rfl
@[simp] theorem emit_isl (o : Out) (s : State) : (emit o s).isl = s.isl := rfl
@[simp] theorem emit_col (o : Out) (s : State) : (emit o s).col = s.col := rfl
@[simp] theorem emit_path (o : Out) (s : State) : (emit o s).path = s.path := rfl
@[simp] theorem emit_sch (o : Out) (s : State) : (emit o s).sch = s.sch := rfl
@[simp] theorem emit_fre (o : Out) (s : State) : (emit o s).fre = s.fre := rfl
@[simp] theorem emit_fio (o : Out) (s : State) : (emit o s).fio = s.fio := rfl
@[simp] theorem emit_ucode (o : Out) (s : State) : (emit o s).ucode = s.ucode := rfl
@[simp] theorem emit_cas (o : Out) (s : State) : (emit o s).cas = s.cas := rfl
@[simp] theorem emit_dmp (o : Out) (s : State) : (emit o s).dmp = s.dmp := rfl
@[simp] theorem emit_sec (o : Out) (s : State) : (emit o s).sec = s.sec := rfl
@[simp] theorem emit_shadow (o : Out) (s : State) : (emit o s).shadow = s.shadow := rfl
@[simp] theorem emit_start (o : Out) (s : State) : (emit o s).start = s.start := rfl
@[simp] theorem emit_regs (o : Out) (s : State) : (emit o s).regs = s.regs := rfl
@[simp] theorem bump_pending (k i p w n : Nat) (s : State) : (bump k i p w n s).pending = s.pending := rfl
@[simp] theorem bump_freeCtr (k i p w n : Nat) (s : State) : (bump k i p w n s).freeCtr = s.freeCtr := rfl
@[simp] theorem bump_bus (k i p w n : Nat) (s : State) : (bump k i p w n s).bus = s.bus := rfl
@[simp] theorem bump_mbx (k i p w n : Nat) (s : State) : (bump k i p w n s).mbx = s.mbx := rfl
@[simp] theorem bump_out (k i p w n : Nat) (s : State) : (bump k i p w n s).out = s.out := rfl
@[simp] theorem bump_rings (k i p w n : Nat) (s : State) : (bump k i p w n s).rings = s.rings := rfl
@[simp] theorem bump_ports (k i p w n : Nat) (s : State) : (bump k i p w n s).ports = s.ports := rfl
@[simp] theorem bump_glens (k i p w n : Nat) (s : State) : (bump k i p w n s).glens = s.glens := rfl
@[simp] theorem bump_streams (k i p w n : Nat) (s : State) : (bump k i p w n s).streams = s.streams := rfl
@[simp] theorem bump_bpm (k i p w n : Nat) (s : State) : (bump k i p w n s).bpm = s.bpm := rfl
@[simp] theorem bump_bud (k i p w n : Nat) (s : State) : (bump k i p w n s).bud = s.bud := rfl
@[simp] theorem bump_fcl (k i p w n : Nat) (s : State) : (bump k i p w n s).fcl = s.fcl := rfl
@[simp] theorem bump_tim (k i p w n : Nat) (s : State) : (bump k i p w n s).tim = s.tim := rfl
@[simp] theorem bump_gat (k i p w n : Nat) (s : State) : (bump k i p w n s).gat = s.gat := rfl
@[simp] theorem bump_isl (k i p w n : Nat) (s : State) : (bump k i p w n s).isl = s.isl := rfl
@[simp] theorem bump_col (k i p w n : Nat) (s : State) : (bump k i p w n s).col = s.col := rfl
@[simp] theorem bump_path (k i p w n : Nat) (s : State) : (bump k i p w n s).path = s.path := rfl
@[simp] theorem bump_sch (k i p w n : Nat) (s : State) : (bump k i p w n s).sch = s.sch := rfl
@[simp] theorem bump_fre (k i p w n : Nat) (s : State) : (bump k i p w n s).fre = s.fre := rfl
@[simp] theorem bump_fio (k i p w n : Nat) (s : State) : (bump k i p w n s).fio = s.fio := rfl
@[simp] theorem bump_ucode (k i p w n : Nat) (s : State) : (bump k i p w n s).ucode = s.ucode := rfl
@[simp] theorem bump_cas (k i p w n : Nat) (s : State) : (bump k i p w n s).cas = s.cas := rfl
@[simp] theorem bump_dmp (k i p w n : Nat) (s : State) : (bump k i p w n s).dmp = s.dmp := rfl
@[simp] theorem bump_sec (k i p w n : Nat) (s : State) : (bump k i p w n s).sec = s.sec := rfl
@[simp] theorem bump_shadow (k i p w n : Nat) (s : State) : (bump k i p w n s).shadow = s.shadow := rfl
@[simp] theorem bump_start (k i p w n : Nat) (s : State) : (bump k i p w n s).start = s.start := rfl
@[simp] theorem bump_regs (k i p w n : Nat) (s : State) : (bump k i p w n s).regs = s.regs := rfl
@[simp] theorem setRing_pending (b : Nat) (r : RingSt) (s : State) : (setRing b r s).pending = s.pending := rfl
@[simp] theorem setRing_freeCtr (b : Nat) (r : RingSt) (s : State) : (setRing b r s).freeCtr = s.freeCtr := rfl
@[simp] theorem setRing_cnt (b : Nat) (r : RingSt) (s : State) : (setRing b r s).cnt = s.cnt := rfl
@[simp] theorem setRing_bus (b : Nat) (r : RingSt) (s : State) : (setRing b r s).bus = s.bus := rfl
@[simp] theorem setRing_mbx (b : Nat) (r : RingSt) (s : State) : (setRing b r s).mbx = s.mbx := rfl
@[simp] theorem setRing_out (b : Nat) (r : RingSt) (s : State) : (setRing b r s).out = s.out := rfl
@[simp] theorem setRing_ports (b : Nat) (r : RingSt) (s : State) : (setRing b r s).ports = s.ports := rfl
@[simp] theorem setRing_glens (b : Nat) (r : RingSt) (s : State) : (setRing b r s).glens = s.glens := rfl
@[simp] theorem setRing_streams (b : Nat) (r : RingSt) (s : State) : (setRing b r s).streams = s.streams := rfl
@[simp] theorem setRing_bpm (b : Nat) (r : RingSt) (s : State) : (setRing b r s).bpm = s.bpm := rfl
@[simp] theorem setRing_bud (b : Nat) (r : RingSt) (s : State) : (setRing b r s).bud = s.bud := rfl
@[simp] theorem setRing_fcl (b : Nat) (r : RingSt) (s : State) : (setRing b r s).fcl = s.fcl := rfl
@[simp] theorem setRing_tim (b : Nat) (r : RingSt) (s : State) : (setRing b r s).tim = s.tim := rfl
@[simp] theorem setRing_gat (b : Nat) (r : RingSt) (s : State) : (setRing b r s).gat = s.gat := rfl
@[simp] theorem setRing_isl (b : Nat) (r : RingSt) (s : State) : (setRing b r s).isl = s.isl := rfl
@[simp] theorem setRing_col (b : Nat) (r : RingSt) (s : State) : (setRing b r s).col = s.col := rfl
@[simp] theorem setRing_path (b : Nat) (r : RingSt) (s : State) : (setRing b r s).path = s.path := rfl
@[simp] theorem setRing_sch (b : Nat) (r : RingSt) (s : State) : (setRing b r s).sch = s.sch := rfl
@[simp] theorem setRing_fre (b : Nat) (r : RingSt) (s : State) : (setRing b r s).fre = s.fre := rfl
@[simp] theorem setRing_fio (b : Nat) (r : RingSt) (s : State) : (setRing b r s).fio = s.fio := rfl
@[simp] theorem setRing_ucode (b : Nat) (r : RingSt) (s : State) : (setRing b r s).ucode = s.ucode := rfl
@[simp] theorem setRing_cas (b : Nat) (r : RingSt) (s : State) : (setRing b r s).cas = s.cas := rfl
@[simp] theorem setRing_dmp (b : Nat) (r : RingSt) (s : State) : (setRing b r s).dmp = s.dmp := rfl
@[simp] theorem setRing_sec (b : Nat) (r : RingSt) (s : State) : (setRing b r s).sec = s.sec := rfl
@[simp] theorem setRing_shadow (b : Nat) (r : RingSt) (s : State) : (setRing b r s).shadow = s.shadow := rfl
@[simp] theorem setRing_start (b : Nat) (r : RingSt) (s : State) : (setRing b r s).start = s.start := rfl
@[simp] theorem setRing_regs (b : Nat) (r : RingSt) (s : State) : (setRing b r s).regs = s.regs := rfl

/-- A source raised is the last of those the collector has not yet taken. -/
@[simp] theorem raise_raised (src addr k i : Nat) (s : State) :
    (raise src addr k i s).fcl.raised = s.fcl.raised ++ [⟨src, addr, k, i, 7, 0, false⟩] := rfl
@[simp] theorem emit_out (o : Out) (s : State) : (emit o s).out = s.out ++ [o] := rfl

/-! ### Staged copies -/

/-- A read of a staged copy after a write of it (R431). -/
@[simp] theorem rdStg_wrStg_same (a : Nat) (v : Word) (s : State) : rdStg (wrStg a v s) a = v := by
  unfold rdStg wrStg
  show (tget none (tset none s.bus.staged (physAddr s a) (some v)) (physAddr s a)).getD _ = v
  rw [tget_tset_same]; rfl

theorem rdStg_wrStg_other (a b : Nat) (v : Word) (s : State) (h : a ≠ b) : rdStg (wrStg b v s) a = rdStg s a := by
  unfold rdStg wrStg
  show (tget none (tset none s.bus.staged (physAddr s b) (some v)) (physAddr s a)).getD _ = _
  rw [tget_tset_other _ _ _ _ _ _ (fun e => h (physAddr_inj s a b e))]; rfl

end Sys2Proof.Machine
end

