-- ==== Sys2Proof/Safety.lean ====
section
/-! DEFINITION. The terms in which claims about the block are made: when a mailbox carries a command to firmware and
firmware executes it, where the response is then found, and what two states have in common that differ only in what
carries commands. -/

namespace Sys2Proof.Machine
open Sys2Proof

/-- The pulse cells that carry doorbells to the MP (R64). -/
def doorbellCells : List Nat := [279, 280, 293, 296]

/-- The registers of the mailbox pages (R418), which carry commands and responses, and the transfer counts of the cells that
carry doorbells. -/
def carrierReg (a : Nat) : Bool :=
  (decide (mbxBase + 0x100 ≤ a) && decide (a < mbxBase + 0x240)) || doorbellCells.any (fun c => a == cellXfer c)

/-- A state without what carries commands: the mailbox areas, rings and queues, the doorbells' cells, the journal's count of bytes and
transactions, the shadow, the log of what left the block, and the register file, which claims read with `rd`. -/
def own (s : State) : State :=
  { s with
    freeCtr := 0, regs := [], out := [], shadow := State.reset.shadow
    rings := s.rings.filter (fun q => !carrierReg q.1)
    col := { s.col with cells := s.col.cells.filter (fun q => !doorbellCells.contains q.1) }
    mbx := { s.mbx with ringMem := [], mb2 := [], early := [], area := [], resp := [], shUsed := 0, txn := 0, waits := [] }
    cas := { s.cas with resp := [] } }

/-- `t` differs from `u` in nothing but what carries commands. -/
def Same (u t : State) : Prop := own u = own t ∧ ∀ a, carrierReg a = false → rd t a = rd u a

/-- The mailbox takes the command at once and firmware executes it (R393 to R395, R403): in register mode BUSY is clear;
in ring mode nothing waits before it and the response ring has room; on MB2 the session has no command waiting. -/
def carries (f : Frame) (s : State) : Bool :=
  fwTakes s f.mb &&
  (if f.mb = 2 then decide (mb2Of s f.partner = [])
   else if mbRing s f.mb then decide (cmdWaiting s f.mb = 0) && rspRoom s f.mb && !forwards s f.mb
   else !mbBusy s f.mb)

/-- A command that passes the checks of R390 which are common to all: it is well formed, its mailbox carries it, checks 1
and 3 to 5 find nothing, the start stage allows it (R403, R467), a write has room in the shadow (R409), and no command of
another mailbox holds a lock that it takes (R401). -/
def Ready (ci : CmdInfo) (f : Frame) (s : State) : Prop :=
  f.wf = true ∧ carries f s = true ∧ headerFault ci f s = none ∧ stageBars ci s = false ∧
  (ci.write = true → s.mbx.shUsed < shadowBytes) ∧ lockedOut s (mbKey f) ci.op = false

/-- The state in which firmware begins a command that its mailbox carries: the command lies in the area with BUSY set
(R393), or in the ring with CMD_PROD and CMD_CONS past it (R394); an MB2 command leaves no trace in a mailbox (R395). -/
def begun (ci : CmdInfo) (f : Frame) (s : State) : State :=
  if f.mb = 2 then s
  else if mbRing s f.mb then
    inc (mbxReg f.mb mbxCmdConsOff) (inc (mbxReg f.mb mbxCmdProdOff)
      (writeSlot f.mb (rd s (mbxReg f.mb mbxCmdProdOff)).toNat (frameWords ci.op f) s))
  else rung f.mb (wrBit (mbxReg f.mb mbxStatOff) 0 true (writeArea f.mb (frameWords ci.op f) s))

/-- The words of the response (R389) to the command of frame `f` with result `r`. -/
def replyWords (op : Nat) (f : Frame) (r : CmdRes) : List Word :=
  responseWords op f.tag (rd r.st (mbxReg f.mb mbxSeqOff) + 1).toNat (netNanos r.st) r

/-- The response is where the command's mailbox has it (R393 to R395), firmware having left `r.st`: RESP_SEQ has risen by
one; the response lies in the response area with BUSY clear and DONE set; or in the response ring with RSP_PROD advanced
past it; or among the responses on their way to the session. -/
def Answered (op : Nat) (f : Frame) (r : CmdRes) (ring : Bool) (u : State) : Prop :=
  rd u (mbxReg f.mb mbxSeqOff) = rd r.st (mbxReg f.mb mbxSeqOff) + 1 ∧
  (if f.mb = 2 then u.cas.resp = r.st.cas.resp ++ [(f.partner, replyWords op f r)]
   else if ring then
     Out.ring (mbxReg f.mb mbxRspBaseOff) (rd r.st (mbxReg f.mb mbxRspProdOff)).toNat true
       (rspAddr r.st f.mb (rd r.st (mbxReg f.mb mbxRspProdOff)).toNat) (replyWords op f r) ∈ u.out ∧
     rd u (mbxReg f.mb mbxRspProdOff) = rd r.st (mbxReg f.mb mbxRspProdOff) + 1
   else tget [] u.mbx.resp f.mb = replyWords op f r ∧
     mbBusy u f.mb = false ∧ rdBit u (mbxReg f.mb mbxStatOff) 1 = true)

/-- The command `c`, which frame `f` carries, is answered with the result `res` of the state in which firmware began:
`exec` answers a next state, the response says what the result says, and what is left is what the result leaves, but for
what carries commands.  A response of MB2 goes out with `sendResponses`. -/
def Answers (ci : CmdInfo) (c : Instr) (f : Frame) (s : State) (res : State → CmdRes) : Prop :=
  ∃ u, exec c s = .next (sendResponses u) ∧ Answered ci.op f (res (begun ci f s)) (mbRing s f.mb) u ∧
    Same (res (begun ci f s)).st u

/-- The command completes with that result: it is answered so, and its STATUS is no error. -/
def Completes (ci : CmdInfo) (c : Instr) (f : Frame) (s : State) (res : State → CmdRes) : Prop :=
  (res (begun ci f s)).status < 0x10 ∧ Answers ci c f s res

/-- The command stages words in the units of SCOPE, by `stg`, and commits their group: it is answered with `res`; and where
SCOPE names one of the `n` units and nothing refuses that commit, `fails` finding nothing and no staged copy of the group
having bad parity (R430, R431), it completes. -/
def Commits (ci : CmdInfo) (c : Instr) (f : Frame) (s : State) (res : State → CmdRes) (n : Nat) (stg : Nat → State → State)
    (fails : State → Nat → List Nat) (group : Nat → Nat → Bool) : Prop :=
  Answers ci c f s res ∧
  ∀ u < n, f.scope = 2 ^ u → fails (stg u (begun ci f s)) u = [] → stagedBad (group u) (stg u (begun ci f s)) = false →
    Completes ci c f s res

/-! ### Register accesses -/

/-- A dword access of master `m` at address `a` reaches register `t`: there is no bus error (R424), no field is guarded
from the master (R426), and the register belongs to no unused port number (R5). -/
def Reaches (s : State) (m a : Nat) (t : Target) : Prop :=
  m ≤ 4 ∧ busTarget s m a true = .ok t ∧ hiddenBits s m t.blk t.reg = 0 ∧ namesUnused s t = false

/-- A write of `v` to the register `t`, completed with the effect `act`: where the register is not staged its parity is
fresh (R428), the write is posted to the shadow log (R406), and the master has its completion. -/
def written (m : Nat) (t : Target) (v : Word) (act : State → State) (s : State) : State :=
  answer m ⟨true, []⟩ (postLog m t v (act (if t.reg.act = .staged then s else parityFresh t.addr s)))

/-- The command is such a write. -/
def Writes (c : Instr) (s : State) (m : Nat) (t : Target) (v : Word) (act : State → State) : Prop :=
  exec c s = .next (written m t v act s)

/-- The command is a read of the register `t` that is completed: the master has the word, and the state that the read
effect leaves. -/
def Reads (c : Instr) (s : State) (m : Nat) (t : Target) (word : State → Word) (act : State → State) : Prop :=
  exec c s = .next (answer m ⟨true, [word (parityRead t s)]⟩ (act (parityRead t s)))

/-! ### The catalogue's commands -/

def commandRows0 : List (CmdInfo × (Frame → Instr)) := [
  (ciHello, .hello), (ciEngineInfo, .engineInfo), (ciCmdStatus, .cmdStatus), (ciXferWrite, .xferWrite),
  (ciSessionList, .sessionList), (ciShadowInfo, .shadowInfo), (ciShadowDigest, .shadowDigest), (ciNop, .nop),
  (ciPortCreate, .portCreate), (ciPortDelete, .portDelete), (ciPortAdmin, .portAdmin), (ciPortStatus, .portStatus),
  (ciMcastGroupSet, .mcastGroupSet), (ciMcastGroupRead, .mcastGroupRead), (ciMirrorCfg, .mirrorCfg),
  (ciEmTableCfg, .emTableCfg), (ciEmKeyLayout, .emKeyLayout), (ciEmPortCfg, .emPortCfg), (ciTblInsert, .tblInsert),
  (ciTblDelete, .tblDelete), (ciTblLookup, .tblLookup), (ciTblFlush, .tblFlush), (ciTblBulkInsert, .tblBulkInsert),
  (ciTblIterate, .tblIterate)]
def commandRows1 : List (CmdInfo × (Frame → Instr)) := [
  (ciLearnRingCfg, .learnRingCfg), (ciLearnPolicy, .learnPolicy), (ciAgeCfg, .ageCfg),
  (ciGlenBudgetSet, .glenBudgetSet), (ciTblCapacity, .tblCapacity), (ciLpmKeyLayout, .lpmKeyLayout),
  (ciLpmPortVrf, .lpmPortVrf), (ciRouteAdd, .routeAdd), (ciRouteDelete, .routeDelete), (ciRouteLookup, .routeLookup),
  (ciRouteBulk, .routeBulk), (ciNexthopSet, .nexthopSet), (ciRouteCapacity, .routeCapacity),
  (ciTcamKeyLayout, .tcamKeyLayout), (ciTcamRuleWrite, .tcamRuleWrite), (ciTcamRuleDelete, .tcamRuleDelete),
  (ciTcamRuleReplace, .tcamRuleReplace), (ciTcamActionSet, .tcamActionSet), (ciTcamRuleRead, .tcamRuleRead),
  (ciTcamSearch, .tcamSearch), (ciTcamScrubCfg, .tcamScrubCfg), (ciStreamKeyLayout, .streamKeyLayout),
  (ciStreamIdAdd, .streamIdAdd), (ciStreamIdDelete, .streamIdDelete)]
def commandRows2 : List (CmdInfo × (Frame → Instr)) := [
  (ciStreamCtxSet, .streamCtxSet), (ciStreamCtxRead, .streamCtxRead), (ciStreamUnblock, .streamUnblock),
  (ciStreamGateSet, .streamGateSet), (ciStreamCapacity, .streamCapacity), (ciMeterSet, .meterSet),
  (ciMeterRead, .meterRead), (ciTenantPolicerMap, .tenantPolicerMap), (ciColourMapSet, .colourMapSet),
  (ciHistEdgesSet, .histEdgesSet), (ciHistRead, .histRead), (ciBpmPoolLayout, .bpmPoolLayout),
  (ciBpmQuotaSet, .bpmQuotaSet), (ciBpmStatus, .bpmStatus), (ciBpmBudgetSet, .bpmBudgetSet),
  (ciBpmYellowKeep, .bpmYellowKeep), (ciBpmAudit, .bpmAudit), (ciBpmCapacity, .bpmCapacity),
  (ciSchPortSet, .schPortSet), (ciSchNodeSet, .schNodeSet), (ciSchTenantMap, .schTenantMap),
  (ciSchQueueSet, .schQueueSet), (ciShaperSet, .shaperSet), (ciShaperRead, .shaperRead)]
def commandRows3 : List (CmdInfo × (Frame → Instr)) := [
  (ciSchQueueRead, .schQueueRead), (ciSchSampleCfg, .schSampleCfg), (ciSchBudgetSet, .schBudgetSet),
  (ciSchNodeRehome, .schNodeRehome), (ciSchCapacity, .schCapacity), (ciSchQueueFlush, .schQueueFlush),
  (ciTimeGet, .timeGet), (ciTimeSet, .timeSet), (ciTimeStep, .timeStep), (ciTimeSlew, .timeSlew),
  (ciTimeSource, .timeSource), (ciTimePpsCfg, .timePpsCfg), (ciTimePortAdj, .timePortAdj),
  (ciPtpInstanceSet, .ptpInstanceSet), (ciGateListSet, .gateListSet), (ciGateListRead, .gateListRead),
  (ciGatePortCfg, .gatePortCfg), (ciGateListDiscard, .gateListDiscard), (ciFrePortCfg, .frePortCfg),
  (ciFreHandleMap, .freHandleMap), (ciFreGenSet, .freGenSet), (ciFreRcvSet, .freRcvSet), (ciFreRcvRead, .freRcvRead),
  (ciFreRcvReset, .freRcvReset)]
def commandRows4 : List (CmdInfo × (Frame → Instr)) := [
  (ciFreDupCfg, .freDupCfg), (ciFreDupStatus, .freDupStatus), (ciUcodePatchLoad, .ucodePatchLoad),
  (ciUcodePatchSwitch, .ucodePatchSwitch), (ciUcodePatchRevert, .ucodePatchRevert), (ciUcodeQuery, .ucodeQuery),
  (ciPortParseProfile, .portParseProfile), (ciRwePortProfile, .rwePortProfile), (ciFiCfg, .fiCfg),
  (ciFiRead, .fiRead), (ciFioPubSet, .fioPubSet), (ciFioGooseTemplate, .fioGooseTemplate),
  (ciFioEventRingCfg, .fioEventRingCfg), (ciFioUtcOffset, .fioUtcOffset), (ciFoCfg, .foCfg), (ciFoForce, .foForce),
  (ciFoTimeEvent, .foTimeEvent), (ciFoRelease, .foRelease), (ciFoRead, .foRead), (ciCasRoleSet, .casRoleSet),
  (ciCasDeviceId, .casDeviceId), (ciCasPortCfg, .casPortCfg), (ciCasBudgetSet, .casBudgetSet),
  (ciCasRelayCfg, .casRelayCfg)]
def commandRows5 : List (CmdInfo × (Frame → Instr)) := [
  (ciCasJoinCfg, .casJoinCfg), (ciCasLeave, .casLeave), (ciCasSessionRead, .casSessionRead),
  (ciCasForward, .casForward), (ciCasWorkerList, .casWorkerList), (ciFaultStatus, .faultStatus),
  (ciFaultLog, .faultLog), (ciFaultAck, .faultAck), (ciFaultSrcCfg, .faultSrcCfg), (ciFaultWindow, .faultWindow),
  (ciUnitDrain, .unitDrain), (ciUnitTest, .unitTest), (ciUnitReturn, .unitReturn), (ciUnitStatus, .unitStatus),
  (ciRehome, .rehome), (ciFaultInject, .faultInject), (ciFaultLock, .faultLock), (ciDumpSetCfg, .dumpSetCfg),
  (ciDumpRingCfg, .dumpRingCfg), (ciDumpNow, .dumpNow), (ciDumpRead, .dumpRead), (ciCounterRead, .counterRead),
  (ciSampleRingCfg, .sampleRingCfg), (ciPktSampleCfg, .pktSampleCfg)]
def commandRows6 : List (CmdInfo × (Frame → Instr)) := [
  (ciOvfSampleCfg, .ovfSampleCfg), (ciSlotRead, .slotRead), (ciStartStatus, .startStatus), (ciFwRestart, .fwRestart),
  (ciFwBoot, .fwBoot), (ciFwImageWrite, .fwImageWrite), (ciFwSlotSelect, .fwSlotSelect),
  (ciPrimroseHandover, .primroseHandover), (ciStartRetry, .startRetry), (ciIdCertRead, .idCertRead),
  (ciMeasurementRead, .measurementRead), (ciOwnerCertSet, .ownerCertSet), (ciOwnerCertClear, .ownerCertClear),
  (ciSvnCommit, .svnCommit), (ciSpdmMsg, .spdmMsg), (ciDebugUnlock, .debugUnlock), (ciDebugLock, .debugLock),
  (ciDebugPolicy, .debugPolicy), (ciIslCfgSet, .islCfgSet), (ciIslStatus, .islStatus), (ciIslCeilTime, .islCeilTime),
  (ciIslLoopTiming, .islLoopTiming), (ciIslCeilRearm, .islCeilRearm), (ciColStallCfg, .colStallCfg)]
def commandRows7 : List (CmdInfo × (Frame → Instr)) := [
  (ciColStatus, .colStatus), (ciColRearm, .colRearm)]
/-- Every command of the catalogue (R411 to R417): its row of the catalogue, and the command that carries a frame of it. -/
def commandRows : List (CmdInfo × (Frame → Instr)) :=
  commandRows0 ++ commandRows1 ++ commandRows2 ++ commandRows3 ++ commandRows4 ++ commandRows5 ++ commandRows6 ++ commandRows7

end Sys2Proof.Machine
end

