-- ==== Sys2Proof/Laws/Mailbox.lean ====
section
/-! SUPPORT. A command's way through its mailbox, said once: what a command that passes the common checks leaves, from the
result of its own chapter's part. -/

namespace Sys2Proof.Machine
open Sys2Proof

/-! ### States that differ in nothing but what carries commands -/

theorem same_refl (s : State) : Same s s := ⟨rfl, fun _ _ => rfl⟩
theorem same_symm {s t : State} (h : Same s t) : Same t s := ⟨h.1.symm, fun a ha => (h.2 a ha).symm⟩
theorem same_trans {s t u : State} (h : Same s t) (k : Same t u) : Same s u :=
  ⟨h.1.trans k.1, fun a ha => (k.2 a ha).trans (h.2 a ha)⟩

theorem same_pending {s t : State} (h : Same s t) : t.pending = s.pending := (congrArg State.pending h.1).symm
theorem same_cnt {s t : State} (h : Same s t) : t.cnt = s.cnt := (congrArg State.cnt h.1).symm
theorem same_bus {s t : State} (h : Same s t) : t.bus = s.bus := (congrArg State.bus h.1).symm
theorem same_ports {s t : State} (h : Same s t) : t.ports = s.ports := (congrArg State.ports h.1).symm
theorem same_glens {s t : State} (h : Same s t) : t.glens = s.glens := (congrArg State.glens h.1).symm
theorem same_streams {s t : State} (h : Same s t) : t.streams = s.streams := (congrArg State.streams h.1).symm
theorem same_bpm {s t : State} (h : Same s t) : t.bpm = s.bpm := (congrArg State.bpm h.1).symm
theorem same_bud {s t : State} (h : Same s t) : t.bud = s.bud := (congrArg State.bud h.1).symm
theorem same_fcl {s t : State} (h : Same s t) : t.fcl = s.fcl := (congrArg State.fcl h.1).symm
theorem same_tim {s t : State} (h : Same s t) : t.tim = s.tim := (congrArg State.tim h.1).symm
theorem same_gat {s t : State} (h : Same s t) : t.gat = s.gat := (congrArg State.gat h.1).symm
theorem same_isl {s t : State} (h : Same s t) : t.isl = s.isl := (congrArg State.isl h.1).symm
theorem same_stopped {s t : State} (h : Same s t) : t.col.stopped = s.col.stopped := (congrArg (fun x => x.col.stopped) h.1).symm
theorem same_path {s t : State} (h : Same s t) : t.path = s.path := (congrArg State.path h.1).symm
theorem same_sch {s t : State} (h : Same s t) : t.sch = s.sch := (congrArg State.sch h.1).symm
theorem same_fre {s t : State} (h : Same s t) : t.fre = s.fre := (congrArg State.fre h.1).symm
theorem same_fio {s t : State} (h : Same s t) : t.fio = s.fio := (congrArg State.fio h.1).symm
theorem same_ucode {s t : State} (h : Same s t) : t.ucode = s.ucode := (congrArg State.ucode h.1).symm
theorem same_dmp {s t : State} (h : Same s t) : t.dmp = s.dmp := (congrArg State.dmp h.1).symm
theorem same_sec {s t : State} (h : Same s t) : t.sec = s.sec := (congrArg State.sec h.1).symm
theorem same_start {s t : State} (h : Same s t) : t.start = s.start := (congrArg State.start h.1).symm
theorem same_mbx_sess {s t : State} (h : Same s t) : t.mbx.sess = s.mbx.sess := (congrArg (fun x => x.mbx.sess) h.1).symm
theorem same_mbx_opened {s t : State} (h : Same s t) : t.mbx.opened = s.mbx.opened := (congrArg (fun x => x.mbx.opened) h.1).symm
theorem same_mbx_xfer {s t : State} (h : Same s t) : t.mbx.xfer = s.mbx.xfer := (congrArg (fun x => x.mbx.xfer) h.1).symm
theorem same_mbx_pend {s t : State} (h : Same s t) : t.mbx.pend = s.mbx.pend := (congrArg (fun x => x.mbx.pend) h.1).symm
theorem same_mbx_nextPend {s t : State} (h : Same s t) : t.mbx.nextPend = s.mbx.nextPend := (congrArg (fun x => x.mbx.nextPend) h.1).symm
theorem same_mbx_log {s t : State} (h : Same s t) : t.mbx.log = s.mbx.log := (congrArg (fun x => x.mbx.log) h.1).symm
theorem same_mbx_gateStg {s t : State} (h : Same s t) : t.mbx.gateStg = s.mbx.gateStg := (congrArg (fun x => x.mbx.gateStg) h.1).symm
theorem same_cas_sess {s t : State} (h : Same s t) : t.cas.sess = s.cas.sess := (congrArg (fun x => x.cas.sess) h.1).symm
theorem same_cas_join {s t : State} (h : Same s t) : t.cas.join = s.cas.join := (congrArg (fun x => x.cas.join) h.1).symm
theorem same_cas_prio {s t : State} (h : Same s t) : t.cas.prio = s.cas.prio := (congrArg (fun x => x.cas.prio) h.1).symm
theorem same_cas_allow {s t : State} (h : Same s t) : t.cas.allow = s.cas.allow := (congrArg (fun x => x.cas.allow) h.1).symm
theorem same_cas_lost {s t : State} (h : Same s t) : t.cas.lost = s.cas.lost := (congrArg (fun x => x.cas.lost) h.1).symm
theorem same_cas_refused {s t : State} (h : Same s t) : t.cas.refused = s.cas.refused := (congrArg (fun x => x.cas.refused) h.1).symm
theorem same_cas_nextSess {s t : State} (h : Same s t) : t.cas.nextSess = s.cas.nextSess := (congrArg (fun x => x.cas.nextSess) h.1).symm
theorem same_cas_frags {s t : State} (h : Same s t) : t.cas.frags = s.cas.frags := (congrArg (fun x => x.cas.frags) h.1).symm
theorem same_cas_fwd {s t : State} (h : Same s t) : t.cas.fwd = s.cas.fwd := (congrArg (fun x => x.cas.fwd) h.1).symm
theorem same_cas_hello {s t : State} (h : Same s t) : t.cas.hello = s.cas.hello := (congrArg (fun x => x.cas.hello) h.1).symm

/-! ### What carries a command is no part of the rest -/

theorem same_of {s t : State} (h : own s = own t) (hr : ∀ a, carrierReg a = false → rd t a = rd s a) : Same s t := ⟨h, hr⟩

theorem same_wr {a : Nat} (v : Word) (s : State) (h : carrierReg a = true) : Same s (wr a v s) :=
  ⟨rfl, fun b hb => rd_wr_other b a v s (fun e => by rw [e, h] at hb; cases hb)⟩

theorem same_setRing {b : Nat} (r : RingSt) (s : State) (h : carrierReg b = true) : Same s (setRing b r s) := by
  refine ⟨?_, fun _ _ => rfl⟩
  have e : (tset ringRest s.rings b r).filter (fun q => !carrierReg q.1) = s.rings.filter (fun q => !carrierReg q.1) :=
    filter_tset ringRest s.rings b r (fun k => !carrierReg k) (by simp [h])
  unfold own setRing
  simp only [e]

theorem same_emit (o : Out) (s : State) : Same s (emit o s) := ⟨rfl, fun a _ => rd_emit o a s⟩

theorem carrier_mbxReg (m off : Nat) (hm : m ≤ 4) (ho : off < 0x40) : carrierReg (mbxReg m off) = true := by
  have h1 : mbxBase + 0x100 ≤ mbxReg m off := by unfold mbxReg; omega
  have h2 : mbxReg m off < mbxBase + 0x240 := by unfold mbxReg; omega
  unfold carrierReg
  rw [decide_eq_true h1, decide_eq_true h2]; rfl

theorem mbxReg_ne (m n a b : Nat) (ha : a < 0x40) (hb : b < 0x40) (h : a ≠ b) : mbxReg m a ≠ mbxReg n b := by
  unfold mbxReg; omega

/-- A doorbell changes its cell and nothing else. -/
theorem doorbellCell_mem {m c : Nat} (h : doorbellCell m = some c) : c ∈ doorbellCells := by
  unfold doorbellCell at h; split at h <;> simp_all [doorbellCells]

theorem carrier_xfer {c : Nat} (h : c ∈ doorbellCells) : carrierReg (cellXfer c) = true := by
  have e : doorbellCells.any (fun d => cellXfer c == cellXfer d) = true := List.any_eq_true.mpr ⟨c, h, beq_self_eq_true _⟩
  unfold carrierReg
  rw [e, Bool.or_true]

theorem same_cell (s : State) {c : Nat} (x : ColCell) (h : c ∈ doorbellCells) :
    Same s { s with col := { s.col with cells := tset idleCell s.col.cells c x } } := by
  have e : (tset idleCell s.col.cells c x).filter (fun q => !doorbellCells.contains q.1) =
      s.col.cells.filter (fun q => !doorbellCells.contains q.1) :=
    filter_tset idleCell s.col.cells c x (fun k => !doorbellCells.contains k) (by simp [h])
  refine ⟨?_, fun _ _ => rd_congr _ _ _ rfl rfl⟩
  unfold own
  simp only [e]

theorem same_rung (m : Nat) (s : State) : Same s (rung m s) := by
  unfold rung
  split
  · rename_i c h
    exact same_trans (same_cell s _ (doorbellCell_mem h)) (same_wr _ _ (carrier_xfer (doorbellCell_mem h)))
  · exact same_refl s

/-! ### Taking the command -/

theorem same_begun (ci : CmdInfo) (f : Frame) (s : State) (hm : f.mb ≤ 4) : Same s (begun ci f s) := by
  unfold begun
  split
  · exact same_refl s
  · split
    · refine same_trans (t := writeSlot f.mb (rd s (mbxReg f.mb mbxCmdProdOff)).toNat (frameWords ci.op f) s) ⟨rfl, fun _ _ => rfl⟩ ?_
      exact same_trans (same_wr _ _ (carrier_mbxReg _ _ hm (by decide))) (same_wr _ _ (carrier_mbxReg _ _ hm (by decide)))
    · exact same_trans (t := writeArea f.mb (frameWords ci.op f) s) ⟨rfl, fun _ _ => rfl⟩
        (same_trans (same_wr _ _ (carrier_mbxReg _ _ hm (by decide))) (same_rung _ _))

/-- The area written and BUSY set. -/
theorem taken_same (ci : CmdInfo) (f : Frame) (s : State) (hm : f.mb ≤ 4) :
    Same s (wrBit (mbxReg f.mb mbxStatOff) 0 true (writeArea f.mb (frameWords ci.op f) s)) :=
  same_trans (t := writeArea f.mb (frameWords ci.op f) s) ⟨rfl, fun _ _ => rfl⟩
    (same_wr _ _ (carrier_mbxReg _ _ hm (by decide)))

/-- The common checks see nothing of what carries a command. -/
theorem same_sessOf {s t : State} (h : Same s t) (f : Frame) : sessOf t f = sessOf s f := by
  unfold sessOf; rw [same_mbx_sess h]

theorem same_rdF {s t : State} (h : Same s t) (a lo n : Nat) (ha : carrierReg a = false) : rdF t a lo n = rdF s a lo n := by
  unfold rdF; rw [h.2 a ha]
theorem same_rdBit {s t : State} (h : Same s t) (a i : Nat) (ha : carrierReg a = false) : rdBit t a i = rdBit s a i := by
  unfold rdBit; rw [h.2 a ha]

theorem same_mbPrivileged {s t : State} (h : Same s t) (f : Frame) : mbPrivileged t f = mbPrivileged s f := by
  unfold mbPrivileged dbgUnlocked casSessUp
  rw [same_rdBit h _ _ (by decide), same_rdBit h _ _ (by decide)]

theorem same_admitted {s t : State} (h : Same s t) (ci : CmdInfo) (f : Frame) : admitted ci t f = admitted ci s f := by
  have e : chapterAdmits ci.admits t f = chapterAdmits ci.admits s f := by
    unfold chapterAdmits dbgUnlocked casSessUp
    rw [same_rdBit h _ _ (by decide), same_rdBit h _ _ (by decide)]
  unfold admitted
  rw [same_mbPrivileged h, e]

theorem same_headerFault {s t : State} (h : Same s t) (ci : CmdInfo) (f : Frame) :
    headerFault ci f t = headerFault ci f s := by
  have e : casActive t = casActive s := by unfold casActive; rw [same_rdF h _ _ _ (by decide)]
  unfold headerFault
  rw [same_sessOf h, same_admitted h, e]

theorem same_fwTakes {s t : State} (h : Same s t) (m : Nat) : fwTakes t m = fwTakes s m := by
  unfold fwTakes fwUp fwStage
  rw [same_rdBit h _ _ (by decide), same_rdF h _ _ _ (by decide), same_stopped h]

theorem same_stageBars {s t : State} (h : Same s t) (ci : CmdInfo) : stageBars ci t = stageBars ci s := by
  unfold stageBars fwStage fwRestored
  rw [same_rdF h _ _ _ (by decide), same_rdBit h _ _ (by decide)]

/-- Taking a command leaves the shadow's count of bytes. -/
theorem rung_mbx (m : Nat) (s : State) : (rung m s).mbx = s.mbx := by unfold rung; split <;> rfl
theorem rung_cas (m : Nat) (s : State) : (rung m s).cas = s.cas := by unfold rung; split <;> rfl
theorem begun_shUsed (ci : CmdInfo) (f : Frame) (s : State) : (begun ci f s).mbx.shUsed = s.mbx.shUsed := by
  unfold begun; split
  · rfl
  · split
    · rfl
    · rw [rung_mbx]; rfl

/-! ### Firmware's run -/

theorem same_journal (old s : State) : Same s (journal (keepShadow old s)) := ⟨rfl, fun _ _ => rfl⟩

/-- The results of a chapter's part that firmware takes over as they are: no error, E_AUTH, or an error that leaves the
state in which firmware began. -/
def keeps (b : State) (r : CmdRes) : Prop :=
  r.status < 0x10 ∨ r.status = eAuth ∨ (0x10 ≤ r.status ∧ later r.status = false ∧ r.st = b)

theorem later_of_lt {c : Nat} (h : c < 0x10) : later c = false := by
  unfold later; simp only [decide_eq_false_iff_not]; have : stWait = 0xFE := rfl; omega

theorem keeps_later {b : State} {r : CmdRes} (h : keeps b r) : later r.status = false := by
  obtain h | h | ⟨_, h, _⟩ := h
  · exact later_of_lt h
  · rw [h]; decide
  · exact h

/-- A command that passes the common checks and that its own chapter takes, or refuses for its signature: firmware answers
what the body answers, and leaves what it leaves. -/
theorem firmwareRun_takes {ci : CmdInfo} {body : Body} {f : Frame} {s : State} (h1 : headerFault ci f s = none)
    (h2 : stageBars ci s = false) (h3 : ci.write = true → s.mbx.shUsed < shadowBytes)
    (hs : keeps s (body (sessOf s f).agreed f s)) :
    (firmwareRun ci body f s).status = (body (sessOf s f).agreed f s).status ∧
    (firmwareRun ci body f s).detail = (body (sessOf s f).agreed f s).detail ∧
    (firmwareRun ci body f s).words = (body (sessOf s f).agreed f s).words ∧
    Same (body (sessOf s f).agreed f s).st (firmwareRun ci body f s).st ∧
    (∀ a, rd (firmwareRun ci body f s).st a = rd (body (sessOf s f).agreed f s).st a) ∧
    (firmwareRun ci body f s).st.cas.resp = (body (sessOf s f).agreed f s).st.cas.resp := by
  unfold firmwareRun
  simp only [h1, h2, Bool.false_and, Bool.false_eq_true, if_false]
  generalize body (sessOf s f).agreed f s = r at hs ⊢
  obtain hs | hs | ⟨h4, h5, h6⟩ := hs
  · have hl : later r.status = false := later_of_lt hs
    cases hw : ci.write
    · simp [hl, hs]
      exact same_refl _
    · have hu : ¬ shadowBytes ≤ s.mbx.shUsed := Nat.not_le.mpr (h3 hw)
      simp only [hu, hl, hs, decide_false, decide_true, Bool.and_true, Bool.and_false, Bool.false_eq_true, if_false, if_true]
      exact ⟨trivial, trivial, trivial, same_journal _ _, fun _ => rfl, rfl⟩
  · have h4 : ¬ eAuth < 0x10 := by decide
    have h5 : later eAuth = false := by decide
    simp only [hs, h4, h5, decide_false, Bool.and_false, Bool.false_eq_true, if_false, if_true]
    exact ⟨trivial, trivial, trivial, same_refl _, fun _ => trivial, trivial⟩
  · have h7 : ¬ r.status < 0x10 := Nat.not_lt.mpr h4
    simp only [h5, h7, decide_false, Bool.and_false, Bool.false_eq_true, if_false]
    split
    · exact ⟨rfl, rfl, rfl, same_refl _, fun _ => rfl, rfl⟩
    · rw [h6]; exact ⟨rfl, rfl, rfl, same_refl _, fun _ => rfl, rfl⟩

/-- A command that has its locks, and whose answer does not come later, is run. -/
theorem takeCommand_now {ci : CmdInfo} {body : Body} {f : Frame} {s : State} (hl : lockedOut s (mbKey f) ci.op = false)
    (hn : later (firmwareRun ci body f s).status = false) : takeCommand ci body f s = firmwareRun ci body f s := by
  simp only [takeCommand, hl, hn, Bool.false_eq_true, if_false]

theorem lockedOut_begun (ci : CmdInfo) (f : Frame) (s : State) (k op : Nat) :
    lockedOut (begun ci f s) k op = lockedOut s k op := by
  unfold lockedOut
  have : (begun ci f s).mbx.waits = s.mbx.waits := by
    unfold begun
    split
    · rfl
    · split
      · rfl
      · unfold rung; split <;> rfl
  rw [this]

/-- A mailbox's key leaves the list of commands that wait: nothing but what carries commands. -/
theorem same_answered (k : Nat) (s : State) : Same s (answered k s) := ⟨rfl, fun _ _ => rfl⟩
theorem rd_answered (k : Nat) (s : State) (a : Nat) : rd (answered k s) a = rd s a := rfl

/-! ### The response -/

/-- A completion signal only hands something to the outside. -/
theorem completionSignal_out (m : Nat) (s : State) : ∃ os, completionSignal m s = { s with out := s.out ++ os } := by
  unfold completionSignal
  split
  · split
    · exact ⟨_, rfl⟩
    · split
      · exact ⟨_, rfl⟩
      · split
        · exact ⟨_, rfl⟩
        · exact ⟨[], by simp⟩
  · exact ⟨[], by simp⟩

theorem ringSignal_out (m : Nat) (s : State) :
    ∃ os r, ringSignal m s = { setRing (mbxReg m mbxRingCfgOff) r s with out := s.out ++ os } := by
  unfold ringSignal
  dsimp only
  have yes : ∃ os r, completionSignal m (setRing (mbxReg m mbxRingCfgOff)
      { ringSt s (mbxReg m mbxRingCfgOff) with lastIrq := some s.tim.cnt, advanced := false } s) =
      { setRing (mbxReg m mbxRingCfgOff) r s with out := s.out ++ os } := by
    obtain ⟨os, e⟩ := completionSignal_out m (setRing (mbxReg m mbxRingCfgOff)
      { ringSt s (mbxReg m mbxRingCfgOff) with lastIrq := some s.tim.cnt, advanced := false } s)
    rw [e]; exact ⟨os, _, rfl⟩
  have no : ∃ os r, setRing (mbxReg m mbxRingCfgOff) { ringSt s (mbxReg m mbxRingCfgOff) with advanced := true } s =
      { setRing (mbxReg m mbxRingCfgOff) r s with out := s.out ++ os } :=
    ⟨[], { ringSt s (mbxReg m mbxRingCfgOff) with advanced := true }, by simp [setRing]⟩
  split
  · exact yes
  · split
    · exact yes
    · exact no

theorem same_out (s : State) (os : List Out) : Same s { s with out := os } := ⟨rfl, fun _ _ => rfl⟩

theorem netNanos_congr {s t : State} (h : t.tim = s.tim) : netNanos t = netNanos s := by
  unfold netNanos netNs; rw [h]

/-- A state with another log of what left the block. -/
theorem rd_out (s : State) (os : List Out) (a : Nat) : rd { s with out := os } a = rd s a := rd_congr _ _ _ rfl rfl

/-- The last part of a response in register mode. -/
theorem register_tail (m : Nat) (s : State) (hm : m ≤ 4) :
    ∃ u, completionSignal m (wrBit (mbxReg m mbxStatOff) 1 true (wrBit (mbxReg m mbxStatOff) 0 false s)) = u ∧
      Same s u ∧ (∀ a, a ≠ mbxReg m mbxStatOff → rd u a = rd s a) ∧ u.mbx = s.mbx ∧ u.tim = s.tim ∧
      mbBusy u m = false ∧ rdBit u (mbxReg m mbxStatOff) 1 = true := by
  obtain ⟨os, e⟩ := completionSignal_out m (wrBit (mbxReg m mbxStatOff) 1 true (wrBit (mbxReg m mbxStatOff) 0 false s))
  refine ⟨_, e, ?_, ?_, rfl, rfl, ?_, ?_⟩
  · refine same_trans ?_ (same_out _ _)
    exact same_trans (same_wr _ _ (carrier_mbxReg _ _ hm (by decide))) (same_wr _ _ (carrier_mbxReg _ _ hm (by decide)))
  · intro a ha
    rw [rd_out, wrBit_eq, rd_wr_other _ _ _ _ ha, wrBit_eq, rd_wr_other _ _ _ _ ha]
  · unfold mbBusy rdBit
    rw [rd_out, wrBit_eq, rd_wr_same, bit_setBit_other _ _ _ _ (by decide) (by decide), wrBit_eq, rd_wr_same]
    exact bit_setBit_same _ _ _ (by decide)
  · unfold rdBit
    rw [rd_out, wrBit_eq, rd_wr_same]
    exact bit_setBit_same _ _ _ (by decide)

theorem same_with_resp (s : State) (x : Sparse (List Word)) : Same s { s with mbx := { s.mbx with resp := x } } :=
  ⟨rfl, fun _ _ => rd_congr _ _ _ rfl rfl⟩

theorem nextSeq_eq (m : Nat) (s : State) : nextSeq m s =
    ((rd s (mbxReg m mbxSeqOff) + 1).toNat, wr (mbxReg m mbxSeqOff) (rd s (mbxReg m mbxSeqOff) + 1) s) := rfl

/-- In register mode: the response lies in the response area, BUSY is clear, DONE set, and nothing else has changed. -/
theorem respondRegister_leaves (op : Nat) (f : Frame) (r : CmdRes) (hm : f.mb ≤ 4) :
    Same r.st (respondRegister op f r) ∧
    rd (respondRegister op f r) (mbxReg f.mb mbxSeqOff) = rd r.st (mbxReg f.mb mbxSeqOff) + 1 ∧
    tget [] (respondRegister op f r).mbx.resp f.mb =
      responseWords op f.tag (rd r.st (mbxReg f.mb mbxSeqOff) + 1).toNat (netNanos (respondRegister op f r)) r ∧
    mbBusy (respondRegister op f r) f.mb = false ∧ rdBit (respondRegister op f r) (mbxReg f.mb mbxStatOff) 1 = true := by
  unfold respondRegister
  rw [nextSeq_eq, rd_answered]
  dsimp only
  generalize hq : wr (mbxReg f.mb mbxSeqOff) (rd r.st (mbxReg f.mb mbxSeqOff) + 1) (answered (mbKey f) r.st) = q
  have sq : Same r.st q :=
    same_trans (same_answered _ _) (hq ▸ same_wr _ _ (carrier_mbxReg _ _ hm (by decide)))
  have rq : rd q (mbxReg f.mb mbxSeqOff) = rd r.st (mbxReg f.mb mbxSeqOff) + 1 := by rw [← hq]; exact rd_wr_same _ _ _
  generalize hws : responseWords op f.tag (rd r.st (mbxReg f.mb mbxSeqOff) + 1).toNat (netNanos q) r = ws
  obtain ⟨u, e, h1, h2, h3, h4, h5, h6⟩ := register_tail f.mb { q with mbx := { q.mbx with resp := tset [] q.mbx.resp f.mb ws } } hm
  rw [e]
  refine ⟨same_trans sq (same_trans (same_with_resp _ _) h1), ?_, ?_, h5, h6⟩
  · rw [h2 _ (mbxReg_ne _ _ _ _ (by decide) (by decide) (by decide))]
    exact (rd_congr q _ _ rfl rfl).trans rq
  · rw [h3]
    have : netNanos u = netNanos q := by unfold netNanos netNs; rw [h4]
    rw [this, hws]
    exact tget_tset_same [] q.mbx.resp f.mb ws

/-- In ring mode: the response is posted at RSP_PROD, which moves past it. -/
theorem respondRing_leaves (op : Nat) (f : Frame) (r : CmdRes) (hm : f.mb ≤ 4) :
    Same r.st (respondRing op f r) ∧
    rd (respondRing op f r) (mbxReg f.mb mbxSeqOff) = rd r.st (mbxReg f.mb mbxSeqOff) + 1 ∧
    Out.ring (mbxReg f.mb mbxRspBaseOff) (rd r.st (mbxReg f.mb mbxRspProdOff)).toNat true
      (rspAddr r.st f.mb (rd r.st (mbxReg f.mb mbxRspProdOff)).toNat)
      (responseWords op f.tag (rd r.st (mbxReg f.mb mbxSeqOff) + 1).toNat (netNanos (respondRing op f r)) r) ∈
        (respondRing op f r).out ∧
    rd (respondRing op f r) (mbxReg f.mb mbxRspProdOff) = rd r.st (mbxReg f.mb mbxRspProdOff) + 1 := by
  unfold respondRing
  rw [nextSeq_eq, rd_answered]
  dsimp only
  generalize hq : wr (mbxReg f.mb mbxSeqOff) (rd r.st (mbxReg f.mb mbxSeqOff) + 1) (answered (mbKey f) r.st) = q
  have sq : Same r.st q :=
    same_trans (same_answered _ _) (hq ▸ same_wr _ _ (carrier_mbxReg _ _ hm (by decide)))
  have rq : rd q (mbxReg f.mb mbxSeqOff) = rd r.st (mbxReg f.mb mbxSeqOff) + 1 := by rw [← hq]; exact rd_wr_same _ _ _
  have hp : rd q (mbxReg f.mb mbxRspProdOff) = rd r.st (mbxReg f.mb mbxRspProdOff) := by
    rw [← hq]; exact rd_wr_other _ _ _ _ (mbxReg_ne _ _ _ _ (by decide) (by decide) (by decide))
  have ha : ∀ i, rspAddr q f.mb i = rspAddr r.st f.mb i := by
    intro i
    have e1 : ∀ o, o = mbxRspBaseOff ∨ o = mbxRspBaseOff + 4 ∨ o = mbxRingCfgOff → rd q (mbxReg f.mb o) = rd r.st (mbxReg f.mb o) := by
      rintro o (rfl | rfl | rfl) <;> rw [← hq] <;>
        exact rd_wr_other _ _ _ _ (mbxReg_ne _ _ _ _ (by decide) (by decide) (by decide))
    unfold rspAddr rdF
    rw [e1 _ (.inl rfl), e1 _ (.inr (.inl rfl)), e1 _ (.inr (.inr rfl))]
  generalize ho : Out.ring (mbxReg f.mb mbxRspBaseOff) (rd q (mbxReg f.mb mbxRspProdOff)).toNat true
    (rspAddr q f.mb (rd q (mbxReg f.mb mbxRspProdOff)).toNat) (responseWords op f.tag (rd r.st (mbxReg f.mb mbxSeqOff) + 1).toNat (netNanos q) r) = o
  obtain ⟨os, x, e⟩ := ringSignal_out f.mb (inc (mbxReg f.mb mbxRspProdOff) (emit o q))
  rw [e]
  refine ⟨?_, ?_, ?_, ?_⟩
  · refine same_trans sq ?_
    refine same_trans ?_ (same_out _ _)
    refine same_trans ?_ (same_setRing _ _ (carrier_mbxReg _ _ hm (by decide)))
    exact same_trans (same_emit _ _) (same_wr _ _ (carrier_mbxReg _ _ hm (by decide)))
  · rw [rd_out, rd_setRing, inc_eq, rd_wr_other _ _ _ _ (mbxReg_ne _ _ _ _ (by decide) (by decide) (by decide)), rd_emit, rq]
  · have hn : netNanos { setRing (mbxReg f.mb mbxRingCfgOff) x (inc (mbxReg f.mb mbxRspProdOff) (emit o q)) with
        out := (inc (mbxReg f.mb mbxRspProdOff) (emit o q)).out ++ os } = netNanos q := netNanos_congr rfl
    rw [hn, ← hp, ← ha, ho]
    apply List.mem_append_left
    rw [inc_eq, wr_out, emit_out]
    exact List.mem_append_right _ (List.mem_singleton.mpr rfl)
  · rw [rd_out, rd_setRing, inc_eq, rd_wr_same, rd_emit, hp]

/-- On MB2: the response is the last of those on their way to the sessions. -/
theorem respondSession_leaves (op : Nat) (f : Frame) (r : CmdRes) (hm : f.mb = 2) :
    Same r.st (respondSession op f r) ∧
    rd (respondSession op f r) (mbxReg f.mb mbxSeqOff) = rd r.st (mbxReg f.mb mbxSeqOff) + 1 ∧
    (respondSession op f r).cas.resp = r.st.cas.resp ++ [(f.partner,
      responseWords op f.tag (rd r.st (mbxReg f.mb mbxSeqOff) + 1).toNat (netNanos (respondSession op f r)) r)] := by
  unfold respondSession
  rw [hm, nextSeq_eq, rd_answered]
  dsimp only
  generalize hq : wr (mbxReg 2 mbxSeqOff) (rd r.st (mbxReg 2 mbxSeqOff) + 1) (answered (mbKey f) r.st) = q
  have sq : Same r.st q := same_trans (same_answered _ _) (hq ▸ same_wr _ _ (by decide))
  have rq : rd q (mbxReg 2 mbxSeqOff) = rd r.st (mbxReg 2 mbxSeqOff) + 1 := by rw [← hq]; exact rd_wr_same _ _ _
  have cq : q.cas = r.st.cas := by rw [← hq]; rfl
  refine ⟨same_trans sq ⟨rfl, fun _ _ => rd_congr _ _ _ rfl rfl⟩, ?_, ?_⟩
  · exact (rd_congr q _ _ rfl rfl).trans rq
  · rw [cq]
    have : ∀ c : Cas, netNanos { q with cas := c } = netNanos q := fun c => netNanos_congr rfl
    conv_rhs => rw [this]

/-! ### The whole way -/

/-- What a mailbox that carries a command makes of firmware's result `r`: a response, or what is left while it waits. -/
def carried (ci : CmdInfo) (f : Frame) (ring : Bool) (r : CmdRes) : State :=
  if f.mb = 2 then if later r.status then sessionLater f.partner (frameWords ci.op f) r else respondSession ci.op f r
  else if ring then if later r.status then ringLater f.mb r else respondRing ci.op f r
  else if later r.status then r.st else respondRegister ci.op f r

/-- A mailbox that carries a command has firmware take it in the state in which it begins. -/
theorem mailboxCommand_carries {ci : CmdInfo} {body : Body} {f : Frame} {s : State} (hm : f.mb ≤ 4)
    (hc : carries f s = true) :
    mailboxCommand ci body f s = carried ci f (mbRing s f.mb) (takeCommand ci body f (begun ci f s)) := by
  simp only [carries, Bool.and_eq_true] at hc
  obtain ⟨ht, hc⟩ := hc
  by_cases h2 : f.mb = 2
  · have hbs : begun ci f s = s := by unfold begun; rw [if_pos h2]
    simp only [h2, if_true, decide_eq_true_eq] at hc
    unfold mailboxCommand sessionCommand carried
    rw [if_pos h2, if_pos h2, if_pos ⟨h2 ▸ ht, hc⟩, hbs]
  · rw [if_neg h2] at hc
    by_cases h3 : mbRing s f.mb = true
    · rw [if_pos h3] at hc
      simp only [Bool.and_eq_true, decide_eq_true_eq, Bool.not_eq_true'] at hc
      obtain ⟨⟨c1, c2⟩, c3⟩ := hc
      have hbs : begun ci f s = inc (mbxReg f.mb mbxCmdConsOff) (inc (mbxReg f.mb mbxCmdProdOff)
          (writeSlot f.mb (rd s (mbxReg f.mb mbxCmdProdOff)).toNat (frameWords ci.op f) s)) := by
        unfold begun; rw [if_neg h2, if_pos h3]
      have sz : ¬ mbRingSize s f.mb ≤ cmdWaiting s f.mb := by
        rw [c1]; unfold mbRingSize
        have : 0 < 8 * 2 ^ rdF s (mbxReg f.mb mbxRingCfgOff) 1 3 := by positivity
        omega
      unfold mailboxCommand ringCommand carried
      rw [if_neg h2, if_pos h3, if_neg sz, if_neg h2, if_pos h3]
      have f1 : fwTakes (inc (mbxReg f.mb mbxCmdProdOff)
          (writeSlot f.mb (rd s (mbxReg f.mb mbxCmdProdOff)).toNat (frameWords ci.op f) s)) f.mb = true := by
        refine (same_fwTakes (s := s) ?_ f.mb).trans ht
        exact same_trans (t := writeSlot f.mb (rd s (mbxReg f.mb mbxCmdProdOff)).toNat (frameWords ci.op f) s)
          ⟨rfl, fun _ _ => rfl⟩ (same_wr _ _ (carrier_mbxReg _ _ hm (by decide)))
      have f2 : rspRoom (inc (mbxReg f.mb mbxCmdProdOff)
          (writeSlot f.mb (rd s (mbxReg f.mb mbxCmdProdOff)).toNat (frameWords ci.op f) s)) f.mb = true := by
        rw [← c2]
        unfold rspRoom mbRingSize rdF
        rw [inc_eq, rd_wr_other _ _ _ _ (mbxReg_ne _ _ _ _ (by decide) (by decide) (by decide)),
          rd_wr_other _ _ _ _ (mbxReg_ne _ _ _ _ (by decide) (by decide) (by decide)),
          rd_wr_other _ _ _ _ (mbxReg_ne _ _ _ _ (by decide) (by decide) (by decide))]
        rfl
      have f3 : forwards (inc (mbxReg f.mb mbxCmdProdOff)
          (writeSlot f.mb (rd s (mbxReg f.mb mbxCmdProdOff)).toNat (frameWords ci.op f) s)) f.mb = false := c3
      dsimp only
      rw [if_pos ⟨f1, c1, f2, by rw [f3]; rfl⟩, ← hbs]
    · rw [if_neg h3] at hc
      have hbs : begun ci f s = rung f.mb (wrBit (mbxReg f.mb mbxStatOff) 0 true (writeArea f.mb (frameWords ci.op f) s)) := by
        unfold begun; rw [if_neg h2, if_neg h3]
      unfold mailboxCommand registerCommand runRegister carried
      rw [if_neg h2, if_neg h3, if_neg (by simpa using hc), if_neg h2, if_neg h3]
      dsimp only
      rw [if_pos ((same_fwTakes (taken_same ci f s hm) f.mb).trans ht), ← hbs]

/-- The response to a command that is not left waiting lies where its mailbox has it, and says what firmware's result says. -/
theorem carried_answers {ci : CmdInfo} {f : Frame} {ring : Bool} {x r : CmdRes} (hm : f.mb ≤ 4)
    (nl : later x.status = false) (k1 : x.status = r.status) (k2 : x.detail = r.detail) (k3 : x.words = r.words)
    (k4 : Same r.st x.st) (k5 : ∀ a, rd x.st a = rd r.st a) (k6 : x.st.cas.resp = r.st.cas.resp) :
    Answered ci.op f r ring (carried ci f ring x) ∧ Same r.st (carried ci f ring x) := by
  have rw3 : ∀ u : State, netNanos u = netNanos x.st →
      responseWords ci.op f.tag (rd x.st (mbxReg f.mb mbxSeqOff) + 1).toNat (netNanos u) x =
      replyWords ci.op f r := by
    intro u hn
    have : netNanos x.st = netNanos r.st := netNanos_congr (same_tim k4)
    simp only [replyWords, responseWords, k1, k2, k3, hn, this, k5]
  unfold carried Answered
  simp only [nl, Bool.false_eq_true, if_false]
  by_cases h2 : f.mb = 2
  · obtain ⟨p1, p2, p3⟩ := respondSession_leaves ci.op f x h2
    simp only [if_pos h2]
    exact ⟨⟨by rw [p2, k5], by rw [p3, k6, rw3 _ (netNanos_congr (same_tim p1))]⟩, same_trans k4 p1⟩
  · simp only [if_neg h2]
    cases ring with
    | true =>
      obtain ⟨p1, p2, p3, p4⟩ := respondRing_leaves ci.op f x hm
      simp only [if_true]
      refine ⟨⟨by rw [p2, k5], ?_, by rw [p4, k5]⟩, same_trans k4 p1⟩
      have ka : ∀ i, rspAddr x.st f.mb i = rspAddr r.st f.mb i := fun i => by unfold rspAddr rdF; simp only [k5]
      rw [rw3 _ (netNanos_congr (same_tim p1)), ka, k5] at p3
      exact p3
    | false =>
      obtain ⟨p1, p2, p3, p4, p5⟩ := respondRegister_leaves ci.op f x hm
      simp only [Bool.false_eq_true, if_false]
      exact ⟨⟨by rw [p2, k5], by rw [p3, rw3 _ (netNanos_congr (same_tim p1))], p4, p5⟩, same_trans k4 p1⟩

/-- The mailbox of a command that passes the common checks exists. -/
theorem ready_mb {ci : CmdInfo} {f : Frame} {s : State} (h : Ready ci f s) : f.mb ≤ 4 := by
  have hw := h.1
  simp only [Frame.wf, Bool.and_eq_true, decide_eq_true_eq] at hw
  exact hw.1.1.1.1.1.1.1

/-- Firmware begins in a state that differs from the one before in nothing but what carries commands. -/
theorem ready_begun {ci : CmdInfo} {f : Frame} {s : State} (h : Ready ci f s) : Same s (begun ci f s) :=
  same_begun ci f s (ready_mb h)

/-- A command that passes the common checks and that its own chapter takes completes. -/
theorem commandRow_takes {ci : CmdInfo} {body : Body} {f : Frame} {s : State} {r : CmdRes} (h : Ready ci f s)
    (hr : body (sessOf s f).agreed f (begun ci f s) = r) (hs : keeps (begun ci f s) r) :
    ∃ u, commandRow ci body f s = .next (sendResponses u) ∧ Answered ci.op f r (mbRing s f.mb) u ∧ Same r.st u := by
  have hm := ready_mb h
  obtain ⟨hw, hc, hh, hb, hu, hk⟩ := h
  have hB := same_begun ci f s hm
  have ag : (sessOf (begun ci f s) f).agreed = (sessOf s f).agreed := by rw [same_sessOf hB]
  have key := firmwareRun_takes (body := body) (s := begun ci f s) ((same_headerFault hB ci f).trans hh)
    ((same_stageBars hB ci).trans hb) (fun x => by rw [begun_shUsed]; exact hu x) (by rw [ag, hr]; exact hs)
  rw [ag, hr] at key
  obtain ⟨k1, k2, k3, k4, k5, k6⟩ := key
  have nl : later (firmwareRun ci body f (begun ci f s)).status = false := by
    rw [k1]; exact keeps_later hs
  have hx := takeCommand_now (by rw [lockedOut_begun]; exact hk) nl
  obtain ⟨g1, g2⟩ := carried_answers (ring := mbRing s f.mb) hm nl k1 k2 k3 k4 k5 k6
  refine ⟨_, ?_, g1, g2⟩
  simp only [commandRow, hw, if_true, mailboxCommand_carries hm hc, hx]

/-- The same for a row of `exec`: what its own part answers is what the command answers. -/
theorem answers_of {ci : CmdInfo} {body : Body} {c : Instr} {f : Frame} {s : State} {res : State → CmdRes}
    (h : Ready ci f s) (hc : exec c s = commandRow ci body f s)
    (hr : body (sessOf s f).agreed f (begun ci f s) = res (begun ci f s)) (hs : keeps (begun ci f s) (res (begun ci f s))) :
    Answers ci c f s res := by
  obtain ⟨u, h1, h2, h3⟩ := commandRow_takes h hr hs
  exact ⟨u, hc.trans h1, h2, h3⟩

theorem completes_of {ci : CmdInfo} {body : Body} {c : Instr} {f : Frame} {s : State} {res : State → CmdRes}
    (h : Ready ci f s) (hc : exec c s = commandRow ci body f s)
    (hr : body (sessOf s f).agreed f (begun ci f s) = res (begun ci f s)) (hs : (res (begun ci f s)).status < 0x10) :
    Completes ci c f s res :=
  ⟨hs, answers_of h hc hr (.inl hs)⟩

/-- No set of element results is an error (R392). -/
theorem elemStatus_lt (codes : List Nat) : elemStatus codes < 0x10 := by
  unfold elemStatus; (repeat' split) <;> decide

/-- A command whose answer comes later: firmware leaves what the body leaves, and the command holds the locks of its
groups. -/
theorem commandRow_later {ci : CmdInfo} {body : Body} {f : Frame} {s : State} {r : CmdRes} (h : Ready ci f s)
    (hr : body (sessOf s f).agreed f (begun ci f s) = r) (hs : r.status = stLater) :
    commandRow ci body f s = .next (sendResponses (holdsOn (mbKey f) ci.op r.st)) := by
  have hm := ready_mb h
  obtain ⟨hw, hc, hh, hb, hu, hk⟩ := h
  have hB := same_begun ci f s hm
  have ag : (sessOf (begun ci f s) f).agreed = (sessOf s f).agreed := by rw [same_sessOf hB]
  have hx : firmwareRun ci body f (begun ci f s) = r := by
    unfold firmwareRun
    have h4 : ¬ stLater < 0x10 := by decide
    have h5 : later stLater = true := by decide
    simp only [(same_headerFault hB ci f).trans hh, (same_stageBars hB ci).trans hb, ag, hr, hs, h4, h5, decide_false,
      Bool.and_false, Bool.false_and, Bool.false_eq_true, if_false, if_true]
  have hx : takeCommand ci body f (begun ci f s) = { r with st := holdsOn (mbKey f) ci.op r.st } := by
    simp only [takeCommand, (lockedOut_begun ci f s _ _).trans hk, hx, hs, Bool.false_eq_true, if_false]
    rw [if_pos (by decide)]
  have hl : later r.status = true := by rw [hs]; decide
  have hn : r.status ≠ stWait := by rw [hs]; decide
  have hrow : mailboxCommand ci body f s = holdsOn (mbKey f) ci.op r.st := by
    rw [mailboxCommand_carries hm hc, hx]
    unfold carried sessionLater ringLater
    simp only [hl, if_true, if_neg hn, ite_self]
  simp only [commandRow, hw, if_true, hrow]

end Sys2Proof.Machine
end

