-- ==== Sys2Proof/Laws/Commands.lean ====
section
/-! SUPPORT. The small facts with which a command's own checks are read: payload fields from the words, SCOPE masks of one
unit, and what the checks see of the state in which firmware begins. -/

namespace Sys2Proof.Machine
open Sys2Proof

/-! ### Payload fields -/

/-- A field above the highest bit set is zero. -/
theorem pf_high (f : Frame) (i lo n : Nat) (h : (pw f i).toNat < 2 ^ lo) : pf f i lo n = 0 := by
  unfold pf fld; rw [Nat.div_eq_of_lt h]; simp

/-- A field that holds the whole word. -/
theorem pf_whole (f : Frame) (i n : Nat) (h : (pw f i).toNat < 2 ^ n) : pf f i 0 n = (pw f i).toNat := by
  unfold pf fld; simp [Nat.mod_eq_of_lt h]

theorem pf_low (f : Frame) (i n : Nat) : pf f i 0 n = (pw f i).toNat % 2 ^ n := by unfold pf fld; simp

/-! ### SCOPE masks of one unit -/

theorem bitsOf_one (g : Nat) (h : g < 8) : bitsOf 8 (2 ^ g) = [g] := by revert h; revert g; decide
theorem bitsOf_die (d : Nat) (h : d < 2) : bitsOf 2 (2 ^ d) = [d] := by revert h; revert d; decide

theorem scopeOne_glen (f : Frame) (g : Nat) (h : g < 8) (e : f.scope = 2 ^ g) (s : State) (k : Nat → CmdRes) :
    scopeOne f 8 s k = k g := by unfold scopeOne; rw [e, bitsOf_one g h]

theorem scopeOne_die (f : Frame) (d : Nat) (h : d < 2) (e : f.scope = 2 ^ d) (s : State) (k : Nat → CmdRes) :
    scopeOne f 2 s k = k d := by unfold scopeOne; rw [e, bitsOf_die d h]

/-! ### STATUS of a completed command -/

theorem ok_status (ws : List Word) (s : State) : (ok ws s).status < 0x10 := Nat.zero_lt_of_ne_zero (by decide)

theorem keeps_ok (b : State) (ws : List Word) (s : State) : keeps b (ok ws s) := .inl (ok_status _ _)
theorem keeps_auth (b : State) (d : Nat) (s : State) : keeps b (err eAuth d s) := .inr (.inl rfl)
theorem keeps_range (b : State) (d : Nat) : keeps b (err eRange d b) :=
  .inr (.inr ⟨(by show 0x10 ≤ eRange; decide), (by show later eRange = false; decide), rfl⟩)

/-- A scoped command that names a unit answers no error. -/
theorem onUnits_status (die : Bool) (f : Frame) (act : Nat → Ticket → State → Nat × State) (s : State) (h : f.scope ≠ 0) :
    (onUnits die f act s).status < 0x10 := by
  unfold onUnits scopeSome
  rw [if_neg h]
  exact elemStatus_lt _

theorem onEntries_status (die : Bool) (f : Frame) (n : Nat) (act : Nat → Nat → Ticket → State → Nat × State) (s : State)
    (h : f.scope ≠ 0) : (onEntries die f n act s).status < 0x10 := by
  unfold onEntries scopeSome
  rw [if_neg h]
  exact elemStatus_lt _

/-! ### What the checks see -/

theorem same_portRec {s t : State} (h : Same s t) (p : Nat) : portRec t p = portRec s p := by
  unfold portRec; rw [same_ports h]
theorem same_portExists {s t : State} (h : Same s t) (p : Nat) : portExists t p = portExists s p := by
  unfold portExists; rw [same_portRec h]
theorem same_primrosePort {s t : State} (h : Same s t) (p : Nat) : primrosePort t p = primrosePort s p := by
  unfold primrosePort; rw [same_start h]
theorem same_portHolds {s t : State} (h : Same s t) (p : Nat) : portHolds t p = portHolds s p := by
  unfold portHolds; rw [same_path h]
theorem same_lanesTaken {s t : State} (h : Same s t) (p w : Nat) : lanesTaken t p w = lanesTaken s p w := by
  unfold lanesTaken; rw [same_ports h]
theorem same_outOfService {s t : State} (h : Same s t) (k i : Nat) : outOfService t k i = outOfService s k i := by
  unfold outOfService unitOf; rw [same_fcl h]

end Sys2Proof.Machine
end

