-- ==== Sys2Proof/Laws/Access.lean ====
section
/-! SUPPORT. Register accesses, said once: what a dword write or read that reaches its register does. -/

namespace Sys2Proof.Machine
open Sys2Proof

/-- A reached register by a BAR0 address is the one the register map has there. -/
theorem reaches_regAt {s : State} {m a : Nat} {t : Target} (h : Reaches s m a t) (hp : m ≠ 2) :
    t.addr = a ∧ regAt a = some (t.blk, t.reg, t.i, t.j) := by
  obtain ⟨_, h, _⟩ := h
  unfold busTarget at h
  rw [if_neg hp] at h
  dsimp only at h
  split at h
  · cases h
  · rename_i b off e
    split at h
    · cases h
    · split at h
      · cases h
      · split at h
        · cases h
        · rename_i d i j e2
          simp only [if_true] at h
          cases h
          refine ⟨rfl, ?_⟩
          unfold regAt
          rw [e]
          simp [e2]

/-- PF1's BAR holds MB1's page and nothing else. -/
theorem reaches_pf1 {s : State} {a : Nat} {t : Target} (h : Reaches s 2 a t) : ∃ x, pf1Addr a = some x ∧ t.addr = x := by
  obtain ⟨_, h, _⟩ := h
  unfold busTarget at h
  simp only [if_true] at h
  split at h
  · cases h
  · rename_i x e
    refine ⟨x, e, ?_⟩
    split at h
    · cases h
    · split at h
      · cases h
      · split at h
        · cases h
        · split at h
          · cases h
          · cases h; rfl

theorem reaches_not_pf1 {s : State} {m a : Nat} {t : Target} (h : Reaches s m a t) (ha : pf1Addr a = none) : m ≠ 2 := by
  intro e
  rw [e] at h
  obtain ⟨x, hx, _⟩ := reaches_pf1 h
  rw [ha] at hx; cases hx

/-- A dword write that reaches its register and that FCL_CFG.LOCK does not drop. -/
theorem busWriteWith_takes {s : State} {m a : Nat} {t : Target} (h : Reaches s m a t) (hl : lockDrops s m t = false)
    (v : Word) (bad : Bool) (off : Nat) (b : Blk) (ho : decodeAddr t.addr = some (b, off)) :
    busWriteWith m a 15 v bad s = answer m ⟨true, []⟩ (postLog m t v (writeEffect m off t v bad
      (if t.reg.act = .staged then s else parityFresh t.addr s))) := by
  obtain ⟨_, h1, h2, h3⟩ := h
  unfold busWriteWith
  simp only [beq_self_eq_true]
  rw [h1]
  simp only [writeTarget, h3, h2, hl, ho]
  simp

/-- A dword read that reaches its register. -/
theorem busRead_takes {s : State} {m a : Nat} {t : Target} (h : Reaches s m a t) :
    busRead m a s = answer m ⟨true, [(readValue m t (parityRead t s)).1]⟩ (readValue m t (parityRead t s)).2 := by
  obtain ⟨_, h1, h2, h3⟩ := h
  unfold busRead
  rw [h1]
  have : ¬ (0 = all32) := by decide
  have z : ~~~(wd 0) = BitVec.allOnes 32 := by decide
  simp only [readTarget, h3, h2, this, Bool.false_eq_true, if_false, if_true, z, BitVec.and_allOnes]

theorem lockDrops_other {s : State} {m : Nat} {t : Target} (h1 : t.reg.act ≠ .fclCfg) (h2 : t.reg.act ≠ .fclSrcCfg)
    (h3 : t.reg.act ≠ .fclNbr) : lockDrops s m t = false := by
  have e1 : (t.reg.act == WrAct.fclCfg) = false := by simpa using h1
  have e2 : (t.reg.act == WrAct.fclSrcCfg) = false := by simpa using h2
  have e3 : (t.reg.act == WrAct.fclNbr) = false := by simpa using h3
  simp only [lockDrops, e1, e2, e3, Bool.or_self, Bool.and_false]

/-- A register's block, effect and instance, where the register map has it. -/
def regKind (a : Nat) : Option (Blk × WrAct × Nat) := (regAt a).map (fun q => (q.1, q.2.1.act, q.2.2.1))

theorem reaches_kind {s : State} {m a : Nat} {t : Target} {b : Blk} {w : WrAct} {i : Nat} (h : Reaches s m a t)
    (hp : pf1Addr a = none) (hk : regKind a = some (b, w, i)) : t.addr = a ∧ t.blk = b ∧ t.reg.act = w ∧ t.i = i := by
  obtain ⟨ha, hr⟩ := reaches_regAt h (reaches_not_pf1 h hp)
  unfold regKind at hk
  rw [hr] at hk
  simp only [Option.map_some, Option.some.injEq, Prod.mk.injEq] at hk
  exact ⟨ha, hk⟩

/-- A command that is a dword write of a register by its BAR0 address, and what the register's own effect is. -/
theorem writes_of {c : Instr} {s : State} {m a : Nat} {t : Target} {v : Word} {act : State → State} {b b2 : Blk} {w : WrAct}
    {i off : Nat} (h : Reaches s m a t) (hc : exec c s = .next (busWriteWith m a 15 v false s)) (hp : pf1Addr a = none)
    (hk : regKind a = some (b, w, i)) (ho : decodeAddr a = some (b2, off)) (hl : lockDrops s m t = false)
    (he : ∀ u, t.addr = a → t.blk = b → t.reg.act = w → t.i = i → writeEffect m off t v false u = act u) :
    Writes c s m t v act := by
  obtain ⟨ha, hb, hw, hi⟩ := reaches_kind h hp hk
  unfold Writes written
  rw [hc, busWriteWith_takes h hl v false off b2 (by rw [ha]; exact ho), he _ ha hb hw hi]

end Sys2Proof.Machine
end

