-- ==== Sys2Proof/Laws/Catalogue.lean ====
section
/-! SUPPORT. The catalogue: every command's row is `commandRow` of what the catalogue finds at its opcode. -/

namespace Sys2Proof.Machine
open Sys2Proof

/-- The catalogue finds the row at its opcode, and the command runs what it finds. -/
def IsRow (q : CmdInfo × (Frame → Instr)) : Prop :=
  ∃ body, findCommand q.1.op = some (q.1, body) ∧ ∀ f s, exec (q.2 f) s = commandRow q.1 body f s

theorem isRow0 : ∀ q ∈ commandRows0, IsRow q := by
  unfold commandRows0
  repeat (first | exact List.forall_mem_nil _ | refine List.forall_mem_cons.2 ⟨⟨_, rfl, fun _ _ => rfl⟩, ?_⟩)

theorem isRow1 : ∀ q ∈ commandRows1, IsRow q := by
  unfold commandRows1
  repeat (first | exact List.forall_mem_nil _ | refine List.forall_mem_cons.2 ⟨⟨_, rfl, fun _ _ => rfl⟩, ?_⟩)

theorem isRow2 : ∀ q ∈ commandRows2, IsRow q := by
  unfold commandRows2
  repeat (first | exact List.forall_mem_nil _ | refine List.forall_mem_cons.2 ⟨⟨_, rfl, fun _ _ => rfl⟩, ?_⟩)

theorem isRow3 : ∀ q ∈ commandRows3, IsRow q := by
  unfold commandRows3
  repeat (first | exact List.forall_mem_nil _ | refine List.forall_mem_cons.2 ⟨⟨_, rfl, fun _ _ => rfl⟩, ?_⟩)

theorem isRow4 : ∀ q ∈ commandRows4, IsRow q := by
  unfold commandRows4
  repeat (first | exact List.forall_mem_nil _ | refine List.forall_mem_cons.2 ⟨⟨_, rfl, fun _ _ => rfl⟩, ?_⟩)

theorem isRow5 : ∀ q ∈ commandRows5, IsRow q := by
  unfold commandRows5
  repeat (first | exact List.forall_mem_nil _ | refine List.forall_mem_cons.2 ⟨⟨_, rfl, fun _ _ => rfl⟩, ?_⟩)

theorem isRow6 : ∀ q ∈ commandRows6, IsRow q := by
  unfold commandRows6
  repeat (first | exact List.forall_mem_nil _ | refine List.forall_mem_cons.2 ⟨⟨_, rfl, fun _ _ => rfl⟩, ?_⟩)

theorem isRow7 : ∀ q ∈ commandRows7, IsRow q := by
  unfold commandRows7
  repeat (first | exact List.forall_mem_nil _ | refine List.forall_mem_cons.2 ⟨⟨_, rfl, fun _ _ => rfl⟩, ?_⟩)

theorem isRow {q : CmdInfo × (Frame → Instr)} (h : q ∈ commandRows) : IsRow q := by
  unfold commandRows at h
  simp only [List.mem_append] at h
  rcases h with (((((((h | h) | h) | h) | h) | h) | h) | h)
  · exact isRow0 q h
  · exact isRow1 q h
  · exact isRow2 q h
  · exact isRow3 q h
  · exact isRow4 q h
  · exact isRow5 q h
  · exact isRow6 q h
  · exact isRow7 q h

end Sys2Proof.Machine
end

