-- ==== Sys2Proof/Certificates/Slice0/Obligations.lean ====
section
/-! DEFINITION. The statements about the block, one definition each. -/

open Sys2Proof Sys2Proof.Machine


/-! ### Sessions and the engine: group 0x00 (R396 to R402, R409, R411, R415) -/

/-- HELLO opens a session with the highest version that both sides have (R396, R397); the other seven commands of the
group answer what they name, and but for XFER_WRITE, which fills the transfer buffer (R411), change nothing. -/
def Obligations.SessionCommandsComplete : Prop :=
  (∀ f s v, Ready ciHello f s → f.length = 16 → pw f 2 = 0 → pw f 3 = 0 →
    v ∈ cmdVersions → pf f 0 0 16 ≤ v → v ≤ pf f 0 16 16 → (∀ x ∈ cmdVersions, x ≤ pf f 0 16 16 → x ≤ v) →
    Completes ciHello (.hello f) f s (fun b =>
      let num := if (b.mbx.opened + 1) % 2 ^ 32 = 0 then 1 else (b.mbx.opened + 1) % 2 ^ 32
      let t := dropXfer (mbKey f) b
      let e := { t with mbx := { t.mbx with opened := num, sess := tset ⟨0, 0, 0⟩ t.mbx.sess (mbKey f) ⟨wd num, v, pw f 1⟩ } }
      ok ([wd v, 0x03020100, wd num] ++ engineWords v f e) e)) ∧
  (∀ f s, Ready ciEngineInfo f s → f.length = 0 →
    Completes ciEngineInfo (.engineInfo f) f s (fun b => ok (engineWords (sessOf s f).agreed f b ++ orderingWords b) b)) ∧
  (∀ f s r, Ready ciCmdStatus f s → f.length = 4 → pf f 0 16 16 = 0 →
    (s.mbx.pend.filter (fun r => r.mb == mbKey f && r.tag == pf f 0 0 16)).getLast? = some r →
    Completes ciCmdStatus (.cmdStatus f) f s
      (fun b => ok (wd (elemStatus r.elems) :: packBytes (padDie r.die r.elems)) b)) ∧
  (∀ f s, Ready ciXferWrite f s → 4 ≤ f.length → (pw f 0).toNat % 4 = 0 → (pw f 0).toNat + (f.length - 4) ≤ 65536 →
    Completes ciXferWrite (.xferWrite f) f s (fun b =>
      let buf := (f.payload.drop 1).zipIdx.foldl
        (fun m q => tset 0 m (key (mbKey f) ((pw f 0).toNat / 4 + q.2)) q.1) b.mbx.xfer
      ok [] { b with mbx := { b.mbx with xfer := buf } })) ∧
  (∀ f s, Ready ciSessionList f s → f.length = 0 →
    Completes ciSessionList (.sessionList f) f s (fun b => ok ([0, 1, 2, 3, 4, 10].flatMap (fun k =>
      let x := tget ⟨0, 0, 0⟩ s.mbx.sess k
      [x.number, wd x.agreed, x.client])) b)) ∧
  (∀ f s, Ready ciShadowInfo f s → f.length = 0 →
    Completes ciShadowInfo (.shadowInfo f) f s
      (fun b => ok [wd s.mbx.shUsed, wd (40 * 2 ^ 20 - s.mbx.shUsed), wd s.mbx.txn] b)) ∧
  (∀ f s, Ready ciShadowDigest f s → f.length = 4 → pf f 0 18 14 = 0 →
    Completes ciShadowDigest (.shadowDigest f) f s
      (fun b => ok (digestWords (digest (shadowRecords (pf f 0 0 18) s.shadow))) b)) ∧
  (∀ f s, Ready ciNop f s → Completes ciNop (.nop f) f s (fun b => ok f.payload b))

/-! ### Ports, groups and mirrors: group 0x01 (R415, R416) -/

/-- The commands on ports, groups and mirrors (R415, R416): PORT_CREATE makes a port that is down and has its group's
tuning words written again (R441), PORT_DELETE takes an
idle one away, PORT_ADMIN moves it up or down, MCAST_GROUP_SET and MIRROR_CFG write one record. -/
def Obligations.PortCommandsComplete : Prop :=
  (∀ f s, Ready ciPortCreate f s → f.length = 8 → pf f 0 16 16 = 0 → pf f 0 8 4 ∈ [1, 2, 4, 8] →
    pf f 0 0 8 % pf f 0 8 4 = 0 → pf f 0 14 2 ≠ 3 → 64 ≤ (pw f 1).toNat → (pw f 1).toNat ≤ 16384 →
    modeSupported (pf f 0 8 4) (pf f 0 12 2) (pf f 0 14 2) = true → lanesTaken s (pf f 0 0 8) (pf f 0 8 4) = false →
    Completes ciPortCreate (.portCreate f) f s (fun b =>
      ok [] (refreshParked (pgOf (pf f 0 0 8)) (retune (pf f 0 0 8) (putPort (pf f 0 0 8)
        (some ⟨pf f 0 8 4, pf f 0 12 2, pf f 0 14 2, (pw f 1).toNat, false, false⟩) b))))) ∧
  (∀ f s r p, Ready ciPortDelete f s → f.length = 4 → (pw f 0).toNat = p → p < 256 → portRec s p = some r →
    r.admin = false → portHolds s p = false → primrosePort s p = false →
    Completes ciPortDelete (.portDelete f) f s (fun b => ok [] (refreshParked (pgOf p) (putPort p none b)))) ∧
  (∀ f s r p, Ready ciPortAdmin f s → f.length = 4 → (pw f 0).toNat = p + 256 → p < 256 → portRec s p = some r →
    primrosePort s p = false →
    Completes ciPortAdmin (.portAdmin f) f s (fun b => ok [] (putPort p (some { r with admin := true }) b))) ∧
  (∀ f s r p, Ready ciPortAdmin f s → f.length = 4 → (pw f 0).toNat = p → p < 256 → portRec s p = some r →
    primrosePort s p = false →
    Completes ciPortAdmin (.portAdmin f) f s
      (fun b => ok [] (dropDown p (putPort p (some { r with admin := false }) b)))) ∧
  (∀ f s r p, Ready ciPortStatus f s → f.length = 4 → (pw f 0).toNat = p → p < 256 → portRec s p = some r →
    Completes ciPortStatus (.portStatus f) f s (fun b =>
      let x := portStat p b
      let y := freeW x.2
      ok [x.1, loW (cntOf b kPort p 20), hiW (cntOf b kPort p 20), loW (cntOf b kPort p 22), hiW (cntOf b kPort p 22),
        wd (fld y.1 0 8 % 2 ^ r.width)] y.2)) ∧
  (∀ f s map, Ready ciMcastGroupSet f s → f.length = 36 → pf f 0 16 16 = 0 →
    (List.range 8).foldl (fun n i => n + (pw f (1 + i)).toNat * 2 ^ (32 * i)) 0 = map → (∀ p ∈ bitsOf 256 map, portExists s p = true) →
    Completes ciMcastGroupSet (.mcastGroupSet f) f s (fun b =>
      ok [] { b with ports := { b.ports with mcast := tset 0 b.ports.mcast (pw f 0).toNat map } })) ∧
  (∀ f s, Ready ciMcastGroupRead f s → f.length = 4 → pf f 0 16 16 = 0 →
    Completes ciMcastGroupRead (.mcastGroupRead f) f s (fun b => ok
      (pw f 0 :: (List.range 8).map (fun i => wd (tget 0 s.ports.mcast (pw f 0).toNat / 2 ^ (32 * i)))) b)) ∧
  (∀ f s r p, Ready ciMirrorCfg f s → f.length = 16 → pf f 0 0 8 = p → portRec s p = some r → (pw f 0).toNat < 2 ^ 10 →
    pf f 1 16 16 = 0 → pf f 2 14 18 = 0 →
    Completes ciMirrorCfg (.mirrorCfg f) f s (fun b =>
      let m : Mirror := ⟨bit (pw f 0) 8, bit (pw f 0) 9, (pw f 1).toNat, (pw f 2).toNat, (pw f 3).toNat⟩
      let x := if bit (pw f 0) 8 || bit (pw f 0) 9 then some m else none
      ok [] { b with ports := { b.ports with mirrors := tset none b.ports.mirrors p x } }))


/-! ### Exact-match tables and learning: group 0x03 (R145 to R150, R412) -/

/-- The commands that write exact-match configuration (R412): EM_TABLE_CFG and AGE_CFG one register of each glen named,
EM_PORT_CFG a port's, LEARN_RING_CFG a learn ring's, LEARN_POLICY a table's policy (R145), EM_KEY_LAYOUT and GLEN_BUDGET_SET
a staged group, which the hardware takes or refuses. -/
def Obligations.ExactConfigCommandsComplete : Prop :=
  (∀ f s, Ready ciEmTableCfg f s → f.length = 8 → (pw f 0).toNat < 4 → fld (pw f 1) 1 2 ≠ 3 → fld (pw f 1) 3 2 ≠ 3 →
    f.scope ≠ 0 →
    Completes ciEmTableCfg (.emTableCfg f) f s
      (eachGlen f (fun g => wrM (glnBase g + 0x10040 + 4 * (pw f 0).toNat) 0x003FFCFF (pw f 1)))) ∧
  (∀ f s, Ready ciEmPortCfg f s → f.length = 8 → (pw f 0).toNat < 256 → portExists s (pw f 0).toNat = true →
    Completes ciEmPortCfg (.emPortCfg f) f s (fun b => ok []
      (wrM (glnBase ((pw f 0).toNat / 32) + 0x10080 + 4 * ((pw f 0).toNat % 32)) 0x1FFF (pw f 1) b))) ∧
  (∀ f s g, Ready ciLearnRingCfg f s → f.length = 16 → pf f 0 2 4 ≤ 8 → g < 8 → f.scope = 2 ^ g →
    Completes ciLearnRingCfg (.learnRingCfg f) f s (fun b => ok []
      (wrM (glnBase g + 0x10020) 0xFFFF (pw f 3) (ringCfgWrite (glnBase g + 0x10100) 8 (pw f 0)
        (wr (glnBase g + 0x10104) (pw f 2) (wrM (glnBase g + 0x10100) 0xFFFFF000 (pw f 1) b)))))) ∧
  (∀ f s, Ready ciLearnPolicy f s → f.length = 8 → (pw f 0).toNat < 4 → (pw f 1).toNat ≤ 2 →
    Completes ciLearnPolicy (.learnPolicy f) f s (fun b => ok []
      { b with glens := { b.glens with learnPol := tset 1 b.glens.learnPol (pw f 0).toNat (pw f 1).toNat } })) ∧
  (∀ f s, Ready ciAgeCfg f s → f.length = 4 → pf f 0 16 12 ≠ 0 → f.scope ≠ 0 →
    Completes ciAgeCfg (.ageCfg f) f s (eachGlen f (fun g t => ageCfgWrite g (pw f 0) t))) ∧
  (∀ f s k stg, Ready ciEmKeyLayout f s → f.length = 36 → (pw f 0).toNat = k → k < 64 →
    stg = (fun g t => let t1 := stgM (emtKeyHdr g k 0) 0xF7 (pw f 1) (stgM (emtKeyHdr g k 1) 0xF7 (pw f 5) t); (List.range
    3).foldl (fun x w => stgM (emtKeyBytes g k 0 w) 0x7F7F7F7F (pw f (2 + w)) (stgM (emtKeyBytes g k 1 w) 0x7F7F7F7F (pw f
    (6 + w)) x)) t1) →
    Commits ciEmKeyLayout (.emKeyLayout f) f s (commitOn false f (fun g t => keyCommit g (stg g t)) emtKeyStat) 8 stg
    keyFails keyGroup) ∧
  (∀ f s stg, Ready ciGlenBudgetSet f s → f.length = 12 → (∀ i < 3, pf f i 15 1 = 0 ∧ pf f i 31 1 = 0) →
    stg = (fun g t => stgM (glnBase g + 0x100) 0x7FFF7FFF (pw f 0) (stgM (glnBase g + 0x104) 0x7FFF7FFF (pw f 1) (stgM
    (glnBase g + 0x108) 0x7FFF (pw f 2) t))) →
    Commits ciGlenBudgetSet (.glenBudgetSet f) f s (commitOn false f (fun g t => glnBudgetCommit g (stg g t)) glnBudgetStat)
    8 stg glnBudgetFails glnBudgetGroup)

/-- The commands on exact-match entries (R127, R131, R149, R150, R412).  The writes hand one operation to the update unit of
each glen named, in ascending order, and answer its element results; TBL_LOOKUP and TBL_ITERATE read one entry on a slot
of the debug budget (R438), for which they wait while it is spent (R27); TBL_CAPACITY changes nothing. -/
def Obligations.ExactEntryCommandsComplete : Prop :=
  (∀ f s, Ready ciTblInsert f s → f.length = 20 → (pw f 0).toNat < 8 → f.scope ≠ 0 →
    Completes ciTblInsert (.tblInsert f) f s (onUnits false f (fun g t =>
      opSubmit g (.emInsert ((pw f 0).toNat % 4) (key96 f 1) (pw f 4) (bit (pw f 0) 2)) (some t)))) ∧
  (∀ f s, Ready ciTblDelete f s → f.length = 16 → (pw f 0).toNat < 4 → f.scope ≠ 0 →
    Completes ciTblDelete (.tblDelete f) f s (onUnits false f (fun g t =>
      opSubmit g (.emDelete (pw f 0).toNat (key96 f 1)) (some t)))) ∧
  (∀ f s, Ready ciTblFlush f s → f.length = 8 → (pw f 0).toNat < 4 → (pw f 1).toNat < 2 ^ 11 → f.scope ≠ 0 →
    Completes ciTblFlush (.tblFlush f) f s (onUnits false f (fun g t => opSubmit g (.emFlush (pw f 0).toNat
      (bit (pw f 1) 8) ((pw f 1).toNat % 256) (bit (pw f 1) 9) (bit (pw f 1) 10)) (some t)))) ∧
  (∀ f s, Ready ciTblBulkInsert f s → f.length % 16 = 0 → 16 ≤ f.length → f.scope ≠ 0 →
    Completes ciTblBulkInsert (.tblBulkInsert f) f s (onEntries false f (f.length / 16) (fun i g t =>
      opSubmit g (.emInsert (f.opts % 4) (key96 f (4 * i)) (pw f (4 * i + 3)) (nbit f.opts 2)) (some t)))) ∧
  (∀ f s g h, Ready ciTblLookup f s → f.length = 16 → (pw f 0).toNat < 4 → g < 8 → f.scope = 2 ^ g →
    hasSlot s (3 * g) actDebug = true →
    emFind (begun ciTblLookup f s) g (pw f 0).toNat (key96 f 1) = some h →
    Completes ciTblLookup (.tblLookup f) f s (fun b => ok
      [wd (b2n h.inOvf * 256), wd (key96 f 1), wd (key96 f 1 / 2 ^ 32), wd (key96 f 1 / 2 ^ 64), h.e.action, entryTail h.e,
        wd (homeBucket b g (pw f 0).toNat (key96 f 1))] (charge (3 * g) actDebug 1 b))) ∧
  (∀ f s g, Ready ciTblLookup f s → f.length = 16 → (pw f 0).toNat < 4 → g < 8 → f.scope = 2 ^ g →
    hasSlot s (3 * g) actDebug = true →
    emFind (begun ciTblLookup f s) g (pw f 0).toNat (key96 f 1) = none →
    Completes ciTblLookup (.tblLookup f) f s (fun b => ok
      [wd rNotFound, 0, 0, 0, 0, 0, wd (homeBucket b g (pw f 0).toNat (key96 f 1))] (charge (3 * g) actDebug 1 b))) ∧
  (∀ f s g, Ready ciTblIterate f s → f.length = 8 → (pw f 0).toNat < 4 → (pw f 1).toNat ≤ 532480 → g < 8 → f.scope = 2 ^ g →
    hasSlot s (3 * g) actDebug = true →
    Completes ciTblIterate (.tblIterate f) f s (fun b => match iterate b g (pw f 0).toNat (pw f 1).toNat with
      | some (n, h) => ok ([wd (n + 1)] ++ key96Words h.e.key ++ [h.e.action, entryTail h.e]) (charge (3 * g) actDebug 1 b)
      | none => ok [0, 0, 0, 0, 0, 0] (charge (3 * g) actDebug 1 b))) ∧
  (∀ f s, Ready ciTblCapacity f s → f.length = 0 → f.scope ≠ 0 →
    Completes ciTblCapacity (.tblCapacity f) f s (fun b => ok ((bitsOf 8 f.scope).flatMap (fun g =>
      let used := ((ofUnit b.glens.em g).filter (fun p => p.2.valid)).length
      let ovf := (ovfValid b g).length
      let ret := (ofUnit b.glens.bktRetired g).length
      let ovfRet := (ofUnit b.glens.ovfRetired g).length
      [wd used, wd ovf, wd ((131072 - ret) * 4 - used + (8192 - ovfRet - ovf)), wd ret])) b))


/-! ### Prefix routes: group 0x04 (R157 to R163, R188, R412) -/

/-- The commands on prefix routes (R157, R158, R188, R412).  Routes and next hops go to the update unit of each glen named,
all eight for a SCOPE of 0 (R160), ascending; ROUTE_LOOKUP answers the longest match on a slot of the debug budget;
LPM_PORT_VRF writes a port's VRF and LPM_KEY_LAYOUT a staged group. -/
def Obligations.RouteCommandsComplete : Prop :=
  (∀ f s stg, Ready ciLpmKeyLayout f s → f.length = 8 → (pw f 0).toNat < 64 →
    stg = (fun g t => stgM (lpmKeyCfg g (pw f 0).toNat) 0x007FFF0F (pw f 1) t) →
    Commits ciLpmKeyLayout (.lpmKeyLayout f) f s (commitOn false f (fun g t => keyCommit g (stg g t)) emtKeyStat) 8 stg
    keyFails keyGroup) ∧
  (∀ f s, Ready ciLpmPortVrf f s → f.length = 8 → (pw f 0).toNat < 256 → portExists s (pw f 0).toNat = true →
    Completes ciLpmPortVrf (.lpmPortVrf f) f s (fun b => ok []
      (wrM (glnBase ((pw f 0).toNat / 32) + 0x20080 + 4 * ((pw f 0).toNat % 32)) 0xFF (pw f 1) b))) ∧
  (∀ f s, Ready ciRouteAdd f s → f.length = 16 → bit (pw f 0) 31 = false → routeFault f 0 false = none →
    Completes ciRouteAdd (.routeAdd f) f s
      (onUnits false (allGlens f) (fun g t => opSubmit g (addOp (routeAt f 0)) (some t)))) ∧
  (∀ f s, Ready ciRouteDelete f s → f.length = 12 → bit (pw f 0) 31 = false → routeFault f 0 true = none →
    Completes ciRouteDelete (.routeDelete f) f s
      (onUnits false (allGlens f) (fun g t => opSubmit g (delOp (routeAt f 0)) (some t)))) ∧
  (∀ f s, Ready ciRouteBulk f s → f.length % 16 = 0 → 16 ≤ f.length →
    (∀ i < f.length / 16, routeFault f (4 * i) (bit (pw f (4 * i)) 31) = none) →
    Completes ciRouteBulk (.routeBulk f) f s (onEntries false (allGlens f) (f.length / 16) (fun i g t => opSubmit g
      (if bit (pw f (4 * i)) 31 then delOp (routeAt f (4 * i)) else addOp (routeAt f (4 * i))) (some t)))) ∧
  (∀ f s g, Ready ciRouteLookup f s → f.length = 12 → (pw f 0).toNat < 2 ^ 9 → g < 8 → f.scope = 2 ^ g →
    hasSlot s (3 * g) actDebug = true →
    Completes ciRouteLookup (.routeLookup f) f s (fun b =>
      match longest (routeAt f 0).vrf (routeAt f 0).fam (routeAt f 0).pfx (routesOf b g) with
      | some x => ok ([0, wd (x.vrf + x.fam * 2 ^ 8 + x.len * 2 ^ 16)] ++
          (if x.fam = 0 then [wd x.pfx, 0] else [wd (x.pfx / 2 ^ 32), wd x.pfx]) ++ [wd (x.nh + x.count * 2 ^ 16)])
          (charge (3 * g) actDebug 1 b)
      | none => ok [wd rNotFound, 0, 0, 0, 0] (charge (3 * g) actDebug 1 b))) ∧
  (∀ f s n, Ready ciNexthopSet f s → (pw f 1).toNat = n → 1 ≤ n → n ≤ 1018 → f.length = 8 + 4 * n →
    (pw f 0).toNat + n ≤ 65536 →
    Completes ciNexthopSet (.nexthopSet f) f s (onUnits false (allGlens f) (fun g t =>
      submitAll g t ((List.range n).map (fun i => GlenOp.nextHop ((pw f 0).toNat + i) (pw f (2 + i))))))) ∧
  (∀ f s, Ready ciRouteCapacity f s → f.length = 0 → f.scope ≠ 0 →
    Completes ciRouteCapacity (.routeCapacity f) f s (fun b => ok ((bitsOf 8 f.scope).flatMap (fun g =>
      [wd (routeUnits (routesOf b g)), wd (393216 - 12 * rowsRetired b g - routeUnits (routesOf b g)), wd (rowsRetired b g),
        0])) b))

/-! ### The TCAM: group 0x04 (R173 to R187, R412) -/

/-- The commands on TCAM rules (R173 to R187, R412).  The writes hand one operation to the update unit of each glen named;
TCAM_RULE_READ answers a rule's 51 words (R437), on a
slot of each of the two memories; TCAM_SEARCH counts for a privileged mailbox and steps for any other
(R184); TCAM_SCRUB_CFG writes a register of each glen and TCAM_KEY_LAYOUT a staged group. -/
def Obligations.TcamCommandsComplete : Prop :=
  (∀ f s stg, Ready ciTcamKeyLayout f s → f.length = 88 → (pw f 0).toNat < 64 →
    stg = (fun g t => (List.range 20).foldl (fun x w => stgM (tcmKeyBytes g (pw f 0).toNat w) 0x7F7F7F7F (pw f (2 + w)) x)
    (stgM (tcmKeyHdr g (pw f 0).toNat) 0xFF1 (pw f 1) t)) →
    Commits ciTcamKeyLayout (.tcamKeyLayout f) f s (commitOn false f (fun g t => keyCommit g (stg g t)) emtKeyStat) 8 stg
    keyFails keyGroup) ∧
  (∀ f s w, Ready ciTcamRuleWrite f s → pf f 1 0 4 = w → 1 ≤ w → w ≤ 8 → f.length = 16 + 24 * w →
    (pw f 0).toNat < 16384 → pf f 1 8 8 = 0 → actionOk (pw f (2 + 6 * w)) (pw f (3 + 6 * w)) = true → f.scope ≠ 0 →
    Completes ciTcamRuleWrite (.tcamRuleWrite f) f s (onUnits false f (fun g t =>
      opSubmit g (.tcamWrite (pw f 0).toNat (pw f 1).toNat (f.payload.drop 2)) (some t)))) ∧
  (∀ f s, Ready ciTcamRuleDelete f s → f.length = 4 → (pw f 0).toNat < 16384 → f.scope ≠ 0 →
    Completes ciTcamRuleDelete (.tcamRuleDelete f) f s
      (onUnits false f (fun g t => opSubmit g (.tcamDelete (pw f 0).toNat) (some t)))) ∧
  (∀ f s w, Ready ciTcamRuleReplace f s → pf f 2 0 4 = w → 1 ≤ w → w ≤ 8 → f.length = 20 + 24 * w →
    (pw f 0).toNat < 16384 → (pw f 1).toNat < 16384 → pf f 2 8 8 = 0 →
    actionOk (pw f (3 + 6 * w)) (pw f (4 + 6 * w)) = true → f.scope ≠ 0 →
    Completes ciTcamRuleReplace (.tcamRuleReplace f) f s (onUnits false f (fun g t =>
      opSubmit g (.tcamReplace (pw f 0).toNat (pw f 1).toNat (pw f 2).toNat (f.payload.drop 3)) (some t)))) ∧
  (∀ f s, Ready ciTcamActionSet f s → f.length = 12 → (bit (pw f 0) 14 = true → actionOk (pw f 1) (pw f 2) = true) →
    f.scope ≠ 0 →
    Completes ciTcamActionSet (.tcamActionSet f) f s (onUnits false f (fun g t => opSubmit g
      (.tcamAction (pf f 0 0 14) (bit (pw f 0) 14) (bit (pw f 0) 15) (pf f 0 16 16) (pw f 1) (pw f 2)) (some t)))) ∧
  (∀ f s g, Ready ciTcamRuleRead f s → f.length = 4 → (pw f 0).toNat < 16384 → g < 8 → f.scope = 2 ^ g →
    hasSlot s (3 * g + 1) actDebug = true → hasSlot s (3 * g + 2) actDebug = true →
    Completes ciTcamRuleRead (.tcamRuleRead f) f s (fun b => ok (ruleRecord (ruleGet b g (pw f 0).toNat))
      (charge (3 * g + 2) actDebug 1 (charge (3 * g + 1) actDebug 1 b)))) ∧
  (∀ f s w, Ready ciTcamSearch f s → f.length = 92 → pf f 0 0 4 = w → 1 ≤ w → w ≤ 8 → (pw f 0).toNat < 2 ^ 9 →
    (bit (pw f 0) 8 = true → pf f 1 30 2 = 0 ∧ pf f 2 3 4 = 0) → f.scope ≠ 0 →
    (∀ g ∈ bitsOf 8 f.scope, hasSlot s (3 * g + 1) actDebug = true) →
    Completes ciTcamSearch (.tcamSearch f) f s
      (let k := keySlices ((List.range 20).flatMap (fun i => beBytes 4 (pw f (3 + i)).toNat)) w
       if mbPrivileged s f then searchCount (bitsOf 8 f.scope) w (pf f 0 4 4) k
       else searchStep (bitsOf 8 f.scope) w (pf f 0 4 4) k (if bit (pw f 0) 8 then some (pw f 1, pw f 2) else none))) ∧
  (∀ f s, Ready ciTcamScrubCfg f s → f.length = 4 → f.scope ≠ 0 →
    Completes ciTcamScrubCfg (.tcamScrubCfg f) f s (eachGlen f (fun g => wrM (tcmScrubCfg g) 0xFFFF (pw f 0))))


/-! ### Streams, gates and meters: group 0x05 (R196 to R219, R412) -/

/-- The commands on stream identification and contexts (R196, R199, R218, R219, R412): the writes change one record of each
glen named, a context's also its recovery function's algorithm (R323); the reads change nothing. -/
def Obligations.StreamCommandsComplete : Prop :=
  (∀ f s stg, Ready ciStreamKeyLayout f s → f.length = 8 → (pw f 0).toNat < 64 →
    stg = (fun g t => stgM (stmKeyCfg g (pw f 0).toNat) 0x1FFF1FFF (pw f 1) t) →
    Commits ciStreamKeyLayout (.streamKeyLayout f) f s (commitOn false f (fun g t => keyCommit g (stg g t)) emtKeyStat) 8
    stg keyFails keyGroup) ∧
  (∀ f s, Ready ciStreamIdAdd f s → f.length = 52 → (pw f 12).toNat < 32768 → f.scope ≠ 0 →
    Completes ciStreamIdAdd (.streamIdAdd f) f s
      (onGlens f (fun g t => idInsert g (key384 f) (pw f 12).toNat t))) ∧
  (∀ f s, Ready ciStreamIdDelete f s → f.length = 48 → f.scope ≠ 0 →
    Completes ciStreamIdDelete (.streamIdDelete f) f s (onGlens f (fun g t => idDelete g (key384 f) t))) ∧
  (∀ f s, Ready ciStreamCtxSet f s → f.length = 20 → (pw f 0).toNat < 32768 → fld (pw f 1) 30 2 = 0 →
    fld (pw f 3) 22 10 = 0 → fld (pw f 3) 11 11 ≤ 1024 → pw f 4 = 0 → f.scope ≠ 0 →
    Completes ciStreamCtxSet (.streamCtxSet f) f s (eachGlen f (fun g t =>
      rcvFromCtx (32768 * g + (pw f 0).toNat)
        (ctxPut g (pw f 0).toNat [setBit (pw f 1) 15 false, pw f 2, pw f 3, pw f 4] t)))) ∧
  (∀ f s g, Ready ciStreamCtxRead f s → f.length = 4 → (pw f 0).toNat < 32768 → g < 8 → f.scope = 2 ^ g →
    Completes ciStreamCtxRead (.streamCtxRead f) f s (fun b => ok
      ((List.range 4).map (fun j => cw (ctxGet b g (pw f 0).toNat) j) ++ ctxCounters b g (pw f 0).toNat) b)) ∧
  (∀ f s, Ready ciStreamUnblock f s → f.length = 8 → (pw f 0).toNat = 0 → (pw f 1).toNat < 32768 → f.scope ≠ 0 →
    Completes ciStreamUnblock (.streamUnblock f) f s (eachGlen f (fun g t => ctxPut g (pw f 1).toNat
      ((ctxGet t g (pw f 1).toNat).set 0 (setBit (cw (ctxGet t g (pw f 1).toNat) 0) 15 false)) t))) ∧
  (∀ f s, Ready ciStreamUnblock f s → f.length = 8 → (pw f 0).toNat = 1 → (pw f 1).toNat < 256 → f.scope ≠ 0 →
    Completes ciStreamUnblock (.streamUnblock f) f s (eachGlen f (fun g t =>
      gatePut g (pw f 1).toNat { gateGet t g (pw f 1).toNat with closedInv := false } t))) ∧
  (∀ f s, Ready ciStreamUnblock f s → f.length = 8 → (pw f 0).toNat = 2 → polAddrOk (pw f 1) = true → f.scope ≠ 0 →
    Completes ciStreamUnblock (.streamUnblock f) f s (eachGlen f (fun g t =>
      let m := meterGet t g (meterOfAddr (pw f 1))
      meterPut g (meterOfAddr (pw f 1)) { m with w3 := setBit m.w3 10 false } t))) ∧
  (∀ f s, Ready ciStreamCapacity f s → f.length = 0 → f.scope ≠ 0 →
    Completes ciStreamCapacity (.streamCapacity f) f s (fun b => ok ((bitsOf 8 f.scope).flatMap (fun g =>
      [wd (idUsed b g), wd ((ofUnit b.streams.ctx g).filter (fun p => bit (cw p.2 0) 0)).length,
       wd ((ofUnit b.streams.gates g).filter (fun p => p.2.oper.len != 0)).length,
       wd ((ofUnit b.streams.meters g).filter
         (fun p => p.2.w0 != 0 || p.2.w1 != 0 || p.2.w2 != 0 || p.2.w3 != 0)).length])) b)) ∧
  (∀ f s, Ready ciHistEdgesSet f s → f.length = 64 → (pw f 0).toNat < 64 →
    (∀ i < 14, (pw f (1 + i)).toNat ≤ (pw f (2 + i)).toNat) → f.scope ≠ 0 →
    Completes ciHistEdgesSet (.histEdgesSet f) f s (eachGlen f (fun g =>
      edgesPut g (pw f 0).toNat ((List.range 15).map (fun i => pw f (1 + i)))))) ∧
  (∀ f s g, Ready ciHistRead f s → f.length = 4 → (pw f 0).toNat < 32768 → g < 8 → f.scope = 2 ^ g →
    Completes ciHistRead (.histRead f) f s (fun b => ok
      ((List.range 16).map (fun i => wd (cntOf b kCtx (ctxIdx g (pw f 0).toNat) (xBins + i)))) b))

/-- The commands on stream gates, meters and colours (R203, R213 to R216, R412). -/
def Obligations.MeterCommandsComplete : Prop :=
  (∀ f s n, Ready ciStreamGateSet f s → (pw f 1).toNat = n → n ≤ 64 → f.length = 28 + 4 * n → (pw f 0).toNat < 2 ^ 9 →
    (pw f 2).toNat < 10 ^ 9 → (pw f 4).toNat < 2 ^ 16 → (n ≠ 0 → (pw f 5).toNat ≠ 0) →
    (∀ i < n, fld (pw f (7 + i)) 5 3 = 0) → (n ≠ 0 → ∃ i < n, fld (pw f (7 + i)) 8 24 ≠ 0) → f.scope ≠ 0 →
    Completes ciStreamGateSet (.streamGateSet f) f s (eachGlen f (fun g => gateCommit g (pf f 0 0 8)
      ⟨n, ((pw f 3).toNat + (pw f 4).toNat * 2 ^ 32) * 10 ^ 9 + (pw f 2).toNat, (pw f 5).toNat, (pw f 6).toNat,
        (List.range n).map (fun i => pw f (7 + i))⟩ (bit (pw f 0) 8)))) ∧
  (∀ f s stg, Ready ciMeterSet f s → f.length = 20 → (0x0301 ≤ (sessOf s f).agreed ∨ bit (pw f 4) 7 = false) → fld (pw f
    0) 15 1 = 0 → fld (pw f 0) 17 15 = 0 →
    stg = (fun g t => (List.range 4).foldl (fun x i => wrStg (polData g i) (pw f (1 + i)) x) (wrStg (polAddr g) (pw f 0) t))
    →
    Commits ciMeterSet (.meterSet f) f s (commitOn false f (fun g t => polCommit g (nbit f.opts 0) (stg g t)) polStat) 8 stg
    (fun t g => meterFails (rdStg t (polAddr g)) (rdStg t (polData g 0)) (rdStg t (polData g 1)) (rdStg t (polData g 2))
    (rdStg t (polData g 3))) polGroup) ∧
  (∀ f s g, Ready ciMeterRead f s → f.length = 4 → polAddrOk (pw f 0) = true → g < 8 → f.scope = 2 ^ g →
    Completes ciMeterRead (.meterRead f) f s (fun b =>
      let m := meterGet b g (meterOfAddr (pw f 0))
      let c := fun pos => cntOf b kMeter (meterIdx g (meterOfAddr (pw f 0))) pos
      ok ([m.w0, m.w1, m.w2, m.w3, bucketWord m.tc, bucketWord m.tp, wd m.last, 0] ++
        [wd (c 0), wd (c 1), wd (c 2), loW (c 3), hiW (c 3), loW (c 4), hiW (c 4)]) b)) ∧
  (∀ f s n, Ready ciTenantPolicerMap f s → (pw f 1).toNat = n → 1 ≤ n → n ≤ 1018 → f.length = 8 + 4 * n →
    (pw f 0).toNat + n ≤ 65536 → f.scope ≠ 0 →
    Completes ciTenantPolicerMap (.tenantPolicerMap f) f s (eachGlen f (fun g t => (List.range n).foldl
      (fun x i => tenMapPut g ((pw f 0).toNat + i) (pw f (2 + i) &&& 0xBFFF) x) t))) ∧
  (∀ f s, Ready ciColourMapSet f s → bit (pw f 0) 0 = false → f.length = 8 → pf f 0 1 3 = 0 → pf f 0 8 24 = 0 →
    f.scope ≠ 0 →
    Completes ciColourMapSet (.colourMapSet f) f s (eachGlen f (fun g => wr (polPcp g (pf f 0 4 4)) (pw f 1)))) ∧
  (∀ f s, Ready ciColourMapSet f s → bit (pw f 0) 0 = true → f.length = 20 → pf f 0 1 3 = 0 → pf f 0 8 24 = 0 →
    f.scope ≠ 0 →
    Completes ciColourMapSet (.colourMapSet f) f s (eachGlen f (fun g t => (List.range 4).foldl
      (fun x w => wr (polDscp g (pf f 0 4 4) w) (pw f (1 + w)) x) t)))


/-! ### Buffer pools: group 0x06 (R245 to R248, R412) -/

/-- The commands on the buffer pool managers (R226, R243, R245 to R248, R412): BPM_YELLOW_KEEP writes four registers of
each die named, BPM_AUDIT audits each die, the three commits stage words and commit a group, the rest only answer. -/
def Obligations.BpmCommandsComplete : Prop :=
  (∀ f s stg, Ready ciBpmPoolLayout f s → f.length = 16 → (∀ k < 4, (pw f k).toNat < 2 ^ 15) →
    stg = (fun d t => (List.range 4).foldl (fun x k => stgM (bpmPoolCfg d k) 0x7FFF (pw f k) x) t) →
    Commits ciBpmPoolLayout (.bpmPoolLayout f) f s (commitOn true f (fun d t => layoutCommit d (stg d t)) bpmLayoutStat) 2
    stg layoutFails layoutGroup) ∧
  (∀ f s n stg, Ready ciBpmQuotaSet f s → f.length = 12 * n → 1 ≤ n → (∀ i < n, fld (pw f (3 * i)) 0 6 < 38 ∧ fld (pw f (3
    * i)) 6 2 = 0 ∧ fld (pw f (3 * i)) 10 22 = 0 ∧ (pw f (3 * i + 1)).toNat < 2 ^ 19 ∧ (pw f (3 * i + 2)).toNat < 2 ^ 19) →
    stg = (fun d t => (List.range n).foldl (fun x i => stgM (bpmMin d (pf f (3 * i) 0 6) (pf f (3 * i) 8 2)) 0x7FFFF (pw f
    (3 * i + 1)) (stgM (bpmMax d (pf f (3 * i) 0 6) (pf f (3 * i) 8 2)) 0x7FFFF (pw f (3 * i + 2)) x)) t) →
    Commits ciBpmQuotaSet (.bpmQuotaSet f) f s (commitOn true f (fun d t => quotaCommit d (stg d t)) bpmQuotaStat) 2 stg
    quotaFails quotaGroup) ∧
  (∀ f s, Ready ciBpmStatus f s → f.length = 0 → f.scope ≠ 0 →
    Completes ciBpmStatus (.bpmStatus f) f s (fun b => ok ((bitsOf 2 f.scope).flatMap (fun d =>
      ((List.range 4).flatMap (fun k => [wd (freeCells b d k), wd (reserveOf b d k), wd (lostCells b d k .retired)])) ++
      ((List.range 38).flatMap (fun r => (List.range 4).map (fun k => wd (useOf b d r k)))))) b)) ∧
  (∀ f s stg, Ready ciBpmBudgetSet f s → f.length = 8 → pf f 0 15 1 = 0 → pf f 0 31 1 = 0 → pf f 1 15 1 = 0 →
    stg = (fun d t => stgM (bpmBase d + 0x40) 0x7FFF7FFF (pw f 0) (stgM (bpmBase d + 0x44) 0x7FFF (pw f 1) t)) →
    Commits ciBpmBudgetSet (.bpmBudgetSet f) f s (commitOn true f (fun d t => plainBudgetCommit d (stg d t)) bpmBudgetStat)
    2 stg plainBudgetFails plainBudgetGroup) ∧
  (∀ f s, Ready ciBpmYellowKeep f s → f.length = 16 → (∀ k < 4, (pw f k).toNat < 2 ^ 19) → f.scope ≠ 0 →
    Completes ciBpmYellowKeep (.bpmYellowKeep f) f s (eachDie f (fun d t =>
      (List.range 4).foldl (fun x k => wrM (bpmYelKeep d k) 0x7FFFF (pw f k) x) t))) ∧
  (∀ f s, Ready ciBpmAudit f s → f.length = 4 → f.scope ≠ 0 →
    Completes ciBpmAudit (.bpmAudit f) f s (fun b =>
      let r := eachDie f auditDie b
      let more := (bitsOf 2 f.scope).flatMap (fun d => wd (useDiffs b d).length :: oldCells b d (pw f 0).toNat)
      { r with words := (r.words ++ more).take 1020 })) ∧
  (∀ f s, Ready ciBpmCapacity f s → f.length = 0 → f.scope ≠ 0 →
    Completes ciBpmCapacity (.bpmCapacity f) f s (fun b => ok ((bitsOf 2 f.scope).flatMap (fun d =>
      (List.range 4).flatMap (fun k => [wd (lostCells b d k .retired), wd (lostCells b d k .quarantined)]))) b))

/-! ### The scheduler: group 0x07 (R251 to R277, R412) -/

/-- The commands that write scheduler records (R251, R253, R267, R275, R277, R412). -/
def Obligations.SchedulerWritesComplete : Prop :=
  (∀ f s, Ready ciSchPortSet f s → f.length = 8 → (pw f 0).toNat < 256 → portExists s (pw f 0).toNat = true →
    pf f 1 23 9 = 0 → pf f 1 15 1 = 0 → pf f 1 0 15 < 31744 →
    Completes ciSchPortSet (.schPortSet f) f s (fun b => ok []
      (dropDown (pw f 0).toNat (wrM (schPortCfg (pw f 0).toNat) 0x7F7FFF (pw f 1) b)))) ∧
  (∀ f s d n, Ready ciSchNodeSet f s → f.length = 8 → d < 2 → f.scope = 2 ^ d → hasSlot s (schMem d) 0 = true → (pw f 0).toNat = n → n < 31744 →
    nodeWordOk s d (pw f 1) = true →
    (nodePort (pw f 1) = nodePort (nodeGet s d n) ∧ (nodeEn (nodeGet s d n) = true → nodeEn (pw f 1) = true) ∨
      (busyQueues s d n).isEmpty = true) →
    Completes ciSchNodeSet (.schNodeSet f) f s (fun b =>
      eachDie f (fun _ t => cfgSlot d 1 (nodePut d n (setBit (pw f 1) 18 (nodeRetired (nodeGet b d n))) t)) b)) ∧
  (∀ f s n, Ready ciSchTenantMap f s → f.length = 4 * (n + 1) → 1 ≤ n → (pw f 0).toNat + n ≤ 65536 →
    (∀ i < n, fld (pw f (1 + i)) 16 16 = 0 ∧ fld (pw f (1 + i)) 0 15 < 31744) →
    f.scope ≠ 0 → (∀ d ∈ bitsOf 2 f.scope, hasSlot s (schMem d) 0 = true) →
    Completes ciSchTenantMap (.schTenantMap f) f s (eachDie f (fun d t => cfgSlot d n
      ((List.range n).foldl (fun x i => tmapPut d ((pw f 0).toNat + i) (pw f (1 + i)) x) t)))) ∧
  (∀ f s d, Ready ciSchQueueSet f s → 0x0200 ≤ (sessOf s f).agreed → f.length = 20 → d < 2 → f.scope = 2 ^ d →
    hasSlot s (schMem d) 0 = true →
    (pw f 0).toNat < 262144 → queueRecFails [pw f 1, pw f 2, pw f 3, pw f 4] = [] →
    Completes ciSchQueueSet (.schQueueSet f) f s (eachDie f (fun _ t =>
      cfgSlot d 1 (queuePut d (pw f 0).toNat [pw f 1, pw f 2, pw f 3, pw f 4] t)))) ∧
  (∀ f s d i r, Ready ciSchQueueSet f s → (sessOf s f).agreed < 0x0200 → f.length = 12 → d < 2 → f.scope = 2 ^ d →
    hasSlot s (schMem d) 0 = true → (pw f 0).toNat = i → i < 262144 → bit (pw f 1) 11 = false →
    r = [setBit (pw f 1) 11 (qSpillEn (queueGet s d i)), pw f 2, qw (queueGet s d i) 2, qw (queueGet s d i) 3] →
    queueRecFails r = [] →
    Completes ciSchQueueSet (.schQueueSet f) f s (eachDie f (fun _ t => cfgSlot d 1 (queuePut d i r t)))) ∧
  (∀ f s d stg, Ready ciShaperSet f s → f.length = 16 → (pw f 0).toNat < 2 ^ 20 → d < 2 → f.scope = 2 ^ d →
    (pf f 0 18 2 = 1 → pf f 0 0 18 < 31744) → (pf f 0 18 2 = 2 → namesPort f s (pf f 0 0 18) = true) →
    stg = (fun t : State => (List.range 3).foldl (fun z i => wrStg (shpData d i) (pw f (1 + i)) z)
      (wrStg (shpAddr d) (pw f 0) t)) →
    shpFails (pw f 0) (pw f 1) (pw f 2) (pw f 3) = [] → shpWaits s d = none →
    stagedBad (shpGroup d) (stg (begun ciShaperSet f s)) = false →
    Completes ciShaperSet (.shaperSet f) f s (onUnits true f (fun _ t x =>
      let y := shpCommit d (nbit f.opts 0) (some t) (stg x)
      (if (shpWaits y d).isSome then rPending else rDone, y)))) ∧
  (∀ f s, Ready ciSchSampleCfg f s → f.length = 12 → (pw f 0).toNat < 8 → (pw f 1).toNat < 2 ^ 22 → f.scope ≠ 0 →
    Completes ciSchSampleCfg (.schSampleCfg f) f s (eachDie f (fun d t =>
      wr (sampRange d (pw f 0).toNat) (pw f 2) (wr (sampCfg d (pw f 0).toNat) (pw f 1) t)))) ∧
  (∀ f s stg, Ready ciSchBudgetSet f s → f.length = 8 → pf f 0 15 1 = 0 → pf f 0 31 1 = 0 → pf f 1 15 1 = 0 →
    stg = (fun d t => stgM (schBase d + 0x44) 0x7FFF (pw f 1) (stgM (schBase d + 0x40) 0x7FFF7FFF (pw f 0) t)) →
    Commits ciSchBudgetSet (.schBudgetSet f) f s (commitOn true f (fun d t => schBudgetCommit d (stg d t)) schBudgetStat) 2
    stg schBudgetFails schBudgetGroup) ∧
  (∀ f s d m, Ready ciSchNodeRehome f s → f.length = 4 → (pw f 0).toNat < 32768 → d < 2 → f.scope = 2 ^ d →
    freeSpareNode s d = some m → hasSlot s (schMem d) 0 = true →
    Completes ciSchNodeRehome (.schNodeRehome f) f s
      (fun b => ok [wd m] (cfgSlot d 18 (rehomeNode d (pw f 0).toNat m b)))) ∧
  (∀ f s d, Ready ciSchQueueFlush f s → f.length = 8 → d < 2 → f.scope = 2 ^ d → (pw f 0).toNat = 0 →
    (pw f 1).toNat < 262144 → hasSlot s (schMem d) 0 = true →
    Completes ciSchQueueFlush (.schQueueFlush f) f s
      (eachDie f (fun _ t => cfgSlot d 1 (flushQueue dropFlush d (pw f 1).toNat t)))) ∧
  (∀ f s d, Ready ciSchQueueFlush f s → f.length = 8 → d < 2 → f.scope = 2 ^ d → (pw f 0).toNat = 1 →
    (pw f 1).toNat < 31744 → hasSlot s (schMem d) 0 = true →
    Completes ciSchQueueFlush (.schQueueFlush f) f s
      (eachDie f (fun _ t => cfgSlot d 1 (flushNode dropFlush d (pw f 1).toNat t))))

/-- The commands that read the scheduler (R275 to R277, R412): a shaper's record with its buckets as they stand now, a
queue's depth, head age, spill state and counters, the use of the nodes. -/
def Obligations.SchedulerReadsComplete : Prop :=
  (∀ f s d, Ready ciShaperRead f s → f.length = 4 → (pw f 0).toNat < 2 ^ 20 → pf f 0 0 18 < levelTop (pf f 0 18 2) →
    (pf f 0 18 2 = 1 → pf f 0 0 18 < 31744) → (pf f 0 18 2 = 2 → namesPort f s (pf f 0 0 18) = true) →
    d < 2 → f.scope = 2 ^ d → hasSlot s (schMem d) 0 = true →
    Completes ciShaperRead (.shaperRead f) f s (fun b =>
      let x := shpNow b d (pf f 0 18 2) (pf f 0 0 18)
      ok [x.w0, x.w1, x.w2, bucketWord x.tc, bucketWord x.tp] (cfgSlot d 1 b))) ∧
  (∀ f s d i, Ready ciSchQueueRead f s → f.length = 4 → (pw f 0).toNat = i → i < 262144 → d < 2 → f.scope = 2 ^ d →
    hasSlot s (schMem d) 0 = true →
    Completes ciSchQueueRead (.schQueueRead f) f s (fun b =>
      let c := fun pos => cntOf b kQueue (queueIdx d i) pos
      ok ([wd (satF 32 (plainDepth b d i)), wd (satF 32 (hbmDepth b d i)), wd (satF 32 (headAge b d i)),
           wd (b2n (spillHeld b d i)),
           wd (c 0), loW (c 1), hiW (c 1), wd (c 2), loW (c 3), hiW (c 3)] ++
          (List.range 8).map (fun k => wd (c (4 + k)))) (cfgSlot d 1 b))) ∧
  (∀ f s, Ready ciSchCapacity f s → f.length = 0 → f.scope ≠ 0 →
    Completes ciSchCapacity (.schCapacity f) f s (fun b => ok ((bitsOf 2 f.scope).flatMap (nodeUse b)) b))


/-! ### Time and gates: groups 0x08 (R281 to R305, R413) -/

/-- The commands on network time (R281 to R290, R305): TIME_GET answers what the clock reads, TIME_SET and TIME_STEP load a
time in one cycle, TIME_SLEW begins a slew, the others write registers of the time block or one clock instance. -/
def Obligations.TimeCommandsComplete : Prop :=
  (∀ f s, Ready ciTimeGet f s → f.length = 0 →
    Completes ciTimeGet (.timeGet f) f s (fun b => ok
      [wd (netNanos s), loW (netSec s), hiW (netSec s), wd (netFrac s), rd s (timBase + 4)] b)) ∧
  (∀ f s, Ready ciTimeSet f s → f.length = 12 → (pw f 0).toNat < 10 ^ 9 → (pw f 2).toNat < 2 ^ 16 →
    Completes ciTimeSet (.timeSet f) f s (fun b => ok []
      (timeLoad ((((pw f 1).toNat + (pw f 2).toNat * 2 ^ 32) * 10 ^ 9 + (pw f 0).toNat) * 2 ^ 48) b))) ∧
  (∀ f s, Ready ciTimeStep f s → f.length = 8 →
    Completes ciTimeStep (.timeStep f) f s (fun b => ok []
      (timeStepBy (sgn 32 (pw f 0).toNat + sgn 32 (pw f 1).toNat * 10 ^ 9) b))) ∧
  (∀ f s, Ready ciTimeSlew f s → f.length = 4 → (sgn 32 (pw f 0).toNat).natAbs ≤ 10 ^ 9 →
    Completes ciTimeSlew (.timeSlew f) f s (fun b => ok [] (timeSlew (sgn 32 (pw f 0).toNat) b))) ∧
  (∀ f s, Ready ciTimeSource f s → f.length = 4 → (pw f 0).toNat < 4 →
    Completes ciTimeSource (.timeSource f) f s (fun b =>
      let t := timCfgWrite (setBit (rd b timBase) 20 (bit (pw f 0) 0)) b
      ok [] { t with tim := { t.tim with discipline := bit (pw f 0) 1,
                                         ppsSeen := if b.tim.discipline then b.tim.ppsSeen else b.tim.cnt } })) ∧
  (∀ f s, Ready ciTimePpsCfg f s → f.length = 12 → (pw f 0).toNat < 10 ^ 9 → (pw f 1).toNat ≤ 999999 →
    (pw f 2).toNat < 2 →
    Completes ciTimePpsCfg (.timePpsCfg f) f s (fun b => ok []
      (wrBit timBase 21 (bit (pw f 2) 0) (wr (timBase + 0x44) (pw f 1) (wr (timBase + 0x40) (pw f 0) b))))) ∧
  (∀ f s, Ready ciTimePortAdj f s → f.length = 12 → (pw f 0).toNat < 256 → portUnused s (pw f 0).toNat = false →
    Completes ciTimePortAdj (.timePortAdj f) f s (fun b => ok []
      (wr (timBase + 0x400 + 8 * (pw f 0).toNat + 4) (pw f 2) (wr (timBase + 0x400 + 8 * (pw f 0).toNat) (pw f 1) b)))) ∧
  (∀ f s, Ready ciPtpInstanceSet f s → f.length = 8 → pf f 0 2 6 = 0 → (pw f 0).toNat < 2 ^ 19 →
    (0x0300 ≤ (sessOf s f).agreed ∨ bit (pw f 0) 18 = false) → pw f 1 = 0 →
    Completes ciPtpInstanceSet (.ptpInstanceSet f) f s (fun b => ok []
      { b with tim := { b.tim with ptp := tset [] b.tim.ptp (pf f 0 0 2) [pw f 0, 0] } }))

/-- The commands on a port's gate list (R293, R300, R305, R413).  GATE_LIST_SET stages entries and, with its option, commits
the list; GATE_LIST_READ answers a list, the change time and W_c per class; GATE_PORT_CFG writes a port's two registers;
GATE_LIST_DISCARD ends a pending change and clears the staging list. -/
def Obligations.GateCommandsComplete : Prop :=
  (∀ f s p n, Ready ciGateListSet f s → (pw f 2).toNat = n → n ≤ 505 → f.length = 36 + 8 * n → (pw f 0).toNat = p →
    p < 256 → portExists s p = true → (pw f 1).toNat + n ≤ 1024 → nbit f.opts 0 = false →
    Completes ciGateListSet (.gateListSet f) f s (fun b =>
      let t := setGateStg p (stageEntries (pw f 1).toNat
        ((List.range n).map (fun i => (pw f (9 + 2 * i), pw f (10 + 2 * i)))) (gateStgOf b p)) b
      ok [wd (rdF t (gatStat p) 0 5), rd t (gatChange p 0), rd t (gatChange p 1), rd t (gatChange p 2)] t)) ∧
  (∀ f s p n stg act res, Ready ciGateListSet f s → (pw f 2).toNat = n → n ≤ 505 → f.length = 36 + 8 * n →
    (pw f 0).toNat = p → p < 256 → portExists s p = true → (pw f 1).toNat + n ≤ 1024 → nbit f.opts 0 = true →
    stg = (fun b : State => gateSetStage p f (setGateStg p (stageEntries (pw f 1).toNat
      ((List.range n).map (fun i => (pw f (9 + 2 * i), pw f (10 + 2 * i)))) (gateStgOf b p)) b)) →
    act = (fun b : State => gatListCommit p (stg b)) →
    res = (fun b : State => if rdF (act b) (gatStat p) 0 2 = 2 then err eRange (0x80 + rdF (act b) (gatStat p) 2 3) b
      else ok [wd (rdF (act b) (gatStat p) 0 5), rd (act b) (gatChange p 0), rd (act b) (gatChange p 1),
        rd (act b) (gatChange p 2)] (act b)) →
    Answers ciGateListSet (.gateListSet f) f s res ∧
    (∀ u, u = stg (begun ciGateListSet f s) → stagedBad (gatGroup p) u = false →
      gateFaults (stagedBank u p) (rdStg u (gatAdmin p 1)).toNat = [] → Completes ciGateListSet (.gateListSet f) f s res)) ∧
  (∀ f s p bank, Ready ciGateListRead f s → f.length = 16 → (pw f 0).toNat = p → p < 256 → portExists s p = true →
    (pw f 1).toNat ≤ 1 → (pw f 2).toNat + (pw f 3).toNat ≤ 1024 → (pw f 3).toNat ≤ 501 →
    bank = (if (pw f 1).toNat = 0 then adminBank s p else (gatOf s p).oper) →
    Completes ciGateListRead (.gateListRead f) f s (fun b => ok
      (bankWords bank ++ [rd s (gatStat p), rd s (gatChange p 0), rd s (gatChange p 1), rd s (gatChange p 2)] ++
        (List.range 8).map (fun c => match windowOf (gatOf s p).oper c with | some n => wd n | none => 0xFFFFFFFF) ++
        (List.range (pw f 3).toNat).flatMap (fun i => [(bankEntry bank.entries ((pw f 2).toNat + i)).1,
          (bankEntry bank.entries ((pw f 2).toNat + i)).2])) b)) ∧
  (∀ f s p, Ready ciGatePortCfg f s → f.length = 12 → (pw f 0).toNat = p → p < 256 → portExists s p = true →
    (pw f 1).toNat < 2 ^ 19 → (pw f 2).toNat < 2 ^ 16 →
    Completes ciGatePortCfg (.gatePortCfg f) f s
      (fun b => ok [] (wrM (gatHoldAdv p) 0xFFFF (pw f 2) (gatPortCfgWrite p (pw f 1) b)))) ∧
  (∀ f s p, Ready ciGateListDiscard f s → f.length = 4 → (pw f 0).toNat = p → p < 256 → portExists s p = true →
    Completes ciGateListDiscard (.gateListDiscard f) f s (fun b => ok [] (setGateStg p [] (gatListDiscard p b))))

/-! ### Redundancy: group 0x09 (R319 to R333) -/

/-- The commands on the FRE blocks (R319, R320, R323, R325, R329 to R333): the writes change one record of each die that
they name, FRE_PORT_CFG one register of a port, or what is held of it for the hand-over (R416); the reads change
nothing. -/
def Obligations.RedundancyCommandsComplete : Prop :=
  (∀ f s p, Ready ciFrePortCfg f s → f.length = 8 → (pw f 0).toNat = p → p < 256 → portExists s p = true →
    fld (pw f 1) 12 2 = 0 → fld (pw f 1) 29 3 = 0 →
    (bit (pw f 1) 10 = true → domainElsewhere s p (fld (pw f 1) 6 4) = false) →
    Completes ciFrePortCfg (.frePortCfg f) f s (fun b => ok [] (portCfgWrite p (frePortCfg p) 0x1FFFCFFF (pw f 1) b))) ∧
  (∀ f s n, Ready ciFreHandleMap f s → f.length = 4 * (n + 1) → 1 ≤ n → (pw f 0).toNat + n ≤ 262144 →
    (∀ i < n, fld (pw f (1 + i)) 15 1 = 0 ∧ fld (pw f (1 + i)) 29 3 = 0) → f.scope ≠ 0 →
    Completes ciFreHandleMap (.freHandleMap f) f s (eachDie f (fun d t =>
      (List.range n).foldl (fun x i =>
        rcvFromCtx ((pw f 0).toNat + i) (setHandle d ((pw f 0).toNat + i) (pw f (1 + i)) x)) t))) ∧
  (∀ f s d, Ready ciFreGenSet f s → f.length = 4 → pf f 0 14 2 = 0 → d < 2 → f.scope = 2 ^ d →
    Completes ciFreGenSet (.freGenSet f) f s (eachDie f (fun d => setGen d (pf f 0 0 14) (pf f 0 16 16)))) ∧
  (∀ f s d, Ready ciFreRcvSet f s → f.length = 16 → (pw f 0).toNat < 4096 → rcvFails (pw f 1) (pw f 3) = [] → d < 2 →
    f.scope = 2 ^ d →
    Completes ciFreRcvSet (.freRcvSet f) f s (eachDie f (fun d t => rcvPut d (pw f 0).toNat
      { rcvGet t d (pw f 0).toNat with w0 := pw f 1, w1 := pw f 2, w2 := pw f 3, takeAny := true, timer := t.tim.cnt,
                                       latAt := t.tim.cnt, latZero := t.tim.cnt } t))) ∧
  (∀ f s d n, Ready ciFreRcvRead f s → f.length = 4 → (pw f 0).toNat = n → n < 4096 → d < 2 → f.scope = 2 ^ d →
    Completes ciFreRcvRead (.freRcvRead f) f s (fun b =>
      let x := rcvGet b d n
      ok ([x.w0, x.w1, x.w2, wd (b2n x.takeAny + x.seq * 2 ^ 16), wd x.p, wd x.d] ++
        (List.range 8).map (fun i => wd (cntOf b kRcv (rcvIdx d n) i))) b)) ∧
  (∀ f s d n, Ready ciFreRcvReset f s → f.length = 4 → (pw f 0).toNat = n → n < 4096 → d < 2 → f.scope = 2 ^ d →
    Completes ciFreRcvReset (.freRcvReset f) f s (eachDie f (fun d t =>
      bumpRcv d n rcResets 1 (rcvPut d n { rcvGet t d n with takeAny := true } t)))) ∧
  (∀ f s, Ready ciFreDupCfg f s → f.length = 40 → (pw f 0).toNat < 2 ^ 16 →
    (∀ i < 4, pf f (3 + 2 * i) 16 15 = 0) → f.scope ≠ 0 →
    Completes ciFreDupCfg (.freDupCfg f) f s (eachDie f (fun d t => (List.range 4).foldl
      (fun x i => wr (freOwnMac d i + 4) (pw f (3 + 2 * i)) (wr (freOwnMac d i) (pw f (2 + 2 * i)) x))
      (dupSeedWrite d (pw f 1) (wr (freDupCfg d) (pw f 0) t))))) ∧
  (∀ f s, Ready ciFreDupStatus f s → f.length = 0 → f.scope ≠ 0 →
    Completes ciFreDupStatus (.freDupStatus f) f s (fun b => ok ((bitsOf 2 f.scope).flatMap
      (fun d => wd (dupUsed b d) :: (List.range 5).map (fun i => rd b (freCnt d i)))) b))


/-! ### Microcode: group 0x0A (R103 to R113, R316) -/

/-- The commands on microcode (R106 to R111).  UCODE_PATCH_LOAD writes an image that R109 admits (its signature is a
free value of the model: another image is answered E_AUTH and raised) into the inactive banks,
at the lowest base where it fits beside the active set, and switches when its option says so; with its second option it
reverts first when the image fits nowhere, and loads at once where no engine is BUSY after that (R106); UCODE_PATCH_SWITCH and UCODE_PATCH_REVERT switch every engine of one kind;
UCODE_QUERY answers; the two profile commands write a port's profile or hold it for the hand-over. -/
def Obligations.MicrocodeCommandsComplete : Prop :=
  (∀ f s e b t base, Ready ciUcodePatchLoad f s → f.length = 16 → e < 2 → pf f 0 1 2 = e + 1 → (pw f 0).toNat < 8 →
    (bit (pw f 0) 0 = true → f.mb ≤ 1) → (pw f 1).toNat ≤ 65536 →
    imageFrom f (bit (pw f 0) 0) (pw f 1).toNat (w64 (pw f 2) (pw f 3)) (begun ciUcodePatchLoad f s) = (b, t) →
    s.ucode.gaps.find? (fun q => q.e == e && q.mb == mbKey f) = none →
    enginesBusy s e = false → patchGap t e (imgN b) = some base →
    Answers ciUcodePatchLoad (.ucodePatchLoad f) f s (fun _ =>
      if imageGood t e b then
        if nbit f.opts 0 then ok [wd (imgSerial b), wd base, wd (3 + e)] (switchSet e (loadSet e ⟨b, base⟩ t))
        else ok [wd (imgSerial b), wd base, wd (7 + e)] (loadSet e ⟨b, base⟩ t)
      else err eAuth 0 (raise srcPatchAuth 0 0 0 t))) ∧
  (∀ f s e b t, Ready ciUcodePatchLoad f s → f.length = 16 → e < 2 → pf f 0 1 2 = e + 1 → (pw f 0).toNat < 8 →
    (bit (pw f 0) 0 = true → f.mb ≤ 1) → (pw f 1).toNat ≤ 65536 →
    imageFrom f (bit (pw f 0) 0) (pw f 1).toNat (w64 (pw f 2) (pw f 3)) (begun ciUcodePatchLoad f s) = (b, t) →
    s.ucode.gaps.find? (fun q => q.e == e && q.mb == mbKey f) = none →
    enginesBusy s e = false → patchGap t e (imgN b) = none → nbit f.opts 1 = true →
    enginesBusy (revertSet e t) e = false →
    Answers ciUcodePatchLoad (.ucodePatchLoad f) f s (fun _ =>
      if imageGood t e b then
        let r := revertSet e t
        let q : GapLoad := ⟨e, mbKey f, b⟩
        let gone := { r with ucode := { r.ucode with gaps := (r.ucode.gaps ++ [q]).filter (· ≠ q) } }
        ok [wd (imgSerial b), 0, wd (3 + e)] (switchSet e (loadSet e ⟨b, 0⟩ gone))
      else err eAuth 0 (raise srcPatchAuth 0 0 0 t))) ∧
  (∀ f s e, Ready ciUcodePatchSwitch f s → f.length = 4 → e < 2 → (pw f 0).toNat = e + 1 → enginesBusy s e = false →
    Completes ciUcodePatchSwitch (.ucodePatchSwitch f) f s (fun b => ok [] (switchSet e b))) ∧
  (∀ f s e, Ready ciUcodePatchRevert f s → f.length = 4 → e < 2 → (pw f 0).toNat = e + 1 → enginesBusy s e = false →
    Completes ciUcodePatchRevert (.ucodePatchRevert f) f s (fun b => ok [] (revertSet e b))) ∧
  (∀ f s e, Ready ciUcodeQuery f s → f.length = 4 → e < 2 → (pw f 0).toNat = e + 1 →
    Completes ciUcodeQuery (.ucodeQuery f) f s (fun b =>
      let x := activeSet b e
      let k := if x.image.isEmpty then 0 else imgK x.image
      ok ([wd (romId b e), wd (imgSerial x.image), wd (patchWords e - setWords x + k * 2 ^ 16)] ++
        digestWords (digestOf b (3 + e)) ++ (List.range k).map (fun i => wd (imgProf x.image i / 2 ^ 24 * 2 ^ 24 +
          imgProf x.image i / 2 ^ 16 % 16 * 16 + imgProf x.image i / 2 ^ 8 % 16))) b)) ∧
  (∀ f s p, Ready ciPortParseProfile f s → f.length = 8 → (pw f 0).toNat = p → p < 256 → portExists s p = true →
    profOk 0 (pw f 1).toNat = true →
    Completes ciPortParseProfile (.portParseProfile f) f s
      (fun b => ok [] (portCfgWrite p (engPortProf 0 p) 0xFF (pw f 1) b))) ∧
  (∀ f s p, Ready ciRwePortProfile f s → f.length = 8 → (pw f 0).toNat = p → p < 256 → portExists s p = true →
    profOk 1 (pw f 1).toNat = true →
    Completes ciRwePortProfile (.rwePortProfile f) f s
      (fun b => ok [] (portCfgWrite p (engPortProf 1 p) 0xFF (pw f 1) b)))

/-! ### Field inputs and outputs: group 0x0B (R334 to R357) -/

/-- The commands on field inputs and publications (R335 to R345, R357). -/
def Obligations.FieldInputCommandsComplete : Prop :=
  (∀ f s, Ready ciFiCfg f s → f.length = 8 → (pw f 0).toNat < 32 → (pw f 1).toNat < 2 ^ 24 →
    Completes ciFiCfg (.fiCfg f) f s (fun b => ok [] (fiCfgWrite (pw f 0).toNat (pw f 1) b))) ∧
  (∀ f s, Ready ciFiRead f s → f.length = 8 → (pw f 0).toNat < 32 → (pw f 0).toNat + (pw f 1).toNat ≤ 32 →
    Completes ciFiRead (.fiRead f) f s (fun b => ok ((List.range (pw f 1).toNat).flatMap (fun k =>
      let i := (pw f 0).toNat + k
      let x := fiOf b i
      [wd (b2n (rdBit b fioFiStat i) + 2 * b2n (rdBit b fioFiRaw i) + 4 * b2n x.seen + x.qual * 2 ^ 8 + x.mseq * 2 ^ 16),
       rd b (fiCount i), wd (x.last % 10 ^ 9), loW (x.last / 10 ^ 9), hiW (x.last / 10 ^ 9)])) b)) ∧
  (∀ f s j x, Ready ciFioPubSet f s → f.length = 32 → (pw f 0).toNat = j → j < 8 →
    x = { pubOf s j with cfg := (List.range 7).map (fun i => pw f (1 + i)), fresh := true } →
    pubFormat x ≠ 3 → pf f 1 2 2 = 0 → pf f 1 12 4 = 0 → pf f 1 28 4 = 0 → ringPortsOk s x = true →
    (pw f 6).toNat < 2 ^ 16 →
    Completes ciFioPubSet (.fioPubSet f) f s (fun b => ok []
      (pubState j [] (setPub j { x with interval := 0, beats := false, fresh := false } b)))) ∧
  (∀ f s n k, Ready ciFioGooseTemplate f s → pf f 0 16 9 = n → pf f 2 16 6 = k →
    f.length = 12 + 4 * k + 4 * ((n + 3) / 4) → pf f 0 3 13 = 0 → n ≤ 256 → pf f 0 25 7 = 0 → pf f 1 0 9 + 4 ≤ n →
    pf f 1 16 9 + 4 ≤ n → pf f 2 0 9 + 8 ≤ n → k ≤ 48 →
    (∀ i < k, pf f (3 + i) 16 6 < 48 ∧ pf f (3 + i) 0 9 + (if pf f (3 + i) 24 1 = 0 then 1 else 8) ≤ n) →
    Completes ciFioGooseTemplate (.fioGooseTemplate f) f s (fun b =>
      let bytes := (List.range n).map (fun i => fld (pw f (3 + k + i / 4)) (8 * (i % 4)) 8)
      let pos := (List.range k).map (fun i => (pf f (3 + i) 0 9, pf f (3 + i) 16 6, pf f (3 + i) 24 1))
      let t : Goose := ⟨bytes, pf f 1 0 9, pf f 1 16 9, pf f 2 0 9, pos⟩
      ok [] { b with fio := { b.fio with tmpl := tset noTmpl b.fio.tmpl (pf f 0 0 3) t } })) ∧
  (∀ f s, Ready ciFioEventRingCfg f s → f.length = 12 → pf f 0 2 4 ≤ 8 →
    Completes ciFioEventRingCfg (.fioEventRingCfg f) f s (fun b => ok []
      (ringCfgWrite (fioBase + 0x40) 8 (pw f 0) (wr (fioBase + 0x44) (pw f 2)
        (wrM (fioBase + 0x40) 0xFFFFF000 (pw f 1) b))))) ∧
  (∀ f s, Ready ciFioUtcOffset f s → f.length = 4 → pf f 0 16 15 = 0 →
    Completes ciFioUtcOffset (.fioUtcOffset f) f s (fun b => ok [] (wr fioUtc (pw f 0) b)))

/-- The commands on field outputs (R347, R350 to R357). -/
def Obligations.FieldOutputCommandsComplete : Prop :=
  (∀ f s j, Ready ciFoCfg f s → f.length = 8 → (pw f 0).toNat = j → j < 16 → (pw f 1).toNat < 2 ^ 29 →
    pf f 1 25 2 ≠ 3 →
    Completes ciFoCfg (.foCfg f) f s (fun b =>
      let t := foCfgWrite j (pw f 1) b
      ok [] { t with fio := { t.fio with pinRec := tset none t.fio.pinRec j (some (rd t (foCfg j))) } })) ∧
  (∀ f s, Ready ciFoForce f s → f.length = 8 →
    Completes ciFoForce (.foForce f) f s (fun b => ok []
      (forceWrite fioForceEn (pf f 0 16 16) (pw f 0) (forceWrite fioForceVal (pf f 1 16 16) (pw f 1) b)))) ∧
  (∀ f s start, Ready ciFoTimeEvent f s → f.length = 20 → pf f 0 6 2 = 0 → pf f 0 12 2 ≠ 3 → pf f 0 14 2 = 0 →
    (pw f 0).toNat < 2 ^ 17 → (pw f 1).toNat < 10 ^ 9 → (pw f 3).toNat < 2 ^ 16 →
    start = ((pw f 2).toNat + (pw f 3).toNat * 2 ^ 32) * 10 ^ 9 + (pw f 1).toNat →
    ((bit (pw f 0) 16 = true ∧ (pw f 4).toNat = 0) → netNs s + 1000 ≤ start) →
    Completes ciFoTimeEvent (.foTimeEvent f) f s (fun b =>
      let period := (pw f 4).toNat
      let soon := netNs s + 1000
      let next := if period = 0 ∨ netNs s ≤ start then start else start + (soon - start + period - 1) / period * period
      ok [] (setTev (pf f 0 0 6) ⟨pf f 0 8 4, pf f 0 12 2, bit (pw f 0) 16, start, period, next⟩ b))) ∧
  (∀ f s, Ready ciFoRelease f s → f.length = 4 → (pw f 0).toNat < 2 ^ 16 → s.fcl.hold < 4 →
    Completes ciFoRelease (.foRelease f) f s (fun b => ok []
      ((bitsOf 16 (pw f 0).toNat).foldl (fun t j => foRelease j t) b))) ∧
  (∀ f s, Ready ciFoRead f s → f.length = 8 → (pw f 0).toNat < 16 → (pw f 0).toNat + (pw f 1).toNat ≤ 16 →
    Completes ciFoRead (.foRead f) f s (fun b => ok ((List.range (pw f 1).toNat).flatMap (fun k =>
      let j := (pw f 0).toNat + k
      let x := foOf b j
      [wd (b2n x.state + 2 * b2n x.level + 4 * b2n x.fail + 8 * b2n (rdBit b fioForceEn j) + 16 * b2n x.pulse +
         x.mseq * 2 ^ 16), wd (x.last % 10 ^ 9), loW (x.last / 10 ^ 9)]) ++
      (List.range 7).map (fun i => rd b (fioCnt i))) b))

/-! ### The cascade: group 0x0C (R359 to R383) -/

/-- The commands on the cascade (R383).  CAS_FORWARD sends the command on the worker's session and leaves its own answer
to the worker's response: nothing answers its mailbox, and the command goes on holding the locks of its groups (R401).
Where the source gives a command no payload layout, its layout is the model's choice (log entry 27). -/
def Obligations.CascadeCommandsComplete : Prop :=
  (∀ f s, Ready ciCasRoleSet f s → f.length = 4 → (pw f 0).toNat < 3 →
    Completes ciCasRoleSet (.casRoleSet f) f s (fun b => ok [] (setRole (pw f 0).toNat b))) ∧
  (∀ f s, Ready ciCasDeviceId f s → f.length = 4 → (pw f 0).toNat < 0xFFFFF → (sessWith s (·.up)) = none →
    Completes ciCasDeviceId (.casDeviceId f) f s (fun b => ok [] (wr casDevId (pw f 0) b))) ∧
  (∀ f s, Ready ciCasPortCfg f s → f.length = 8 → (pw f 0).toNat < 256 → portExists s (pw f 0).toNat = true →
    (pw f 1).toNat < 8 → pf f 1 1 2 ∈ [1, 2] →
    Completes ciCasPortCfg (.casPortCfg f) f s (fun b => ok [] (cascadeSet (pw f 0).toNat (pw f 1) b))) ∧
  (∀ f s, Ready ciCasBudgetSet f s → f.length = 8 →
    Completes ciCasBudgetSet (.casBudgetSet f) f s
      (fun b => ok [] (wr (casBase + 0x24) (pw f 1) (wr (casBase + 0x20) (pw f 0) b)))) ∧
  (∀ f s, Ready ciCasRelayCfg f s → f.length = 4 → pf f 0 0 2 = 0 → pf f 0 10 6 = 0 → pf f 0 3 2 ≠ 3 →
    Completes ciCasRelayCfg (.casRelayCfg f) f s (fun b => ok [] (wrM casCfg 0xFFFF03FC (pw f 0) b))) ∧
  (∀ f s, Ready ciCasJoinCfg f s → 4 ≤ f.length → pf f 0 1 7 = 0 → pf f 0 16 16 = 0 → isWorker s = true →
    (∀ d ∈ (f.payload.drop 1).map (·.toNat), 1 ≤ d ∧ d < 0xFFFFF) →
    Completes ciCasJoinCfg (.casJoinCfg f) f s (fun b => ok [] { b with cas := { b.cas with join := bit (pw f 0) 0 } })) ∧
  (∀ f s, Ready ciCasJoinCfg f s → 4 ≤ f.length → pf f 0 1 7 = 0 → pf f 0 16 16 = 0 → isManager s = true →
    (∀ d ∈ (f.payload.drop 1).map (·.toNat), 1 ≤ d ∧ d < 0xFFFFF) →
    Completes ciCasJoinCfg (.casJoinCfg f) f s (fun b =>
      ok [] { b with cas := { b.cas with prio := pf f 0 8 8, allow := (f.payload.drop 1).map (·.toNat) } })) ∧
  (∀ f s k x, Ready ciCasLeave f s → f.length = 4 → casRole s ≠ 0 →
    sessWith s (fun y => y.up && y.device == (pw f 0).toNat) = some k → sessAt s k = some x →
    Completes ciCasLeave (.casLeave f) f s (fun b => ok [] (leaveSession k b))) ∧
  (∀ f s k x, Ready ciCasSessionRead f s → f.length = 4 → casRole s ≠ 0 →
    sessWith s (fun y => y.up && y.device == (pw f 0).toNat) = some k → sessAt s k = some x →
    Completes ciCasSessionRead (.casSessionRead f) f s (fun b => ok
      [wd (1 + 2 * b2n (isManager s || k % 2 == casActive s) + 2 ^ 8 * x.tagVer + 2 ^ 16 * x.prio), wd x.device, wd x.number,
        wd (if isWorker s then (tget ⟨0, 0, 0⟩ s.mbx.sess (2 + 8 * (k % 2))).agreed else x.agreed),
        loW x.tx, hiW x.tx, loW x.rxTop, hiW x.rxTop] b)) ∧
  (∀ f s k x ws, Ready ciCasForward f s → 20 ≤ f.length → ws = f.payload.drop 1 →
    4 * ws.length = fld (ws.getD 0 0) 16 12 + 16 → isManager s = true →
    sessWith s (fun y => y.up && y.device == (pw f 0).toNat) = some k → sessAt s k = some x →
    ∃ t, t = sendOn k 4 (bytesOf (lset ws 2 (wd x.mbSess))) (begun ciCasForward f s) ∧
      exec (.casForward f) s = .next (sendResponses (holdsOn (mbKey f) ciCasForward.op
        { t with cas := { t.cas with fwd := t.cas.fwd ++ [⟨k, f.mb, f.tag⟩] } }))) ∧
  (∀ f s, Ready ciCasWorkerList f s → f.length = 0 → isManager s = true →
    Completes ciCasWorkerList (.casWorkerList f) f s (fun b =>
      let up := s.cas.sess.filterMap (fun q => match q.2 with | some x => if x.up then some x.device else none | none => none)
      ok ([wd up.length, wd s.cas.lost.length, wd s.cas.refused.length] ++ up.map wd ++ s.cas.lost.map wd ++
        s.cas.refused.map (fun r => wd (r.1 + r.2 * 2 ^ 24))) b))

/-! ### Faults and units: group 0x0D (R479 to R500, R557) -/

/-- The commands that read, acknowledge and configure fault records (R481 to R487, R495, R557). -/
def Obligations.FaultCommandsComplete : Prop :=
  (∀ f s, Ready ciFaultStatus f s → f.length = 0 →
    Completes ciFaultStatus (.faultStatus f) f s (fun b => ok
      ((List.range 4).map (fun w => rd s (fclStatus + 4 * w)) ++ (List.range 4).map (fun w => rd s (fclConseq + 4 * w)) ++
        (List.range 4).map (fun w => rd s (fclLvl + 4 * w)) ++ (List.range 7).map (fun w => rd s (fclFirst + 4 * w)) ++
        (List.range 4).map (fun w => rd s (fclAlso + 4 * w))) b)) ∧
  (∀ f s, Ready ciFaultLog f s → f.length = 4 →
    Completes ciFaultLog (.faultLog f) f s (fun b =>
      let l := s.fcl.kept.filter (fun r => decide ((pw f 0).toNat ≤ (r.getD 6 0).toNat))
      ok (wd l.length :: l.flatten) b)) ∧
  (∀ f s, Ready ciFaultAck f s → f.length = 16 → (pw f 3).toNat < 2 ^ 16 →
    Completes ciFaultAck (.faultAck f) f s (fun b =>
      let t := (List.range 4).foldl (fun t w => acknowledge w (pw f w) t) b
      ok [] (if nbit f.opts 0 then firstRearm t else t))) ∧
  (∀ f s n, Ready ciFaultSrcCfg f s → f.length = 24 → (pw f 0).toNat = n → n < 112 → pf f 1 0 3 ≤ 5 →
    (pw f 1).toNat < 2 ^ 10 → (pw f 5).toNat < 2 ^ 16 → rdBit s fclCfg 18 = false →
    Completes ciFaultSrcCfg (.faultSrcCfg f) f s (fun b => ok []
      (wr (fclNbr n 3) (pw f 5) (wr (fclNbr n 2) (pw f 4) (wr (fclNbr n 1) (pw f 3) (wr (fclNbr n 0) (pw f 2)
        (wr (fclSrcCfg n) (pw f 1) b))))))) ∧
  (∀ f s, Ready ciFaultWindow f s → f.length = 4 → (pw f 0).toNat < 2 ^ 18 → rdBit s fclCfg 18 = false →
    Completes ciFaultWindow (.faultWindow f) f s (fun b => ok [] (wrM fclCfg 0x3FFFF (pw f 0) b))) ∧
  (∀ f s, Ready ciFaultInject f s → f.length = 12 → (pw f 0).toNat < 112 → (pw f 2).toNat < 2 ^ 16 →
    unitNamed (pf f 2 12 4) (pf f 2 0 12) = true →
    Completes ciFaultInject (.faultInject f) f s (fun b => ok [] { b with fcl := { b.fcl with raised := b.fcl.raised ++
      [⟨(pw f 0).toNat, (pw f 1).toNat, pf f 2 12 4, pf f 2 0 12, 7, 0, true⟩] } })) ∧
  (∀ f s, Ready ciFaultLock f s → f.length = 0 →
    Completes ciFaultLock (.faultLock f) f s (fun b => ok [] (wrBit fclCfg 18 true b)))

/-- The commands on units (R489 to R493, R557): a unit in service drains, an isolated unit is tested or returned, a
pipeline's work moves to a spare. -/
def Obligations.UnitCommandsComplete : Prop :=
  (∀ f s kind idx, Ready ciUnitDrain f s → f.length = 4 → pf f 0 12 4 = kind → pf f 0 0 12 = idx → (pw f 0).toNat < 2 ^ 16 →
    unitNamed kind idx = true → testable kind = true → (unitOf s kind idx).state = 0 →
    (kind = 1 → idx < 32 → spareServes s idx = false ∧ spareFree s (idx / 16) = true) →
    (kind = 1 → 32 ≤ idx → s.bus.spareOf.getD (idx - 32) 0 = 0) →
    Completes ciUnitDrain (.unitDrain f) f s (fun b => ok [] (unitDrain kind idx b))) ∧
  (∀ f s kind idx, Ready ciUnitTest f s → f.length = 8 → pf f 0 12 4 = kind → pf f 0 0 12 = idx → (pw f 0).toNat < 2 ^ 16 →
    unitNamed kind idx = true → testable kind = true → (unitOf s kind idx).state = 2 → (pw f 1).toNat < 2 →
    (pf f 1 0 1 = 1 → kind = 2 ∨ kind = 3) →
    (pf f 1 0 1 = 0 → kind = 2 ∨ kind = 3 → outOfService s 2 (siblingOf (if kind = 3 then idx / 80 else idx)) = false) →
    Completes ciUnitTest (.unitTest f) f s (fun b => ok [] (unitTest kind idx (pf f 1 0 1) b))) ∧
  (∀ f s kind idx, Ready ciUnitReturn f s → f.length = 4 → pf f 0 12 4 = kind → pf f 0 0 12 = idx → (pw f 0).toNat < 2 ^ 16 →
    unitNamed kind idx = true → testable kind = true → (unitOf s kind idx).state = 2 →
    Completes ciUnitReturn (.unitReturn f) f s (fun b => ok [] (unitReturn kind idx b))) ∧
  (∀ f s, Ready ciUnitStatus f s → f.length = 0 →
    Completes ciUnitStatus (.unitStatus f) f s (fun b => ok
      ((List.range 34).map (unitWord s 1) ++ (List.range 8).map (unitWord s 2) ++ (List.range 32).map (unitWord s 4) ++
        (List.range 2).map (unitWord s 5) ++ (List.range 48).map (unitWord s 10)) b)) ∧
  (∀ f s idx, Ready ciRehome f s → f.length = 4 → (pw f 0).toNat = 2 ^ 12 + idx → idx < 32 →
    spareServes s idx = false → spareFree s (idx / 16) = true →
    Completes ciRehome (.rehome f) f s (fun b => ok [] (takeover idx (isolatePip idx b))))

/-! ### Counters, dumps and samples: group 0x0E (R501 to R519) -/

/-- The commands on counters, dumps and samples (R516). -/
def Obligations.DumpCommandsComplete : Prop :=
  (∀ f s k, Ready ciDumpSetCfg f s → f.length = 16 → (pw f 0).toNat = k → k < 11 → (pw f 1).toNat < 2 ^ 26 →
    (pw f 2).toNat < 2 ^ 19 → (pw f 3).toNat < 2 ^ 19 →
    Completes ciDumpSetCfg (.dumpSetCfg f) f s (fun b => ok []
      (wr (pmcSet k 8) (pw f 3) (wr (pmcSet k 4) (pw f 2) (setCfgWrite k (pw f 1) b))))) ∧
  (∀ f s a, Ready ciDumpRingCfg f s → f.length = 16 → (pw f 0).toNat < 4 → pf f 1 0 12 = 0 → pf f 3 2 4 ≤ 10 →
    a = pmcBase + 0x200 + 0x20 * (pw f 0).toNat →
    Completes ciDumpRingCfg (.dumpRingCfg f) f s (fun b => ok []
      (ringCfgWrite a 10 (pw f 3) (wr (a + 4) (pw f 2) (wr a (pw f 1) b))))) ∧
  (∀ f s a, Ready ciSampleRingCfg f s → f.length = 16 → (pw f 0).toNat < 3 → pf f 1 0 12 = 0 → pf f 3 2 4 ≤ 10 →
    a = pmcBase + 0x300 + 0x20 * (pw f 0).toNat →
    Completes ciSampleRingCfg (.sampleRingCfg f) f s (fun b => ok []
      (ringCfgWrite a 10 (pw f 3) (wr (a + 4) (pw f 2) (wr a (pw f 1) b))))) ∧
  (∀ f s, Ready ciDumpNow f s → f.length = 4 → (pw f 0).toNat < 2 ^ 11 →
    (∀ k ∈ bitsOf 11 (pw f 0).toNat, (setSt s k).pend = []) →
    Completes ciDumpNow (.dumpNow f) f s (fun b => ok []
      ((bitsOf 11 (pw f 0).toNat).foldl (fun t k => latch k (netNs t) t) b))) ∧
  (∀ f s k ws, Ready ciDumpRead f s → f.length = 12 → (pw f 0).toNat = k → k < 11 →
    ws = dumpHeld s k →
    (pw f 1).toNat ≤ 4 * ws.length → pf f 1 0 2 = 0 → (pw f 2).toNat ≤ 4064 → pf f 2 0 2 = 0 →
    Completes ciDumpRead (.dumpRead f) f s (fun b =>
      ok (wd (4 * ws.length) :: (ws.drop ((pw f 1).toNat / 4)).take ((pw f 2).toNat / 4)) b)) ∧
  (∀ f s k r, Ready ciCounterRead f s → f.length = 8 → pf f 0 0 8 = k → k < 11 → (pw f 0).toNat < 2 ^ 12 →
    (setRecs (wr (pmcSet k 8) 0x7FFFF (wr (pmcSet k 4) 0 (begun ciCounterRead f s))) k).find?
      (fun r => r.kind == pf f 0 8 4 && r.idx == (pw f 1).toNat) = some r →
    Completes ciCounterRead (.counterRead f) f s (fun b => ok (recWords false r) b)) ∧
  (∀ f s, Ready ciPktSampleCfg f s → f.length = 8 → (pw f 0).toNat < 2 ^ 25 → (pw f 1).toNat < 2 ^ 24 →
    Completes ciPktSampleCfg (.pktSampleCfg f) f s (fun b =>
      let t := wr (pmcBase + 8) (pw f 1) (wr pmcTagCfg (pw f 0) b)
      ok [] { t with path := { t.path with lfsr := [] } })) ∧
  (∀ f s, Ready ciOvfSampleCfg f s → f.length = 8 → (pw f 1).toNat < 2 ^ 28 →
    Completes ciOvfSampleCfg (.ovfSampleCfg f) f s (fun b => ok []
      ((bitsOf 32 (pw f 0).toNat).foldl (fun t n => wr (pmcOvf n 0) (pw f 1) t) b))) ∧
  (∀ f s, Ready ciSlotRead f s → f.length = 4 →
    Completes ciSlotRead (.slotRead f) f s (fun b => ok
      ((bitsOf 32 (pw f 0).toNat).flatMap (fun n => (List.range 10).map (fun i => rd s (slotReg n 0 + 4 * i)))) b))

/-! ### Start and identity: groups 0x0F and 0x10 (R455 to R478, R520 to R536) -/

/-- The commands on the start (R468, R469).  Whether an image's signature is good is a free value of the model: the two
commands that check one are answered in both cases. -/
def Obligations.StartCommandsComplete : Prop :=
  (∀ f s, Ready ciStartStatus f s → f.length = 0 →
    Completes ciStartStatus (.startStatus f) f s (fun b => ok (startStatusWords b) b)) ∧
  (∀ f s, Ready ciFwRestart f s → f.length = 0 → fwStage s ≠ 0 →
    Completes ciFwRestart (.fwRestart f) f s (fun b => ok [] (mpReset b))) ∧
  (∀ f s img, Ready ciFwBoot f s → f.length = 4 → (pw f 0).toNat ≤ 65536 → s.start.loader = true → s.start.loop = false →
    s.fcl.hold = 0 → bootSrc s = 2 → s.start.step = 6 → img = xferBytes s (mbKey f) (pw f 0).toNat →
    Answers ciFwBoot (.fwBoot f) f s (fun b =>
      let t := wrBit mbxFwStat 0 false (runImage img b)
      if imageRuns s img then ok [] (goStep 7 { t with start := { t.start with loader := false } })
      else err eAuth 0 (raise srcSecImageAuth 0 0 0 b))) ∧
  (∀ f s r, Ready ciFwImageWrite f s → f.length = 16 → (pw f 0).toNat < 2 → (bit (pw f 0) 0 = true → f.mb ≤ 1) →
    (bit (pw f 0) 0 = false → (pw f 1).toNat ≤ 65536) →
    r = imageFrom f (bit (pw f 0) 0) (pw f 1).toNat (w64 (pw f 2) (pw f 3)) (begun ciFwImageWrite f s) →
    Answers ciFwImageWrite (.fwImageWrite f) f s (fun _ =>
      if imageRuns r.2 r.1 then
        ok [] { r.2 with start := { r.2.start with slots := r.2.start.slots.set (1 - r.2.start.active) r.1 } }
      else err eAuth 0 (raise srcSecImageAuth 0 0 0 r.2))) ∧
  (∀ f s, Ready ciFwSlotSelect f s → f.length = 4 → (pw f 0).toNat < 2 →
    Completes ciFwSlotSelect (.fwSlotSelect f) f s (fun b =>
      let t := { b with start := { b.start with active := (pw f 0).toNat, swap := false } }
      ok [] (if nbit f.opts 0 then mpReset t else t))) ∧
  (∀ f s, Ready ciPrimroseHandover f s → f.length = 0 → s.start.handedOver = false →
    Completes ciPrimroseHandover (.primroseHandover f) f s (fun b => ok [] (handOver b))) ∧
  (∀ f s, Ready ciStartRetry f s → f.length = 0 →
    Completes ciStartRetry (.startRetry f) f s (fun b => ok [] (startRetry b)))

/-- The commands on identity, measurements, debug and the owner (R521 to R533).  Whether a
certificate or a signature is good is a free value of the model: a command that depends on one is answered in both
cases, with E_AUTH or E_RANGE where it is not. -/
def Obligations.IdentityCommandsComplete : Prop :=
  (∀ f s, Ready ciIdCertRead f s → f.length = 12 → (pw f 0).toNat = 1 → (pw f 1).toNat ≤ s.sec.owner.length →
    (pw f 2).toNat ≤ 4072 →
    Completes ciIdCertRead (.idCertRead f) f s (fun b => ok
      (wd s.sec.owner.length :: word32 ((s.sec.owner.drop (pw f 1).toNat).take (pw f 2).toNat)) b)) ∧
  (∀ f s, Ready ciIdCertRead f s → f.length = 12 → (pw f 0).toNat = 0 → (pw f 1).toNat ≤ Config.deviceChain.length →
    (pw f 2).toNat ≤ 4072 →
    Completes ciIdCertRead (.idCertRead f) f s (fun b => ok
      (wd Config.deviceChain.length :: word32 ((Config.deviceChain.drop (pw f 1).toNat).take (pw f 2).toNat)) b)) ∧
  (∀ f s n, Ready ciMeasurementRead f s → f.length = 4 → (pw f 0).toNat = n → 1 ≤ n → n ≤ 8 →
    Completes ciMeasurementRead (.measurementRead f) f s (fun b => ok
      (digestWords (digestOf b n) ++ [wd (tget 0 s.sec.changes n)]) b)) ∧
  (∀ f s n, Ready ciOwnerCertSet f s → (pw f 0).toNat = n → 1 ≤ n → n ≤ 2048 → f.length = 4 + 4 * ((n + 3) / 4) →
    s.sec.owner = [] →
    Answers ciOwnerCertSet (.ownerCertSet f) f s (fun b =>
      if Config.certOk (payloadBytes f 1 n) then ok [] (ownerSet (payloadBytes f 1 n) b) else err eRange 1 b)) ∧
  (∀ f s n, Ready ciOwnerCertSet f s → (pw f 0).toNat = n → 1 ≤ n → n ≤ 2048 → f.length = 4 + 4 * ((n + 3) / 4) + 200 →
    s.sec.owner ≠ [] →
    Answers ciOwnerCertSet (.ownerCertSet f) f s (fun b =>
      let r := checkRecord 2 (payloadBytes f 1 n) (payloadBytes f (1 + (n + 3) / 4) 200) b
      if Config.certOk (payloadBytes f 1 n) then
        if r.1 then ok [] (ownerSet (payloadBytes f 1 n) r.2) else err eAuth 0 r.2
      else err eRange 1 b)) ∧
  (∀ f s, Ready ciOwnerCertClear f s → f.length = 200 → s.sec.owner ≠ [] →
    Answers ciOwnerCertClear (.ownerCertClear f) f s (fun b =>
      let r := checkRecord 3 [] (payloadBytes f 0 200) b
      if r.1 then ok [] (ownerSet [] r.2) else err eAuth 0 r.2)) ∧
  (∀ f s, Ready ciSvnCommit f s → f.length = 0 →
    Completes ciSvnCommit (.svnCommit f) f s (fun b =>
      let v := max s.sec.svn (Config.imageSvn s.start.image % 256)
      ok [] (measurePolicy (wrF secBase 8 8 v { b with sec := { b.sec with svn := v } })))) ∧
  (∀ f s, Ready ciSpdmMsg f s → 0 < f.length →
    Completes ciSpdmMsg (.spdmMsg f) f s (fun b =>
      ok (spdmExchange 1 f.payload b).1 (spdmExchange 1 f.payload b).2)) ∧
  (∀ f s, Ready ciDebugUnlock f s → f.length = 200 →
    Answers ciDebugUnlock (.debugUnlock f) f s (fun b =>
      let r := checkRecord 1 [] (payloadBytes f 0 200) b
      let t := { r.2 with sec := { r.2.sec with unlockEnd := r.2.tim.cnt + beAt (payloadBytes f 0 200) 48 4 * 10 ^ 9 } }
      if r.1 then ok [] (measurePolicy (raise srcSecDebugUnlock 0 0 0 (wrBit secBase sbUnlocked true t)))
      else err eAuth 0 r.2)) ∧
  (∀ f s, Ready ciDebugLock f s → f.length = 0 →
    Completes ciDebugLock (.debugLock f) f s (fun b => ok [] (debugLock b))) ∧
  (∀ f s, Ready ciDebugPolicy f s → f.length = 4 → s.sec.owner = [] → (pw f 0).toNat < 2 →
    Completes ciDebugPolicy (.debugPolicy f) f s (fun b => ok [] (measurePolicy (wr secCfg (wd (pf f 0 0 1))
      { b with sec := { b.sec with vendor := bit (pw f 0) 0 } })))) ∧
  (∀ f s, Ready ciDebugPolicy f s → f.length = 204 → s.sec.owner ≠ [] → (pw f 0).toNat < 2 →
    ((payloadBytes f 1 200).getD 5 0).toNat = 1 →
    Answers ciDebugPolicy (.debugPolicy f) f s (fun b =>
      let r := checkRecord 1 [] (payloadBytes f 1 200) b
      if r.1 then ok [] (measurePolicy (wr secCfg (wd (pf f 0 0 1))
        { r.2 with sec := { r.2.sec with vendor := bit (pw f 0) 0 } }))
      else err eAuth 0 r.2))

/-! ### Islands and collectors: groups 0x11 and 0x12 (R37 to R81) -/

/-- The commands on islands and col cells (R58, R81).  The two that stage and commit island registers complete where no
check of the commit fails; where one does they answer E_RANGE with the REASON (R391) and leave the registers. -/
def Obligations.IslandCommandsComplete : Prop :=
  (∀ f s stg, Ready ciIslCfgSet f s → f.length = 20 →
    stg = (fun b : State => (maskBits f 0 3).foldl
      (fun t i => stgM (islCfg i) 0x03F33F3F (pw f 3) (stgM (islLoop i) 0x1F1F (pw f 4) t)) b) →
    Answers ciIslCfgSet (.islCfgSet f) f s (fun b => commitOne pwiStat (fun _ => []) b (pwiCommit (stg b))) ∧
    (∀ u, u = stg (begun ciIslCfgSet f s) → pwiFails u = [] → stagedBad pwiGroup u = false →
      Completes ciIslCfgSet (.islCfgSet f) f s (fun b => ok [] (pwiCommit (stg b))))) ∧
  (∀ f s i, Ready ciIslStatus f s → f.length = 4 → (pw f 0).toNat = i → i < islCount →
    Completes ciIslStatus (.islStatus f) f s (fun b => ok
      [rd s (islCfg i), rd s (islLoop i), rd s (islStat i), rd s (islPace i), rd s (islSteps i), rd s (islPeak i)]
      (peakRestart i b))) ∧
  (∀ f s, Ready ciIslCeilTime f s → f.length = 4 → (pw f 0).toNat < 2 ^ 20 →
    Completes ciIslCeilTime (.islCeilTime f) f s (fun b => ok [] (wrM pwiCeilTime 0xFFFFF (pw f 0) b))) ∧
  (∀ f s stg, Ready ciIslLoopTiming f s → f.length = 8 →
    stg = (fun b : State => stgM pwiTiming 0x0FFFFFFF (pw f 0) (stgM pwiRatio 0xFFFF (pw f 1) b)) →
    Answers ciIslLoopTiming (.islLoopTiming f) f s (fun b => commitOne pwiStat (fun _ => []) b (pwiCommit (stg b))) ∧
    (∀ u, u = stg (begun ciIslLoopTiming f s) → pwiFails u = [] → stagedBad pwiGroup u = false →
      Completes ciIslLoopTiming (.islLoopTiming f) f s (fun b => ok [] (pwiCommit (stg b))))) ∧
  (∀ f s, Ready ciIslCeilRearm f s → f.length = 12 →
    Completes ciIslCeilRearm (.islCeilRearm f) f s (fun b => ok []
      (ceilRearm 2 (pw f 2) (ceilRearm 1 (pw f 1) (ceilRearm 0 (pw f 0) b))))) ∧
  (∀ f s, Ready ciColStallCfg f s → f.length = 44 → (pw f 9).toNat < 2 ^ 16 →
    Completes ciColStallCfg (.colStallCfg f) f s (fun b => ok []
      ((maskBits f 0 10).foldl (fun t c => wrM (cellCfg c) 0xFFFF (pw f 10) t) b))) ∧
  (∀ f s c d, Ready ciColStatus f s → f.length = 4 → (pw f 0).toNat = c + d * 2 ^ 16 → c < cellCount → d < domCount →
    Completes ciColStatus (.colStatus f) f s (fun b => ok
      [rd s (cellCfg c), rd s (cellStat c), rd s (cellDisc c), rd s (cellXfer c), rd s (domStat d)] b)) ∧
  (∀ f s, Ready ciColRearm f s → f.length = 52 → (pw f 9).toNat < 2 ^ 16 → (pw f 12).toNat < 2 ^ 8 →
    Completes ciColRearm (.colRearm f) f s (fun b =>
      let v := wd (256 * b2n (bit (pw f 10) 0) + 512 * b2n (bit (pw f 10) 1) + 1024 * b2n (bit (pw f 10) 2))
      ok [] ((maskBits f 11 2).foldl (fun t d => wrBit (domStat d) 2 false t)
        ((maskBits f 0 10).foldl (fun t c => cellStatWrite c v t) b))))

/-! ### Register accesses (R420 to R432, R546 to R548) -/

/-- Accesses of any register by any master.  A write that reaches its register has that register's effect
(`writeEffect`), one to a staged register goes to the staged copy and keeps its group's 1 ms timer running, a read answers
the register's word.  The board controller's SMBus commands and the debugger's REGACC are such accesses of masters 3 and 4,
and say so when they meet a bus error (R546, R548); before VIN is good SMBus does nothing.  A read request of the host reads
its dwords in order, all or none (R422).  PCIE_PERST_N resets the host's side of the cells and releases it (R75). -/
def Obligations.RegisterAccessesComplete : Prop :=
  (∀ s m a t v b off, Reaches s m a t → a % 4 = 0 → a < 2 ^ 32 → lockDrops s m t = false →
    decodeAddr t.addr = some (b, off) → Writes (.registerWrite m a 15 v) s m t v (writeEffect m off t v false)) ∧
  (∀ s m a t v b off, Reaches s m a t → a % 4 = 0 → t.reg.act = .staged → decodeAddr t.addr = some (b, off) →
    Writes (.stagedRegisterWrite m a v) s m t v
      (fun u => openGroup (groupCommit t.blk off (portOf t.blk t.i)) m (stgM t.addr t.reg.rw v u))) ∧
  (∀ s m a t v b off, Reaches s m a t → a % 4 = 0 → t.reg.act = .gatStaged → decodeAddr t.addr = some (b, off) →
    Writes (.stagedRegisterWrite m a v) s m t v (writeEffect m off t v false)) ∧
  (∀ s m a t, Reaches s m a t → a % 4 = 0 → t.reg.rd = .lo64 →
    Reads (.counterLoRead m a) s m t (fun u => rd u t.addr) (fun u => { u with bus := { u.bus with
      hiLatch := tset none u.bus.hiLatch (key m (physAddr u (t.addr + 4))) (some (rd u (t.addr + 4))) } })) ∧
  (∀ s m t, Reaches s m timReadFrac t →
    Reads (.timReadFrac m) s m t (fun u => rd (latchTime u) timReadFrac) latchTime) ∧
  (∀ s m i t, Reaches s m (islPeak i) t → i < islCount →
    Reads (.pwiIslPeakRead m i) s m t (fun u => rd u (islPeak i)) (peakRestart i)) ∧
  (∀ s a t v b off, Reaches s 3 a t → a % 4 = 0 → a ≤ 0x03FFFFFC → lockDrops s 3 t = false →
    decodeAddr t.addr = some (b, off) → s.start.rails = true →
    ∃ u, u = written 3 t v (writeEffect 3 off t v false) s ∧
      exec (.smbRegWrite a v) s = .next { u with bus := { u.bus with smbStatus := 0 } }) ∧
  (∀ s a r v, busTarget s 3 a true = .error r → a % 4 = 0 → a ≤ 0x03FFFFFC → s.start.rails = true →
    ∃ u, u = answer 3 ⟨false, []⟩ (busError 3 a true r s) ∧
      exec (.smbRegWrite a v) s = .next { u with bus := { u.bus with smbStatus := 1 } }) ∧
  (∀ s a, a % 4 = 0 → a ≤ 0x03FFFFFC → s.start.rails = true →
    exec (.smbRegAddr a) s = .next { s with bus := { s.bus with smbAddr := some (wd a) } }) ∧
  (∀ s a t, Reaches s 3 a.toNat t → s.start.rails = true → s.bus.smbAddr = some a →
    ∃ w u, (w, u) = readValue 3 t (parityRead t s) ∧
      exec .smbRegRead s = .next (smbGive (0 :: leBytes4 w) (answer 3 ⟨true, [w]⟩ u))) ∧
  (∀ s a r, busTarget s 3 a.toNat true = .error r → s.start.rails = true → s.bus.smbAddr = some a →
    exec .smbRegRead s = .next (smbGive [1, 0, 0, 0, 0] (answer 3 ⟨false, [0]⟩ (busError 3 a.toNat false r s)))) ∧
  (∀ s, s.start.rails = true → s.bus.smbAddr = none →
    exec .smbRegRead s = .next (smbGive [3, 0, 0, 0, 0] s)) ∧
  (∀ s, s.start.rails = true → exec .smbRegStatus s = .next (smbGive [s.bus.smbStatus] s)) ∧
  (∀ s, s.start.rails = true → exec .smbAlertResponse s = .next
    (if rdBit s fclFirst 31 = true ∧ 1 ≤ rdF s fclFirst 11 3 then smbGive [2 * (0x60 + rdF s glbStraps 8 3)] s else s)) ∧
  (∀ s, s.start.rails = true → exec .smbusClockLowTimeout s = .next (raise srcSmbErr 0 0 0 s)) ∧
  (∀ s a v, s.start.rails = false → a % 4 = 0 → a ≤ 0x03FFFFFC → exec (.smbRegWrite a v) s = .next s ∧
    exec (.smbRegAddr a) s = .next s ∧ exec .smbRegRead s = .next s ∧ exec .smbRegStatus s = .next s ∧
    exec .smbAlertResponse s = .next s ∧ exec .smbusClockLowTimeout s = .next s) ∧
  (∀ s a t v b off, Reaches s 4 a t → a % 4 = 0 → a < 2 ^ 26 → lockDrops s 4 t = false →
    decodeAddr t.addr = some (b, off) →
    ∃ u, u = written 4 t v (writeEffect 4 off t v false) s ∧
      exec (.regaccUpdate a true v) s = .next { u with bus := { u.bus with tapStatus := 1 } }) ∧
  (∀ s a t v, Reaches s 4 a t → a % 4 = 0 → a < 2 ^ 26 →
    ∃ w u, (w, u) = readValue 4 t (parityRead t s) ∧ exec (.regaccUpdate a false v) s = .next
      { answer 4 ⟨true, [w]⟩ u with bus := { (answer 4 ⟨true, [w]⟩ u).bus with tapData := w, tapStatus := 1 } }) ∧
  (∀ s a r v, busTarget s 4 a true = .error r → a % 4 = 0 → a < 2 ^ 26 →
    ∃ u, u = answer 4 ⟨false, []⟩ (busError 4 a true r s) ∧
      exec (.regaccUpdate a true v) s = .next { u with bus := { u.bus with tapStatus := 3 } }) ∧
  (∀ s fn addr count, fn < 2 → 1 ≤ count → count ≤ 32 → addr % 4 = 0 → addr + 4 * count ≤ 2 ^ 32 →
    firstError s (fn + 1) ((List.range count).map (fun i => addr + 4 * i)) = none →
    exec (.pcieReadRequest fn addr count) s = .next
      (answer (fn + 1) ⟨true, (readDwords (fn + 1) ((List.range count).map (fun i => addr + 4 * i)) s).1⟩
        (readDwords (fn + 1) ((List.range count).map (fun i => addr + 4 * i)) s).2)) ∧
  (∀ s fn addr t, fn < 2 → addr % 4 = 0 → addr + 4 ≤ 2 ^ 32 → Reaches s (fn + 1) addr t →
    ∃ w u, (w, u) = readValue (fn + 1) t (parityRead t s) ∧
      exec (.pcieReadRequest fn addr 1) s = .next (answer (fn + 1) ⟨true, [w]⟩ u)) ∧
  (∀ s fn addr count a r, fn < 2 → 1 ≤ count → count ≤ 32 → addr % 4 = 0 → addr + 4 * count ≤ 2 ^ 32 →
    firstError s (fn + 1) ((List.range count).map (fun i => addr + 4 * i)) = some (a, r) →
    exec (.pcieReadRequest fn addr count) s = .next (answer (fn + 1) ⟨false, []⟩ (busError (fn + 1) a false r s))) ∧
  (∀ s fn addr count, fn < 2 → 32 < count → addr % 4 = 0 → addr + 4 * count ≤ 2 ^ 32 →
    exec (.pcieReadRequest fn addr count) s = .next (answer (fn + 1) ⟨false, []⟩ s)) ∧
  (∀ s, s.start.perst = false →
    ∃ u, u = domainReset 32 s ∧ exec (.pciePerst true) s = .next
      { u with start := { u.start with perst := true }, bus := { u.bus with aerAbort := false } }) ∧
  (∀ s, s.start.perst = true →
    ∃ u, u = domainReleased 32 s ∧ exec (.pciePerst false) s = .next { u with start := { u.start with perst := false } }) ∧
  (∀ s, exec (.pciePerst s.start.perst) s = .next s)

/-- The commits and discards of the ten staged groups (R431, R434): a write of 1 to the group's commit register commits,
one of 2 discards, and 5 commits with RESET_BKT. -/
def Obligations.StagedGroupsComplete : Prop :=
  (∀ s m t, Reaches s m pwiCommitReg t → Writes (.pwiCommit m) s m t 1 pwiCommit ∧ Writes (.pwiDiscard m) s m t 2 pwiDiscard) ∧
  (∀ s m g t, Reaches s m (glnBudgetCommitReg g) t → g < 8 →
    Writes (.glnBudgetCommit m g) s m t 1 (glnBudgetCommit g) ∧ Writes (.glnBudgetDiscard m g) s m t 2 (glnBudgetDiscard g)) ∧
  (∀ s m g t, Reaches s m (emtKeyCommit g) t → g < 8 →
    Writes (.emtKeyCommit m g) s m t 1 (keyCommit g) ∧ Writes (.emtKeyDiscard m g) s m t 2 (keyDiscard g)) ∧
  (∀ s m g r t, Reaches s m (polCommitReg g) t → g < 8 →
    Writes (.polStgCommit m g r) s m t (if r then 5 else 1) (polCommit g r) ∧
    Writes (.polStgDiscard m g) s m t 2 (polDiscard g)) ∧
  (∀ s m d t, Reaches s m (bpmLayoutCommitReg d) t → d < 2 →
    Writes (.bpmLayoutCommit m d) s m t 1 (layoutCommit d) ∧ Writes (.bpmLayoutDiscard m d) s m t 2 (layoutDiscard d)) ∧
  (∀ s m d t, Reaches s m (bpmQuotaCommitReg d) t → d < 2 →
    Writes (.bpmQuotaCommit m d) s m t 1 (quotaCommit d) ∧ Writes (.bpmQuotaDiscard m d) s m t 2 (quotaDiscard d)) ∧
  (∀ s m d t, Reaches s m (bpmBudgetCommitReg d) t → d < 2 →
    Writes (.bpmBudgetCommit m d) s m t 1 (plainBudgetCommit d) ∧
    Writes (.bpmBudgetDiscard m d) s m t 2 (plainBudgetDiscard d)) ∧
  (∀ s m d t, Reaches s m (schBudgetCommitReg d) t → d < 2 →
    Writes (.schBudgetCommit m d) s m t 1 (schBudgetCommit d) ∧ Writes (.schBudgetDiscard m d) s m t 2 (schBudgetDiscard d)) ∧
  (∀ s m d r t, Reaches s m (shpCommitReg d) t → d < 2 →
    Writes (.schShpCommit m d r) s m t (if r then 5 else 1) (shpCommit d r none) ∧
    Writes (.schShpDiscard m d) s m t 2 (shpDiscard d)) ∧
  (∀ s m p t, Reaches s m (gatCommit p) t → p < 256 →
    Writes (.gatListCommit m p) s m t 1 (gatListCommit p) ∧ Writes (.gatListDiscard m p) s m t 2 (gatListDiscard p))

/-- Writes of registers with an effect of their own: hash seeds (R122, R158), rings (R141), network time (R283, R284), field
outputs (R350, R355), the cascade's role (R359), col cells (R80), microcode banks (R104, R110). -/
def Obligations.RegisterEffectsComplete : Prop :=
  (∀ s m w v t, Reaches s m (pwiPend w) t → w < 3 →
    Writes (.pwiCeilPendClear m w v) s m t v (fun u => wr (pwiPend w) (rd u (pwiPend w) &&& ~~~v) u)) ∧
  (∀ s m g v t, Reaches s m (emtSeed g) t → g < 8 → Writes (.emtHashWrite m g true v) s m t v (hashSeedWrite g v)) ∧
  (∀ s m g v t, Reaches s m (emtHashCfg g) t → g < 8 → Writes (.emtHashWrite m g false v) s m t v (hashCfgWrite g v)) ∧
  (∀ s m g v t, Reaches s m (stmSeed g) t → g < 8 → Writes (.stmHashSeedWrite m g v) s m t v
    (fun u => if idUsed u g = 0 then wr (stmSeed g) v u else wrBit (stmOcc g) 31 true u)) ∧
  (∀ s m d v t, Reaches s m (freDupSeed d) t → d < 2 → Writes (.freDupSeedWrite m d v) s m t v
    (fun u => if dupUsed u d = 0 then wr (freDupSeed d) v u else u)) ∧
  (∀ s m ring v t, Reaches s m (ringBase ring + 0x10) t → recordRing ring = true →
    Writes (.ringConsWrite m ring v) s m t v
      (ringConsWrite (ringBase ring) (match ring with | .dump _ => 1024 | _ => 256) v)) ∧
  (∀ s m ring v t top, Reaches s m (ringBase ring + 8) t → recordRing ring = true → t.reg.act = .ringCfg top →
    Writes (.ringEnableWrite m ring v) s m t (setBit v 0 true) (ringCfgWrite (ringBase ring) top (setBit v 0 true))) ∧
  (∀ s m t, Reaches s m (timStep + 8) t → Writes (.timStepGo m) s m t 1
    (fun u => timeStepBy (sgn 32 (rd u timStep).toNat + sgn 32 (rd u timStepSec).toNat * 10 ^ 9) u)) ∧
  (∀ s m v t, Reaches s m timRateAdj t → Writes (.timRateAdjWrite m v) s m t v (wr timRateAdj v)) ∧
  (∀ s m src t, Reaches s m timCfg t → Writes (.timSrcSelect m src) s m t (setBit (rd s timCfg) 20 src)
    (timCfgWrite (setBit (rd s timCfg) 20 src))) ∧
  (∀ s m v t, Reaches s m fioForceEn t → Writes (.fioFoForceEnWrite m v) s m t v (forceWrite fioForceEn (fld v 16 16) v)) ∧
  (∀ s m v t, Reaches s m fioForceVal t →
    Writes (.fioFoForceValWrite m v) s m t v (forceWrite fioForceVal (fld v 16 16) v)) ∧
  (∀ s m j t, Reaches s m fioFoStat t → j < 16 → Writes (.foMismatchRearm m j) s m t (wd (2 ^ (16 + j)))
    (wrBit fioFoStat (16 + j) false)) ∧
  (∀ s m r t, Reaches s m casCfg t → r < 3 → Writes (.casRoleWrite m r) s m t (setFld (rd s casCfg) 0 2 r)
    (casCfgWrite (setFld (rd s casCfg) 0 2 r))) ∧
  (∀ s m t, Reaches s m casStat t → Writes (.casAuthFailRearm m) s m t 0x100 (wrBit casStat 8 false)) ∧
  (∀ s m c t, Reaches s m (colStallPend (c / 32)) t → c < cellCount → Writes (.colStallStickyClear m c true) s m t
    (wd (2 ^ (c % 32))) (stallPendWrite (c / 32) (wd (2 ^ (c % 32))))) ∧
  (∀ s m c t, Reaches s m (cellStat c) t → c < cellCount → Writes (.colStallStickyClear m c false) s m t 0x100
    (cellStatWrite c 0x100)) ∧
  (∀ s m c t, Reaches s m (colOvfPend (c / 32)) t → c < cellCount → Writes (.colOvfClear m c true) s m t
    (wd (2 ^ (c % 32))) (ovfPendWrite (c / 32) (wd (2 ^ (c % 32))))) ∧
  (∀ s m c t, Reaches s m (cellStat c) t → c < cellCount → Writes (.colOvfClear m c false) s m t 0x200
    (cellStatWrite c 0x200)) ∧
  (∀ s m n t, Reaches s m (engBank 0 n) t → n < 34 → Writes (.prsBankSwitch m n) s m t 2 (bankWrite 0 n 2)) ∧
  (∀ s m n t, Reaches s m (engBank 1 n) t → n < 34 → Writes (.rweBankSwitch m n) s m t 2 (bankWrite 1 n 2)) ∧
  (∀ s m n v t, Reaches s m (engPatchAddr 0 n) t → n < 34 →
    Writes (.prsPatchAddrWrite m n v) s m t v (patchAddrWrite 0 n v)) ∧
  (∀ s m n v t, Reaches s m (engPatchData 0 n 0) t → n < 34 →
    Writes (.prsPatchDataWrite m n v) s m t v (patchDataWrite 0 n 0 v)) ∧
  (∀ s m n v t, Reaches s m (engPatchAddr 1 n) t → n < 34 →
    Writes (.rwePatchAddrWrite m n v) s m t v (patchAddrWrite 1 n v)) ∧
  (∀ s m n v t, Reaches s m (engPatchData 1 n 0) t → n < 34 →
    Writes (.rwePatchDataWrite m n v) s m t v (patchDataWrite 1 n 0 v))

/-- Captures armed again, fault records acknowledged (R472 to R478, R492), a pipeline's mode (R493), the debug request
(R526), the windows (R436) and the mailboxes' registers (R393, R394, R418), written. -/
def Obligations.CaptureAndMailboxWritesComplete : Prop :=
  (∀ s m d t, Reaches s m (bpmBase d + 0x104) t → d < 2 →
    Writes (.bpmCaptureRearm m d) s m t 0x80000000 (wrBit (bpmBase d + 0x104) 31 false)) ∧
  (∀ s m t, Reaches s m glbCapInfo t → Writes (.buserrCaptureRearm m) s m t 0x80000000 (wrBit glbCapInfo 31 false)) ∧
  (∀ s m p t, Reaches s m (pmcOvf p 0x10) t → p < 32 →
    Writes (.ovfCaptureRearm m p) s m t 0x80000000 (wrBit (pmcOvf p 0x10) 31 false)) ∧
  (∀ s m w v t, Reaches s m (fclStatus + 4 * w) t → w < 4 →
    Writes (.fclStatusClear m w v) s m t v (acknowledge w v)) ∧
  (∀ s m t, Reaches s m fclFirst t → Writes (.fclFirstRearm m) s m t 0x80000000 firstRearm) ∧
  (∀ s m t, Reaches s m (fclBase + 0x84) t → Writes (.fclLogPop m) s m t 1 logPop) ∧
  (∀ s m t, Reaches s m fclCfg t → m = 0 ∨ rdBit s fclCfg 18 = false →
    Writes (.fclLockSet m) s m t (setBit (rd s fclCfg) 18 true) (wrM fclCfg 0x7FFFF (setBit (rd s fclCfg) 18 true))) ∧
  (∀ s m n mode t, Reaches s m (pipBase n) t → n < 34 → mode < 4 →
    Writes (.pipCtlModeWrite m n mode) s m t (wd mode) (pipModeWrite n mode)) ∧
  (∀ s m t, Reaches s m (secBase + 8) t → Writes (.secDbgReq m) s m t 1 issueNonce) ∧
  (∀ s m w bad t, Reaches s m (winBase w + 8) t → w < 4 →
    exec (.winRead m w bad) s = .next (answer m ⟨true, []⟩ (winCmd w 1 bad (parityFresh t.addr s)))) ∧
  (∀ s m w t, Reaches s m (winBase w + 8) t → w < 4 →
    exec (.winWrite m w) s = .next (answer m ⟨true, []⟩ (winCmd w 2 false (parityFresh t.addr s)))) ∧
  (∀ s m mb t, Reaches s m (mbPageAddr m mb mbxDoorbellOff) t → mb < 5 → m ≠ 2 ∨ mb = 1 →
    Writes (.mbxDoorbell m mb) s m t 1 (doorbell mb)) ∧
  (∀ s m mb i v t, Reaches s m (mbAreaAddr m mb i) t → mb < 5 → i < 1024 → m ≠ 2 ∨ mb = 1 →
    Writes (.mbxCommandAreaWrite m mb i v) s m t v (areaWrite mb i v)) ∧
  (∀ s m mb v es t, Reaches (if mb < 2 then hostEntries mb es s else s) m (mbPageAddr m mb mbxCmdProdOff) t → mb < 5 →
    m ≠ 2 ∨ mb = 1 → Writes (.mbxCmdProdWrite m mb v es) s m t v
      (fun _ => cmdProdWrite mb v (parityFresh t.addr (if mb < 2 then hostEntries mb es s else s)))) ∧
  (∀ s m mb v t, Reaches s m (mbPageAddr m mb mbxRspConsOff) t → mb < 5 → m ≠ 2 ∨ mb = 1 →
    Writes (.mbxRspConsWrite m mb v) s m t v (rspConsWrite mb v)) ∧
  (∀ s m mb v t, Reaches s m (mbPageAddr m mb mbxRingCfgOff) t → mb < 5 → m ≠ 2 ∨ mb = 1 →
    Writes (.mbxRingEnWrite m mb v) s m t v (mbRingCfgWrite mb v))

/-- What the block does by itself around its registers: the 1 ms rule of staged groups (R432), the shadow log (R406), the
parity checker and firmware's restores (R428, R429), clocks that stop and return (R62, R76), a cell that has
resynchronised (R77), the budget period (R27 to R31). -/
def Obligations.RegisterEventsComplete : Prop :=
  (∀ s c u, tget none s.bus.open_ c = some u → u.raised = false → u.since + 10 ^ 6 ≤ s.tim.cnt →
    exec (.cfgUncommittedTimeout c) s = .next (raiseAcc srcCfgUncommitted c u.lastMaster 2
      { s with bus := { s.bus with open_ := tset none s.bus.open_ c (some { u with raised := true }) } })) ∧
  (∀ s c u, tget none s.bus.open_ c = some u → u.raised = true ∨ s.tim.cnt < u.since + 10 ^ 6 →
    exec (.cfgUncommittedTimeout c) s = .next s) ∧
  (∀ s, fwRuns s = true → exec .shadowLogRecovery s = .next (applyLog s)) ∧
  (∀ s a us, protectedReg a = true → physAddr s a ∉ s.bus.badPar → physAddr s a ∉ s.bus.badStg →
    exec (.cfgParityCheck a (some us)) s = .next (wrF glbParStat 0 16 (min us 65535) s)) ∧
  (∀ s a, protectedReg a = true → physAddr s a ∈ s.bus.badPar → physAddr s a ∉ s.bus.badStg →
    physAddr s a ∉ s.bus.restoreQ →
    exec (.cfgParityCheck a none) s = .next ((fun t : State => { t with bus := { t.bus with
      restoreQ := t.bus.restoreQ ++ [physAddr t a] } }) (raise srcCfgParity a 0 0 s))) ∧
  (∀ s a, protectedReg a = true → physAddr s a ∉ s.bus.badPar → physAddr s a ∈ s.bus.badStg →
    exec (.cfgParityCheck a none) s = .next (raise srcCfgParity a 0 0 s)) ∧
  (∀ s a rest, fwRuns s = true → s.bus.restoreQ = a :: rest → a ∈ s.bus.badPar →
    ∃ t, exec .cfgRestoreWrite s = .next t ∧ t = incSat glbParStat 16 16 { s with
      regs := tset (resetOf a) s.regs a (restoreValue s a),
      ports := { s.ports with tuning := tset none s.ports.tuning a none },
      bus := { s.bus with restoreQ := rest, badPar := s.bus.badPar.filter (fun x => x != a),
                          restored := s.bus.restored.filter (fun x => x.1 != a) ++ [(a, s.tim.cnt)] } }) ∧
  (∀ s a t, (a, t) ∈ s.bus.restored → t + 10 ^ 6 ≤ s.tim.cnt → a ∈ s.bus.badPar →
    exec (.cfgRestoreVerifyTimeout a) s = .next (raise srcCfgRestoreFail a 7 (a / 65536)
      { s with bus := { s.bus with restored := s.bus.restored.filter (fun x => x.1 != a) } })) ∧
  (∀ s a t, (a, t) ∈ s.bus.restored → t + 10 ^ 6 ≤ s.tim.cnt → a ∉ s.bus.badPar →
    exec (.cfgRestoreVerifyTimeout a) s = .next
      { s with bus := { s.bus with restored := s.bus.restored.filter (fun x => x.1 != a) } }) ∧
  (∀ s d, d < domCount → exec (.clockAbsent d) s = .next
    (if (if d = 38 then onOscillator s else decide (d ∈ s.col.stopped)) = true then s else clockAbsent d s)) ∧
  (∀ s d ps, d < domCount → d ∉ s.col.stopped → exec (.clockPresent d ps) s = .next (clockPresent d ps s)) ∧
  (∀ s d ps, d < domCount → d ∈ s.col.stopped → exec (.clockPresent d ps) s = .next
    (if d = 36 then fioResume (timeInvalid (clockPresent d ps s))
     else if d = 35 then runWaiting (clockPresent d ps s) else clockPresent d ps s)) ∧
  (∀ s c thru, c < cellCount → canResync s c = true → 128 ≤ c ∨ 2 ≤ c % 4 →
    exec (.colResyncComplete c thru) s = .next (resync c s)) ∧
  (∀ s n thru, n < 32 → canResync s (4 * n) = true → exec (.colResyncComplete (4 * n) thru) s = .next
    (if (cellOf s (4 * n)).sync = 1 then cutIngress n thru (resync (4 * n) s) else resync (4 * n) s)) ∧
  (∀ s n thru, n < 32 → canResync s (4 * n + 1) = true → exec (.colResyncComplete (4 * n + 1) thru) s = .next
    (if (cellOf s (4 * n + 1)).sync = 2 then cutEgress n thru (resync (4 * n + 1) s) else resync (4 * n + 1) s)) ∧
  (∀ s c thru, c < cellCount → canResync s c = false → exec (.colResyncComplete c thru) s = .next s) ∧
  (∀ s, 36 ∉ s.col.stopped → s.bud.last < s.tim.cnt / 1024 → exec .budgetPeriodBoundary s = .next
    (memPeriod 1 (memPeriod 0 (winServe (enqPeriod 1 (enqPeriod 0 (applyArmed budgetGroup
      { s with bud := { s.bud with used := carryOver s, periods := s.bud.periods + 1,
                                   last := s.tim.cnt / 1024 } }))))))) ∧
  (∀ s, 36 ∈ s.col.stopped ∨ s.tim.cnt / 1024 ≤ s.bud.last → exec .budgetPeriodBoundary s = .next s)

/-! ### Col cells and islands, by themselves (R40 to R80) -/

/-- What a cell does (R65 to R80).  A value cell starts a transfer, a pulse cell starts one or adds to its accumulator, and
reports it when it overflows; the destination captures; the source sees the acknowledge; a FIFO cell takes a word or its
source keeps it, and gives the words whose write has been seen; a cell that stalls is raised once; a side enters reset.
The system clock returns from its oscillator (R63).  A cell neither of whose sides is in reset or awaits resynchronisation
is `joined`; it moves while both its clocks run. -/
def Obligations.CellEventsComplete : Prop :=
  (∀ s c v x, x = cellOf s c → ofType c cellV = true → joined x = true → clockRuns s (cellSrc c) = true →
    exec (.colTransferStart c v) s = .next
      (if x.flag then s else setCell c { x with cur := v, flag := true, captured := false, val := v,
                                                since := s.tim.cnt, stalled := false } s)) ∧
  (∀ s c v x, x = cellOf s c → ofType c cellV = true → joined x = false → x.rst ≠ 1 → x.rst ≠ 3 →
    clockRuns s (cellSrc c) = true → exec (.colTransferStart c v) s = .next (setCell c { x with cur := v } s)) ∧
  (∀ s c x, x = cellOf s c → ofType c cellP = true → joined x = true → x.flag = false → clockRuns s (cellSrc c) = true →
    exec (.pulseArrival c) s = .next (setCell c { x with
      flag := true, captured := false, val := 1, ovfIn := x.accOvf, since := s.tim.cnt, stalled := false } s)) ∧
  (∀ s c x, x = cellOf s c → ofType c cellP = true → joined x = true → x.flag = true → clockRuns s (cellSrc c) = true →
    exec (.pulseArrival c) s = .next (if x.acc < 15 then setCell c { x with acc := x.acc + 1 } s
      else if rdBit (setCell c { x with accOvf := true } s) (cellStat c) 9 = true then setCell c { x with accOvf := true } s
      else raise srcColPulseLost c 0 0 (wrBit (colOvfPend (c / 32)) (c % 32) true
        (wrBit (cellStat c) 9 true (setCell c { x with accOvf := true } s))))) ∧
  (∀ s c x, x = cellOf s c → c < cellCount → cellType c ≠ cellF → joined x = true → bothRun s c = true →
    exec (.colCapture c) s = .next (if x.flag = true ∧ x.captured = false then
        inc (cellXfer c) (setCell c { x with
          captured := true, last := if cellType c = cellP then x.last + x.val else x.val } s)
      else s)) ∧
  (∀ s c x, x = cellOf s c → c < cellCount → cellType c ≠ cellF → joined x = true → bothRun s c = true →
    x.flag = true → x.captured = true →
    exec (.colAckSeen c) s = .next (setCell c (if 0 < x.acc
      then { x with flag := true, captured := false, val := x.acc, ovfIn := x.accOvf, acc := 0,
                    since := s.tim.cnt, stalled := false }
      else { x with flag := false, captured := false, ovfIn := false, stalled := false }) s)) ∧
  (∀ s c x, x = cellOf s c → ofType c cellF = true → joined x = true → bothRun s c = true →
    exec (.colCapture c) s = .next (setCell c { x with seen := x.fifo.length } s) ∧
    exec (.colAckSeen c) s = .next (setCell c (fifoFill c s.tim.cnt { x with
      fifo := x.fifo.drop x.read, seen := x.seen - x.read, read := 0, stalled := x.stalled && x.read == 0 }) s)) ∧
  (∀ s c w x, x = cellOf s c → ofType c cellF = true → joined x = true → clockRuns s (cellSrc c) = true → x.kept = [] →
    ∃ y, exec (.colFifoWrite c w) s = .next (setCell c y s) ∧
      (if x.fifo.length < cellDepth c then y.fifo = x.fifo ++ [w] ∧ y.kept = [] else y.fifo = x.fifo ∧ y.kept = [w]) ∧
      y = { x with fifo := y.fifo, kept := y.kept, since := y.since, fullAt := y.fullAt }) ∧
  (∀ s c w x, x = cellOf s c → ofType c cellF = true → joined x = false → x.rst ≠ 1 → x.rst ≠ 3 →
    clockRuns s (cellSrc c) = true →
    exec (.colFifoWrite c w) s = .next (setCell c { x with kept := x.kept ++ [w] } s)) ∧
  (∀ s c x, x = cellOf s c → ofType c cellF = true → joined x = true → bothRun s c = true →
    exec (.colFifoRead c) s = .next (if x.read < x.seen then
        inc (cellXfer c) (setCell c { x with read := x.read + 1, last := x.fifo.getD x.read 0, since := s.tim.cnt,
                                             stalled := x.stalled && x.fifo.length == cellDepth c } s)
      else s)) ∧
  (∀ s c x lim, x = cellOf s c → lim = rdF s (cellCfg c) 0 16 → c < cellCount → cellType c ≠ cellF → x.flag = true →
    lim ≠ 0 → 36 ∉ s.col.stopped → rdBit s (cellStat c) 8 = false →
    exec (.colStallWatchdog c) s = .next (if lim * 1000 < s.tim.cnt - x.since then
        raise srcColStall c 0 0 (wrBit (colStallPend (c / 32)) (c % 32) true
          (wrBit (cellStat c) 8 true (setCell c { x with stalled := true } s)))
      else s)) ∧
  (∀ s c x lim, x = cellOf s c → lim = rdF s (cellCfg c) 0 16 → ofType c cellF = true →
    lim ≠ 0 → rdBit s (cellStat c) 8 = false →
    (x.fifo ≠ [] ∧ lim * 1000 < s.tim.cnt - x.since) ∨
      (x.fifo.length = cellDepth c ∧ lim * 1000 < s.tim.cnt - x.fullAt) →
    exec (.colStallWatchdog c) s = .next (raise srcColStall c 0 0 (wrBit (colStallPend (c / 32)) (c % 32) true
          (wrBit (cellStat c) 8 true (setCell c { x with stalled := true } s))))) ∧
  (∀ s c, c < cellCount → rdF s (cellCfg c) 0 16 = 0 ∨ rdBit s (cellStat c) 8 = true →
    exec (.colStallWatchdog c) s = .next s) ∧
  (∀ s c x, x = cellOf s c → c < cellCount → joined x = true →
    exec (.colPartnerReset c false) s = .next (setCell c { x with rst := 2, sync := 0, stalled := false } s) ∧
    exec (.colPartnerReset c true) s = .next (setCell c { x with
      flag := false, captured := false, ovfIn := false, val := 0, cur := 0, acc := 0, accOvf := false,
      fifo := x.fifo.take x.seen, kept := [], rst := 1, sync := 0, stalled := false } s)) ∧
  (∀ s, exec .sysclkSwitchback s = .next (if rdBit s (domStat 38) 1
    then allClocks 38 (wrBit (domStat 38) 0 true (wrBit (domStat 38) 1 false s)) else s))

/-- What an island's loop does (R44 to R53): the ratio window's end measures, an evaluation moves the code by the loop's
step, an island out of service follows its block, a pin longer than the ceiling time is raised once.  A window or an
evaluation that is not due does nothing of it. -/
def Obligations.IslandEventsComplete : Prop :=
  (∀ s i n ps mv, i < islCount → mv < 1024 → elapsed s (islGet s i).window (64 * 2 ^ rdF s pwiTiming 24 4) = true →
    ∃ t, exec (.ratioWindowEnd i n ps mv) s = .next t ∧ (islGet t i).window = some s.tim.cnt ∧
      rd t (islPace i) = wd (min ps 4095 +
        min (n * ps * 256 / (64 * 2 ^ rdF s pwiTiming 24 4 * 1000 * islUnits i)) 4095 * 2 ^ 16) ∧
      rd t (islStat i) = setBit (setFld (rd s (islStat i)) 16 10 mv) 9 (decide (mv + 15 < 600 + 5 * islCode s i)) ∧
      ∀ a, a ≠ islStat i → a ≠ islPace i → rd t a = rd s a) ∧
  (∀ s i n ps mv u, i < islCount → mv < 1024 → (islGet s i).window = some u →
    s.tim.cnt - u < 64 * 2 ^ rdF s pwiTiming 24 4 → exec (.ratioWindowEnd i n ps mv) s = .next s) ∧
  (∀ s i occ steps, i < islCount → occ ≤ 32 → 36 ∈ s.col.stopped →
    exec (.islandEvaluation i occ steps) s = .next (incBy (islSteps i) steps (wrF (islStat i) 10 6 occ s))) ∧
  (∀ s i occ steps, i < islCount → occ ≤ 32 → 36 ∉ s.col.stopped → islOos s i = true →
    exec (.islandEvaluation i occ steps) s = .next
      (islFollow false i (incBy (islSteps i) steps (wrF (islStat i) 10 6 occ s)))) ∧
  (∀ s i occ steps, i < islCount → occ ≤ 32 → 36 ∉ s.col.stopped → islOos s i = false →
    elapsed s (islGet s i).evaluated (rdF s pwiTiming 0 8) = true → rdF s pwiCeilTime 0 20 ≠ 0 →
    ∃ t, exec (.islandEvaluation i occ steps) s = .next t ∧ islCode t i = (islStep s i occ).1 ∧
      rdBit t (islStat i) 8 = islPinned s i occ ∧
      rdBit t (islStat i) 9 = decide (rdF s (islStat i) 16 10 + 15 < 600 + 5 * islCode t i) ∧
      (islGet t i).dwell = (islStep s i occ).2.dwell ∧ (islGet t i).evaluated = some s.tim.cnt ∧
      ∀ a, a ≠ islStat i → a ≠ islSteps i → a ≠ islPeak i → rd t a = rd s a) ∧
  (∀ s i t, i < islCount → (islGet s i).pinned = some t → islPend s i = false →
    rdF s pwiCeilTime 0 20 * 1000 < s.tim.cnt - t →
    exec (.islCeilingExpiry i) s = .next (raise srcIslCeiling i 9 i (wrBit (pwiPend (i / 32)) (i % 32) true s))) ∧
  (∀ s i, i < islCount → (islGet s i).pinned = none ∨ islPend s i = true → exec (.islCeilingExpiry i) s = .next s)

/-! ### A packet's way through the engine (R18 to R26, R84 to R120, R227 to R276, R307 to R333) -/

/-- From the ingress MAC to a queue (R18, R84 to R94, R114, R186, R202, R227): a frame arrives and waits for its pipeline,
is taken into a context, parsed step by step, looked up in its glen, filtered, admitted on its dies and joined to its
queue; its FCS decides when its last byte has come. -/
def Obligations.IngressEventsComplete : Prop :=
  (∀ s p got bytes, portExists s p = true → bytes ≠ [] → portUp s p = true → pgRuns s p = true → primrosePort s p = false →
    fifoUsed s (pgOf p) + bytes.length + 4 ≤ 262144 → (freMode s p = 2 → ownMac s (dieOf p) bytes = false) →
    ∃ t, exec (.frameIngress p got bytes) s = .next t ∧
      getPkt t s.path.nextPkt = some (newPkt s p got bytes) ∧ t.path.nextPkt = s.path.nextPkt + 1 ∧
      fifoUsed t (pgOf p) = fifoUsed s (pgOf p) + bytes.length + 4 ∧
      (∀ k, k ≠ s.path.nextPkt → getPkt t k = getPkt s k) ∧ (∀ a, rd t a = rd s a)) ∧
  (∀ s n k x, n < 32 → fifoHead s n = some (k, x) → pipTakes s n = true → rdF s (engPortProf 0 x.port) 0 8 = 0 →
    ∃ y u, exec (.parseContextTake n) s = .next (prsDiscard k n (countEng 0 n pcDrop 1 (setPkt k y u))) ∧
      y.phase = .parsing ∧ y.profile = 0 ∧ fifoUsed u n = fifoUsed s n - (x.bytes.length + 4)) ∧
  (∀ s n k x, n < 32 → fifoHead s n = some (k, x) → pipTakes s n = true → rdF s (engPortProf 0 x.port) 0 8 ≠ 0 →
    ∃ y u, exec (.parseContextTake n) s = .next (ctxUpdate 0 n (setPkt k y u)) ∧ y.phase = .parsing ∧
      y.profile = rdF s (engPortProf 0 x.port) 0 8 ∧
      y.ctx.pc = prsEntry s n (activeBank s 0 n) (rdF s (engPortProf 0 x.port) 0 8) ∧
      fifoUsed u n = fifoUsed s n - (x.bytes.length + 4)) ∧
  (∀ s k got bad x, getPkt s k = some x → x.phase = .parsing → got ≤ x.got → x.got ≤ x.bytes.length →
    windowWaits 0 x.bytes.length x.got (needHp x.ctx (prsStep s x)) = true →
    exec (.parseStep k got bad) s = .next (ctxUpdate 0 x.pip (setPkt k x s))) ∧
  (∀ s k got x, getPkt s k = some x → x.phase = .parsing → got ≤ x.got → x.got ≤ x.bytes.length →
    windowWaits 0 x.bytes.length x.got (needHp x.ctx (prsStep s x)) = false →
    exec (.parseStep k got true) s = .next (prsFault k x.pip srcUcodeParity
      (effective s 0 x.pip x.ctx.bank x.ctx.pc) (patchParity 0 x.pip (effective s 0 x.pip x.ctx.bank x.ctx.pc) s))) ∧
  (∀ s k got x c, getPkt s k = some x → x.phase = .parsing → got ≤ x.got → x.got ≤ x.bytes.length →
    windowWaits 0 x.bytes.length x.got (needHp x.ctx (prsStep s x)) = false → prsStep s x = .go c →
    x.ctx.steps < c.steps → c.steps ≤ x.ctx.limit → c.steps < c.limit →
    exec (.parseStep k got false) s = .next (ctxUpdate 0 x.pip (setPkt k { x with ctx := c }
      (countEng 0 x.pip pcSteps (c.steps - x.ctx.steps)
        (setPkt k { x with ctx := { x.ctx with steps := c.steps } } s))))) ∧
  (∀ s k got x c act why, getPkt s k = some x → x.phase = .parsing → got ≤ x.got → x.got ≤ x.bytes.length →
    windowWaits 0 x.bytes.length x.got (needHp x.ctx (prsStep s x)) = false → prsStep s x = .fin c act why →
    x.ctx.steps < c.steps → c.steps ≤ x.ctx.limit →
    exec (.parseStep k got false) s = .next (prsEnd k x c act why (countEng 0 x.pip pcSteps (c.steps - x.ctx.steps)
      (setPkt k { x with ctx := { x.ctx with steps := c.steps } } s)))) ∧
  (∀ s k bad x, getPkt s k = some x → x.phase = .parsed → outOfService s 2 (servingGlen s x.port) = false →
    exec (.glenLookup k bad) s = .next (glenResult k (servingGlen s x.port) x bad (wrongLan x s))) ∧
  (∀ s k bad x, getPkt s k = some x → x.phase = .looked → x.fcs = some false →
    exec (.filterStage k bad) s = .next (discardPkt k 4 s)) ∧
  (∀ s k x r, getPkt s k = some x → x.phase = .looked → x.fcs ≠ some false → r = filterStage (filterIn s x) s →
    r.pass = false →
    ∃ y, exec (.filterStage k .none) s = .next (discardPkt k 4 (setPkt k y r.st)) ∧ y.phase = .filtered ∧
      y.colour = r.colour ∧ y.tenant = r.tenant) ∧
  (∀ s k good x, getPkt s k = some x → x.complete = true → exec (.frameFcsResult k good) s = .next s) ∧
  (∀ s k x, getPkt s k = some x → x.complete = false → x.phase ≠ .filtered → x.phase ≠ .admitted →
    ∃ y, y = { x with got := x.bytes.length, complete := true, fcs := some true, charged := [] } ∧
      exec (.frameFcsResult k true) s = .next (reapPkt k (fireTrigger k (learnFcs (servingGlen s x.port) k true
        (correctMeters (servingGlen s x.port) (frameLen x) x.charged (setPkt k y (countRx x true s))))))) ∧
  (∀ s k d x, d < 2 → getPkt s k = some x → x.phase = .filtered → d ∈ x.dies →
    ∃ y, y = { x with phase := .admitted, dies := x.dies.filter (fun e => e != d) } ∧
      exec (.admission k d .none) s = .next (reapPkt k (admitOn k d x (setPkt k y s)))) ∧
  (∀ s c x, getCopy s c = some x → x.phase = .waiting → tget [] s.sch.enqWait (dieOf x.port) = [] →
    resUsed s (dieOf x.port) < enqReserve → exec (.enqueue c) s = .next (joinQueue c s)) ∧
  (∀ s c x w, getCopy s c = some x → x.phase = .waiting → tget [] s.sch.enqWait (dieOf x.port) = w → c ∉ w →
    w ≠ [] ∨ enqReserve ≤ resUsed s (dieOf x.port) → w.length < enqQueue →
    exec (.enqueue c) s = .next (inc (schCnt (dieOf x.port) cEnqWait)
      { s with sch := { s.sch with enqWait := tset [] s.sch.enqWait (dieOf x.port) (w ++ [c]) } }))

/-- From a queue to the wire (R238, R252 to R270, R307, R314, R317): spilling and its return, a port's decision, a shaper
refreshed by the sweep, the rewrite of a copy, its launch, and its leaving; a port's link comes up, and goes down. -/
def Obligations.EgressEventsComplete : Prop :=
  (∀ s c x, getCopy s c = some x → firstMarked s (dieOf x.port) x.queue = some c →
    (∀ p, getPkt s x.pkt = some p → p.complete = true) → hasSlot s (plainMem (dieOf x.port)) 0 = false →
    exec (.spillCopy c) s = .next (waited (plainMem (dieOf x.port)) 0 s)) ∧
  (∀ s c x u, getCopy s c = some x → firstMarked s (dieOf x.port) x.queue = some c →
    (∀ p, getPkt s x.pkt = some p → p.complete = true) → hasSlot s (plainMem (dieOf x.port)) 0 = true →
    stackTakes s (dieOf x.port) x.len = true →
    u = (release (dieOf x.port) 36 292 x.ptr (transfer (dieOf x.port) (pgOf x.port) x.port 292 x.ptr s).2).2 →
    exec (.spillCopy c) s = .next (bumpQ (dieOf x.port) x.queue cntSpilled 1
      (setCopy c { x with inHbm := true, marked := false, spilled := true }
        (charge (plainMem (dieOf x.port)) 0 ((x.len + 63) / 64) u)))) ∧
  (∀ s c x a u, getCopy s c = some x → firstInHbm s (dieOf x.port) x.queue = some c →
    plainDepth s (dieOf x.port) x.queue < fld (qw (queueGet s (dieOf x.port) x.queue) 2) 16 16 * 256 →
    hasSlot s (plainMem (dieOf x.port)) 0 = true →
    allocate (dieOf x.port) ⟨36, x.len, false, [x.port], []⟩ s = (.ok a, u) →
    exec (.spillReturn c false) s = .next (charge (plainMem (dieOf x.port)) 0 ((x.len + 63) / 64)
      (setCopy c { x with inHbm := false, ptr := wd a } u))) ∧
  (∀ s p u ch, portExists s p = true → portUp s p = true → onTheWay s p < 2 → u = refreshPort p (dropGateLongs p s) →
    portChoice (atBegin u p) p = some ch → exec (.portDecision p .none) s = .next (sendChoice p ch u)) ∧
  (∀ s p u, portExists s p = true → portUp s p = true → onTheWay s p < 2 → u = refreshPort p (dropGateLongs p s) →
    portChoice (atBegin u p) p = none → exec (.portDecision p .none) s = .next u) ∧
  (∀ s p, portExists s p = true → portUp s p = false → exec (.portDecision p .none) s = .next s) ∧
  (∀ s d level i, d < 2 → i < levelTop level → hasSlot s (schMem d) 0 = true →
    exec (.shaperSweep d level i) s = .next (shpRefresh d level i (charge (schMem d) 0 1 s))) ∧
  (∀ s d q, d < 2 → shpWaits s d = some q → hasSlot s (schMem d) 0 = true → q.ticket = none →
    exec (.shaperCommitEffect d) s = .next
      (wrBit (shpStat d) 5 false (setShpWait d none (shpReplace d q (charge (schMem d) 0 1 s))))) ∧
  (∀ s c y x, getCopy s c = some y → getPkt s y.pkt = some x → y.phase = .dequeued →
    outOfService s 1 (pgOf y.port) = false → (rewriting s (pgOf y.port)).length < 64 →
    rdF s (engPortProf 1 y.port) 0 8 ≠ 0 →
    ∃ z, exec (.rewriteContextTake c) s = .next (ctxUpdate 1 (pgOf y.port) (setCopy c z s)) ∧ z.phase = .rewriting ∧
      z.ctx.pc = rweEntry s (pgOf y.port) (activeBank s 1 (pgOf y.port)) (rdF s (engPortProf 1 y.port) 0 8) ∧
      z.ctx.offs = x.ctx.offs) ∧
  (∀ s c y x r z, getCopy s c = some y → getPkt s y.pkt = some x → y.phase = .rewriting →
    windowWaits 1 x.bytes.length x.got y.ctx.hp = false → r = rweStepOf s x y → r.1 = .fin z →
    y.ctx.steps + r.2.1 ≤ y.ctx.limit →
    exec (.rewriteStep c .none) s = .next
      (rweFinish c x { z with ctx := { z.ctx with steps := y.ctx.steps + r.2.1 } } .none r.2.2)) ∧
  (∀ s c y x tl, getCopy s c = some y → getPkt s y.pkt = some x → y.tl = some tl → y.phase = .launched →
    tl ≤ stampNow s y.port true → tget 0 s.path.wireEnd y.port ≤ tl →
    gateEligible s y.port y.tc (portCharge s y.port y.len) = true →
    exec (.launchTime c) s = .next (readyCopy c x y tl s)) ∧
  (∀ s c y x tl, getCopy s c = some y → getPkt s y.pkt = some x → y.tl = some tl → y.phase = .launched →
    tl ≤ stampNow s y.port true → tl < tget 0 s.path.wireEnd y.port →
    exec (.launchTime c) s = .next (setCopy c { y with tl := some (launchAt s y.port) } s)) ∧
  (∀ s c y x r ts u v we, getCopy s c = some y → getPkt s y.pkt = some x → y.phase = .ready → x.complete = true →
    portUp s y.port = true → pgRuns s y.port = true → inQuarantine s y = false → y.invFcs = false → y.badData = false →
    x.dec.up = false → y.port ∉ x.dec.upPorts → x.dec.ctrl = false →
    portRec s y.port = some r → ts = y.tl.getD (stampNow s y.port true) →
    u = emit (.frame y.port y.out true) (countTx y.port y.out false s) →
    we = tset 0 u.path.wireEnd y.port (ts + (y.out.length + 24) * 8000 / max 1 (portRate r)) →
    v = { u with path := { u.path with wireEnd := we } } →
    ∃ w, w = samplePkt x (sampleOf y ((ts : Int) - x.stamp)) 0 (releaseCopy y (afterSent x y ts v)) ∧
      exec (.egressTransmit c false) s = .next (reapPkt y.pkt (endCopy c (modPkt y.pkt (fun z => { z with sent := true })
        (setGat y.port { gatOf w y.port with wire := none } w))))) ∧
  (∀ s p tc tenant bytes ck host, portExists s p = true → tc < 8 → tenant < 4096 → 14 ≤ bytes.length →
    bytes.length ≤ 16380 →
    exec (.hostFrameTransmit p tc tenant bytes ck host) s =
      .next (sendFrom (if host then 35 else 34) [p] bytes tc tenant ck false false s)) ∧
  (∀ s p, portExists s p = true → exec (.linkUp p) s = .next (setLink p true s)) ∧
  (∀ s p, portExists s p = true →
    exec (.linkDown p) s = .next (dropDown p (raise srcPcsLinkFault 0 4 (pgOf p) (setLink p false s))))

/-! ### A glen's own work (R27, R126 to R145, R159 to R183, R193, R203, R212, R402) -/

/-- A glen's update unit runs the operation at the head of a memory's queue once its slots are granted, and completes the
PENDING element that waits for it; an operation whose slots are not granted waits and is counted.  Promotions, learn
notifications, age refreshes, the scanner and the ring's interrupt moderation go the same way (R132 to R143). -/
def Obligations.GlenEventsComplete : Prop :=
  (∀ s g m fails q rest, g < 8 → m < 3 → updQueue s (glenMem g m) = q :: rest → isRouteOp q.op = false →
    hasSlot s (glenMem g m) actUpdate = false →
    exec (.glenUpdateOperation g m fails) s = .next (waited (glenMem g m) actUpdate s)) ∧
  (∀ s g m q rest u, g < 8 → m < 3 → updQueue s (glenMem g m) = q :: rest → isRouteOp q.op = false →
    hasSlot s (glenMem g m) actUpdate = true → q.ticket = none →
    u = charge (glenMem g m) actUpdate (opCost g m q.op s) (setUpdQueue (glenMem g m) rest s) →
    exec (.glenUpdateOperation g m false) s = .next (opPass g q.op none (q.mems.drop 1) u).2 ∧
    (q.mems.length ≤ 1 → exec (.glenUpdateOperation g m false) s = .next (opRun g q.op u).st)) ∧
  (∀ s g m q rest u b v, g < 8 → m < 3 → updQueue s (glenMem g m) = q :: rest → isRouteOp q.op = false →
    hasSlot s (glenMem g m) actUpdate = true → q.ticket = none →
    u = charge (glenMem g m) actUpdate (opCost g m q.op s) (setUpdQueue (glenMem g m) rest s) →
    opBad g q.op u = some (b, v) →
    exec (.glenUpdateOperation g m true) s = .next (verifyFailed g b v)) ∧
  (∀ s g m q rest u, g < 8 → m < 3 → updQueue s (glenMem g m) = q :: rest → isRouteOp q.op = true →
    hasSlot s (glenMem g m) actUpdate = true → q.ticket = none → q.mems.length ≤ 1 →
    u = charge (glenMem g m) actUpdate (opCost g m q.op s) (setUpdQueue (glenMem g m) rest s) →
    exec (.prefixUpdateOperation g m none) s = .next (opRun g q.op u).st ∧
    ∀ i, i < 32768 → m = 0 → exec (.prefixUpdateOperation g m (some i)) s =
      exec (.prefixUpdateOperation g m none) (badPrefix g i s)) ∧
  (∀ s g m q rest u r t, g < 8 → m < 3 → updQueue s (glenMem g m) = q :: rest →
    hasSlot s (glenMem g m) actUpdate = true → q.ticket = some t → q.mems.length ≤ 1 →
    u = charge (glenMem g m) actUpdate (opCost g m q.op s) (setUpdQueue (glenMem g m) rest s) → r = opRun g q.op u →
    r.code ≠ rPending →
    exec (.pendingElementComplete g m) s = .next (keepShadow s (completeElem (some t) r.code r.st))) ∧
  (∀ s g b rest u j o i, g < 8 → tget [] s.glens.promo g = b :: rest → hasSlot s (glenMem g 0) actLearn = true →
    u = { s with glens := { s.glens with promo := tset [] s.glens.promo g rest } } → promotable u g b = some (j, o, i) →
    exec (.promotion g false) s = .next (charge (glenMem g 0) actLearn 3 (queuePromotion g b
      (ovfPut g j { o with e := invalid o.e } (bktPut g b i o.e u)))) ∧
    exec (.promotion g true) s = .next (charge (glenMem g 0) actLearn 3 (verifyFailed g b u))) ∧
  (∀ s g b rest u, g < 8 → tget [] s.glens.promo g = b :: rest → hasSlot s (glenMem g 0) actLearn = true →
    u = { s with glens := { s.glens with promo := tset [] s.glens.promo g rest } } → promotable u g b = none →
    ∀ fails, exec (.promotion g fails) s = .next u) ∧
  (∀ s g p fails rest u, g < 8 → takeGood (tget [] s.glens.pend g) = some (p, rest) →
    hasSlot s (glenMem g 0) actLearn = true →
    u = { s with glens := { s.glens with pend := tset [] s.glens.pend g rest } } → tblLearn s g p.table ≠ 0 →
    inFilter s g p.table p.key = false →
    exec (.learnNotifyService ⟨g, fails⟩) s =
      .next (charge (glenMem g 0) actLearn (learnPost g p fails u).1 (learnPost g p fails u).2)) ∧
  (∀ s g table k rest u h, g < 8 → tget [] s.glens.ageQ g = (table, k) :: rest →
    hasSlot s (glenMem g 0) actLearn = true →
    u = charge (glenMem g 0) actLearn 1 { s with glens := { s.glens with ageQ := tset [] s.glens.ageQ g rest } } →
    emFind u g table k = some h → h.e.isStatic = false →
    exec (.ageRefresh g) s = .next (emRewrite g (homeBucket u g table k) h { h.e with age := ageNow u g } u)) ∧
  (∀ s g u, g < 8 → rdF s (emtAgeCfg g) 0 16 ≠ 0 →
    tget 0 s.glens.tickAt g + rdF s (emtAgeCfg g) 0 16 * 10 ^ 6 ≤ s.tim.cnt → rdBit s (emtAgeStat g) 12 = true →
    u = tickFrom g (nextTick s g) s →
    exec (.ageTick g) s = .next (scanStart g (wr (emtAgeStat g) (wd ((ageNow s g + 1) % 4096)) u))) ∧
  (∀ s g, g < 8 → rdF s (emtAgeCfg g) 0 16 ≠ 0 →
    tget 0 s.glens.tickAt g + rdF s (emtAgeCfg g) 0 16 * 10 ^ 6 ≤ s.tim.cnt → rdBit s (emtAgeStat g) 12 = false →
    ∃ t, exec (.ageTick g) s = .next t ∧ tget 0 t.glens.tickLate g = tget 0 s.glens.tickLate g + 1 ∧
      ageNow t g = ageNow s g) ∧
  (∀ s g p u, g < 8 → tget 0 s.glens.scanPos g = p → p < 131072 → rdF s (emtAgeCfg g) 0 16 ≠ 0 →
    tget false s.glens.scanIdle g = false → hasSlot s (glenMem g 0) actLearn = true →
    usedOf s (glenMem g 0) actScan < rdF s (emtAgeCfg g) 16 12 →
    u = charge (glenMem g 0) actLearn 1
      { s with bud := { s.bud with used := tmod 0 s.bud.used (budKey (glenMem g 0) actScan) (· + 1) } } →
    bktRetired s g p = false →
    exec (.ageScanBucket ⟨g, .none⟩) s = .next (scanAdvance g (((List.range 4).filter (fun i =>
      agedOut u g (bktGet u g p i))).foldl (fun t i => ageDelete g p ⟨false, i, bktGet u g p i⟩ false t) u))) ∧
  (∀ s g p i o, g < 8 → tget 0 s.glens.scanPos g = p → p = 131072 + i → rdF s (emtAgeCfg g) 0 16 ≠ 0 →
    tget false s.glens.scanIdle g = false → o = tget emptyOvf s.glens.ovf (key g i) →
    exec (.ageScanBucket ⟨g, .none⟩) s = .next (scanAdvance g
      (if agedOut s g o.e then ageDelete g o.home ⟨true, i, o.e⟩ false s else s))) ∧
  (∀ s g, g < 8 → ringDue (emtRing g) (rdF s (emtRing g + 8) 16 8 * 1000) s = true →
    exec (.ringIrqModeration (.learn g)) s = .next (ringIrq (emtRing g) s)) ∧
  (∀ s g ws, g < 8 → fwRestored s = true → rdBit s (emtRing g + 8) 0 = true → rdBit s (emtRing g + 8) 1 = false →
    ringFill s (emtRing g) ≠ 0 → learnRecord s g (rd s (emtRing g + 0x10)).toNat = some ws →
    exec (.learnReplicate g) s = .next (wr (emtRing g + 0x10) (wd ((rd s (emtRing g + 0x10)).toNat + 1)) (replicate g ws s)))

/-- The scrubs of pivots and rules (R161, R181 to R183), the stream memories' management port (R217), a stream gate's
switch (R203) and the meter sweep (R212). -/
def Obligations.ScrubAndSweepEventsComplete : Prop :=
  (∀ s g i, g < 8 → i < 32768 → hasSlot s (glenMem g 0) actScrub = true → tget false s.glens.pivotBad (key g i) = true →
    ∃ u, u = charge (glenMem g 0) actScrub 1 s ∧ exec (.pivotScrub g i) s = .next (raise srcLpmPivotFix i 2 g
      { u with glens := { u.glens with pivotBad := tset false u.glens.pivotBad (key g i) false } })) ∧
  (∀ s g i, g < 8 → i < 32768 → hasSlot s (glenMem g 0) actScrub = false →
    exec (.pivotScrub g i) s = .next (waited (glenMem g 0) actScrub s)) ∧
  (∀ s g i r u, g < 8 → i < 16384 → r = ruleGet s g i → isWide r = true → hasSlot s (glenMem g 1) actScrub = true →
    u = charge (glenMem g 1) actScrub r.slices.length s →
    exec (.wideRuleScrub g i) s = .next (if ruleDiffers r = true
      then ruleFix g i (charge (glenMem g 1) actScrub (restoreSlots r) u) else retireSlices g i u)) ∧
  (∀ s g i r, g < 8 → i < 16384 → r = ruleGet s g i → isWide r = true → r.exclude = true →
    hasSlot s (glenMem g 1) actScrub = true →
    exec (.wideRuleRestore g i) s = .next (restoreOrMove g i (charge (glenMem g 1) actScrub (restoreSlots r) s))) ∧
  (∀ s g i r u, g < 8 → i < 16384 → r = ruleGet s g i → isWide r = false → fwUp s = true → r.exclude = false →
    rdF s (tcmScrubCfg g) 0 16 ≠ 0 → hasSlot s (glenMem g 1) actScrub = true →
    u = charge (glenMem g 1) actScrub (max 1 r.slices.length) s →
    exec (.narrowRuleScrub g i) s = .next
      (if ruleDiffers r = true then narrowFix g i (ruleFix g i) u else retireSlices g i u)) ∧
  (∀ s g i r, g < 8 → i < 16384 → r = ruleGet s g i → isWide r = false → fwUp s = true → r.exclude = true →
    hasSlot s (glenMem g 1) actUpdate = true → hasSlot s (glenMem g 2) actUpdate = true →
    exec (.narrowRuleScrub g i) s = .next (restoreOrMove g i (charge (glenMem g 2) actUpdate 2
      (charge (glenMem g 1) actUpdate (restoreSlots r) s)))) ∧
  (∀ s d r rest, d < 2 → tget [] s.streams.histQ d = r :: rest → r.residence < 0 →
    exec (.streamMgmtRequest d) s = .next (inc (stmCnt r.glen 5)
      { s with streams := { s.streams with histQ := tset [] s.streams.histQ d rest } })) ∧
  (∀ s g i c, g < 8 → i < 256 → (gateGet s g i).tc = some c → c ≤ netNs s →
    ∃ y, y = { gateGet s g i with oper := (gateGet s g i).admin, prev := (gateGet s g i).oper, since := c, tc := none } ∧
      exec (.streamGateSwitch g i) s = .next (gatePut g i y s)) ∧
  (∀ s g i, g < 8 → i < 49152 →
    exec (.meterSweep g i) s = .next (meterPut g i (meterRefill (meterGet s g i) s.tim.cnt s.tim.cnt) s))

/-! ### Buffers, gates, time, redundancy and counters, by themselves -/

/-- A release and a transfer of an owner (R231, R232, R234): one that passes its checks drops or replaces the owner, and
the cell is freed when no owner, or COLLECT alone, is left; one that a check refuses changes no cell. -/
def Obligations.BufferEventsComplete : Prop :=
  (∀ s d req o ptr k c, d < 2 → req < 38 → o < 512 → namesQuarantined s d ptr = false → ptrCheck s d o ptr = .ok k →
    c = cellGet s d (fld ptr 0 19) → c.owners.getLast? ≠ some o → c.owners.erase o ≠ [] → c.owners.erase o ≠ [collectId] →
    exec (.bpmRelease d req o ptr .none) s = .next (cellPut d (fld ptr 0 19)
      { c with owners := c.owners.erase o, ports := c.ports.erase o } s)) ∧
  (∀ s d req o ptr k c, d < 2 → req < 38 → o < 512 → namesQuarantined s d ptr = false → ptrCheck s d o ptr = .ok k →
    c = cellGet s d (fld ptr 0 19) → c.owners = [o] ∨ (c.owners.getLast? ≠ some o ∧ c.owners.erase o = [collectId]) →
    exec (.bpmRelease d req o ptr .none) s = .next (freeCellAt d k (fld ptr 0 19) s)) ∧
  (∀ s d req o ptr k, d < 2 → req < 38 → o < 512 → namesQuarantined s d ptr = false → ptrCheck s d o ptr = .ok k →
    (cellGet s d (fld ptr 0 19)).owners.getLast? = some o → (cellGet s d (fld ptr 0 19)).owners ≠ [o] →
    exec (.bpmRelease d req o ptr .none) s = .next (badFree d bfLastEarly o req false ptr s)) ∧
  (∀ s d req o n ptr k c, d < 2 → req < 38 → o < 512 → n < 512 → ptrCheck s d o ptr = .ok k →
    c = cellGet s d (fld ptr 0 19) → ownerValid s d n = true → n ∉ c.owners → o ∉ c.ports →
    ownerless (swapOwner c o n) = false →
    exec (.bpmTransfer d req o n ptr .none) s = .next (cellPut d (fld ptr 0 19)
      { c with owners := c.owners.map (fun x => if x = o then n else x) } s)) ∧
  (∀ s d req o n ptr k c, d < 2 → req < 38 → o < 512 → n < 512 → ptrCheck s d o ptr = .ok k →
    c = cellGet s d (fld ptr 0 19) → ownerValid s d n = true → n ∉ c.owners → o ∈ c.ports →
    c.owners.length - c.ports.length < 8 → ownerless (swapOwner c o n) = false →
    exec (.bpmTransfer d req o n ptr .none) s = .next (cellPut d (fld ptr 0 19)
      { c with owners := insertBeforeLast (c.owners.erase o) n, ports := c.ports.erase o } s)) ∧
  (∀ s d req o n ptr k, d < 2 → req < 38 → o < 512 → n < 512 → ptrCheck s d o ptr = .ok k →
    ownerValid s d n = false ∨ n ∈ (cellGet s d (fld ptr 0 19)).owners →
    exec (.bpmTransfer d req o n ptr .none) s = .next (badFree d bfBadOwner o req true ptr s))

/-- A port's gate list (R293 to R301): its change time, the start of an entry, a hold, the end of verification. -/
def Obligations.GateEventsComplete : Prop :=
  (∀ s p c, p < 256 → (gatOf s p).tc = some c → (gatOf s p).pending = true → c ≤ netNs s →
    exec (.gateChangeTime p) s = .next (gateSwitch p s)) ∧
  (∀ s p, p < 256 → (gatOf s p).tc = none ∨ (gatOf s p).pending = false → exec (.gateChangeTime p) s = .next s) ∧
  (∀ s p e u, p < 256 → timValid s = true → gateEntryAt s p (netNs s) = some e → u = gateRefresh p s →
    exec (.gateEntryStart p false) s = .next (setGat p { gatOf u p with
      holdClose := false, holdOp := if entryOp e = 2 then false else (gatOf u p).holdOp } u)) ∧
  (∀ s p op1, p < 256 → preemptActive s p = true → timValid s = true → (listAt s p (netNs s)).1.len ≠ 0 →
    exec (.gateHoldAssert p op1) s = .next (setGat p
      (if op1 then { gatOf s p with holdOp := true } else { gatOf s p with holdClose := true }) s)) ∧
  (∀ s p, portExists s p = true → rdBit s (gatPortCfg p) 16 = true →
    exec (.preemptVerifyDone p true) s = .next (gateRefresh p (wrBit (gatPortCfg p) 19 true s))) ∧
  (∀ s p, portExists s p = true → rdBit s (gatPortCfg p) 16 = true →
    exec (.preemptVerifyDone p false) s = .next (raise srcPreemptVerifyFail p 0 0 (wrBit (gatPortCfg p) 19 false s)))

/-- Network time's own events (R283 to R290). -/
def Obligations.TimeEventsComplete : Prop :=
  (∀ s, exec .pllRelockDone s = .next (wrBit timStat 1 true s)) ∧
  (∀ s, rdBit s timStat 2 = true → exec .timeSrcLoss s = .next (raise srcTimeSrcLost 0 0 0
    (wrBit timStat 3 true (wrBit timStat 2 false (wrBit timStat 1 false s))))) ∧
  (∀ s, timeOutsOn s = true →
    (netNanos s + 10 ^ 9 - (rd s timPpsCfg).toNat % 10 ^ 9) % 10 ^ 9 < rdF s timPpsWidth 0 20 * 1000 →
    exec .ppsOutRise s = .next { s with tim := { s.tim with ppsHigh := true } }) ∧
  (∀ s, rdF s timPpsWidth 0 20 * 1000 ≤ (netNanos s + 10 ^ 9 - (rd s timPpsCfg).toNat % 10 ^ 9) % 10 ^ 9 →
    exec .ppsOutFall s = .next { s with tim := { s.tim with ppsHigh := false } }) ∧
  (∀ s, s.tim.discipline = false →
    ∃ t, exec .ppsInEdge s = .next t ∧ rd t timPpsCap = wd (netNanos s) ∧ rd t (timPpsCap + 4) = loW (netSec s) ∧
      rd t (timPpsCap + 8) = hiW (netSec s) ∧ rd t (timPpsCap + 12) = rd s (timPpsCap + 12) + 1 ∧
      t.tim.ppsUnread = true ∧ t.tim.ppsSeen = s.tim.cnt ∧ (s.tim.ppsUnread = true → rdBit t timStat 4 = true) ∧
      ∀ a, a < timPpsCap ∨ timPpsCap + 12 < a → a ≠ timStat → rd t a = rd s a) ∧
  (∀ s, s.tim.discipline = true → s.tim.ppsSeen + 2 * 10 ^ 9 ≤ s.tim.cnt →
    exec .ppsInTimeout s = .next (raise srcTimePpsLost 0 0 0 s)) ∧
  (∀ s, rdBit s timStat 5 = true → exec .slewComplete s = .next (wr timSlewLeft
    (wd (unsgn 32 (s.tim.slewLeft.tdiv (10 ^ 9)))) (if s.tim.slewLeft = 0 then wrBit timStat 5 false s else s))) ∧
  (∀ s, rdBit s timStat 5 = false → exec .slewComplete s = .next s)

/-- Recovery functions and duplicate discard (R325, R326, R329), sampling of queues (R270 to R272), dumps (R497 to R504),
slots and overflow sampling (R509, R511, R515). -/
def Obligations.CounterEventsComplete : Prop :=
  (∀ s d f x, d < 2 → f < 4096 → rcvGet s d f = x → rEn x = true → rResetMs x ≠ 0 →
    x.timer + rResetMs x * 10 ^ 6 ≤ s.tim.cnt →
    exec (.recoveryResetTimeout d f) s = .next (raise srcFreRcvReset (4096 * d + f) 0 0
      (rcvPut d f { rcvGet (rcvReset d f s) d f with timer := s.tim.cnt } (rcvReset d f s)))) ∧
  (∀ s d f x u, d < 2 → f < 4096 → rcvGet s d f = x → rEn x = true → rLatEn x = true →
    x.latAt + rLatPeriod x * 10 ^ 6 ≤ s.tim.cnt → u = rcvPut d f { x with latAt := s.tim.cnt } s →
    exec (.latentTestPeriod d f) s = .next (if rLatDiff x < ((x.p : Int) * ((rPaths x : Int) - 1) - x.d).natAbs
      then raise srcFreLatent (4096 * d + f) 0 0 (bumpRcv d f rcLatent 1 u) else u)) ∧
  (∀ s d f x, d < 2 → f < 4096 → rcvGet s d f = x → rEn x = true → rLatEn x = true →
    x.latZero + rLatReset x * 10 ^ 7 ≤ s.tim.cnt →
    exec (.latentResetPeriod d f) s = .next
      (rcvPut d f { x with p := 0, d := 0, latAt := s.tim.cnt, latZero := s.tim.cnt } s)) ∧
  (∀ s d b, d < 2 → b < 4096 →
    exec (.dupEntryReclaim d b) s = .next (dupPut d b ((dupGet s d b).filter (dupAlive s d)) s)) ∧
  (∀ s d g level first, d < 2 → g < 8 → rdF s (sampCfg d g) 20 2 = level → level ≠ 3 →
    rdF s (sampRange d g) 0 18 = first → rdF s (sampCfg d g) 0 20 ≠ 0 → rdF s (sampRange d g) 18 14 ≠ 0 →
    (sampGet s d g).members = [] → (sampGet s d g).next ≤ s.tim.cnt → 36 ∉ s.col.stopped →
    exec (.sampleBoundary d g) s = .next (sampPut d g ⟨level, (List.range (min (first + rdF s (sampRange d g) 18 14)
      (levelTop level) - first)).map (first + ·), nextSample (sampGet s d g).next s.tim.cnt (rdF s (sampCfg d g) 0 20)⟩ s)) ∧
  (∀ s d g, d < 2 → g < 8 → rdF s (sampCfg d g) 20 2 ≠ 3 → rdF s (sampCfg d g) 0 20 ≠ 0 →
    rdF s (sampRange d g) 18 14 ≠ 0 → (sampGet s d g).members ≠ [] → (sampGet s d g).next ≤ s.tim.cnt →
    36 ∉ s.col.stopped → exec (.sampleBoundary d g) s = .next (sampPut d g { sampGet s d g with
      next := nextSample (sampGet s d g).next s.tim.cnt (rdF s (sampCfg d g) 0 20) } (inc (schCnt d cSampSkip) s))) ∧
  (∀ s d g, d < 2 → g < 8 → s.tim.cnt < (sampGet s d g).next → exec (.sampleBoundary d g) s = .next s) ∧
  (∀ s d g i rest u, d < 2 → g < 8 → (sampGet s d g).members = i :: rest → hasSlot s (schMem d) 1 = true →
    u = sampPut d g { sampGet s d g with members := rest } (charge (schMem d) 1 1 s) →
    exec (.sampleMemberRead d g) s = .next (postSample (pmcQring d) (pmcQsampLost d)
      (sampleRecord s d g (sampGet s d g).level i) u)) ∧
  (∀ s k p b, k < 11 → setPeriod s k = p → p ≠ 0 → timValid s = true → b = ((setSt s k).mark / p + 1) * p →
    boundaryDue s k = (if b ≤ netNs s then some (b, s.tim.cnt) else none)) ∧
  (∀ s k ns c u, k < 11 → boundaryDue s k = some (ns, c) → (setSt s k).pend = [] →
    u = putSetSt k { setSt s k with mark := ns, base := c } s → exec (.dumpBoundary k) s = .next (latch k ns u)) ∧
  (∀ s k ns c u, k < 11 → boundaryDue s k = some (ns, c) → (setSt s k).pend ≠ [] →
    u = putSetSt k { setSt s k with mark := ns, base := c } s →
    exec (.dumpBoundary k) s = .next (raise srcDumpOverrun 0 0 0 (inc (pmcBase + 0x440 + 4 * k)
      (putSetSt k { setSt u k with skipped := (setSt u k).skipped + 1 } u)))) ∧
  (∀ s k, k < 11 → boundaryDue s k = none → exec (.dumpBoundary k) s = .next s) ∧
  (∀ s k x r, k < 11 → setSt s k = x → x.pend ≠ [] → x.owes = [] → rdBit s (dumpRing s k + 8) 1 = false →
    r = ringPost (dumpRing s k) 1024 (x.pend.length / 16) x.pend s → r.1 = true →
    exec (.dumpWrite k none) s = .next
      (keepDump k x.pend (putSetSt k { x with pend := [], loss := false, prev := x.pend } r.2))) ∧
  (∀ s n, n < 32 → slotDue s n = true → tget false s.path.took n = true →
    ∃ u, u = add64 (slotReg n 0) 1 s ∧ exec (.slotElapse n) s = .next (ovfEvent n 0 (add64 (slotReg n 1) 1
      { u with path := { u.path with took := tset false u.path.took n false } }))) ∧
  (∀ s n, n < 32 → slotDue s n = true → tget false s.path.took n = false → 0 < tget 0 s.path.wasted n →
    ∃ u, u = add64 (slotReg n 0) 1 s ∧ exec (.slotElapse n) s = .next (ovfEvent n 1 (add64 (slotReg n 2) 1
      { u with path := { u.path with wasted := tmod 0 u.path.wasted n (· - 1) } }))) ∧
  (∀ s n, n < 32 → slotDue s n = true → tget false s.path.took n = false → tget 0 s.path.wasted n = 0 →
    exec (.slotElapse n) s = .next
      (if ((fifoHead s n).isSome && !pipTakes s n) || enqHeld s n
       then ovfEvent n 3 (add64 (slotReg n 4) 1 (add64 (slotReg n 0) 1 s))
       else ovfEvent n 2 (add64 (slotReg n 3) 1 (add64 (slotReg n 0) 1 s)))) ∧
  (∀ s n, n < 32 → slotDue s n = false → exec (.slotElapse n) s = .next s) ∧
  (∀ s n u, n < 32 → rdBit s pmcTagCfg 24 = true → rdBit s (pmcOvf n 0) 27 = true →
    max 1 (rdF s (pmcOvf n 0) 0 24) ≤ rdF s (pmcOvf n 4) 0 24 →
    u = emit (.irqMp (pmcOvf n 0)) (wrF (pmcOvf n 4) 0 24 0 s) → rdBit u (pmcOvf n 0x10) 31 = false →
    exec (.ovfCountReached n) s = .next
      { u with path := { u.path with capNext := u.path.capNext.filter (· ≠ n) ++ [n] } })

/-! ### Field inputs and outputs, and the cascade, by themselves (R335 to R357, R374 to R381) -/

/-- The field input and output unit's own events: a transition, the end of a filter, a pulse's end, a readback that
differs, a trigger from a packet, a time event, the repetition and heartbeat of a publication. -/
def Obligations.FieldEventsComplete : Prop :=
  (∀ s i pin x, i < 32 → fiOf s i = x → x.pin ≠ pin → fiFilt s i ≠ 0 → fioStopped s = false →
    ∃ y, y = { x with pin := pin, first := if x.first.isSome then x.first else some (netNs s), moves := x.moves + 1,
                      since := s.tim.cnt } ∧
      exec (.fiTransition i pin) s = .next (wrBit fioFiRaw i (pin != fiInv s i) (setFi i y s))) ∧
  (∀ s i pin, i < 32 → (fiOf s i).pin = pin → exec (.fiTransition i pin) s = .next s) ∧
  (∀ s i pin, i < 32 → (fiOf s i).pin ≠ pin → fioStopped s = true →
    exec (.fiTransition i pin) s = .next (setFi i { fiOf s i with pin := pin } s)) ∧
  (∀ s i, i < 32 → fioStopped s = true ∨ s.tim.cnt < (fiOf s i).since + fiFilt s i →
    exec (.fiFilterExpiry i) s = .next s) ∧
  (∀ s i x, i < 32 → fiOf s i = x → x.acc = none → fioStopped s = false → x.since + fiFilt s i ≤ s.tim.cnt →
    exec (.fiFilterExpiry i) s = .next (wrBit fioFiStat i (fiLogical s i)
      (setFi i { x with acc := some (fiLogical s i), first := none, moves := 0 } s))) ∧
  (∀ s i x, i < 32 → fiOf s i = x → x.acc = some (fiLogical s i) → fioStopped s = false →
    x.since + fiFilt s i ≤ s.tim.cnt →
    exec (.fiFilterExpiry i) s = .next (setFi i { x with first := none, moves := 0 } s)) ∧
  (∀ s i x a, i < 32 → fiOf s i = x → x.acc = some a → fiLogical s i ≠ a → fioStopped s = false →
    x.since + fiFilt s i ≤ s.tim.cnt →
    exec (.fiFilterExpiry i) s = .next (acceptEdge i (fiLogical s i) (x.first.getD (netNs s)) (decide (1 < x.moves)) s)) ∧
  (∀ s j, j < 16 → (foOf s j).pulse = true → (foOf s j).ends ≤ s.tim.cnt →
    exec (.foPulseExpiry j) s = .next (foRefresh j 6 (setFo j { foOf s j with state := false, pulse := false } s))) ∧
  (∀ s j, j < 16 → (foOf s j).pulse = false ∨ s.tim.cnt < (foOf s j).ends → exec (.foPulseExpiry j) s = .next s) ∧
  (∀ s j pin, j < 16 → rdBit s (foCfg j) 27 = true → pin ≠ (foOf s j).level → rdBit s fioFoStat (16 + j) = false →
    exec (.foReadbackTimeout j pin) s = .next (raise srcFioFoMismatch j 10 (32 + j)
      (wrBit fioFoStat (16 + j) true (inc (fioCnt fcMismatch) s)))) ∧
  (∀ s, fioStopped s = true → exec .packetTriggerApply s = .next s) ∧
  (∀ s pin op rest, s.fio.trig = (pin, op) :: rest → fioStopped s = false →
    exec .packetTriggerApply s = .next (foOp pin op 1 { s with fio := { s.fio with trig := rest } })) ∧
  (∀ s i x, i < 64 → tevOf s i = x → x.en = true → timValid s = true → x.next ≤ netNs s → x.period = 0 →
    exec (.timeEventFire i) s = .next (foOp x.pin x.op 2 (setTev i { x with en := false } (incBy (fioCnt fcTeSkip) 0 s)))) ∧
  (∀ s i x k, i < 64 → tevOf s i = x → x.en = true → timValid s = true → x.next ≤ netNs s → x.period ≠ 0 →
    k = (netNs s - x.next) / x.period →
    exec (.timeEventFire i) s = .next (foOp x.pin x.op 2
      (setTev i { x with next := x.next + (k + 1) * x.period } (incBy (fioCnt fcTeSkip) k s)))) ∧
  (∀ s j x n due, j < 8 → pubOf s j = x → x.interval ≠ 0 → pubFormat x ≠ 0 → due = x.sentAt + x.interval * 1000 →
    due ≤ s.tim.cnt → n = 2 * x.interval →
    exec (.pubRepetition j) s = .next (pubFrames j true (setPub j { x with
      sqNum := wrapOne x.sqNum, interval := if n < pubLimit x then n else 0,
      beats := !decide (n < pubLimit x) && decide (pubT0 x ≠ 0), sentAt := due } s))) ∧
  (∀ s j, j < 8 → (pubOf s j).interval = 0 ∨ s.tim.cnt < (pubOf s j).sentAt + (pubOf s j).interval * 1000 →
    exec (.pubRepetition j) s = .next s) ∧
  (∀ s j x due, j < 8 → pubOf s j = x → x.beats = true → pubFormat x ≠ 0 → due = x.sentAt + pubT0 x * 10 ^ 6 →
    due ≤ s.tim.cnt →
    exec (.pubHeartbeat j) s = .next (pubFrames j true (setPub j { x with sqNum := wrapOne x.sqNum, sentAt := due } s))) ∧
  (∀ s j, j < 8 → (pubOf s j).beats = false ∨ s.tim.cnt < (pubOf s j).sentAt + pubT0 (pubOf s j) * 10 ^ 6 →
    exec (.pubHeartbeat j) s = .next s)

/-- The cascade's timers and the taking of a control frame. -/
def Obligations.CascadeEventsComplete : Prop :=
  (∀ s m u, casRuns s = true → s.path.mpRx.find? (·.ctrl) = some m → readCtl m = none →
    u = (release m.die 34 290 m.ptr { s with path := { s.path with mpRx := s.path.mpRx.erase m } }).2 →
    exec .controlFrameReceive s = .next (runWaiting (inc (casCnt ccBadTag) u))) ∧
  (∀ s m c u, casRuns s = true → s.path.mpRx.find? (·.ctrl) = some m → readCtl m = some c → c.kind < 4 →
    u = (release m.die 34 290 m.ptr { s with path := { s.path with mpRx := s.path.mpRx.erase m } }).2 →
    exec .controlFrameReceive s = .next (runWaiting (takeJoin c u))) ∧
  (∀ s m c u, casRuns s = true → s.path.mpRx.find? (·.ctrl) = some m → readCtl m = some c → 4 ≤ c.kind →
    u = (release m.die 34 290 m.ptr { s with path := { s.path with mpRx := s.path.mpRx.erase m } }).2 →
    exec .controlFrameReceive s = .next (runWaiting (takeAuth sessionWords c u))) ∧
  (∀ s i q, s.cas.frags[i]? = some q → exec (.fragmentTimeout i) s = .next
    (if q.time + 10 ^ 7 ≤ s.tim.cnt then { s with cas := { s.cas with frags := s.cas.frags.eraseIdx i } } else s)) ∧
  (∀ s, casRuns s = true → isWorker s = true → s.cas.join = true → s.cas.helloNext ≤ s.tim.cnt → ownDevice s ≠ 0 →
    (relayPorts s 256).any (portUp s) = true → partnerSess s 0 = none →
    exec .joinHelloTimer s = .next (sendHello s)) ∧
  (∀ s, casRuns s = false ∨ isWorker s = false ∨ s.cas.join = false ∨ s.tim.cnt < s.cas.helloNext →
    exec .joinHelloTimer s = .next s) ∧
  (∀ s k x, casRuns s = true → upSess s k = some x → exec (.keepaliveTimer k) s = .next
    (if x.lastTx + keepaliveNs s ≤ s.tim.cnt then sendOn k 6 [] s else s)) ∧
  (∀ s k x, rdF s casTiming 16 4 ≠ 0 → upSess s k = some x → isWorker s = true →
    x.lastRx + rdF s casTiming 16 4 * keepaliveNs s ≤ s.tim.cnt →
    exec (.sessionLossTimeout k) s = .next (raise srcCasMgrLost 0 0 0 (wrBit casStat sbMgrLost true (closeSession k s)))) ∧
  (∀ s k x u, rdF s casTiming 16 4 ≠ 0 → upSess s k = some x → isWorker s = false →
    x.lastRx + rdF s casTiming 16 4 * keepaliveNs s ≤ s.tim.cnt → u = closeSession k s →
    exec (.sessionLossTimeout k) s = .next { u with cas := { u.cas with
      lost := (u.cas.lost ++ [x.device]).drop (u.cas.lost.length - 255) } }) ∧
  (∀ s k x, upSess s k = some x → rdF s casTiming 16 4 = 0 ∨
      s.tim.cnt < x.lastRx + rdF s casTiming 16 4 * keepaliveNs s → exec (.sessionLossTimeout k) s = .next s) ∧
  (∀ s k x, casRuns s = true → isManager s = true → upSess s k = some x →
    exec (.sessionRekeyTimer k) s = .next (sendCert x.device x.number (x.talk.headD []) x.tagVer x.port s))

/-! ### Faults, units, and the start, by themselves -/

/-- Errors that the hardware finds, the sample that takes the sources raised, and what follows for units (R33 to R35,
R461, R474, R484 to R490). -/
def Obligations.FaultEventsComplete : Prop :=
  (∀ s p q n u, p < 32 → q < 32 → 0 < n → n < 16 → u = bump 97 (pipBase p / 65536) 0 32 1 s →
    exec (.channelWordRefusal ⟨pipBase p / 65536, none⟩ n) s = .next u ∧
    exec (.channelWordRefusal ⟨pipBase p / 65536, some q⟩ n) s = .next
      { u with path := { u.path with wasted := tmod 0 u.path.wasted q (· + 1) } }) ∧
  (∀ s p u, p < 32 → u = bump 97 (pipBase p / 65536) 0 32 1 s →
    exec (.channelWordRefusal ⟨pipBase p / 65536, none⟩ 16) s = .next (raise srcChanStuck 0 1 p u)) ∧
  (∀ s d, d < 2 → exec (.channelWordRefusal ⟨sadBase d / 65536, none⟩ 16) s =
    .next (raise srcSaddleStuck 0 0 0 (wrBit (sadBase d) 2 true (inc (sadBase d + 4) s)))) ∧
  (∀ s d n, d < 2 → n ≤ 64 → exec (.saddleLaneRealign d n) s =
    .next (raise srcSaddleDeskew 0 0 0 (inc (sadBase d + 8) (incBy (sadBase d + 4) n s)))) ∧
  (∀ s, exec .saddleMgmtWatchdog s = .next (raise srcSaddleMgmtLoss 0 0 0 s)) ∧
  (∀ s, fwStage s ≠ 0 → s.fcl.hold ≠ 5 → fwRestored s = true →
    ∃ u, u = raise srcMpWatchdog 0 6 0 s ∧ exec .mpWatchdogExpiry s =
      .next (domainReset 35 (firmwareDown { u with start := { u.start with restarting := true } }))) ∧
  (∀ s n addr kind idx, n < 112 → addr < 2 ^ 32 → unitNamed kind idx = true → n ≠ srcThermWarn →
    exec (.hardwareErrorEvent (.source n addr kind idx)) s = .next (raise n addr kind idx s)) ∧
  (∀ s g i, g < 8 → i < 32768 → exec (.hardwareErrorEvent (.pivotFlip g i)) s =
    .next { s with glens := { s.glens with pivotBad := tset false s.glens.pivotBad (key g i) true } }) ∧
  (∀ s n, n < 34 → exec (.contextHangWatchdog srcPipeHang n) s = .next (raise srcPipeHang 0 1 n s)) ∧
  (∀ s g, g < 8 → exec (.contextHangWatchdog srcGlnHang g) s = .next (raise srcGlnHang 0 2 g s)) ∧
  (∀ s, s.fcl.raised = [] → exec .faultSample s = .next { s with fcl := { s.fcl with
    windows := s.fcl.windows.filter (fun w => decide (s.tim.cnt < w.ends)) } }) ∧
  (∀ s r ws u, s.fcl.raised = [r] → r.src < 112 → rdBit s (fclSrcCfg r.src) 8 = false →
    ws = s.fcl.windows.filter (fun w => decide (s.tim.cnt < w.ends)) →
    u = inc (fclCnt r.src) { s with fcl := { s.fcl with raised := [], windows := ws } } →
    exec .faultSample s = .next (takeSource r (false, false, u)).2.2) ∧
  (∀ s i w, s.fcl.windows[i]? = some w → exec (.faultWindowExpiry i) s = .next
    (if w.ends ≤ s.tim.cnt then { s with fcl := { s.fcl with windows := s.fcl.windows.eraseIdx i } } else s)) ∧
  (∀ s k, fwUp s = true → k = s.fcl.kept ++ s.fcl.log →
    exec .faultLogDrain s = .next (showLog { s with fcl := { s.fcl with log := [], kept := k.drop (k.length - 64) } })) ∧
  (∀ s kind idx, unitNamed kind idx = true → kind ≠ 1 → (unitOf s kind idx).state = 1 →
    exec (.unitDrainComplete kind idx) s = .next (setBoth kind idx 2 s)) ∧
  (∀ s idx, idx < 32 → (unitOf s 1 idx).state = 1 → spareServes s idx = false →
    inContexts (indexOf s idx) s = ([], []) ∨ (unitOf s 1 idx).since + 10 ^ 6 ≤ s.tim.cnt →
    exec (.unitDrainComplete 1 idx) s = .next (isolatePip idx s)) ∧
  (∀ s idx, idx < 34 → (unitOf s 1 idx).state = 1 → spareServes s idx = false → inContexts (indexOf s idx) s ≠ ([], []) →
    s.tim.cnt < (unitOf s 1 idx).since + 10 ^ 6 → exec (.unitDrainComplete 1 idx) s = .next s) ∧
  (∀ s idx, idx < 34 → (unitOf s 1 idx).state = 3 →
    ∃ y, y = { unitOf s 1 idx with state := 2, pass := true, fail := false } ∧
      exec (.unitTestComplete 1 idx true) s = .next (showUnit 1 idx (setUnit 1 idx y s))) ∧
  (∀ s, exec .thermNRelease s =
    .next (wrBit glbStatus sbTherm false { s with start := { s.start with thermHot := false } })) ∧
  (∀ s n, n < 32 → n ∈ s.fcl.rehome → fwUp s = true → spareFree s (n / 16) = true →
    exec (.spareTakeover n) s = .next (takeover n s)) ∧
  (∀ s idx, (unitOf s 4 idx).inReset = true → exec (.blockResetRelease 4 idx) s =
    .next (domainReleased idx (islService true (setUnit 4 idx { unitOf s 4 idx with inReset := false } s)))) ∧
  (∀ s kind idx, (unitOf s kind idx).inReset = false → exec (.blockResetRelease kind idx) s = .next s)

/-- Supplies, RESET_N and the start's steps (R449 to R466, R540, R551); frames on the Primrose ring (R445). -/
def Obligations.StartEventsComplete : Prop :=
  (∀ s straps u, s.start.rails = false → s.start.inReset = false →
    u = afterReset false straps { s with col := { s.col with stopped := [] } } →
    exec (.vinGood straps) s = .next (startAt 0 ((fun t : State => { t with
      start := { t.start with rails := true, alive := true, inReset := false, reached := false, thermHot := false },
      bus := { t.bus with smbAddr := none, smbStatus := 0 } }) u))) ∧
  (∀ s, exec .vinLowDetect s = .next (raise srcVinLow 0 0 0 s)) ∧
  (∀ s, exec .vinHighDetect s = .next (raise srcVinHigh 0 0 0 s)) ∧
  (∀ s, s.start.rails = true → ∃ t, exec .vinRailShutdown s = .next t ∧ t.start.rails = false ∧ t.start.step = 0 ∧
    t.start.reached = false ∧ rdBit t glbStatus sbFault = true ∧ fwUp t = false) ∧
  (∀ s, s.start.rails = true → ∃ t, exec .vinOvervoltage s = .next t ∧ t.start.rails = false ∧ t.start.step = 0) ∧
  (∀ s, s.start.rails = true → ∃ t, exec .thermalShutdown s = .next t ∧ t.start.rails = false ∧ t.start.step = 0) ∧
  (∀ s, ∃ t, exec .vinLoss s = .next t ∧ t.start.alive = false ∧ t.start.rails = false ∧
    ∀ q ∈ t.fio.outs, q.2.level = false) ∧
  (∀ s w, s.start.rails = true → s.start.inReset = false → ∃ t, exec (.resetNAssert w) s = .next t ∧
    t.start.inReset = true ∧ t.start.warmLow = w ∧ t.start.step = 0 ∧ fwUp t = false) ∧
  (∀ s straps warm kept w, s.start.inReset = true → s.start.rails = true →
    w = (warm && s.start.warmLow && kept && s.shadow.any && s.start.reached) →
    ∃ t, exec (.resetNDeassert straps warm kept) s = .next t ∧ t.start.inReset = false ∧ t.start.step = 2 ∧
      t.start.kind = b2n w ∧ t.pending = s.pending) ∧
  (∀ s c, 1 ≤ c → c ≤ 8 → c ≠ 3 → c ≠ 4 → startRuns s = true → causeFits s c = true →
    exec (.startStepOverrun c) s = .next (startFail s.start.step c s)) ∧
  (∀ s, exec .peonyHoldTimer s = .next (if s.start.step = 10 ∧ s.start.began + 60 * 10 ^ 9 ≤ s.tim.cnt
    then { s with start := { s.start with fails := [] } } else s)) ∧
  (∀ s r u, startRuns s = true → s.start.step = 8 → s.start.kind = 0 →
    overrun s (storedOk s 0 r.celsius && storedOk s 1 r.celsius) = false →
    u = wrBit (sadBase 0) 1 r.westUp (wrBit glbStatus sbWestUp r.westUp s) →
    exec (.startStepDone r) s = .next (runWaiting (islService false (goStep 9 (enterAster (clearTables u)))))) ∧
  (∀ s r u, startRuns s = true → s.start.step = 9 →
    overrun s (storedOk s 0 r.celsius && storedOk s 1 r.celsius) = false →
    u = restoreAll (wrBit (sadBase 0) 1 r.westUp (wrBit glbStatus sbWestUp r.westUp s)) →
    exec (.startStepDone r) s = .next (runWaiting (islService false
      (if rdBit u glbStatus sbWestUp = true then enterPeony u else startFail 9 8 u)))) ∧
  (∀ s r, startRuns s = true → s.start.step ≠ 2 →
    overrun s (storedOk s 0 r.celsius && storedOk s 1 r.celsius) = true →
    exec (.startStepDone r) s = .next (runWaiting (startFail s.start.step 1
      (wrBit (sadBase 0) 1 r.westUp (wrBit glbStatus sbWestUp r.westUp s))))) ∧
  (∀ s, s.start.restarting = true → exec .firmwareRestart s = .next (runWaiting (restartEnd s))) ∧
  (∀ s p bytes good, ringPort p = true → 14 ≤ bytes.length → primrosePort s p = true → s.start.plan = true →
    portUp s p = true → exec (.primroseFrame p bytes good) s = .next (ringFrame p bytes good s))

/-- The security unit's own events (R526 to R532). -/
def Obligations.SecurityEventsComplete : Prop :=
  (∀ s, rdBit s secBase sbNonceValid = true → s.sec.nonceAt + 60 * 10 ^ 9 ≤ s.tim.cnt →
    ∃ t, exec .nonceLapse s = .next t ∧ rdBit t secBase sbNonceValid = false ∧ ∀ w < 8, rd t (secNonce w) = 0) ∧
  (∀ s, rdBit s secBase sbNonceValid = false ∨ s.tim.cnt < s.sec.nonceAt + 60 * 10 ^ 9 →
    exec .nonceLapse s = .next s) ∧
  (∀ s, rdBit s secBase sbLockout = true → s.sec.lockAt + 60 * 10 ^ 9 ≤ s.tim.cnt →
    exec .lockoutEnd s = .next (wrBit secBase sbLockout false s)) ∧
  (∀ s, rdBit s secBase sbLockout = false ∨ s.tim.cnt < s.sec.lockAt + 60 * 10 ^ 9 → exec .lockoutEnd s = .next s) ∧
  (∀ s, dbgUnlocked s = true → s.sec.unlockEnd ≤ s.tim.cnt → exec .unlockExpiry s = .next (debugLock s)) ∧
  (∀ s, dbgUnlocked s = false ∨ s.tim.cnt < s.sec.unlockEnd → exec .unlockExpiry s = .next s) ∧
  (∀ s ws r, r = spdmExchange 0 ws s → exec (.spdmDoeRequest ws) s = .next (emit (.doe r.1) r.2))

/-! ### The queue, the stops, reset -/

/-- With a command at the front of the queue, a step is that command with the queue's rest. -/
def Obligations.StepTakesFront : Prop :=
  ∀ s c rest, s.pending = c :: rest → step s = exec c { s with pending := rest }

/-- On an empty queue one cycle of the network-time domain's 1 GHz clock passes, none while that clock is stopped; network
time counts 1 ns and the rate adjustment of R281, and wraps at 2^48 seconds.  A budget period that is due begins before it,
and after it what waits for firmware, the field unit and the identity unit's timers is served.  That a tick passes there is
the model's choice (log entry 2). -/
def Obligations.EmptyQueueTicks : Prop :=
  (∀ s, s.pending = [] →
    step s = .next (fwWork (sampleMode (mpqTake (fioDrain (secService (idle (periodService s)))))))) ∧
  (∀ s, 36 ∈ s.col.stopped → idle s = s) ∧
  (∀ s n, 36 ∉ s.col.stopped → rdBit s timStat 5 = false →
    n = (s.tim.now : Int) + 2 ^ 48 + (sgn 32 (rd s timRateAdj).toNat * 2 ^ 32 + (s.tim.rateRem : Int)) / 10 ^ 9 →
    (idle s).tim.cnt = s.tim.cnt + 1 ∧ ((idle s).tim.now : Int) = n % (timeSpan : Int) ∧ ∀ a, rd (idle s) a = rd s a)

/-- Nothing is refused: every command answers a next state, or stops because an operand names nothing the spec has; and a
mailbox command of the catalogue stops only for a frame that no mailbox can hold (log entry 3). -/
def Obligations.NoCommandIsRefused : Prop :=
  (∀ c s, (∃ t, exec c s = .next t) ∨ exec c s = .fault .illFormed) ∧
  (∀ q ∈ commandRows, ∀ f s, (∃ t, exec (q.2 f) s = .next t) ↔ f.wf = true)

/-- What reset leaves: every register at the value its table gives, no command waiting, network time 0 and not valid, no
firmware, no session, empty tables.  The registers without a value in the spec, and the straps, are the model's choice
(log entries 4 and 5). -/
def Obligations.ResetLeaves : Prop :=
  (∀ a, rd State.reset a = resetOf a) ∧ canonical resetOf State.reset.regs = true ∧ State.reset.pending = [] ∧
  netNs State.reset = 0 ∧ timValid State.reset = false ∧ fwUp State.reset = false ∧
  (∀ m, tget ⟨0, 0, 0⟩ State.reset.mbx.sess m = ⟨0, 0, 0⟩) ∧ (∀ g i, (ruleGet State.reset g i).valid = false) ∧
  (∀ p, portExists State.reset p = true ↔ p = 7 ∨ p = 135) ∧
  rd State.reset pwiTiming = 0x020A1408 ∧ rd State.reset fclCfg = 0x00010014 ∧
  (∀ g < 8, rd State.reset (glnBase g + 0x10008) = 0xFFFFFFFF ∧ rd State.reset (glnBase g + 0x10010) = 0x020003E8) ∧
  (∀ i < islCount, rd State.reset (islCfg i) = 0x00103C00 ∧ rd State.reset (islStat i) = 0x03200028)

/-- The register file keeps its canonical form: the addresses listed rise, and no register is listed at its reset value. -/
def Obligations.RegistersStayCanonical : Prop :=
  ∀ s t, canonical resetOf s.regs = true → step s = .next t → canonical resetOf t.regs = true
/-! ### Frames and the checks common to all commands (R388 to R395) -/

/-- A well-formed frame is read from its words as it was written, every header field and payload word; and the catalogue
finds each command's own row at its opcode, no two commands having one opcode. -/
def Obligations.FramesReadBack : Prop :=
  (∀ op f, op < 65536 → f.wf = true → frameOf f.mb f.partner (frameWords op f) = (op, f)) ∧
  (∀ q ∈ commandRows, ∃ body, findCommand q.1.op = some (q.1, body) ∧
    ∀ f s, f.wf = true → exec (q.2 f) s = .next (sendResponses (mailboxCommand q.1 body f s))) ∧
  (commandRows.map (fun q => q.1.op)).Nodup

/-- The header's checks come in the order of R390: format, session, version, standing; the first that fails gives the
status, and the command's mailbox is answered with it, the command changing nothing. -/
def Obligations.HeaderChecksRefuse : Prop :=
  (∀ ci f s, formatBad ci f = true → headerFault ci f s = some eFormat) ∧
  (∀ ci f s, formatBad ci f = false → ci.op ≠ 0 → (sessOf s f).number = 0 ∨ f.session ≠ (sessOf s f).number →
    headerFault ci f s = some eNoSession) ∧
  (∀ ci f s, formatBad ci f = false → ci.op ≠ 0 → (sessOf s f).number ≠ 0 → f.session = (sessOf s f).number →
    (sessOf s f).agreed < ci.ver → headerFault ci f s = some eVersion) ∧
  (∀ ci f s, formatBad ci f = false →
    (ci.op = 0 ∨ (sessOf s f).number ≠ 0 ∧ f.session = (sessOf s f).number ∧ ci.ver ≤ (sessOf s f).agreed) →
    admitted ci s f = false → headerFault ci f s = some ePriv) ∧
  (∀ ci f s, formatBad ci f = false →
    (ci.op = 0 ∨ (sessOf s f).number ≠ 0 ∧ f.session = (sessOf s f).number ∧ ci.ver ≤ (sessOf s f).agreed) →
    admitted ci s f = true → ci.write = true → f.mb = 2 → casActive s ≠ f.partner → headerFault ci f s = some eStandby) ∧
  (∀ q ∈ commandRows, ∀ f s st, f.wf = true → carries f s = true → lockedOut s (mbKey f) q.1.op = false →
    headerFault q.1 f s = some st →
    Answers q.1 (q.2 f) f s (fun b => err st 0 b)) ∧
  (∀ op c f s r, findCommand op = some c → r = firmwareRun c.1 c.2 f s → 0x10 ≤ r.status → later r.status = false →
    r.status ≠ eAuth → r.st = s)

/-- A mailbox that cannot take a command says so and executes nothing: BUSY sets WR_BUSY and DB_REFUSED (R393), a full
command ring RING_ERR (R394), and a ninth command of an MB2 session is answered with E_BUSY (R395). -/
def Obligations.CrowdedMailboxesRefuse : Prop :=
  (∀ q ∈ commandRows, ∀ f s, f.wf = true → f.mb ≠ 2 → mbRing s f.mb = false → mbBusy s f.mb = true →
    exec (q.2 f) s = .next (sendResponses
      (wrBit (mbxReg f.mb mbxStatOff) 2 true (wrBit (mbxReg f.mb mbxStatOff) 3 true s)))) ∧
  (∀ q ∈ commandRows, ∀ f s, f.wf = true → f.mb ≠ 2 → mbRing s f.mb = true → mbRingSize s f.mb ≤ cmdWaiting s f.mb →
    exec (q.2 f) s = .next (sendResponses (wrBit (mbxReg f.mb mbxStatOff) 5 true s))) ∧
  (∀ q ∈ commandRows, ∀ f s, f.wf = true → f.mb = 2 → 8 ≤ (mb2Of s f.partner).length →
    ∃ u, exec (q.2 f) s = .next (sendResponses u) ∧ Same s u ∧ u.mbx.mb2 = s.mbx.mb2 ∧
      u.cas.resp = s.cas.resp ++ [(f.partner, replyWords q.1.op f (err eBusy 0 s))])

/-! ### Rules of the register interface -/

/-- A bus error leaves every register unchanged but its count and its capture (R424): it counts for its master, raises
REG_BUS_ERR with the address, the master and the kind of access, and the first since VALID was cleared is captured with its
REASON. -/
def Obligations.BusErrorsLeaveRegisters : Prop :=
  (∀ s m a be v r, m ≤ 4 → a % 4 = 0 → a < 2 ^ 32 → be < 16 → busTarget s m a (be == 15) = .error r →
    ∃ t, exec (.registerWrite m a be v) s = .next t ∧
      (∀ x, x ≠ glbBase + 0x60 + 4 * m → x ≠ glbCapAddr → x ≠ glbCapInfo → rd t x = rd s x) ∧
      rdF t (glbBase + 0x60 + 4 * m) 0 32 = min (2 ^ 32 - 1) (rdF s (glbBase + 0x60 + 4 * m) 0 32 + 1) ∧
      t.fcl.raised = s.fcl.raised ++ [⟨srcRegBusErr, a, 0, 0, m, 2, false⟩] ∧
      (rdBit s glbCapInfo 31 = true → rd t glbCapAddr = rd s glbCapAddr ∧ rd t glbCapInfo = rd s glbCapInfo) ∧
      (rdBit s glbCapInfo 31 = false → rd t glbCapAddr = wd (a % 2 ^ 26) ∧
        rdF t glbCapInfo 0 3 = r ∧ rdF t glbCapInfo 3 3 = m ∧ rdBit t glbCapInfo 6 = true ∧ rdBit t glbCapInfo 31 = true) ∧
      t.bus.staged = s.bus.staged) ∧
  (∀ s m a full, m ≠ 2 → decodeAddr a = none → busTarget s m a full = .error reasonOutside) ∧
  (∀ s m a b off full, m ≠ 2 → decodeAddr a = some (b, off) → blockHeld s a b = true →
    busTarget s m a full = .error reasonReset) ∧
  (∀ s m a b off full, m ≠ 2 → decodeAddr a = some (b, off) → blockHeld s a b = false → partnerAway s b = true →
    busTarget s m a full = .error reasonPartner) ∧
  (∀ s m a b off full, m ≠ 2 → decodeAddr a = some (b, off) → blockHeld s a b = false → partnerAway s b = false →
    findReg (blockRegs b) off = none → busTarget s m a full = .error reasonUnlisted) ∧
  (∀ s m a b off d i j, m ≠ 2 → decodeAddr a = some (b, off) → blockHeld s a b = false → partnerAway s b = false →
    findReg (blockRegs b) off = some (d, i, j) → busTarget s m a false = .error reasonPartial ∧
      busTarget s m a true = .ok ⟨a, b, d, i, j⟩)

/-- A dword write to a register without an effect of its own stores its RW fields, clears the W1C fields written with 1 and
leaves the other fields and every other register (R423); while the shadow log has room and none of its entries is lost. -/
def Obligations.PlainWritesStoreFields : Prop :=
  ∀ s m a t v b off, Reaches s m a t → m ≠ 2 → a % 4 = 0 → decodeAddr a = some (b, off) → t.reg.act = .store →
    (∀ w, t.blk ≠ .win w) → s.mbx.log.length < 4096 →
    (∀ i < 32, rd s (mbxLostMap i) = 0) →
    ∃ u, exec (.registerWrite m a 15 v) s = .next u ∧
      rd u a = ((rd s a &&& ~~~(wd t.reg.rw)) ||| (v &&& wd t.reg.rw)) &&& ~~~(v &&& wd t.reg.w1c) ∧
      (∀ x, physAddr s x ≠ physAddr s a → rd u x = rd s x) ∧
      u.glens = s.glens ∧ u.streams = s.streams ∧ u.bpm = s.bpm ∧ u.sch = s.sch ∧ u.path = s.path ∧ u.pending = s.pending

/-- A staged group (R430 to R432): a commit that is refused changes nothing but its status, which says the lowest REASON;
one that is taken puts every staged value in force; after it, or after a discard, the staged copies equal the values in
force. -/
def Obligations.StagedGroupsCommit : Prop :=
  (∀ stat commit p fails take s r, (fails ++ (if stagedBad p s then [7] else [])).min? = some r → r < 8 →
    ∃ t, t = commitGroup stat commit p fails take s ∧ refusedWith t stat = some r ∧
      (∀ a, physAddr s a ≠ physAddr s stat → rd t a = rd s a) ∧ t = { s with regs := t.regs }) ∧
  (∀ stat commit p s, p (physAddr s stat) = false → stagedBad p s = false → canonical (fun _ => none) s.bus.staged = true →
    ∃ t, t = commitGroup stat commit p [] (commitStaged p) s ∧ rd t stat = 1 ∧ tget none t.bus.open_ commit = none ∧
      (∀ a, p (physAddr s a) = true → rd t a = rdStg s a ∧ rdStg t a = rd t a) ∧
      (∀ a, p (physAddr s a) = false → physAddr s a ≠ physAddr s stat → rd t a = rd s a)) ∧
  (∀ stat commit p s, p (physAddr s stat) = false →
    ∃ t, t = discardGroup stat commit p s ∧ rd t stat = 3 ∧ tget none t.bus.open_ commit = none ∧ stagedBad p t = false ∧
      (∀ a, p (physAddr s a) = true → rd t a = rd s a ∧ rdStg t a = rd t a))

/-! ### Rules of the chapters -/

/-- The rules of a glen that a search matches are those whose VALID is set and EXCLUDE clear, of the search's WIDTH and
GROUP, every slice of which agrees with the key where MASK is one; a rule with MASK zero throughout matches every search of
its width and group (R167). -/
def Obligations.RulesMatchSearches : Prop :=
  (∀ s g w grp k i r, (i, r) ∈ ofUnit s.glens.rules g →
    ((i, r) ∈ matching s g w grp k ↔ r.valid = true ∧ r.exclude = false ∧ r.width = w ∧ r.group = grp ∧
      ∀ j v m, r.array[j]? = some (v, m) → k.getD j 0 &&& m = v &&& m)) ∧
  (∀ s g w grp k i r, (i, r) ∈ ofUnit s.glens.rules g → r.valid = true → r.exclude = false → r.width = w → r.group = grp →
    (∀ q ∈ r.array, q.2 = 0) → (i, r) ∈ matching s g w grp k)

/-- An exchange clears the old rule's VALID and sets the new rule's, in one state change, so that one of the two is valid
before it and after it; every other rule is as it was, and TCM_GEN counts one where EXCLUDE stays
clear throughout (R174, R176). -/
def Obligations.ExchangesSwapRules : Prop :=
  ∀ s g old i r, g < 8 → old < 16384 → i < 16384 → (ruleGet s g old).valid = true → (ruleGet s g i).valid = false →
    placeOk s g i r.width = true →
    ∃ t, ruleReplace g old i r s = ⟨rDone, r.width + 2, t⟩ ∧
      (ruleGet t g old).valid = false ∧ ruleGet t g i = { r with valid := true } ∧
      ruleGet t g old = { ruleGet s g old with valid := false } ∧
      (∀ h j, j < 16384 → (h, j) ≠ (g, old) → (h, j) ≠ (g, i) → ruleGet t h j = ruleGet s h j) ∧
      ((ruleGet s g i).exclude = false → rd t (tcmGen g) = rd s (tcmGen g) + 1)

/-- Stream gates: CLOSED_INV_RX keeps a gate closed until an unblock clears it (R205); a LENGTH of 0 keeps it open with IPV
null, and an entry with INTERVAL 0 is never in force (R204); a commit is refused when LENGTH is not zero and either the
cycle time is 0 or every INTERVAL is.  The payload's layout is the model's choice (log entry 30). -/
def Obligations.StreamGatesFollowLists : Prop :=
  (∀ x t, x.closedInv = true → sgOpen x t = (false, none)) ∧
  (∀ x t, x.closedInv = false → (sgList x t).1.len = 0 → sgOpen x t = (true, none)) ∧
  (∀ x t w, sgEntry x t = some w →
    ∃ i, i < (sgList x t).1.len ∧ (sgList x t).1.entries[i]? = some w ∧ fld w 8 24 ≠ 0) ∧
  (∀ x t w, x.closedInv = false → sgEntry x t = some w →
    sgOpen x t = (bit w 0, if bit w 4 then some (fld w 1 3) else none)) ∧
  (∀ f s n, Ready ciStreamGateSet f s → n = (pw f 1).toNat → 0 < n → n ≤ 64 → f.length = 28 + 4 * n → pf f 0 9 23 = 0 →
    (pw f 2).toNat < 10 ^ 9 → pf f 4 16 16 = 0 → pw f 5 = 0 →
    Answers ciStreamGateSet (.streamGateSet f) f s (fun b => err eRange 5 b)) ∧
  (∀ f s n, Ready ciStreamGateSet f s → n = (pw f 1).toNat → 0 < n → n ≤ 64 → f.length = 28 + 4 * n → pf f 0 9 23 = 0 →
    (pw f 2).toNat < 10 ^ 9 → pf f 4 16 16 = 0 → (∀ i < n, fld (pw f (7 + i)) 8 24 = 0) →
    ∃ w, Answers ciStreamGateSet (.streamGateSet f) f s (fun b => err eRange w b)) ∧
  (∀ v g s, ∃ t, t = unblock 1 v g s ∧ (gateGet t g v.toNat).closedInv = false ∧
    (∀ h i, key h i ≠ key g v.toNat → gateGet t h i = gateGet s h i))

/-- An evaluation moves an island's voltage by one 5 mV step at most and keeps its code in 0 to 60 (R45, R48, R51): raise has
precedence over lower, a code outside the window moves toward it, and a raise condition clears the dwell timer (R46). -/
def Obligations.IslandVoltageMoves : Prop :=
  (∀ s i occ, islCode s i ≤ (islStep s i occ).1 + 1 ∧ (islStep s i occ).1 ≤ islCode s i + 1) ∧
  (∀ s i occ, islCode s i ≤ 60 → islFloor s i ≤ islCeil s i → islCeil s i ≤ 60 →
    (islMode s i = 2 → rdF s (islCfg i) 20 6 ≤ 60) → (islStep s i occ).1 ≤ 60) ∧
  (∀ s i occ, islMode s i = 0 → islCode s i < islFloor s i →
    (islStep s i occ).1 = islCode s i + 1 ∧ (islStep s i occ).2.dwell = none) ∧
  (∀ s i occ, islMode s i = 0 → islFloor s i ≤ islCeil s i → islCeil s i < islCode s i →
    (islStep s i occ).1 + 1 = islCode s i ∧ (islStep s i occ).2.dwell = none) ∧
  (∀ s i occ, islMode s i = 0 → islFloor s i ≤ islCode s i → islCode s i ≤ islCeil s i → raiseWanted s i occ = true →
    (islStep s i occ).1 = min (islCode s i + 1) (islCeil s i) ∧ (islStep s i occ).2.dwell = none) ∧
  (∀ s i occ, islMode s i = 0 → (islStep s i occ).1 < islCode s i → islCode s i ≤ islCeil s i →
    raiseWanted s i occ = false ∧ lowerOk s i occ = true ∧ islFloor s i < islCode s i) ∧
  (∀ s i occ steps, i < islCount → occ ≤ 32 → islCode s i ≤ 60 → islFloor s i ≤ islCeil s i → islCeil s i ≤ 60 →
    (islMode s i = 2 → rdF s (islCfg i) 20 6 ≤ 60) →
    ∃ t, exec (.islandEvaluation i occ steps) s = .next t ∧ islCode t i ≤ 60)

/-- A latency budget's code: 0 checks nothing; any other gives (16 + M) × 2^E ns, from 17 ns at code 0x01 to 1,015,808 ns at
code 0xFF (R366). -/
def Obligations.BudgetCodesGiveTimes : Prop :=
  (∀ s x y e m, e < 16 → m < 16 → (tagOff x).isSome = false → classBudget s y.tc = m + 16 * e → m + 16 * e ≠ 0 →
    copyBudget s x y = (16 + m) * 2 ^ e ∧ 17 ≤ copyBudget s x y ∧ copyBudget s x y ≤ 1015808) ∧
  (∀ s x y e m, e < 16 → m < 16 → (tagOff x).isSome = true → tagVer x = 2 → tagByte x 7 = m + 16 * e → m + 16 * e ≠ 0 →
    copyBudget s x y = (16 + m) * 2 ^ e ∧ 17 ≤ copyBudget s x y ∧ copyBudget s x y ≤ 1015808) ∧
  (∀ s x y, (tagOff x).isSome = false → classBudget s y.tc = 0 → copyBudget s x y = 0) ∧
  (∀ s x y, (tagOff x).isSome = true → tagVer x = 2 → tagByte x 7 = 0 → copyBudget s x y = 0) ∧
  (∀ s x y, (tagOff x).isSome = false → classBudget s y.tc = 1 → copyBudget s x y = 17) ∧
  (∀ s x y, (tagOff x).isSome = false → classBudget s y.tc = 255 → copyBudget s x y = 1015808) ∧
  (∀ s c x y tl, copyBudget s x y = 0 → y.edits = [] →
    readyCopy c x y tl s = ctxUpdate 1 (pgOf y.port) (setCopy c
      { y with out := cutTo y.trunc (editFrame x (envFor s x y.port tl) [] y.csum), phase := .ready,
               tl := if isLaunched s x y then some tl else none } s))
end

