-- ==== Sys2Proof/Laws/Shared.lean ====
section
/-! SUPPORT. What the shared operations of Machine/Ops.lean can do: which of them leave every register alone, and that
those that write registers keep the register file's canonical form. -/

namespace Sys2Proof.Machine
open Sys2Proof

/-! ### Operations on budgets and rows leave the register file alone -/

@[simp] theorem charge_regs (u a n : Nat) (s : State) : (charge u a n s).regs = s.regs := rfl
@[simp] theorem charge_bus (u a n : Nat) (s : State) : (charge u a n s).bus = s.bus := rfl
@[simp] theorem charge_tim (u a n : Nat) (s : State) : (charge u a n s).tim = s.tim := rfl

@[simp] theorem waited_regs (u a : Nat) (s : State) : (waited u a s).regs = s.regs := by
  unfold waited; dsimp only; split
  · rfl
  · split <;> rfl

@[simp] theorem waited_bud (u a : Nat) (s : State) : (waited u a s).bud = s.bud := by
  unfold waited; dsimp only; split
  · rfl
  · split <;> rfl

/-- Waiting spends nothing: the slots used stay. -/
theorem usedOf_waited (u a v b : Nat) (s : State) : usedOf (waited u a s) v b = usedOf s v b := by simp [usedOf]

/-- A charge adds to its own activity's slots. -/
theorem usedOf_charge_same (u a n : Nat) (s : State) : usedOf (charge u a n s) u a = usedOf s u a + n :=
  tget_tset_same _ _ _ _

/-- A charge leaves every other activity's slots. -/
theorem usedOf_charge_other (u a n v b : Nat) (s : State) (h : budKey v b ≠ budKey u a) :
    usedOf (charge u a n s) v b = usedOf s v b := tget_tset_other _ _ _ _ _ _ h

/-- A row flagged touches the register file only through what retires it. -/
theorem flagRow_regs (cls mac row spares : Nat) (retire : State → State) (s : State)
    (h : ∀ t : State, t.regs = s.regs → (retire t).regs = s.regs) : (flagRow cls mac row spares retire s).regs = s.regs := by
  unfold flagRow
  dsimp only
  split
  · rfl
  · split
    · rfl
    · exact h _ rfl

@[simp] theorem flagSpare_regs (cls mac row kind idx : Nat) (s : State) : (flagSpare cls mac row kind idx s).regs = s.regs :=
  flagRow_regs _ _ _ _ _ _ fun _ e => e

/-! ### Writes of fields, bits and counters keep the canonical form -/

variable {s : State}

theorem canonical_wrF (a lo n v : Nat) (h : canonical resetOf s.regs = true) :
    canonical resetOf (wrF a lo n v s).regs = true := canonical_wr a _ s h
theorem canonical_wrBit (a i : Nat) (b : Bool) (h : canonical resetOf s.regs = true) :
    canonical resetOf (wrBit a i b s).regs = true := canonical_wr a _ s h
theorem canonical_wrM (a m : Nat) (v : Word) (h : canonical resetOf s.regs = true) :
    canonical resetOf (wrM a m v s).regs = true := canonical_wr a _ s h
theorem canonical_incBy (a k : Nat) (h : canonical resetOf s.regs = true) :
    canonical resetOf (incBy a k s).regs = true := canonical_wr a _ s h
theorem canonical_incSat (a lo n : Nat) (h : canonical resetOf s.regs = true) :
    canonical resetOf (incSat a lo n s).regs = true := canonical_wr a _ s h
theorem canonical_add64 (a : Nat) (k : Int) (h : canonical resetOf s.regs = true) :
    canonical resetOf (add64 a k s).regs = true := canonical_wr _ _ _ (canonical_wr _ _ s h)

/-- A fold of operations that each keep the canonical form keeps it. -/
theorem canonical_foldl {α : Type} (f : State → α → State)
    (hf : ∀ (t : State) (x : α), canonical resetOf t.regs = true → canonical resetOf (f t x).regs = true) :
    ∀ (l : List α) (t : State), canonical resetOf t.regs = true → canonical resetOf (l.foldl f t).regs = true
  | [], _, h => h
  | x :: xs, t, h => canonical_foldl f hf xs (f t x) (hf t x h)

end Sys2Proof.Machine
end

