-- ==== Sys2Proof/Tests/Slice0.lean ====
section
/-! SUPPORT. Tests: states and operands that meet the statements' hypotheses, and single steps held against the spec. -/

namespace Sys2Proof.Tests
set_option Elab.async false
open Sys2Proof Sys2Proof.Machine

/-! ### A block in Peony -/

/-- Firmware up in Peony with sessions of agreed version `v` on MB0, MB2, MB3 and MB4, and port 0 created with its link up. -/
def upAt (v : Nat) : State :=
  { State.reset with
    regs := [(mbxFwStat, 13)]
    mbx := { State.reset.mbx with sess := [(0, ⟨1, v, 0⟩), (2, ⟨3, v, 0⟩), (3, ⟨4, v, 0⟩), (4, ⟨5, v, 0⟩)], opened := 5 }
    ports := { State.reset.ports with ports := [(0, some ⟨1, 0, 0, 1522, true, true⟩), (7, some ⟨1, 0, 0, 1522, true, false⟩),
      (135, some ⟨1, 0, 0, 1522, true, false⟩)] }
    start := { State.reset.start with step := 10, reached := true } }
def up : State := upAt 0x0302

/-- A frame on MB0 with SCOPE `c`, OPTS `o` and a payload. -/
def frO (o c : Nat) (ws : List Word) : Frame := ⟨0, 0, false, 4 * ws.length, 7, o, 1, c, ws⟩
def frS (c : Nat) (ws : List Word) : Frame := frO 0 c ws
def fr (ws : List Word) : Frame := frO 0 0 ws
def zs (n : Nat) : List Word := List.replicate n 0

/-- The state with registers written. -/
def regsOf (l : List (Nat × Word)) (s : State) : State := l.foldl (fun t q => wr q.1 q.2 t) s

/-- The register an access reaches. -/
def targetAt (s : State) (m a : Nat) : Target :=
  match busTarget s m a true with
  | .ok t => t
  | .error _ => ⟨0, .glb, { name := "", off := 0 }, 0, 0⟩
theorem reaches_at {s : State} {m a : Nat} (h : m ≤ 4 ∧ (busTarget s m a true).toOption.isSome = true ∧
    hiddenBits s m (targetAt s m a).blk (targetAt s m a).reg = 0 ∧ namesUnused s (targetAt s m a) = false) :
    Reaches s m a (targetAt s m a) := by
  obtain ⟨h1, h2, h3⟩ := h
  refine ⟨h1, ?_, h3⟩
  unfold targetAt
  split
  · rename_i t e; exact e
  · rename_i e; rw [e] at h2; cases h2

/-! ### States with something in them -/

def upPend : State := { up with mbx := { up.mbx with pend := [⟨0, 0, 7, false, [0]⟩] } }
def upDown : State := { up with ports := { up.ports with ports := [(0, some ⟨1, 0, 0, 1522, false, true⟩)] } }
/-- Table 0 of glen 0 holds key 0 in its overflow store. -/
def upEntry : State :=
  { up with glens := { up.glens with ovf := [(0, ⟨⟨0, 5, 0, true, true, 0⟩, homeBucket up 0 0 0⟩)] } }
def entryHit : EmHit := (emFind upEntry 0 0 0).getD ⟨false, 0, ⟨0, 0, 0, false, false, 0⟩⟩
/-- A session with device 5 that is up. -/
def sess5 : CasSess := ⟨1, 5, 128, 2, true, 0, 0, 0, 0, 0, 0, 0, [[1], [2]], 0, 0, 0x0302⟩
def upCas (role : Nat) : State :=
  { regsOf [(casStat, wd role), (casDevId, 9)] up with cas := { up.cas with sess := [(1, some sess5)] } }

/-- One patch word is active, and an image of 65,535 words lies in MB0's transfer buffer. -/
def upPatch : State :=
  { up with ucode := { up.ucode with sets := [(1, ⟨List.replicate 13 0 ++ [1, 0], 0⟩)] }
            mbx := { up.mbx with xfer := [(3, 0xFFFF)] } }

/-- Glen 0 is isolated. -/
def upIsolated : State := setUnit 2 0 { unitOf up 2 0 with state := 2 } up
/-- The loader answers in step 6, BOOT_SRC being 2. -/
def upLoader : State :=
  { regsOf [(mbxFwStat, 1), (glbStraps, 0x80)] up with start := { up.start with step := 6, loader := true } }
/-- The owner certificate is set. -/
def upOwned : State := { up with sec := { up.sec with owner := [1, 2, 3, 4] } }

/-- The register an access of the management processor reaches in `up`. -/
def tgt (a : Nat) : Target := targetAt up 0 a
def upSmb : State := { up with bus := { up.bus with smbAddr := some (wd pwiCeilTime) } }
def upPerst : State := { up with start := { up.start with perst := true } }
def upBad : State := { up with bus := { up.bus with badPar := [pwiCeilTime] } }
/-- A group is open, a register's parity is bad, queued and once restored, and clock 0 stands still. -/
def upBus : State :=
  { up with bus := { up.bus with open_ := [(pwiCommitReg, some ⟨false, 1, 0⟩)], badPar := [pwiCeilTime],
                                 restoreQ := [pwiCeilTime], restored := [(pwiCeilTime, 0)] }
            tim := { up.tim with cnt := 10 ^ 12 }
            col := { up.col with stopped := [0] } }

/-! ### Cells, packets and copies -/

def setC (c : Nat) (x : ColCell) : State := { up with col := { up.col with cells := [(c, x)] } }
/-- An activity's budget is spent. -/
def spent (u a : Nat) (s : State) : State := { s with bud := { s.bud with used := [(budKey u a, 10 ^ 9)] } }
/-- The same state at another count of the 1 GHz clock; with clock 36 stopped. -/
def atCnt (n : Nat) (s : State) : State := { s with tim := { s.tim with cnt := n } }
def noTick (s : State) : State := { s with col := { s.col with stopped := [36] } }
def frame60 : List Byte := List.replicate 60 0
/-- A frame of 60 zero bytes from port 0. -/
def pk (ph : Phase) : Pkt := { newPkt up 0 60 frame60 with phase := ph }
def pkDone : Pkt := { pk .admitted with complete := true, fcs := some true }
def upPkt (x : Pkt) : State := { up with path := { up.path with pkts := [(0, some x)], nextPkt := 1 } }
/-- Its copy for port 0. -/
def cp (ph : CopyPhase) : Copy := { emptyCopy with phase := ph, len := 64 }
def upCopy (x : Pkt) (y : Copy) (q : List Nat) : State :=
  { upPkt x with path := { (upPkt x).path with copies := [(0, some y)], nextCopy := 1 }
                 sch := { up.sch with q := if q = [] then [] else [(0, q)], queues := [(0, [2, 0, 0x10000, 0])] } }
/-- Chapter 4, "recognising hull telemetry": the example's two patch words. -/
def telemetry0 : Nat :=
  0x37FC407F * 2 ^ 224 + 0xFF801116 * 2 ^ 192 + 0xC0000000 * 2 ^ 160
def goWord : Nat := telemetry0
/-- A context at the patch word that ends it. -/
def pkPatch : Pkt := { pk .parsing with ctx := { startCtx with pc := 0x2000 } }
def upParse : State := { upPkt pkPatch with ucode := { up.ucode with prs := [(0, 10 * 2 ^ 252)] } }
def cpPatch : Copy := { cp .rewriting with ctx := { startCtx with pc := 0x1000 } }
def upGo : State := { upPkt pkPatch with ucode := { up.ucode with prs := [(0, goWord)] } }
def upRewrite : State :=
  { upCopy pkDone cpPatch [] with ucode := { up.ucode with rwe := [(0, 10 * 2 ^ 188)] } }
/-- Port 0's default context is BLOCKED. -/
def upBlocked : State :=
  { regsOf [(stmPortCfg 0, 0x8000)] (upPkt (pk .looked)) with
    streams := { up.streams with ctx := [(0, [0x8001, 0, 0, 0])] } }
def upReserve : State :=
  { upCopy (pk .admitted) (cp .waiting) [] with sch := { up.sch with resUsed := [(0, enqReserve)] } }
def upStack (s : State) : State := regsOf [(hbmBase 0 + 4, 3), (hbmBase 0, 16)] s
def upWire (tl : Nat) (s : State) : State := { s with path := { s.path with wireEnd := [(0, tl)] } }
def upShp : State := { up with sch := { up.sch with shpPend := [(0, some ⟨0, 0, 0, 0, false, none⟩)] } }

/-! ### Values named by the function that gives them -/

def okOf (r : Except AllocErr Nat) : Option Nat := match r with | .ok a => some a | .error _ => none
theorem ok_pair {r : Except AllocErr Nat × State} (h : (okOf r.1).isSome = true) : r = (.ok ((okOf r.1).getD 0), r.2) := by
  obtain ⟨r1, r2⟩ := r
  cases r1 <;> simp_all [okOf]
def finOf (r : StepEnd) : Option (UCtx × Nat × Nat) := match r with | .fin c a w => some (c, a, w) | _ => none
def finGot (r : StepEnd) : UCtx × Nat × Nat := (finOf r).getD (startCtx, 0, 0)
theorem fin_eq {r : StepEnd} (h : (finOf r).isSome = true) : r = .fin (finGot r).1 (finGot r).2.1 (finGot r).2.2 := by
  cases r <;> simp_all [finOf, finGot]
def goOf (r : StepEnd) : Option UCtx := match r with | .go c => some c | _ => none
theorem go_eq {r : StepEnd} (h : (goOf r).isSome = true) : r = .go ((goOf r).getD startCtx) := by
  cases r <;> simp_all [goOf]
def endOf (r : RweEnd) : Option Copy := match r with | .fin y => some y | _ => none
theorem fin_one {r : RweEnd} (h : (endOf r).isSome = true) : r = .fin ((endOf r).getD emptyCopy) := by
  cases r <;> simp_all [endOf]
theorem some_pair {α β : Type} {o : Option (α × β)} (h : o.isSome = true) : o = some ((o.get h).1, (o.get h).2) := by
  simp
def got {α : Type} (o : Option α) (h : o.isSome = true) : α := o.get h
theorem ready_of {ci : CmdInfo} {f : Frame} {s : State} (h : f.wf = true ∧ carries f s = true ∧ headerFault ci f s = none ∧
    stageBars ci s = false ∧ (ci.write = true → s.mbx.shUsed < shadowBytes) ∧ lockedOut s (mbKey f) ci.op = false) :
    Ready ci f s := h
def errOf {α : Type} (r : Except Nat α) : Option Nat := match r with | .error e => some e | .ok _ => none
theorem error_at {α : Type} {r : Except Nat α} {e : Nat} (h : errOf r = some e) : r = .error e := by
  cases r <;> simp_all [errOf]
theorem got_some {α : Type} {o : Option α} (h : o.isSome = true) : o = some (got o h) := (Option.some_get h).symm
/-- A copy in HBM, and a pool that its frame comes back to. -/
def upHbm : State :=
  regsOf [(bpmMax 0 36 0, 1000)] { upCopy pkDone { cp .queued with inHbm := true } [0] with
    bpm := { up.bpm with pools := [(0, ⟨0, 1000, 0, [], []⟩)] } }

/-! ### Glens, buffers, gates and counters -/

def upGlen (q : Sparse (List QueuedOp)) : State := { up with glens := { up.glens with updQ := q } }
def ruleOf (ex : Bool) (w : Nat) : Rule :=
  let r : Rule := ⟨true, ex, w, 0, 0, [], [], 0, 0, 0⟩
  { r with hdr := ruleHdr r }
/-- Glen 0's rule 0. -/
def upRule (w : Nat) (ex : Bool) : State :=
  { up with glens := { up.glens with rules := [(0, ruleOf ex w)] } }
def upIns : QueuedOp := ⟨.emInsert 0 0 5 false, none, [0]⟩
def upBadOp : State :=
  charge 0 actUpdate (opCost 0 0 upIns.op (upGlen [(0, [upIns])])) (setUpdQueue 0 [] (upGlen [(0, [upIns])]))
def upOvf : Glens := { up.glens with ovf := [(0, ⟨⟨0, 5, 0, false, true, 0⟩, homeBucket up 0 0 0⟩)] }
/-- A key to be refreshed lies in the overflow store. -/
def upAge : State := { up with glens := { upOvf with ageQ := [(0, [(0, 0)])] } }
def upAged : State :=
  charge (glenMem 0 0) actLearn 1 { upAge with glens := { upAge.glens with ageQ := tset [] upAge.glens.ageQ 0 [] } }
def upPromo : State := { up with glens := { upOvf with promo := [(0, [homeBucket up 0 0 0])] } }
def upLearn : State :=
  { regsOf [(emtTblCfg 0 0, 2)] up with glens := { up.glens with pend := [(0, [⟨1, 0, 5, 0, 0, true, 0, false, false⟩])] } }
/-- The learn ring holds one record. -/
def upRing : State :=
  { regsOf [(mbxFwStat, 13), (emtRing 0 + 8, 1), (emtRing 0 + 0xC, 1)] up with
    rings := [(emtRing 0, ⟨none, true, false⟩)], out := [.ring (emtRing 0) 0 false 0 [7]] }
/-- A buffer of pool 0 with the owners given. -/
def upCell (o ports : List Nat) : State :=
  { up with bpm := { up.bpm with pools := [(0, ⟨0, 1000, 1, [], []⟩)], cells := [(0, ⟨.allocated, o, ports, 0, 0, 0, true⟩)] } }
/-- Time is valid, and port 0 has a gate list of one entry. -/
def upGate : State :=
  { regsOf [(timBase + 4, 1), (gatPortCfg 0, 0x90000)] up with
    gat := [(0, { restGate with oper := ⟨1, 0, 1000, 0, [(0, (1000, 0xFF))]⟩, pending := true, tc := some 0 })] }
def upGate1 : State := { upGate with gat := [(0, { restGate with oper := ⟨1, 0, 1000, 0, [(0, (1000, 0xFF))]⟩ })] }
def upTime (v : Word) : State := regsOf [(timBase + 4, v)] up
/-- Recovery function 0 of the east die. -/
def upRcv (x : Rcv) : State := { up with fre := { up.fre with rcv := [(0, x)] }, tim := { up.tim with cnt := 10 ^ 12 } }
def rcv1 : Rcv := ⟨0x4001, 1, 0, false, 0, 0, 0, 5, 0, 0, 0⟩
def upSet (p : List Word) : State :=
  { upTime 1 with dmp := { up.dmp with sets := [(0, { noSetSt with pend := p })] } }
def upDue (p : List Word) : State :=
  { regsOf [(pmcSet 0 0, 100)] (upTime 1) with
    dmp := { up.dmp with sets := [(0, { noSetSt with pend := p })] }, tim := { up.tim with now := 150000 * 2 ^ 48 } }
def upSamp : State := regsOf [(sampCfg 0 0, 100), (sampRange 0 0, 0x80000)] up

/-! ### Field pins, the cascade, units and the start -/

def upFio (f : Fio) (s : State) : State := { s with fio := f }
def tev1 (period : Nat) : TimeEvt := ⟨0, 0, true, 0, period, 0⟩
def pub1 : PubSt := ⟨[1, 0, 0, 0], [], false, 1000, true, 0, 0, 0, 0, 0, 0⟩
/-- The MP holds a control frame. -/
def upCtl (bs : List Byte) : State :=
  { upCas 1 with path := { up.path with mpRx := [⟨0, 0, 0, bs, 0, false, true⟩] } }
def ctlBytes (kind : Nat) : List Byte :=
  (List.range 90).map (fun i => BitVec.ofNat 8 (if i = ctlBodyAt (List.replicate 90 0) + 18 then kind else 0))
def ctlFrame (bs : List Byte) : MpFrame := ⟨0, 0, 0, bs, 0, false, true⟩
def upJoin : State :=
  { regsOf [(casStat, 1), (casDevId, 9), (casCfg, 0x10000)] up with
    cas := { up.cas with join := true }, ports := { up.ports with mcast := [(1, 1)] } }
def raise1 : Raise := ⟨srcVinLow, 0, 0, 0, 0, 0, false⟩
def upStep (n : Nat) : State := { up with start := { up.start with step := n } }
def upOff : State := { up with start := { up.start with rails := false } }
def done1 : StartReport := ⟨25, 0, true, true, true⟩
def upPlan : State :=
  { up with start := { up.start with plan := true, handedOver := false }
            ports := { up.ports with ports := [(7, some ⟨1, 0, 0, 1522, true, true⟩)] } }
/-! ### Rules of the chapters -/

def upWorker : State := regsOf [(casStat, 0x51)] up
def upLone : State := regsOf [(cellStat 2, 2)] up
def gate1 : StreamGate := { emptyGate with oper := ⟨1, 0, 1000, 0, [wd (1000 * 256 + 1)]⟩ }
/-- A frame with a version 2 tag at offset 12 whose BUDGET code is `b`. -/
def pkTag (b : Nat) : Pkt :=
  { pk .admitted with
    bytes := (List.range 60).map (fun i => BitVec.ofNat 8 (if i = 14 then 0x20 else if i = 19 then b else 0))
    ctx := { startCtx with offs := (List.replicate 16 1023).set 4 12 } }
def upLow : State := { up with isl := [(0, ⟨some 0, none, none, none, none⟩)], tim := { up.tim with cnt := 10 ^ 12 } }
def rule1 : Rule := ruleOf false 1

/-! ### States and operands that meet each statement's hypotheses, clause by clause -/

/-- The hypotheses of `SessionCommandsComplete` are met. -/
theorem wit_SessionCommandsComplete :
    (∃ (f : _) (s : State) (v : _), Ready ciHello f s ∧ f.length = 16 ∧ pw f 2 = 0 ∧ pw f 3 = 0 ∧ v ∈ cmdVersions ∧ pf f 0 0 16 ≤ v ∧ v ≤ pf f 0 16 16 ∧ ((∀ x ∈ cmdVersions, x ≤ pf f 0 16 16 → x ≤ v))) ∧
    (∃ (f : _) (s : State), Ready ciEngineInfo f s ∧ f.length = 0) ∧
    (∃ (f : _) (s : State) (r : _), Ready ciCmdStatus f s ∧ f.length = 4 ∧ pf f 0 16 16 = 0 ∧ (s.mbx.pend.filter (fun r => r.mb == mbKey f && r.tag == pf f 0 0 16)).getLast? = some r) ∧
    (∃ (f : _) (s : State), Ready ciXferWrite f s ∧ 4 ≤ f.length ∧ (pw f 0).toNat % 4 = 0 ∧ (pw f 0).toNat + (f.length - 4) ≤ 65536) ∧
    (∃ (f : _) (s : State), Ready ciSessionList f s ∧ f.length = 0) ∧
    (∃ (f : _) (s : State), Ready ciShadowInfo f s ∧ f.length = 0) ∧
    (∃ (f : _) (s : State), Ready ciShadowDigest f s ∧ f.length = 4 ∧ pf f 0 18 14 = 0) ∧
    (∃ (f : _) (s : State), Ready ciNop f s) :=
  ⟨⟨fr [0x03020100, 0, 0, 0], up, 0x0302, by unfold Ready; decide +kernel⟩,
   ⟨fr [], up, by unfold Ready; decide +kernel⟩,
   ⟨fr [7], upPend, ⟨0, 0, 7, false, [0]⟩, by unfold Ready; decide +kernel⟩,
   ⟨fr [0, 7], up, by unfold Ready; decide +kernel⟩,
   ⟨fr [], up, by unfold Ready; decide +kernel⟩,
   ⟨fr [], up, by unfold Ready; decide +kernel⟩,
   ⟨fr [0], up, by unfold Ready; decide +kernel⟩,
   ⟨fr [], up, by unfold Ready; decide +kernel⟩⟩

/-- The hypotheses of `PortCommandsComplete` are met. -/
theorem wit_PortCommandsComplete :
    (∃ (f : _) (s : State), Ready ciPortCreate f s ∧ f.length = 8 ∧ pf f 0 16 16 = 0 ∧ pf f 0 8 4 ∈ [1, 2, 4, 8] ∧ pf f 0 0 8 % pf f 0 8 4 = 0 ∧ pf f 0 14 2 ≠ 3 ∧ 64 ≤ (pw f 1).toNat ∧ (pw f 1).toNat ≤ 16384 ∧ modeSupported (pf f 0 8 4) (pf f 0 12 2) (pf f 0 14 2) = true ∧ lanesTaken s (pf f 0 0 8) (pf f 0 8 4) = false) ∧
    (∃ (f : _) (s : State) (r : _) (p : _), Ready ciPortDelete f s ∧ f.length = 4 ∧ (pw f 0).toNat = p ∧ p < 256 ∧ portRec s p = some r ∧ r.admin = false ∧ portHolds s p = false ∧ primrosePort s p = false) ∧
    (∃ (f : _) (s : State) (r : _) (p : _), Ready ciPortAdmin f s ∧ f.length = 4 ∧ (pw f 0).toNat = p + 256 ∧ p < 256 ∧ portRec s p = some r ∧ primrosePort s p = false) ∧
    (∃ (f : _) (s : State) (r : _) (p : _), Ready ciPortAdmin f s ∧ f.length = 4 ∧ (pw f 0).toNat = p ∧ p < 256 ∧ portRec s p = some r ∧ primrosePort s p = false) ∧
    (∃ (f : _) (s : State) (r : _) (p : _), Ready ciPortStatus f s ∧ f.length = 4 ∧ (pw f 0).toNat = p ∧ p < 256 ∧ portRec s p = some r) ∧
    (∃ (f : _) (s : State) (map : _), Ready ciMcastGroupSet f s ∧ f.length = 36 ∧ pf f 0 16 16 = 0 ∧ (List.range 8).foldl (fun n i => n + (pw f (1 + i)).toNat * 2 ^ (32 * i)) 0 = map ∧ (∀ p ∈ bitsOf 256 map, portExists s p = true)) ∧
    (∃ (f : _) (s : State), Ready ciMcastGroupRead f s ∧ f.length = 4 ∧ pf f 0 16 16 = 0) ∧
    (∃ (f : _) (s : State) (r : _) (p : _), Ready ciMirrorCfg f s ∧ f.length = 16 ∧ pf f 0 0 8 = p ∧ portRec s p = some r ∧ (pw f 0).toNat < 2 ^ 10 ∧ pf f 1 16 16 = 0 ∧ pf f 2 14 18 = 0) :=
  ⟨⟨fr [0x110, 1522], up, by unfold Ready; decide +kernel⟩,
   ⟨fr [0], upDown, ⟨1, 0, 0, 1522, false, true⟩, 0, by unfold Ready; decide +kernel⟩,
   ⟨fr [256], up, ⟨1, 0, 0, 1522, true, true⟩, 0, by unfold Ready; decide +kernel⟩,
   ⟨fr [0], up, ⟨1, 0, 0, 1522, true, true⟩, 0, by unfold Ready; decide +kernel⟩,
   ⟨fr [0], up, ⟨1, 0, 0, 1522, true, true⟩, 0, by unfold Ready; decide +kernel⟩,
   ⟨fr [0, 1, 0, 0, 0, 0, 0, 0, 0], up, 1, by unfold Ready; decide +kernel⟩,
   ⟨fr [0], up, by unfold Ready; decide +kernel⟩,
   ⟨fr (zs 4), up, ⟨1, 0, 0, 1522, true, true⟩, 0, by unfold Ready; decide +kernel⟩⟩

/-- The hypotheses of `ExactConfigCommandsComplete` are met. -/
theorem wit_ExactConfigCommandsComplete :
    (∃ (f : _) (s : State), Ready ciEmTableCfg f s ∧ f.length = 8 ∧ (pw f 0).toNat < 4 ∧ fld (pw f 1) 1 2 ≠ 3 ∧ fld (pw f 1) 3 2 ≠ 3 ∧ f.scope ≠ 0) ∧
    (∃ (f : _) (s : State), Ready ciEmPortCfg f s ∧ f.length = 8 ∧ (pw f 0).toNat < 256 ∧ portExists s (pw f 0).toNat = true) ∧
    (∃ (f : _) (s : State) (g : _), Ready ciLearnRingCfg f s ∧ f.length = 16 ∧ pf f 0 2 4 ≤ 8 ∧ g < 8 ∧ f.scope = 2 ^ g) ∧
    (∃ (f : _) (s : State), Ready ciLearnPolicy f s ∧ f.length = 8 ∧ (pw f 0).toNat < 4 ∧ (pw f 1).toNat ≤ 2) ∧
    (∃ (f : _) (s : State), Ready ciAgeCfg f s ∧ f.length = 4 ∧ pf f 0 16 12 ≠ 0 ∧ f.scope ≠ 0) ∧
    (∃ (f : _) (s : State) (k : _) (stg : _) (u : _), Ready ciEmKeyLayout f s ∧ f.length = 36 ∧ (pw f 0).toNat = k ∧ k < 64 ∧ stg = (fun g t => let t1 := stgM (emtKeyHdr g k 0) 0xF7 (pw f 1) (stgM (emtKeyHdr g k 1) 0xF7 (pw f 5) t); (List.range
    3).foldl (fun x w => stgM (emtKeyBytes g k 0 w) 0x7F7F7F7F (pw f (2 + w)) (stgM (emtKeyBytes g k 1 w) 0x7F7F7F7F (pw f
    (6 + w)) x)) t1) ∧ u < 8 ∧ f.scope = 2 ^ u ∧ keyFails (stg u (begun ciEmKeyLayout f s)) u = [] ∧ stagedBad (keyGroup u) (stg u (begun ciEmKeyLayout f s)) = false) ∧
    (∃ (f : _) (s : State) (stg : _) (u : _), Ready ciGlenBudgetSet f s ∧ f.length = 12 ∧ (∀ i < 3, pf f i 15 1 = 0 ∧ pf f i 31 1 = 0) ∧ stg = (fun g t => stgM (glnBase g + 0x100) 0x7FFF7FFF (pw f 0) (stgM (glnBase g + 0x104) 0x7FFF7FFF (pw f 1) (stgM (glnBase g + 0x108) 0x7FFF (pw f 2) t))) ∧ u < 8 ∧ f.scope = 2 ^ u ∧ glnBudgetFails (stg u (begun ciGlenBudgetSet f s)) u = [] ∧ stagedBad (glnBudgetGroup u) (stg u (begun ciGlenBudgetSet f s)) = false) :=
  ⟨⟨frS 1 [0, 0], up, by unfold Ready; decide +kernel⟩,
   ⟨fr [0, 1], up, by unfold Ready; decide +kernel⟩,
   ⟨frS 1 (zs 4), up, 0, by unfold Ready; decide +kernel⟩,
   ⟨fr [0, 0], up, by unfold Ready; decide +kernel⟩,
   ⟨frS 1 [0x02000001], up, by unfold Ready; decide +kernel⟩,
   by refine ⟨frS 1 (zs 9), up, 0, _, 0, ready_of ?_, ?_, ?_, (by decide +kernel), rfl, ?_⟩ <;> decide +kernel,
   by refine ⟨frS 1 [0x10002000, 0x04000800, 0x200], up, _, 0, ready_of ?_, ?_, ?_, rfl, ?_⟩ <;> decide +kernel⟩

/-- The hypotheses of `ExactEntryCommandsComplete` are met. -/
theorem wit_ExactEntryCommandsComplete :
    (∃ (f : _) (s : State), Ready ciTblInsert f s ∧ f.length = 20 ∧ (pw f 0).toNat < 8 ∧ f.scope ≠ 0) ∧
    (∃ (f : _) (s : State), Ready ciTblDelete f s ∧ f.length = 16 ∧ (pw f 0).toNat < 4 ∧ f.scope ≠ 0) ∧
    (∃ (f : _) (s : State), Ready ciTblFlush f s ∧ f.length = 8 ∧ (pw f 0).toNat < 4 ∧ (pw f 1).toNat < 2 ^ 11 ∧ f.scope ≠ 0) ∧
    (∃ (f : _) (s : State), Ready ciTblBulkInsert f s ∧ f.length % 16 = 0 ∧ 16 ≤ f.length ∧ f.scope ≠ 0) ∧
    (∃ (f : _) (s : State) (g : _) (h : _), Ready ciTblLookup f s ∧ f.length = 16 ∧ (pw f 0).toNat < 4 ∧ g < 8 ∧ f.scope = 2 ^ g ∧ hasSlot s (3 * g) actDebug = true ∧ emFind (begun ciTblLookup f s) g (pw f 0).toNat (key96 f 1) = some h) ∧
    (∃ (f : _) (s : State) (g : _), Ready ciTblLookup f s ∧ f.length = 16 ∧ (pw f 0).toNat < 4 ∧ g < 8 ∧ f.scope = 2 ^ g ∧ hasSlot s (3 * g) actDebug = true ∧ emFind (begun ciTblLookup f s) g (pw f 0).toNat (key96 f 1) = none) ∧
    (∃ (f : _) (s : State) (g : _), Ready ciTblIterate f s ∧ f.length = 8 ∧ (pw f 0).toNat < 4 ∧ (pw f 1).toNat ≤ 532480 ∧ g < 8 ∧ f.scope = 2 ^ g ∧ hasSlot s (3 * g) actDebug = true) ∧
    (∃ (f : _) (s : State), Ready ciTblCapacity f s ∧ f.length = 0 ∧ f.scope ≠ 0) :=
  ⟨⟨frS 1 (zs 5), up, by unfold Ready; decide +kernel⟩,
   ⟨frS 1 (zs 4), up, by unfold Ready; decide +kernel⟩,
   ⟨frS 1 [0, 0], up, by unfold Ready; decide +kernel⟩,
   ⟨frS 1 (zs 4), up, by unfold Ready; decide +kernel⟩,
   ⟨frS 1 (zs 4), upEntry, 0, entryHit, by unfold Ready; decide +kernel⟩,
   ⟨frS 1 (zs 4), up, 0, by unfold Ready; decide +kernel⟩,
   ⟨frS 1 [0, 0], up, 0, by unfold Ready; decide +kernel⟩,
   ⟨frS 1 [], up, by unfold Ready; decide +kernel⟩⟩

/-- The hypotheses of `RouteCommandsComplete` are met. -/
theorem wit_RouteCommandsComplete :
    (∃ (f : _) (s : State) (stg : _) (u : _), Ready ciLpmKeyLayout f s ∧ f.length = 8 ∧ (pw f 0).toNat < 64 ∧ stg = (fun g t => stgM (lpmKeyCfg g (pw f 0).toNat) 0x007FFF0F (pw f 1) t) ∧ u < 8 ∧ f.scope = 2 ^ u ∧ keyFails (stg u (begun ciLpmKeyLayout f s)) u = [] ∧ stagedBad (keyGroup u) (stg u (begun ciLpmKeyLayout f s)) = false) ∧
    (∃ (f : _) (s : State), Ready ciLpmPortVrf f s ∧ f.length = 8 ∧ (pw f 0).toNat < 256 ∧ portExists s (pw f 0).toNat = true) ∧
    (∃ (f : _) (s : State), Ready ciRouteAdd f s ∧ f.length = 16 ∧ bit (pw f 0) 31 = false ∧ routeFault f 0 false = none) ∧
    (∃ (f : _) (s : State), Ready ciRouteDelete f s ∧ f.length = 12 ∧ bit (pw f 0) 31 = false ∧ routeFault f 0 true = none) ∧
    (∃ (f : _) (s : State), Ready ciRouteBulk f s ∧ f.length % 16 = 0 ∧ 16 ≤ f.length ∧ (∀ i < f.length / 16, routeFault f (4 * i) (bit (pw f (4 * i)) 31) = none)) ∧
    (∃ (f : _) (s : State) (g : _), Ready ciRouteLookup f s ∧ f.length = 12 ∧ (pw f 0).toNat < 2 ^ 9 ∧ g < 8 ∧ f.scope = 2 ^ g ∧ hasSlot s (3 * g) actDebug = true) ∧
    (∃ (f : _) (s : State) (n : _), Ready ciNexthopSet f s ∧ (pw f 1).toNat = n ∧ 1 ≤ n ∧ n ≤ 1018 ∧ f.length = 8 + 4 * n ∧ (pw f 0).toNat + n ≤ 65536) ∧
    (∃ (f : _) (s : State), Ready ciRouteCapacity f s ∧ f.length = 0 ∧ f.scope ≠ 0) :=
  ⟨by refine ⟨frS 1 [0, 0], up, _, 0, ready_of ?_, ?_, ?_, rfl, ?_⟩ <;> decide +kernel,
   ⟨fr [0, 0], up, by unfold Ready; decide +kernel⟩,
   ⟨fr [0, 0, 0, 0x10000], up, by unfold Ready; decide +kernel⟩,
   ⟨fr [0, 0, 0], up, by unfold Ready; decide +kernel⟩,
   ⟨fr [0, 0, 0, 0x10000], up, by unfold Ready; decide +kernel⟩,
   ⟨frS 1 [0, 0, 0], up, 0, by unfold Ready; decide +kernel⟩,
   ⟨fr [0, 1, 0], up, 1, by unfold Ready; decide +kernel⟩,
   ⟨frS 1 [], up, by unfold Ready; decide +kernel⟩⟩

/-- The hypotheses of `TcamCommandsComplete` are met. -/
theorem wit_TcamCommandsComplete :
    (∃ (f : _) (s : State) (stg : _) (u : _), Ready ciTcamKeyLayout f s ∧ f.length = 88 ∧ (pw f 0).toNat < 64 ∧ stg = (fun g t => (List.range 20).foldl (fun x w => stgM (tcmKeyBytes g (pw f 0).toNat w) 0x7F7F7F7F (pw f (2 + w)) x) (stgM (tcmKeyHdr g (pw f 0).toNat) 0xFF1 (pw f 1) t)) ∧ u < 8 ∧ f.scope = 2 ^ u ∧ keyFails (stg u (begun ciTcamKeyLayout f s)) u = [] ∧ stagedBad (keyGroup u) (stg u (begun ciTcamKeyLayout f s)) = false) ∧
    (∃ (f : _) (s : State) (w : _), Ready ciTcamRuleWrite f s ∧ pf f 1 0 4 = w ∧ 1 ≤ w ∧ w ≤ 8 ∧ f.length = 16 + 24 * w ∧ (pw f 0).toNat < 16384 ∧ pf f 1 8 8 = 0 ∧ actionOk (pw f (2 + 6 * w)) (pw f (3 + 6 * w)) = true ∧ f.scope ≠ 0) ∧
    (∃ (f : _) (s : State), Ready ciTcamRuleDelete f s ∧ f.length = 4 ∧ (pw f 0).toNat < 16384 ∧ f.scope ≠ 0) ∧
    (∃ (f : _) (s : State) (w : _), Ready ciTcamRuleReplace f s ∧ pf f 2 0 4 = w ∧ 1 ≤ w ∧ w ≤ 8 ∧ f.length = 20 + 24 * w ∧ (pw f 0).toNat < 16384 ∧ (pw f 1).toNat < 16384 ∧ pf f 2 8 8 = 0 ∧ actionOk (pw f (3 + 6 * w)) (pw f (4 + 6 * w)) = true ∧ f.scope ≠ 0) ∧
    (∃ (f : _) (s : State), Ready ciTcamActionSet f s ∧ f.length = 12 ∧ ((bit (pw f 0) 14 = true → actionOk (pw f 1) (pw f 2) = true)) ∧ f.scope ≠ 0) ∧
    (∃ (f : _) (s : State) (g : _), Ready ciTcamRuleRead f s ∧ f.length = 4 ∧ (pw f 0).toNat < 16384 ∧ g < 8 ∧ f.scope = 2 ^ g ∧ hasSlot s (3 * g + 1) actDebug = true ∧ hasSlot s (3 * g + 2) actDebug = true) ∧
    (∃ (f : _) (s : State) (w : _), Ready ciTcamSearch f s ∧ f.length = 92 ∧ pf f 0 0 4 = w ∧ 1 ≤ w ∧ w ≤ 8 ∧ (pw f 0).toNat < 2 ^ 9 ∧ ((bit (pw f 0) 8 = true → pf f 1 30 2 = 0 ∧ pf f 2 3 4 = 0)) ∧ f.scope ≠ 0 ∧ (∀ g ∈ bitsOf 8 f.scope, hasSlot s (3 * g + 1) actDebug = true)) ∧
    (∃ (f : _) (s : State), Ready ciTcamScrubCfg f s ∧ f.length = 4 ∧ f.scope ≠ 0) :=
  ⟨by refine ⟨frS 1 (zs 22), up, _, 0, ready_of ?_, ?_, ?_, rfl, ?_⟩ <;> decide +kernel,
   ⟨frS 1 ([0, 1] ++ zs 8), up, 1, by unfold Ready; decide +kernel⟩,
   ⟨frS 1 [0], up, by unfold Ready; decide +kernel⟩,
   ⟨frS 1 ([0, 1, 1] ++ zs 8), up, 1, by unfold Ready; decide +kernel⟩,
   ⟨frS 1 (zs 3), up, by unfold Ready; decide +kernel⟩,
   ⟨frS 1 [0], up, 0, by unfold Ready; decide +kernel⟩,
   ⟨frS 1 (1 :: zs 22), up, 1, by unfold Ready; decide +kernel⟩,
   ⟨frS 1 [0], up, by unfold Ready; decide +kernel⟩⟩

/-- The hypotheses of `StreamCommandsComplete` are met. -/
theorem wit_StreamCommandsComplete :
    (∃ (f : _) (s : State) (stg : _) (u : _), Ready ciStreamKeyLayout f s ∧ f.length = 8 ∧ (pw f 0).toNat < 64 ∧ stg = (fun g t => stgM (stmKeyCfg g (pw f 0).toNat) 0x1FFF1FFF (pw f 1) t) ∧ u < 8 ∧ f.scope = 2 ^ u ∧ keyFails (stg u (begun ciStreamKeyLayout f s)) u = [] ∧ stagedBad (keyGroup u) (stg u (begun ciStreamKeyLayout f s)) = false) ∧
    (∃ (f : _) (s : State), Ready ciStreamIdAdd f s ∧ f.length = 52 ∧ (pw f 12).toNat < 32768 ∧ f.scope ≠ 0) ∧
    (∃ (f : _) (s : State), Ready ciStreamIdDelete f s ∧ f.length = 48 ∧ f.scope ≠ 0) ∧
    (∃ (f : _) (s : State), Ready ciStreamCtxSet f s ∧ f.length = 20 ∧ (pw f 0).toNat < 32768 ∧ fld (pw f 1) 30 2 = 0 ∧ fld (pw f 3) 22 10 = 0 ∧ fld (pw f 3) 11 11 ≤ 1024 ∧ pw f 4 = 0 ∧ f.scope ≠ 0) ∧
    (∃ (f : _) (s : State) (g : _), Ready ciStreamCtxRead f s ∧ f.length = 4 ∧ (pw f 0).toNat < 32768 ∧ g < 8 ∧ f.scope = 2 ^ g) ∧
    (∃ (f : _) (s : State), Ready ciStreamUnblock f s ∧ f.length = 8 ∧ (pw f 0).toNat = 0 ∧ (pw f 1).toNat < 32768 ∧ f.scope ≠ 0) ∧
    (∃ (f : _) (s : State), Ready ciStreamUnblock f s ∧ f.length = 8 ∧ (pw f 0).toNat = 1 ∧ (pw f 1).toNat < 256 ∧ f.scope ≠ 0) ∧
    (∃ (f : _) (s : State), Ready ciStreamUnblock f s ∧ f.length = 8 ∧ (pw f 0).toNat = 2 ∧ polAddrOk (pw f 1) = true ∧ f.scope ≠ 0) ∧
    (∃ (f : _) (s : State), Ready ciStreamCapacity f s ∧ f.length = 0 ∧ f.scope ≠ 0) ∧
    (∃ (f : _) (s : State), Ready ciHistEdgesSet f s ∧ f.length = 64 ∧ (pw f 0).toNat < 64 ∧ (∀ i < 14, (pw f (1 + i)).toNat ≤ (pw f (2 + i)).toNat) ∧ f.scope ≠ 0) ∧
    (∃ (f : _) (s : State) (g : _), Ready ciHistRead f s ∧ f.length = 4 ∧ (pw f 0).toNat < 32768 ∧ g < 8 ∧ f.scope = 2 ^ g) :=
  ⟨by refine ⟨frS 1 [0, 0], up, _, 0, ready_of ?_, ?_, ?_, rfl, ?_⟩ <;> decide +kernel,
   ⟨frS 1 (zs 13), up, by unfold Ready; decide +kernel⟩,
   ⟨frS 1 (zs 12), up, by unfold Ready; decide +kernel⟩,
   ⟨frS 1 (zs 5), up, by unfold Ready; decide +kernel⟩,
   ⟨frS 1 [0], up, 0, by unfold Ready; decide +kernel⟩,
   ⟨frS 1 [0, 0], up, by unfold Ready; decide +kernel⟩,
   ⟨frS 1 [1, 0], up, by unfold Ready; decide +kernel⟩,
   ⟨frS 1 [2, 0], up, by unfold Ready; decide +kernel⟩,
   ⟨frS 1 [], up, by unfold Ready; decide +kernel⟩,
   ⟨frS 1 (zs 16), up, by unfold Ready; decide +kernel⟩,
   ⟨frS 1 [0], up, 0, by unfold Ready; decide +kernel⟩⟩

/-- The hypotheses of `MeterCommandsComplete` are met. -/
theorem wit_MeterCommandsComplete :
    (∃ (f : _) (s : State) (n : _), Ready ciStreamGateSet f s ∧ (pw f 1).toNat = n ∧ n ≤ 64 ∧ f.length = 28 + 4 * n ∧ (pw f 0).toNat < 2 ^ 9 ∧ (pw f 2).toNat < 10 ^ 9 ∧ (pw f 4).toNat < 2 ^ 16 ∧ ((n ≠ 0 → (pw f 5).toNat ≠ 0)) ∧ (∀ i < n, fld (pw f (7 + i)) 5 3 = 0) ∧ ((n ≠ 0 → ∃ i < n, fld (pw f (7 + i)) 8 24 ≠ 0)) ∧ f.scope ≠ 0) ∧
    (∃ (f : _) (s : State) (stg : _) (u : _), Ready ciMeterSet f s ∧ f.length = 20 ∧ ((0x0301 ≤ (sessOf s f).agreed ∨ bit (pw f 4) 7 = false)) ∧ fld (pw f 0) 15 1 = 0 ∧ fld (pw f 0) 17 15 = 0 ∧ stg = (fun g t => (List.range 4).foldl (fun x i => wrStg (polData g i) (pw f (1 + i)) x) (wrStg (polAddr g) (pw f 0) t)) ∧ u < 8 ∧ f.scope = 2 ^ u ∧ (fun t g => meterFails (rdStg t (polAddr g)) (rdStg t (polData g 0)) (rdStg t (polData g 1)) (rdStg t (polData g 2)) (rdStg t (polData g 3))) (stg u (begun ciMeterSet f s)) u = [] ∧ stagedBad (polGroup u) (stg u (begun ciMeterSet f s)) = false) ∧
    (∃ (f : _) (s : State) (g : _), Ready ciMeterRead f s ∧ f.length = 4 ∧ polAddrOk (pw f 0) = true ∧ g < 8 ∧ f.scope = 2 ^ g) ∧
    (∃ (f : _) (s : State) (n : _), Ready ciTenantPolicerMap f s ∧ (pw f 1).toNat = n ∧ 1 ≤ n ∧ n ≤ 1018 ∧ f.length = 8 + 4 * n ∧ (pw f 0).toNat + n ≤ 65536 ∧ f.scope ≠ 0) ∧
    (∃ (f : _) (s : State), Ready ciColourMapSet f s ∧ bit (pw f 0) 0 = false ∧ f.length = 8 ∧ pf f 0 1 3 = 0 ∧ pf f 0 8 24 = 0 ∧ f.scope ≠ 0) ∧
    (∃ (f : _) (s : State), Ready ciColourMapSet f s ∧ bit (pw f 0) 0 = true ∧ f.length = 20 ∧ pf f 0 1 3 = 0 ∧ pf f 0 8 24 = 0 ∧ f.scope ≠ 0) :=
  ⟨⟨frS 1 [0, 1, 0, 0, 0, 1, 0, 0x101], up, 1, by unfold Ready; decide +kernel⟩,
   by refine ⟨frS 1 (zs 5), up, _, 0, ready_of ?_, ?_, ?_, (by decide +kernel), ?_, rfl, ?_⟩ <;> decide +kernel,
   ⟨frS 1 [0], up, 0, by unfold Ready; decide +kernel⟩,
   ⟨frS 1 [0, 1, 0], up, 1, by unfold Ready; decide +kernel⟩,
   ⟨frS 1 [0, 0], up, by unfold Ready; decide +kernel⟩,
   ⟨frS 1 [1, 0, 0, 0, 0], up, by unfold Ready; decide +kernel⟩⟩

/-- The hypotheses of `BpmCommandsComplete` are met. -/
theorem wit_BpmCommandsComplete :
    (∃ (f : _) (s : State) (stg : _) (u : _), Ready ciBpmPoolLayout f s ∧ f.length = 16 ∧ (∀ k < 4, (pw f k).toNat < 2 ^ 15) ∧ stg = (fun d t => (List.range 4).foldl (fun x k => stgM (bpmPoolCfg d k) 0x7FFF (pw f k) x) t) ∧ u < 2 ∧ f.scope = 2 ^ u ∧ layoutFails (stg u (begun ciBpmPoolLayout f s)) u = [] ∧ stagedBad (layoutGroup u) (stg u (begun ciBpmPoolLayout f s)) = false) ∧
    (∃ (f : _) (s : State) (n : _) (stg : _) (u : _), Ready ciBpmQuotaSet f s ∧ f.length = 12 * n ∧ 1 ≤ n ∧ (∀ i < n, fld (pw f (3 * i)) 0 6 < 38 ∧ fld (pw f (3 * i)) 6 2 = 0 ∧ fld (pw f (3 * i)) 10 22 = 0 ∧ (pw f (3 * i + 1)).toNat < 2 ^ 19 ∧ (pw f (3 * i + 2)).toNat < 2 ^ 19) ∧ stg = (fun d t => (List.range n).foldl (fun x i => stgM (bpmMin d (pf f (3 * i) 0 6) (pf f (3 * i) 8 2)) 0x7FFFF (pw f (3 * i + 1)) (stgM (bpmMax d (pf f (3 * i) 0 6) (pf f (3 * i) 8 2)) 0x7FFFF (pw f (3 * i + 2)) x)) t) ∧ u < 2 ∧ f.scope = 2 ^ u ∧ quotaFails (stg u (begun ciBpmQuotaSet f s)) u = [] ∧ stagedBad (quotaGroup u) (stg u (begun ciBpmQuotaSet f s)) = false) ∧
    (∃ (f : _) (s : State), Ready ciBpmStatus f s ∧ f.length = 0 ∧ f.scope ≠ 0) ∧
    (∃ (f : _) (s : State) (stg : _) (u : _), Ready ciBpmBudgetSet f s ∧ f.length = 8 ∧ pf f 0 15 1 = 0 ∧ pf f 0 31 1 = 0 ∧ pf f 1 15 1 = 0 ∧ stg = (fun d t => stgM (bpmBase d + 0x40) 0x7FFF7FFF (pw f 0) (stgM (bpmBase d + 0x44) 0x7FFF (pw f 1) t)) ∧ u < 2 ∧ f.scope = 2 ^ u ∧ plainBudgetFails (stg u (begun ciBpmBudgetSet f s)) u = [] ∧ stagedBad (plainBudgetGroup u) (stg u (begun ciBpmBudgetSet f s)) = false) ∧
    (∃ (f : _) (s : State), Ready ciBpmYellowKeep f s ∧ f.length = 16 ∧ (∀ k < 4, (pw f k).toNat < 2 ^ 19) ∧ f.scope ≠ 0) ∧
    (∃ (f : _) (s : State), Ready ciBpmAudit f s ∧ f.length = 4 ∧ f.scope ≠ 0) ∧
    (∃ (f : _) (s : State), Ready ciBpmCapacity f s ∧ f.length = 0 ∧ f.scope ≠ 0) :=
  ⟨by refine ⟨frS 1 [0x1000, 0x1000, 0x1000, 0x1000], up, _, 0, ready_of ?_, ?_, ?_, rfl, ?_⟩ <;> decide +kernel,
   by refine ⟨frS 1 [0, 0, 0], up, 1, _, 0, ready_of ?_, ?_, ?_, (by decide +kernel), rfl, ?_⟩ <;> decide +kernel,
   ⟨frS 1 [], up, by unfold Ready; decide +kernel⟩,
   by refine ⟨frS 1 [0x08002000, 0x0800], up, _, 0, ready_of ?_, ?_, ?_, (by decide +kernel), ?_, rfl, ?_⟩ <;> decide +kernel,
   ⟨frS 1 (zs 4), up, by unfold Ready; decide +kernel⟩,
   ⟨frS 1 [0], up, by unfold Ready; decide +kernel⟩,
   ⟨frS 1 [], up, by unfold Ready; decide +kernel⟩⟩

/-- The hypotheses of `SchedulerWritesComplete` are met. -/
theorem wit_SchedulerWritesComplete :
    (∃ (f : _) (s : State), Ready ciSchPortSet f s ∧ f.length = 8 ∧ (pw f 0).toNat < 256 ∧ portExists s (pw f 0).toNat = true ∧ pf f 1 23 9 = 0 ∧ pf f 1 15 1 = 0 ∧ pf f 1 0 15 < 31744) ∧
    (∃ (f : _) (s : State) (d : _) (n : _), Ready ciSchNodeSet f s ∧ f.length = 8 ∧ d < 2 ∧ f.scope = 2 ^ d ∧ hasSlot s (schMem d) 0 = true ∧ (pw f 0).toNat = n ∧ n < 31744 ∧ nodeWordOk s d (pw f 1) = true ∧ ((nodePort (pw f 1) = nodePort (nodeGet s d n) ∧ (nodeEn (nodeGet s d n) = true → nodeEn (pw f 1) = true) ∨ (busyQueues s d n).isEmpty = true))) ∧
    (∃ (f : _) (s : State) (n : _), Ready ciSchTenantMap f s ∧ f.length = 4 * (n + 1) ∧ 1 ≤ n ∧ (pw f 0).toNat + n ≤ 65536 ∧ (∀ i < n, fld (pw f (1 + i)) 16 16 = 0 ∧ fld (pw f (1 + i)) 0 15 < 31744) ∧ f.scope ≠ 0 ∧ (∀ d ∈ bitsOf 2 f.scope, hasSlot s (schMem d) 0 = true)) ∧
    (∃ (f : _) (s : State) (d : _), Ready ciSchQueueSet f s ∧ 0x0200 ≤ (sessOf s f).agreed ∧ f.length = 20 ∧ d < 2 ∧ f.scope = 2 ^ d ∧ hasSlot s (schMem d) 0 = true ∧ (pw f 0).toNat < 262144 ∧ queueRecFails [pw f 1, pw f 2, pw f 3, pw f 4] = []) ∧
    (∃ (f : _) (s : State) (d : _) (i : _) (r : _), Ready ciSchQueueSet f s ∧ (sessOf s f).agreed < 0x0200 ∧ f.length = 12 ∧ d < 2 ∧ f.scope = 2 ^ d ∧ hasSlot s (schMem d) 0 = true ∧ (pw f 0).toNat = i ∧ i < 262144 ∧ bit (pw f 1) 11 = false ∧ r = [setBit (pw f 1) 11 (qSpillEn (queueGet s d i)), pw f 2, qw (queueGet s d i) 2, qw (queueGet s d i) 3] ∧ queueRecFails r = []) ∧
    (∃ (f : _) (s : State) (d : _) (stg : _), Ready ciShaperSet f s ∧ f.length = 16 ∧ (pw f 0).toNat < 2 ^ 20 ∧ d < 2 ∧ f.scope = 2 ^ d ∧ ((pf f 0 18 2 = 1 → pf f 0 0 18 < 31744)) ∧ ((pf f 0 18 2 = 2 → namesPort f s (pf f 0 0 18) = true)) ∧ stg = (fun t : State => (List.range 3).foldl (fun z i => wrStg (shpData d i) (pw f (1 + i)) z) (wrStg (shpAddr d) (pw f 0) t)) ∧ shpFails (pw f 0) (pw f 1) (pw f 2) (pw f 3) = [] ∧ shpWaits s d = none ∧ stagedBad (shpGroup d) (stg (begun ciShaperSet f s)) = false) ∧
    (∃ (f : _) (s : State), Ready ciSchSampleCfg f s ∧ f.length = 12 ∧ (pw f 0).toNat < 8 ∧ (pw f 1).toNat < 2 ^ 22 ∧ f.scope ≠ 0) ∧
    (∃ (f : _) (s : State) (stg : _) (u : _), Ready ciSchBudgetSet f s ∧ f.length = 8 ∧ pf f 0 15 1 = 0 ∧ pf f 0 31 1 = 0 ∧ pf f 1 15 1 = 0 ∧ stg = (fun d t => stgM (schBase d + 0x44) 0x7FFF (pw f 1) (stgM (schBase d + 0x40) 0x7FFF7FFF (pw f 0) t)) ∧ u < 2 ∧ f.scope = 2 ^ u ∧ schBudgetFails (stg u (begun ciSchBudgetSet f s)) u = [] ∧ stagedBad (schBudgetGroup u) (stg u (begun ciSchBudgetSet f s)) = false) ∧
    (∃ (f : _) (s : State) (d : _) (m : _), Ready ciSchNodeRehome f s ∧ f.length = 4 ∧ (pw f 0).toNat < 32768 ∧ d < 2 ∧ f.scope = 2 ^ d ∧ freeSpareNode s d = some m ∧ hasSlot s (schMem d) 0 = true) ∧
    (∃ (f : _) (s : State) (d : _), Ready ciSchQueueFlush f s ∧ f.length = 8 ∧ d < 2 ∧ f.scope = 2 ^ d ∧ (pw f 0).toNat = 0 ∧ (pw f 1).toNat < 262144 ∧ hasSlot s (schMem d) 0 = true) ∧
    (∃ (f : _) (s : State) (d : _), Ready ciSchQueueFlush f s ∧ f.length = 8 ∧ d < 2 ∧ f.scope = 2 ^ d ∧ (pw f 0).toNat = 1 ∧ (pw f 1).toNat < 31744 ∧ hasSlot s (schMem d) 0 = true) :=
  ⟨⟨fr [0, 0], up, by unfold Ready; decide +kernel⟩,
   ⟨frS 1 [0, 0x100], up, 0, 0, by unfold Ready; decide +kernel⟩,
   ⟨frS 1 [0, 0], up, 1, by unfold Ready; decide +kernel⟩,
   ⟨frS 1 [0, 2, 0, 0, 0], up, 0, by unfold Ready; decide +kernel⟩,
   by refine ⟨frS 1 [0, 2, 0], upAt 0x0100, 0, 0, _, ready_of ?_, ?_, ?_, (by decide +kernel), ?_, ?_, ?_, (by decide +kernel), ?_, rfl, ?_⟩ <;> decide +kernel,
   by refine ⟨frS 1 (zs 4), up, 0, _, ready_of ?_, ?_, ?_, (by decide +kernel), ?_, ?_, ?_, rfl, ?_⟩ <;> decide +kernel,
   ⟨frS 1 (zs 3), up, by unfold Ready; decide +kernel⟩,
   by refine ⟨frS 1 [0x04000800, 0x0300], up, _, 0, ready_of ?_, ?_, ?_, (by decide +kernel), ?_, rfl, ?_⟩ <;> decide +kernel,
   ⟨frS 1 [0], up, 0, firstSpareNode, by unfold Ready; decide +kernel⟩,
   ⟨frS 1 [0, 0], up, 0, by unfold Ready; decide +kernel⟩,
   ⟨frS 1 [1, 0], up, 0, by unfold Ready; decide +kernel⟩⟩

/-- The hypotheses of `SchedulerReadsComplete` are met. -/
theorem wit_SchedulerReadsComplete :
    (∃ (f : _) (s : State) (d : _), Ready ciShaperRead f s ∧ f.length = 4 ∧ (pw f 0).toNat < 2 ^ 20 ∧ pf f 0 0 18 < levelTop (pf f 0 18 2) ∧ ((pf f 0 18 2 = 1 → pf f 0 0 18 < 31744)) ∧ ((pf f 0 18 2 = 2 → namesPort f s (pf f 0 0 18) = true)) ∧ d < 2 ∧ f.scope = 2 ^ d ∧ hasSlot s (schMem d) 0 = true) ∧
    (∃ (f : _) (s : State) (d : _) (i : _), Ready ciSchQueueRead f s ∧ f.length = 4 ∧ (pw f 0).toNat = i ∧ i < 262144 ∧ d < 2 ∧ f.scope = 2 ^ d ∧ hasSlot s (schMem d) 0 = true) ∧
    (∃ (f : _) (s : State), Ready ciSchCapacity f s ∧ f.length = 0 ∧ f.scope ≠ 0) :=
  ⟨⟨frS 1 [0], up, 0, by unfold Ready; decide +kernel⟩,
   ⟨frS 1 [0], up, 0, 0, by unfold Ready; decide +kernel⟩,
   ⟨frS 1 [], up, by unfold Ready; decide +kernel⟩⟩

/-- The hypotheses of `TimeCommandsComplete` are met. -/
theorem wit_TimeCommandsComplete :
    (∃ (f : _) (s : State), Ready ciTimeGet f s ∧ f.length = 0) ∧
    (∃ (f : _) (s : State), Ready ciTimeSet f s ∧ f.length = 12 ∧ (pw f 0).toNat < 10 ^ 9 ∧ (pw f 2).toNat < 2 ^ 16) ∧
    (∃ (f : _) (s : State), Ready ciTimeStep f s ∧ f.length = 8) ∧
    (∃ (f : _) (s : State), Ready ciTimeSlew f s ∧ f.length = 4 ∧ (sgn 32 (pw f 0).toNat).natAbs ≤ 10 ^ 9) ∧
    (∃ (f : _) (s : State), Ready ciTimeSource f s ∧ f.length = 4 ∧ (pw f 0).toNat < 4) ∧
    (∃ (f : _) (s : State), Ready ciTimePpsCfg f s ∧ f.length = 12 ∧ (pw f 0).toNat < 10 ^ 9 ∧ (pw f 1).toNat ≤ 999999 ∧ (pw f 2).toNat < 2) ∧
    (∃ (f : _) (s : State), Ready ciTimePortAdj f s ∧ f.length = 12 ∧ (pw f 0).toNat < 256 ∧ portUnused s (pw f 0).toNat = false) ∧
    (∃ (f : _) (s : State), Ready ciPtpInstanceSet f s ∧ f.length = 8 ∧ pf f 0 2 6 = 0 ∧ (pw f 0).toNat < 2 ^ 19 ∧ ((0x0300 ≤ (sessOf s f).agreed ∨ bit (pw f 0) 18 = false)) ∧ pw f 1 = 0) :=
  ⟨⟨fr [], up, by unfold Ready; decide +kernel⟩,
   ⟨fr (zs 3), up, by unfold Ready; decide +kernel⟩,
   ⟨fr (zs 2), up, by unfold Ready; decide +kernel⟩,
   ⟨fr [0], up, by unfold Ready; decide +kernel⟩,
   ⟨fr [0], up, by unfold Ready; decide +kernel⟩,
   ⟨fr (zs 3), up, by unfold Ready; decide +kernel⟩,
   ⟨fr (zs 3), up, by unfold Ready; decide +kernel⟩,
   ⟨fr [0, 0], up, by unfold Ready; decide +kernel⟩⟩

/-- The hypotheses of `GateCommandsComplete` are met. -/
theorem wit_GateCommandsComplete :
    (∃ (f : _) (s : State) (p : _) (n : _), Ready ciGateListSet f s ∧ (pw f 2).toNat = n ∧ n ≤ 505 ∧ f.length = 36 + 8 * n ∧ (pw f 0).toNat = p ∧ p < 256 ∧ portExists s p = true ∧ (pw f 1).toNat + n ≤ 1024 ∧ nbit f.opts 0 = false) ∧
    (∃ (f : _) (s : State) (p : _) (n : _) (stg : _) (act : _) (res : _) (u : _), Ready ciGateListSet f s ∧ (pw f 2).toNat = n ∧ n ≤ 505 ∧ f.length = 36 + 8 * n ∧ (pw f 0).toNat = p ∧ p < 256 ∧ portExists s p = true ∧ (pw f 1).toNat + n ≤ 1024 ∧ nbit f.opts 0 = true ∧ stg = (fun b : State => gateSetStage p f (setGateStg p (stageEntries (pw f 1).toNat ((List.range n).map (fun i => (pw f (9 + 2 * i), pw f (10 + 2 * i)))) (gateStgOf b p)) b)) ∧ act = (fun b : State => gatListCommit p (stg b)) ∧ res = (fun b : State => if rdF (act b) (gatStat p) 0 2 = 2 then err eRange (0x80 + rdF (act b) (gatStat p) 2 3) b else ok [wd (rdF (act b) (gatStat p) 0 5), rd (act b) (gatChange p 0), rd (act b) (gatChange p 1), rd (act b) (gatChange p 2)] (act b)) ∧ u = stg (begun ciGateListSet f s) ∧ stagedBad (gatGroup p) u = false ∧ gateFaults (stagedBank u p) (rdStg u (gatAdmin p 1)).toNat = []) ∧
    (∃ (f : _) (s : State) (p : _) (bank : _), Ready ciGateListRead f s ∧ f.length = 16 ∧ (pw f 0).toNat = p ∧ p < 256 ∧ portExists s p = true ∧ (pw f 1).toNat ≤ 1 ∧ (pw f 2).toNat + (pw f 3).toNat ≤ 1024 ∧ (pw f 3).toNat ≤ 501 ∧ bank = (if (pw f 1).toNat = 0 then adminBank s p else (gatOf s p).oper)) ∧
    (∃ (f : _) (s : State) (p : _), Ready ciGatePortCfg f s ∧ f.length = 12 ∧ (pw f 0).toNat = p ∧ p < 256 ∧ portExists s p = true ∧ (pw f 1).toNat < 2 ^ 19 ∧ (pw f 2).toNat < 2 ^ 16) ∧
    (∃ (f : _) (s : State) (p : _), Ready ciGateListDiscard f s ∧ f.length = 4 ∧ (pw f 0).toNat = p ∧ p < 256 ∧ portExists s p = true) :=
  ⟨⟨fr (zs 9), up, 0, 0, by unfold Ready; decide +kernel⟩,
   by refine ⟨frO 1 0 [0, 0, 1, 1, 0, 0, 0, 0x1000, 0, 0x1000, 0], up, 0, 1, _, _, _, _, ready_of ?_, ?_, ?_, (by decide +kernel), ?_, ?_, ?_, (by decide +kernel), ?_, rfl, rfl, rfl, rfl, ?_⟩ <;> decide +kernel,
   by refine ⟨fr (zs 4), up, 0, _, ready_of ?_, ?_, ?_, (by decide +kernel), ?_, ?_, ?_, (by decide +kernel), rfl⟩ <;> decide +kernel,
   ⟨fr (zs 3), up, 0, by unfold Ready; decide +kernel⟩,
   ⟨fr [0], up, 0, by unfold Ready; decide +kernel⟩⟩

/-- The hypotheses of `RedundancyCommandsComplete` are met. -/
theorem wit_RedundancyCommandsComplete :
    (∃ (f : _) (s : State) (p : _), Ready ciFrePortCfg f s ∧ f.length = 8 ∧ (pw f 0).toNat = p ∧ p < 256 ∧ portExists s p = true ∧ fld (pw f 1) 12 2 = 0 ∧ fld (pw f 1) 29 3 = 0 ∧ ((bit (pw f 1) 10 = true → domainElsewhere s p (fld (pw f 1) 6 4) = false))) ∧
    (∃ (f : _) (s : State) (n : _), Ready ciFreHandleMap f s ∧ f.length = 4 * (n + 1) ∧ 1 ≤ n ∧ (pw f 0).toNat + n ≤ 262144 ∧ (∀ i < n, fld (pw f (1 + i)) 15 1 = 0 ∧ fld (pw f (1 + i)) 29 3 = 0) ∧ f.scope ≠ 0) ∧
    (∃ (f : _) (s : State) (d : _), Ready ciFreGenSet f s ∧ f.length = 4 ∧ pf f 0 14 2 = 0 ∧ d < 2 ∧ f.scope = 2 ^ d) ∧
    (∃ (f : _) (s : State) (d : _), Ready ciFreRcvSet f s ∧ f.length = 16 ∧ (pw f 0).toNat < 4096 ∧ rcvFails (pw f 1) (pw f 3) = [] ∧ d < 2 ∧ f.scope = 2 ^ d) ∧
    (∃ (f : _) (s : State) (d : _) (n : _), Ready ciFreRcvRead f s ∧ f.length = 4 ∧ (pw f 0).toNat = n ∧ n < 4096 ∧ d < 2 ∧ f.scope = 2 ^ d) ∧
    (∃ (f : _) (s : State) (d : _) (n : _), Ready ciFreRcvReset f s ∧ f.length = 4 ∧ (pw f 0).toNat = n ∧ n < 4096 ∧ d < 2 ∧ f.scope = 2 ^ d) ∧
    (∃ (f : _) (s : State), Ready ciFreDupCfg f s ∧ f.length = 40 ∧ (pw f 0).toNat < 2 ^ 16 ∧ (∀ i < 4, pf f (3 + 2 * i) 16 15 = 0) ∧ f.scope ≠ 0) ∧
    (∃ (f : _) (s : State), Ready ciFreDupStatus f s ∧ f.length = 0 ∧ f.scope ≠ 0) :=
  ⟨⟨fr [0, 0], up, 0, by unfold Ready; decide +kernel⟩,
   ⟨frS 1 [0, 0], up, 1, by unfold Ready; decide +kernel⟩,
   ⟨frS 1 [0], up, 0, by unfold Ready; decide +kernel⟩,
   ⟨frS 1 (zs 4), up, 0, by unfold Ready; decide +kernel⟩,
   ⟨frS 1 [0], up, 0, 0, by unfold Ready; decide +kernel⟩,
   ⟨frS 1 [0], up, 0, 0, by unfold Ready; decide +kernel⟩,
   ⟨frS 1 (zs 10), up, by unfold Ready; decide +kernel⟩,
   ⟨frS 1 [], up, by unfold Ready; decide +kernel⟩⟩

/-- The hypotheses of `MicrocodeCommandsComplete` are met. -/
theorem wit_MicrocodeCommandsComplete :
    (∃ (f : _) (s : State) (e : _) (b : _) (t : _) (base : _), Ready ciUcodePatchLoad f s ∧ f.length = 16 ∧ e < 2 ∧ pf f 0 1 2 = e + 1 ∧ (pw f 0).toNat < 8 ∧ ((bit (pw f 0) 0 = true → f.mb ≤ 1)) ∧ (pw f 1).toNat ≤ 65536 ∧ imageFrom f (bit (pw f 0) 0) (pw f 1).toNat (w64 (pw f 2) (pw f 3)) (begun ciUcodePatchLoad f s) = (b, t) ∧ s.ucode.gaps.find? (fun q => q.e == e && q.mb == mbKey f) = none ∧ enginesBusy s e = false ∧ patchGap t e (imgN b) = some base) ∧
    (∃ (f : _) (s : State) (e : _) (b : _) (t : _), Ready ciUcodePatchLoad f s ∧ f.length = 16 ∧ e < 2 ∧ pf f 0 1 2 = e + 1 ∧ (pw f 0).toNat < 8 ∧ ((bit (pw f 0) 0 = true → f.mb ≤ 1)) ∧ (pw f 1).toNat ≤ 65536 ∧ imageFrom f (bit (pw f 0) 0) (pw f 1).toNat (w64 (pw f 2) (pw f 3)) (begun ciUcodePatchLoad f s) = (b, t) ∧ s.ucode.gaps.find? (fun q => q.e == e && q.mb == mbKey f) = none ∧ enginesBusy s e = false ∧ patchGap t e (imgN b) = none ∧ nbit f.opts 1 = true ∧ enginesBusy (revertSet e t) e = false) ∧
    (∃ (f : _) (s : State) (e : _), Ready ciUcodePatchSwitch f s ∧ f.length = 4 ∧ e < 2 ∧ (pw f 0).toNat = e + 1 ∧ enginesBusy s e = false) ∧
    (∃ (f : _) (s : State) (e : _), Ready ciUcodePatchRevert f s ∧ f.length = 4 ∧ e < 2 ∧ (pw f 0).toNat = e + 1 ∧ enginesBusy s e = false) ∧
    (∃ (f : _) (s : State) (e : _), Ready ciUcodeQuery f s ∧ f.length = 4 ∧ e < 2 ∧ (pw f 0).toNat = e + 1) ∧
    (∃ (f : _) (s : State) (p : _), Ready ciPortParseProfile f s ∧ f.length = 8 ∧ (pw f 0).toNat = p ∧ p < 256 ∧ portExists s p = true ∧ profOk 0 (pw f 1).toNat = true) ∧
    (∃ (f : _) (s : State) (p : _), Ready ciRwePortProfile f s ∧ f.length = 8 ∧ (pw f 0).toNat = p ∧ p < 256 ∧ portExists s p = true ∧ profOk 1 (pw f 1).toNat = true) :=
  ⟨by refine ⟨fr [2, 0, 0, 0], up, 0, _, _, 0, ready_of ?_, ?_, ?_, (by decide +kernel), ?_, ?_, ?_, rfl, ?_⟩ <;> decide +kernel,
   by refine ⟨frO 2 0 [2, 16, 0, 0], upPatch, 0, _, _, ready_of ?_, ?_, ?_, (by decide +kernel), ?_, ?_, ?_, rfl, ?_⟩ <;> decide +kernel,
   ⟨fr [1], up, 0, by unfold Ready; decide +kernel⟩,
   ⟨fr [1], up, 0, by unfold Ready; decide +kernel⟩,
   ⟨fr [1], up, 0, by unfold Ready; decide +kernel⟩,
   ⟨fr [0, 0], up, 0, by unfold Ready; decide +kernel⟩,
   ⟨fr [0, 0], up, 0, by unfold Ready; decide +kernel⟩⟩

/-- The hypotheses of `FieldInputCommandsComplete` are met. -/
theorem wit_FieldInputCommandsComplete :
    (∃ (f : _) (s : State), Ready ciFiCfg f s ∧ f.length = 8 ∧ (pw f 0).toNat < 32 ∧ (pw f 1).toNat < 2 ^ 24) ∧
    (∃ (f : _) (s : State), Ready ciFiRead f s ∧ f.length = 8 ∧ (pw f 0).toNat < 32 ∧ (pw f 0).toNat + (pw f 1).toNat ≤ 32) ∧
    (∃ (f : _) (s : State) (j : _) (x : _), Ready ciFioPubSet f s ∧ f.length = 32 ∧ (pw f 0).toNat = j ∧ j < 8 ∧ x = { pubOf s j with cfg := (List.range 7).map (fun i => pw f (1 + i)), fresh := true } ∧ pubFormat x ≠ 3 ∧ pf f 1 2 2 = 0 ∧ pf f 1 12 4 = 0 ∧ pf f 1 28 4 = 0 ∧ ringPortsOk s x = true ∧ (pw f 6).toNat < 2 ^ 16) ∧
    (∃ (f : _) (s : State) (n : _) (k : _), Ready ciFioGooseTemplate f s ∧ pf f 0 16 9 = n ∧ pf f 2 16 6 = k ∧ f.length = 12 + 4 * k + 4 * ((n + 3) / 4) ∧ pf f 0 3 13 = 0 ∧ n ≤ 256 ∧ pf f 0 25 7 = 0 ∧ pf f 1 0 9 + 4 ≤ n ∧ pf f 1 16 9 + 4 ≤ n ∧ pf f 2 0 9 + 8 ≤ n ∧ k ≤ 48 ∧ (∀ i < k, pf f (3 + i) 16 6 < 48 ∧ pf f (3 + i) 0 9 + (if pf f (3 + i) 24 1 = 0 then 1 else 8) ≤ n)) ∧
    (∃ (f : _) (s : State), Ready ciFioEventRingCfg f s ∧ f.length = 12 ∧ pf f 0 2 4 ≤ 8) ∧
    (∃ (f : _) (s : State), Ready ciFioUtcOffset f s ∧ f.length = 4 ∧ pf f 0 16 15 = 0) :=
  ⟨⟨fr [0, 0], up, by unfold Ready; decide +kernel⟩,
   ⟨fr [0, 1], up, by unfold Ready; decide +kernel⟩,
   by refine ⟨fr (zs 8), up, 0, _, ready_of ?_, ?_, ?_, (by decide +kernel), rfl, ?_⟩ <;> decide +kernel,
   ⟨fr [0x80000, 0, 0, 0, 0], up, 8, 0, by unfold Ready; decide +kernel⟩,
   ⟨fr (zs 3), up, by unfold Ready; decide +kernel⟩,
   ⟨fr [0], up, by unfold Ready; decide +kernel⟩⟩

/-- The hypotheses of `FieldOutputCommandsComplete` are met. -/
theorem wit_FieldOutputCommandsComplete :
    (∃ (f : _) (s : State) (j : _), Ready ciFoCfg f s ∧ f.length = 8 ∧ (pw f 0).toNat = j ∧ j < 16 ∧ (pw f 1).toNat < 2 ^ 29 ∧ pf f 1 25 2 ≠ 3) ∧
    (∃ (f : _) (s : State), Ready ciFoForce f s ∧ f.length = 8) ∧
    (∃ (f : _) (s : State) (start : _), Ready ciFoTimeEvent f s ∧ f.length = 20 ∧ pf f 0 6 2 = 0 ∧ pf f 0 12 2 ≠ 3 ∧ pf f 0 14 2 = 0 ∧ (pw f 0).toNat < 2 ^ 17 ∧ (pw f 1).toNat < 10 ^ 9 ∧ (pw f 3).toNat < 2 ^ 16 ∧ start = ((pw f 2).toNat + (pw f 3).toNat * 2 ^ 32) * 10 ^ 9 + (pw f 1).toNat ∧ (((bit (pw f 0) 16 = true ∧ (pw f 4).toNat = 0) → netNs s + 1000 ≤ start))) ∧
    (∃ (f : _) (s : State), Ready ciFoRelease f s ∧ f.length = 4 ∧ (pw f 0).toNat < 2 ^ 16 ∧ s.fcl.hold < 4) ∧
    (∃ (f : _) (s : State), Ready ciFoRead f s ∧ f.length = 8 ∧ (pw f 0).toNat < 16 ∧ (pw f 0).toNat + (pw f 1).toNat ≤ 16) :=
  ⟨⟨fr [0, 0], up, 0, by unfold Ready; decide +kernel⟩,
   ⟨fr [0, 0], up, by unfold Ready; decide +kernel⟩,
   by refine ⟨fr (zs 5), up, _, ready_of ?_, ?_, ?_, (by decide +kernel), ?_, ?_, ?_, (by decide +kernel), rfl, ?_⟩ <;> decide +kernel,
   ⟨fr [0], up, by unfold Ready; decide +kernel⟩,
   ⟨fr [0, 1], up, by unfold Ready; decide +kernel⟩⟩

/-- The hypotheses of `CascadeCommandsComplete` are met. -/
theorem wit_CascadeCommandsComplete :
    (∃ (f : _) (s : State), Ready ciCasRoleSet f s ∧ f.length = 4 ∧ (pw f 0).toNat < 3) ∧
    (∃ (f : _) (s : State), Ready ciCasDeviceId f s ∧ f.length = 4 ∧ (pw f 0).toNat < 0xFFFFF ∧ (sessWith s (·.up)) = none) ∧
    (∃ (f : _) (s : State), Ready ciCasPortCfg f s ∧ f.length = 8 ∧ (pw f 0).toNat < 256 ∧ portExists s (pw f 0).toNat = true ∧ (pw f 1).toNat < 8 ∧ pf f 1 1 2 ∈ [1, 2]) ∧
    (∃ (f : _) (s : State), Ready ciCasBudgetSet f s ∧ f.length = 8) ∧
    (∃ (f : _) (s : State), Ready ciCasRelayCfg f s ∧ f.length = 4 ∧ pf f 0 0 2 = 0 ∧ pf f 0 10 6 = 0 ∧ pf f 0 3 2 ≠ 3) ∧
    (∃ (f : _) (s : State), Ready ciCasJoinCfg f s ∧ 4 ≤ f.length ∧ pf f 0 1 7 = 0 ∧ pf f 0 16 16 = 0 ∧ isWorker s = true ∧ (∀ d ∈ (f.payload.drop 1).map (·.toNat), 1 ≤ d ∧ d < 0xFFFFF)) ∧
    (∃ (f : _) (s : State), Ready ciCasJoinCfg f s ∧ 4 ≤ f.length ∧ pf f 0 1 7 = 0 ∧ pf f 0 16 16 = 0 ∧ isManager s = true ∧ (∀ d ∈ (f.payload.drop 1).map (·.toNat), 1 ≤ d ∧ d < 0xFFFFF)) ∧
    (∃ (f : _) (s : State) (k : _) (x : _), Ready ciCasLeave f s ∧ f.length = 4 ∧ casRole s ≠ 0 ∧ sessWith s (fun y => y.up && y.device == (pw f 0).toNat) = some k ∧ sessAt s k = some x) ∧
    (∃ (f : _) (s : State) (k : _) (x : _), Ready ciCasSessionRead f s ∧ f.length = 4 ∧ casRole s ≠ 0 ∧ sessWith s (fun y => y.up && y.device == (pw f 0).toNat) = some k ∧ sessAt s k = some x) ∧
    (∃ (f : _) (s : State) (k : _) (x : _) (ws : _), Ready ciCasForward f s ∧ 20 ≤ f.length ∧ ws = f.payload.drop 1 ∧ 4 * ws.length = fld (ws.getD 0 0) 16 12 + 16 ∧ isManager s = true ∧ sessWith s (fun y => y.up && y.device == (pw f 0).toNat) = some k ∧ sessAt s k = some x) ∧
    (∃ (f : _) (s : State), Ready ciCasWorkerList f s ∧ f.length = 0 ∧ isManager s = true) :=
  ⟨⟨fr [0], up, by unfold Ready; decide +kernel⟩,
   ⟨fr [1], up, by unfold Ready; decide +kernel⟩,
   ⟨fr [0, 2], up, by unfold Ready; decide +kernel⟩,
   ⟨fr [0, 0], up, by unfold Ready; decide +kernel⟩,
   ⟨fr [0], up, by unfold Ready; decide +kernel⟩,
   ⟨fr [0], upCas 1, by unfold Ready; decide +kernel⟩,
   ⟨fr [0], upCas 2, by unfold Ready; decide +kernel⟩,
   ⟨fr [5], upCas 1, 1, sess5, by unfold Ready; decide +kernel⟩,
   ⟨fr [5], upCas 1, 1, sess5, by unfold Ready; decide +kernel⟩,
   by refine ⟨fr [5, 0, 0, 0, 0], upCas 2, 1, sess5, _, ready_of ?_, ?_, rfl, ?_⟩ <;> decide +kernel,
   ⟨fr [], upCas 2, by unfold Ready; decide +kernel⟩⟩

/-- The hypotheses of `FaultCommandsComplete` are met. -/
theorem wit_FaultCommandsComplete :
    (∃ (f : _) (s : State), Ready ciFaultStatus f s ∧ f.length = 0) ∧
    (∃ (f : _) (s : State), Ready ciFaultLog f s ∧ f.length = 4) ∧
    (∃ (f : _) (s : State), Ready ciFaultAck f s ∧ f.length = 16 ∧ (pw f 3).toNat < 2 ^ 16) ∧
    (∃ (f : _) (s : State) (n : _), Ready ciFaultSrcCfg f s ∧ f.length = 24 ∧ (pw f 0).toNat = n ∧ n < 112 ∧ pf f 1 0 3 ≤ 5 ∧ (pw f 1).toNat < 2 ^ 10 ∧ (pw f 5).toNat < 2 ^ 16 ∧ rdBit s fclCfg 18 = false) ∧
    (∃ (f : _) (s : State), Ready ciFaultWindow f s ∧ f.length = 4 ∧ (pw f 0).toNat < 2 ^ 18 ∧ rdBit s fclCfg 18 = false) ∧
    (∃ (f : _) (s : State), Ready ciFaultInject f s ∧ f.length = 12 ∧ (pw f 0).toNat < 112 ∧ (pw f 2).toNat < 2 ^ 16 ∧ unitNamed (pf f 2 12 4) (pf f 2 0 12) = true) ∧
    (∃ (f : _) (s : State), Ready ciFaultLock f s ∧ f.length = 0) :=
  ⟨⟨fr [], up, by unfold Ready; decide +kernel⟩,
   ⟨fr [0], up, by unfold Ready; decide +kernel⟩,
   ⟨fr (zs 4), up, by unfold Ready; decide +kernel⟩,
   ⟨fr (zs 6), up, 0, by unfold Ready; decide +kernel⟩,
   ⟨fr [20], up, by unfold Ready; decide +kernel⟩,
   ⟨fr (zs 3), up, by unfold Ready; decide +kernel⟩,
   ⟨fr [], up, by unfold Ready; decide +kernel⟩⟩

/-- The hypotheses of `UnitCommandsComplete` are met. -/
theorem wit_UnitCommandsComplete :
    (∃ (f : _) (s : State) (kind : _) (idx : _), Ready ciUnitDrain f s ∧ f.length = 4 ∧ pf f 0 12 4 = kind ∧ pf f 0 0 12 = idx ∧ (pw f 0).toNat < 2 ^ 16 ∧ unitNamed kind idx = true ∧ testable kind = true ∧ (unitOf s kind idx).state = 0 ∧ ((kind = 1 → idx < 32 → spareServes s idx = false ∧ spareFree s (idx / 16) = true)) ∧ ((kind = 1 → 32 ≤ idx → s.bus.spareOf.getD (idx - 32) 0 = 0))) ∧
    (∃ (f : _) (s : State) (kind : _) (idx : _), Ready ciUnitTest f s ∧ f.length = 8 ∧ pf f 0 12 4 = kind ∧ pf f 0 0 12 = idx ∧ (pw f 0).toNat < 2 ^ 16 ∧ unitNamed kind idx = true ∧ testable kind = true ∧ (unitOf s kind idx).state = 2 ∧ (pw f 1).toNat < 2 ∧ ((pf f 1 0 1 = 1 → kind = 2 ∨ kind = 3)) ∧ ((pf f 1 0 1 = 0 → kind = 2 ∨ kind = 3 → outOfService s 2 (siblingOf (if kind = 3 then idx / 80 else idx)) = false))) ∧
    (∃ (f : _) (s : State) (kind : _) (idx : _), Ready ciUnitReturn f s ∧ f.length = 4 ∧ pf f 0 12 4 = kind ∧ pf f 0 0 12 = idx ∧ (pw f 0).toNat < 2 ^ 16 ∧ unitNamed kind idx = true ∧ testable kind = true ∧ (unitOf s kind idx).state = 2) ∧
    (∃ (f : _) (s : State), Ready ciUnitStatus f s ∧ f.length = 0) ∧
    (∃ (f : _) (s : State) (idx : _), Ready ciRehome f s ∧ f.length = 4 ∧ (pw f 0).toNat = 2 ^ 12 + idx ∧ idx < 32 ∧ spareServes s idx = false ∧ spareFree s (idx / 16) = true) :=
  ⟨⟨fr [0x2000], up, 2, 0, by unfold Ready; decide +kernel⟩,
   ⟨fr [0x2000, 0], upIsolated, 2, 0, by unfold Ready; decide +kernel⟩,
   ⟨fr [0x2000], upIsolated, 2, 0, by unfold Ready; decide +kernel⟩,
   ⟨fr [], up, by unfold Ready; decide +kernel⟩,
   ⟨fr [0x1000], up, 0, by unfold Ready; decide +kernel⟩⟩

/-- The hypotheses of `DumpCommandsComplete` are met. -/
theorem wit_DumpCommandsComplete :
    (∃ (f : _) (s : State) (k : _), Ready ciDumpSetCfg f s ∧ f.length = 16 ∧ (pw f 0).toNat = k ∧ k < 11 ∧ (pw f 1).toNat < 2 ^ 26 ∧ (pw f 2).toNat < 2 ^ 19 ∧ (pw f 3).toNat < 2 ^ 19) ∧
    (∃ (f : _) (s : State) (a : _), Ready ciDumpRingCfg f s ∧ f.length = 16 ∧ (pw f 0).toNat < 4 ∧ pf f 1 0 12 = 0 ∧ pf f 3 2 4 ≤ 10 ∧ a = pmcBase + 0x200 + 0x20 * (pw f 0).toNat) ∧
    (∃ (f : _) (s : State) (a : _), Ready ciSampleRingCfg f s ∧ f.length = 16 ∧ (pw f 0).toNat < 3 ∧ pf f 1 0 12 = 0 ∧ pf f 3 2 4 ≤ 10 ∧ a = pmcBase + 0x300 + 0x20 * (pw f 0).toNat) ∧
    (∃ (f : _) (s : State), Ready ciDumpNow f s ∧ f.length = 4 ∧ (pw f 0).toNat < 2 ^ 11 ∧ (∀ k ∈ bitsOf 11 (pw f 0).toNat, (setSt s k).pend = [])) ∧
    (∃ (f : _) (s : State) (k : _) (ws : _), Ready ciDumpRead f s ∧ f.length = 12 ∧ (pw f 0).toNat = k ∧ k < 11 ∧ ws = dumpHeld s k ∧ (pw f 1).toNat ≤ 4 * ws.length ∧ pf f 1 0 2 = 0 ∧ (pw f 2).toNat ≤ 4064 ∧ pf f 2 0 2 = 0) ∧
    (∃ (f : _) (s : State) (k : _) (r : _), Ready ciCounterRead f s ∧ f.length = 8 ∧ pf f 0 0 8 = k ∧ k < 11 ∧ (pw f 0).toNat < 2 ^ 12 ∧ (setRecs (wr (pmcSet k 8) 0x7FFFF (wr (pmcSet k 4) 0 (begun ciCounterRead f s))) k).find? (fun r => r.kind == pf f 0 8 4 && r.idx == (pw f 1).toNat) = some r) ∧
    (∃ (f : _) (s : State), Ready ciPktSampleCfg f s ∧ f.length = 8 ∧ (pw f 0).toNat < 2 ^ 25 ∧ (pw f 1).toNat < 2 ^ 24) ∧
    (∃ (f : _) (s : State), Ready ciOvfSampleCfg f s ∧ f.length = 8 ∧ (pw f 1).toNat < 2 ^ 28) ∧
    (∃ (f : _) (s : State), Ready ciSlotRead f s ∧ f.length = 4) :=
  ⟨⟨fr (zs 4), up, 0, by unfold Ready; decide +kernel⟩,
   by refine ⟨fr (zs 4), up, _, ready_of ?_, ?_, ?_, (by decide +kernel), ?_, rfl⟩ <;> decide +kernel,
   by refine ⟨fr (zs 4), up, _, ready_of ?_, ?_, ?_, (by decide +kernel), ?_, rfl⟩ <;> decide +kernel,
   ⟨fr [1], up, by unfold Ready; decide +kernel⟩,
   by refine ⟨fr [0, 0, 0], up, 0, _, ready_of ?_, ?_, ?_, (by decide +kernel), rfl, ?_⟩ <;> decide +kernel,
   ⟨fr [0, 0], up, 0, portDump up 0, by unfold Ready; decide +kernel⟩,
   ⟨fr [0, 0], up, by unfold Ready; decide +kernel⟩,
   ⟨fr [1, 0], up, by unfold Ready; decide +kernel⟩,
   ⟨fr [1], up, by unfold Ready; decide +kernel⟩⟩

/-- The hypotheses of `StartCommandsComplete` are met. -/
theorem wit_StartCommandsComplete :
    (∃ (f : _) (s : State), Ready ciStartStatus f s ∧ f.length = 0) ∧
    (∃ (f : _) (s : State), Ready ciFwRestart f s ∧ f.length = 0 ∧ fwStage s ≠ 0) ∧
    (∃ (f : _) (s : State) (img : _), Ready ciFwBoot f s ∧ f.length = 4 ∧ (pw f 0).toNat ≤ 65536 ∧ s.start.loader = true ∧ s.start.loop = false ∧ s.fcl.hold = 0 ∧ bootSrc s = 2 ∧ s.start.step = 6 ∧ img = xferBytes s (mbKey f) (pw f 0).toNat) ∧
    (∃ (f : _) (s : State) (r : _), Ready ciFwImageWrite f s ∧ f.length = 16 ∧ (pw f 0).toNat < 2 ∧ ((bit (pw f 0) 0 = true → f.mb ≤ 1)) ∧ ((bit (pw f 0) 0 = false → (pw f 1).toNat ≤ 65536)) ∧ r = imageFrom f (bit (pw f 0) 0) (pw f 1).toNat (w64 (pw f 2) (pw f 3)) (begun ciFwImageWrite f s)) ∧
    (∃ (f : _) (s : State), Ready ciFwSlotSelect f s ∧ f.length = 4 ∧ (pw f 0).toNat < 2) ∧
    (∃ (f : _) (s : State), Ready ciPrimroseHandover f s ∧ f.length = 0 ∧ s.start.handedOver = false) ∧
    (∃ (f : _) (s : State), Ready ciStartRetry f s ∧ f.length = 0) :=
  ⟨⟨fr [], up, by unfold Ready; decide +kernel⟩,
   ⟨fr [], up, by unfold Ready; decide +kernel⟩,
   by refine ⟨fr [0], upLoader, _, ready_of ?_, ?_, ?_, (by decide +kernel), ?_, ?_, ?_, (by decide +kernel), rfl⟩ <;> decide +kernel,
   by refine ⟨fr (zs 4), up, _, ready_of ?_, ?_, ?_, (by decide +kernel), ?_, rfl⟩ <;> decide +kernel,
   ⟨fr [0], up, by unfold Ready; decide +kernel⟩,
   ⟨fr [], up, by unfold Ready; decide +kernel⟩,
   ⟨fr [], up, by unfold Ready; decide +kernel⟩⟩

/-- The hypotheses of `IdentityCommandsComplete` are met. -/
theorem wit_IdentityCommandsComplete :
    (∃ (f : _) (s : State), Ready ciIdCertRead f s ∧ f.length = 12 ∧ (pw f 0).toNat = 1 ∧ (pw f 1).toNat ≤ s.sec.owner.length ∧ (pw f 2).toNat ≤ 4072) ∧
    (∃ (f : _) (s : State), Ready ciIdCertRead f s ∧ f.length = 12 ∧ (pw f 0).toNat = 0 ∧ (pw f 1).toNat ≤ Config.deviceChain.length ∧ (pw f 2).toNat ≤ 4072) ∧
    (∃ (f : _) (s : State) (n : _), Ready ciMeasurementRead f s ∧ f.length = 4 ∧ (pw f 0).toNat = n ∧ 1 ≤ n ∧ n ≤ 8) ∧
    (∃ (f : _) (s : State) (n : _), Ready ciOwnerCertSet f s ∧ (pw f 0).toNat = n ∧ 1 ≤ n ∧ n ≤ 2048 ∧ f.length = 4 + 4 * ((n + 3) / 4) ∧ s.sec.owner = []) ∧
    (∃ (f : _) (s : State) (n : _), Ready ciOwnerCertSet f s ∧ (pw f 0).toNat = n ∧ 1 ≤ n ∧ n ≤ 2048 ∧ f.length = 4 + 4 * ((n + 3) / 4) + 200 ∧ s.sec.owner ≠ []) ∧
    (∃ (f : _) (s : State), Ready ciOwnerCertClear f s ∧ f.length = 200 ∧ s.sec.owner ≠ []) ∧
    (∃ (f : _) (s : State), Ready ciSvnCommit f s ∧ f.length = 0) ∧
    (∃ (f : _) (s : State), Ready ciSpdmMsg f s ∧ 0 < f.length) ∧
    (∃ (f : _) (s : State), Ready ciDebugUnlock f s ∧ f.length = 200) ∧
    (∃ (f : _) (s : State), Ready ciDebugLock f s ∧ f.length = 0) ∧
    (∃ (f : _) (s : State), Ready ciDebugPolicy f s ∧ f.length = 4 ∧ s.sec.owner = [] ∧ (pw f 0).toNat < 2) ∧
    (∃ (f : _) (s : State), Ready ciDebugPolicy f s ∧ f.length = 204 ∧ s.sec.owner ≠ [] ∧ (pw f 0).toNat < 2 ∧ ((payloadBytes f 1 200).getD 5 0).toNat = 1) :=
  ⟨⟨fr [1, 0, 16], upOwned, by unfold Ready; decide +kernel⟩,
   ⟨fr [0, 0, 16], up, by unfold Ready; decide +kernel⟩,
   ⟨fr [1], up, 1, by unfold Ready; decide +kernel⟩,
   ⟨fr [4, 0], up, 4, by unfold Ready; decide +kernel⟩,
   ⟨fr (4 :: zs 51), upOwned, 4, by unfold Ready; decide +kernel⟩,
   ⟨fr (zs 50), upOwned, by unfold Ready; decide +kernel⟩,
   ⟨fr [], up, by unfold Ready; decide +kernel⟩,
   ⟨fr [0], up, by unfold Ready; decide +kernel⟩,
   ⟨{ fr (zs 50) with mb := 4, session := 5 }, up, by unfold Ready; decide +kernel⟩,
   ⟨fr [], up, by unfold Ready; decide +kernel⟩,
   ⟨fr [0], up, by unfold Ready; decide +kernel⟩,
   ⟨fr (0 :: 0 :: 0x100 :: zs 48), upOwned, by unfold Ready; decide +kernel⟩⟩

/-- The hypotheses of `IslandCommandsComplete` are met. -/
theorem wit_IslandCommandsComplete :
    (∃ (f : _) (s : State) (stg : _) (u : _), Ready ciIslCfgSet f s ∧ f.length = 20 ∧ stg = (fun b : State => (maskBits f 0 3).foldl (fun t i => stgM (islCfg i) 0x03F33F3F (pw f 3) (stgM (islLoop i) 0x1F1F (pw f 4) t)) b) ∧ u = stg (begun ciIslCfgSet f s) ∧ pwiFails u = [] ∧ stagedBad pwiGroup u = false) ∧
    (∃ (f : _) (s : State) (i : _), Ready ciIslStatus f s ∧ f.length = 4 ∧ (pw f 0).toNat = i ∧ i < islCount) ∧
    (∃ (f : _) (s : State), Ready ciIslCeilTime f s ∧ f.length = 4 ∧ (pw f 0).toNat < 2 ^ 20) ∧
    (∃ (f : _) (s : State) (stg : _) (u : _), Ready ciIslLoopTiming f s ∧ f.length = 8 ∧ stg = (fun b : State => stgM pwiTiming 0x0FFFFFFF (pw f 0) (stgM pwiRatio 0xFFFF (pw f 1) b)) ∧ u = stg (begun ciIslLoopTiming f s) ∧ pwiFails u = [] ∧ stagedBad pwiGroup u = false) ∧
    (∃ (f : _) (s : State), Ready ciIslCeilRearm f s ∧ f.length = 12) ∧
    (∃ (f : _) (s : State), Ready ciColStallCfg f s ∧ f.length = 44 ∧ (pw f 9).toNat < 2 ^ 16) ∧
    (∃ (f : _) (s : State) (c : _) (d : _), Ready ciColStatus f s ∧ f.length = 4 ∧ (pw f 0).toNat = c + d * 2 ^ 16 ∧ c < cellCount ∧ d < domCount) ∧
    (∃ (f : _) (s : State), Ready ciColRearm f s ∧ f.length = 52 ∧ (pw f 9).toNat < 2 ^ 16 ∧ (pw f 12).toNat < 2 ^ 8) :=
  ⟨by refine ⟨fr [1, 0, 0, 0x00103C00, 0xC04], up, _, _, ready_of ?_, ?_, rfl, rfl, ?_⟩ <;> decide +kernel,
   ⟨fr [0], up, 0, by unfold Ready; decide +kernel⟩,
   ⟨fr [100], up, by unfold Ready; decide +kernel⟩,
   by refine ⟨fr [0x020A1408, 0xC0E6], up, _, _, ready_of ?_, ?_, rfl, rfl, ?_⟩ <;> decide +kernel,
   ⟨fr (zs 3), up, by unfold Ready; decide +kernel⟩,
   ⟨fr (zs 11), up, by unfold Ready; decide +kernel⟩,
   ⟨fr [0], up, 0, 0, by unfold Ready; decide +kernel⟩,
   ⟨fr (zs 13), up, by unfold Ready; decide +kernel⟩⟩

/-- The hypotheses of `RegisterAccessesComplete` are met. -/
theorem wit_RegisterAccessesComplete :
    (∃ (s : State) (m : _) (a : _) (t : _) (b : _) (off : _), Reaches s m a t ∧ a % 4 = 0 ∧ a < 2 ^ 32 ∧ lockDrops s m t = false ∧ decodeAddr t.addr = some (b, off)) ∧
    (∃ (s : State) (m : _) (a : _) (t : _) (b : _) (off : _), Reaches s m a t ∧ a % 4 = 0 ∧ t.reg.act = .staged ∧ decodeAddr t.addr = some (b, off)) ∧
    (∃ (s : State) (m : _) (a : _) (t : _) (b : _) (off : _), Reaches s m a t ∧ a % 4 = 0 ∧ t.reg.act = .gatStaged ∧ decodeAddr t.addr = some (b, off)) ∧
    (∃ (s : State) (m : _) (a : _) (t : _), Reaches s m a t ∧ a % 4 = 0 ∧ t.reg.rd = .lo64) ∧
    (∃ (s : State) (m : _) (t : _), Reaches s m timReadFrac t) ∧
    (∃ (s : State) (m : _) (i : _) (t : _), Reaches s m (islPeak i) t ∧ i < islCount) ∧
    (∃ (s : State) (a : _) (t : _) (b : _) (off : _), Reaches s 3 a t ∧ a % 4 = 0 ∧ a ≤ 0x03FFFFFC ∧ lockDrops s 3 t = false ∧ decodeAddr t.addr = some (b, off) ∧ s.start.rails = true) ∧
    (∃ (s : State) (a : _) (r : _), busTarget s 3 a true = .error r ∧ a % 4 = 0 ∧ a ≤ 0x03FFFFFC ∧ s.start.rails = true) ∧
    (∃ (s : State) (a : _), a % 4 = 0 ∧ a ≤ 0x03FFFFFC ∧ s.start.rails = true) ∧
    (∃ (s : State) (a : _) (t : _), Reaches s 3 a.toNat t ∧ s.start.rails = true ∧ s.bus.smbAddr = some a) ∧
    (∃ (s : State) (a : _) (r : _), busTarget s 3 a.toNat true = .error r ∧ s.start.rails = true ∧ s.bus.smbAddr = some a) ∧
    (∃ (s : State), s.start.rails = true ∧ s.bus.smbAddr = none) ∧
    (∃ (s : State), s.start.rails = true) ∧
    (∃ (s : State), s.start.rails = true) ∧
    (∃ (s : State), s.start.rails = true) ∧
    (∃ (s : State) (a : _), s.start.rails = false ∧ a % 4 = 0 ∧ a ≤ 0x03FFFFFC) ∧
    (∃ (s : State) (a : _) (t : _) (b : _) (off : _), Reaches s 4 a t ∧ a % 4 = 0 ∧ a < 2 ^ 26 ∧ lockDrops s 4 t = false ∧ decodeAddr t.addr = some (b, off)) ∧
    (∃ (s : State) (a : _) (t : _), Reaches s 4 a t ∧ a % 4 = 0 ∧ a < 2 ^ 26) ∧
    (∃ (s : State) (a : _) (r : _), busTarget s 4 a true = .error r ∧ a % 4 = 0 ∧ a < 2 ^ 26) ∧
    (∃ (s : State) (fn : _) (addr : _) (count : _), fn < 2 ∧ 1 ≤ count ∧ count ≤ 32 ∧ addr % 4 = 0 ∧ addr + 4 * count ≤ 2 ^ 32 ∧ firstError s (fn + 1) ((List.range count).map (fun i => addr + 4 * i)) = none) ∧
    (∃ (s : State) (fn : _) (addr : _) (t : _), fn < 2 ∧ addr % 4 = 0 ∧ addr + 4 ≤ 2 ^ 32 ∧ Reaches s (fn + 1) addr t) ∧
    (∃ (s : State) (fn : _) (addr : _) (count : _) (a : _) (r : _), fn < 2 ∧ 1 ≤ count ∧ count ≤ 32 ∧ addr % 4 = 0 ∧ addr + 4 * count ≤ 2 ^ 32 ∧ firstError s (fn + 1) ((List.range count).map (fun i => addr + 4 * i)) = some (a, r)) ∧
    (∃ (fn : _) (addr : _) (count : _), fn < 2 ∧ 32 < count ∧ addr % 4 = 0 ∧ addr + 4 * count ≤ 2 ^ 32) ∧
    (∃ (s : State), s.start.perst = false) ∧
    (∃ (s : State), s.start.perst = true) :=
  ⟨by refine ⟨up, 0, pwiCeilTime, tgt pwiCeilTime, .pwi, 0xC, reaches_at ?_, ?_⟩ <;> decide +kernel,
   by refine ⟨up, 0, pwiTiming, tgt pwiTiming, .pwi, 4, reaches_at ?_, ?_⟩ <;> decide +kernel,
   by refine ⟨up, 0, gatAdmin 0 0, tgt (gatAdmin 0 0), .gat 0, 0x1004, reaches_at ?_, ?_⟩ <;> decide +kernel,
   by refine ⟨up, 0, slotReg 0 0, tgt (slotReg 0 0), reaches_at ?_, ?_⟩ <;> decide +kernel,
   ⟨up, 0, tgt timReadFrac, reaches_at (by decide +kernel)⟩,
   by refine ⟨up, 0, 0, tgt (islPeak 0), reaches_at ?_, ?_⟩ <;> decide +kernel,
   by refine ⟨up, pwiCeilTime, tgt pwiCeilTime, .pwi, 0xC, reaches_at ?_, ?_⟩ <;> decide +kernel,
   by refine ⟨up, 0x3FFFFF0, reasonOutside, error_at ?_, ?_⟩ <;> decide +kernel,
   ⟨up, 0, by decide +kernel⟩,
   by refine ⟨upSmb, pwiCeilTime, targetAt upSmb 3 pwiCeilTime, reaches_at ?_, ?_⟩ <;> decide +kernel,
   by refine ⟨{ up with bus := { up.bus with smbAddr := some 0x3FFFFF0 } }, 0x3FFFFF0, reasonOutside, error_at ?_, ?_⟩ <;> decide +kernel,
   ⟨up, by decide +kernel⟩,
   ⟨up, by decide +kernel⟩,
   ⟨up, by decide +kernel⟩,
   ⟨up, by decide +kernel⟩,
   ⟨upOff, 0, by decide +kernel⟩,
   by refine ⟨up, pwiCeilTime, tgt pwiCeilTime, .pwi, 0xC, reaches_at ?_, ?_⟩ <;> decide +kernel,
   by refine ⟨up, glbBase, targetAt up 4 glbBase, reaches_at ?_, ?_⟩ <;> decide +kernel,
   by refine ⟨up, 0x3FFFFF0, reasonOutside, error_at ?_, ?_⟩ <;> decide +kernel,
   ⟨up, 0, glbBase, 1, by decide +kernel⟩,
   by refine ⟨up, 0, glbBase, targetAt up 1 glbBase, ?_, ?_, ?_, reaches_at ?_⟩ <;> decide +kernel,
   ⟨up, 0, 0x3FFFFF0, 1, 0x3FFFFF0, reasonOutside, by decide +kernel⟩,
   ⟨0, 0, 33, by decide +kernel⟩,
   ⟨up, by decide +kernel⟩,
   ⟨upPerst, by decide +kernel⟩⟩

/-- The hypotheses of `StagedGroupsComplete` are met. -/
theorem wit_StagedGroupsComplete :
    (∃ (s : State) (m : _) (t : _), Reaches s m pwiCommitReg t) ∧
    (∃ (s : State) (m : _) (g : _) (t : _), Reaches s m (glnBudgetCommitReg g) t ∧ g < 8) ∧
    (∃ (s : State) (m : _) (g : _) (t : _), Reaches s m (emtKeyCommit g) t ∧ g < 8) ∧
    (∃ (s : State) (m : _) (g : _) (t : _), Reaches s m (polCommitReg g) t ∧ g < 8) ∧
    (∃ (s : State) (m : _) (d : _) (t : _), Reaches s m (bpmLayoutCommitReg d) t ∧ d < 2) ∧
    (∃ (s : State) (m : _) (d : _) (t : _), Reaches s m (bpmQuotaCommitReg d) t ∧ d < 2) ∧
    (∃ (s : State) (m : _) (d : _) (t : _), Reaches s m (bpmBudgetCommitReg d) t ∧ d < 2) ∧
    (∃ (s : State) (m : _) (d : _) (t : _), Reaches s m (schBudgetCommitReg d) t ∧ d < 2) ∧
    (∃ (s : State) (m : _) (d : _) (t : _), Reaches s m (shpCommitReg d) t ∧ d < 2) ∧
    (∃ (s : State) (m : _) (p : _) (t : _), Reaches s m (gatCommit p) t ∧ p < 256) :=
  ⟨⟨up, 0, tgt pwiCommitReg, reaches_at (by decide +kernel)⟩,
   by refine ⟨up, 0, 0, tgt (glnBudgetCommitReg 0), reaches_at ?_, ?_⟩ <;> decide +kernel,
   by refine ⟨up, 0, 0, tgt (emtKeyCommit 0), reaches_at ?_, ?_⟩ <;> decide +kernel,
   by refine ⟨up, 0, 0, tgt (polCommitReg 0), reaches_at ?_, ?_⟩ <;> decide +kernel,
   by refine ⟨up, 0, 0, tgt (bpmLayoutCommitReg 0), reaches_at ?_, ?_⟩ <;> decide +kernel,
   by refine ⟨up, 0, 0, tgt (bpmQuotaCommitReg 0), reaches_at ?_, ?_⟩ <;> decide +kernel,
   by refine ⟨up, 0, 0, tgt (bpmBudgetCommitReg 0), reaches_at ?_, ?_⟩ <;> decide +kernel,
   by refine ⟨up, 0, 0, tgt (schBudgetCommitReg 0), reaches_at ?_, ?_⟩ <;> decide +kernel,
   by refine ⟨up, 0, 0, tgt (shpCommitReg 0), reaches_at ?_, ?_⟩ <;> decide +kernel,
   by refine ⟨up, 0, 0, tgt (gatCommit 0), reaches_at ?_, ?_⟩ <;> decide +kernel⟩

/-- The hypotheses of `RegisterEffectsComplete` are met. -/
theorem wit_RegisterEffectsComplete :
    (∃ (s : State) (m : _) (w : _) (t : _), Reaches s m (pwiPend w) t ∧ w < 3) ∧
    (∃ (s : State) (m : _) (g : _) (t : _), Reaches s m (emtSeed g) t ∧ g < 8) ∧
    (∃ (s : State) (m : _) (g : _) (t : _), Reaches s m (emtHashCfg g) t ∧ g < 8) ∧
    (∃ (s : State) (m : _) (g : _) (t : _), Reaches s m (stmSeed g) t ∧ g < 8) ∧
    (∃ (s : State) (m : _) (d : _) (t : _), Reaches s m (freDupSeed d) t ∧ d < 2) ∧
    (∃ (s : State) (m : _) (ring : _) (t : _), Reaches s m (ringBase ring + 0x10) t ∧ recordRing ring = true) ∧
    (∃ (s : State) (m : _) (ring : _) (t : _) (top : _), Reaches s m (ringBase ring + 8) t ∧ recordRing ring = true ∧ t.reg.act = .ringCfg top) ∧
    (∃ (s : State) (m : _) (t : _), Reaches s m (timStep + 8) t) ∧
    (∃ (s : State) (m : _) (t : _), Reaches s m timRateAdj t) ∧
    (∃ (s : State) (m : _) (t : _), Reaches s m timCfg t) ∧
    (∃ (s : State) (m : _) (t : _), Reaches s m fioForceEn t) ∧
    (∃ (s : State) (m : _) (t : _), Reaches s m fioForceVal t) ∧
    (∃ (s : State) (m : _) (j : _) (t : _), Reaches s m fioFoStat t ∧ j < 16) ∧
    (∃ (s : State) (m : _) (r : _) (t : _), Reaches s m casCfg t ∧ r < 3) ∧
    (∃ (s : State) (m : _) (t : _), Reaches s m casStat t) ∧
    (∃ (s : State) (m : _) (c : _) (t : _), Reaches s m (colStallPend (c / 32)) t ∧ c < cellCount) ∧
    (∃ (s : State) (m : _) (c : _) (t : _), Reaches s m (cellStat c) t ∧ c < cellCount) ∧
    (∃ (s : State) (m : _) (c : _) (t : _), Reaches s m (colOvfPend (c / 32)) t ∧ c < cellCount) ∧
    (∃ (s : State) (m : _) (c : _) (t : _), Reaches s m (cellStat c) t ∧ c < cellCount) ∧
    (∃ (s : State) (m : _) (n : _) (t : _), Reaches s m (engBank 0 n) t ∧ n < 34) ∧
    (∃ (s : State) (m : _) (n : _) (t : _), Reaches s m (engBank 1 n) t ∧ n < 34) ∧
    (∃ (s : State) (m : _) (n : _) (t : _), Reaches s m (engPatchAddr 0 n) t ∧ n < 34) ∧
    (∃ (s : State) (m : _) (n : _) (t : _), Reaches s m (engPatchData 0 n 0) t ∧ n < 34) ∧
    (∃ (s : State) (m : _) (n : _) (t : _), Reaches s m (engPatchAddr 1 n) t ∧ n < 34) ∧
    (∃ (s : State) (m : _) (n : _) (t : _), Reaches s m (engPatchData 1 n 0) t ∧ n < 34) :=
  ⟨by refine ⟨up, 0, 0, tgt (pwiPend 0), reaches_at ?_, ?_⟩ <;> decide +kernel,
   by refine ⟨up, 0, 0, tgt (emtSeed 0), reaches_at ?_, ?_⟩ <;> decide +kernel,
   by refine ⟨up, 0, 0, tgt (emtHashCfg 0), reaches_at ?_, ?_⟩ <;> decide +kernel,
   by refine ⟨up, 0, 0, tgt (stmSeed 0), reaches_at ?_, ?_⟩ <;> decide +kernel,
   by refine ⟨up, 0, 0, tgt (freDupSeed 0), reaches_at ?_, ?_⟩ <;> decide +kernel,
   by refine ⟨up, 0, .learn 0, tgt (ringBase (.learn 0) + 0x10), reaches_at ?_, ?_⟩ <;> decide +kernel,
   by refine ⟨up, 0, .learn 0, tgt (ringBase (.learn 0) + 8), 8, reaches_at ?_, ?_⟩ <;> decide +kernel,
   ⟨up, 0, tgt (timStep + 8), reaches_at (by decide +kernel)⟩,
   ⟨up, 0, tgt timRateAdj, reaches_at (by decide +kernel)⟩,
   ⟨up, 0, tgt timCfg, reaches_at (by decide +kernel)⟩,
   ⟨up, 0, tgt fioForceEn, reaches_at (by decide +kernel)⟩,
   ⟨up, 0, tgt fioForceVal, reaches_at (by decide +kernel)⟩,
   by refine ⟨up, 0, 0, tgt fioFoStat, reaches_at ?_, ?_⟩ <;> decide +kernel,
   by refine ⟨up, 0, 1, tgt casCfg, reaches_at ?_, ?_⟩ <;> decide +kernel,
   ⟨up, 0, tgt casStat, reaches_at (by decide +kernel)⟩,
   by refine ⟨up, 0, 0, tgt (colStallPend 0), reaches_at ?_, ?_⟩ <;> decide +kernel,
   by refine ⟨up, 0, 0, tgt (cellStat 0), reaches_at ?_, ?_⟩ <;> decide +kernel,
   by refine ⟨up, 0, 0, tgt (colOvfPend 0), reaches_at ?_, ?_⟩ <;> decide +kernel,
   by refine ⟨up, 0, 0, tgt (cellStat 0), reaches_at ?_, ?_⟩ <;> decide +kernel,
   by refine ⟨up, 0, 0, tgt (engBank 0 0), reaches_at ?_, ?_⟩ <;> decide +kernel,
   by refine ⟨up, 0, 0, tgt (engBank 1 0), reaches_at ?_, ?_⟩ <;> decide +kernel,
   by refine ⟨up, 0, 0, tgt (engPatchAddr 0 0), reaches_at ?_, ?_⟩ <;> decide +kernel,
   by refine ⟨up, 0, 0, tgt (engPatchData 0 0 0), reaches_at ?_, ?_⟩ <;> decide +kernel,
   by refine ⟨up, 0, 0, tgt (engPatchAddr 1 0), reaches_at ?_, ?_⟩ <;> decide +kernel,
   by refine ⟨up, 0, 0, tgt (engPatchData 1 0 0), reaches_at ?_, ?_⟩ <;> decide +kernel⟩

/-- The hypotheses of `CaptureAndMailboxWritesComplete` are met. -/
theorem wit_CaptureAndMailboxWritesComplete :
    (∃ (s : State) (m : _) (d : _) (t : _), Reaches s m (bpmBase d + 0x104) t ∧ d < 2) ∧
    (∃ (s : State) (m : _) (t : _), Reaches s m glbCapInfo t) ∧
    (∃ (s : State) (m : _) (p : _) (t : _), Reaches s m (pmcOvf p 0x10) t ∧ p < 32) ∧
    (∃ (s : State) (m : _) (w : _) (t : _), Reaches s m (fclStatus + 4 * w) t ∧ w < 4) ∧
    (∃ (s : State) (m : _) (t : _), Reaches s m fclFirst t) ∧
    (∃ (s : State) (m : _) (t : _), Reaches s m (fclBase + 0x84) t) ∧
    (∃ (s : State) (m : _) (t : _), Reaches s m fclCfg t ∧ (m = 0 ∨ rdBit s fclCfg 18 = false)) ∧
    (∃ (s : State) (m : _) (n : _) (mode : _) (t : _), Reaches s m (pipBase n) t ∧ n < 34 ∧ mode < 4) ∧
    (∃ (s : State) (m : _) (t : _), Reaches s m (secBase + 8) t) ∧
    (∃ (s : State) (m : _) (w : _) (t : _), Reaches s m (winBase w + 8) t ∧ w < 4) ∧
    (∃ (s : State) (m : _) (w : _) (t : _), Reaches s m (winBase w + 8) t ∧ w < 4) ∧
    (∃ (s : State) (m : _) (mb : _) (t : _), Reaches s m (mbPageAddr m mb mbxDoorbellOff) t ∧ mb < 5 ∧ (m ≠ 2 ∨ mb = 1)) ∧
    (∃ (s : State) (m : _) (mb : _) (i : _) (t : _), Reaches s m (mbAreaAddr m mb i) t ∧ mb < 5 ∧ i < 1024 ∧ (m ≠ 2 ∨ mb = 1)) ∧
    (∃ (s : State) (m : _) (mb : _) (es : _) (t : _), Reaches (if mb < 2 then hostEntries mb es s else s) m (mbPageAddr m mb mbxCmdProdOff) t ∧ mb < 5 ∧ (m ≠ 2 ∨ mb = 1)) ∧
    (∃ (s : State) (m : _) (mb : _) (t : _), Reaches s m (mbPageAddr m mb mbxRspConsOff) t ∧ mb < 5 ∧ (m ≠ 2 ∨ mb = 1)) ∧
    (∃ (s : State) (m : _) (mb : _) (t : _), Reaches s m (mbPageAddr m mb mbxRingCfgOff) t ∧ mb < 5 ∧ (m ≠ 2 ∨ mb = 1)) :=
  ⟨by refine ⟨up, 0, 0, tgt (bpmBase 0 + 0x104), reaches_at ?_, ?_⟩ <;> decide +kernel,
   ⟨up, 0, tgt glbCapInfo, reaches_at (by decide +kernel)⟩,
   by refine ⟨up, 0, 0, tgt (pmcOvf 0 0x10), reaches_at ?_, ?_⟩ <;> decide +kernel,
   by refine ⟨up, 0, 0, tgt fclStatus, reaches_at ?_, ?_⟩ <;> decide +kernel,
   ⟨up, 0, tgt fclFirst, reaches_at (by decide +kernel)⟩,
   ⟨up, 0, tgt (fclBase + 0x84), reaches_at (by decide +kernel)⟩,
   by refine ⟨up, 0, tgt fclCfg, reaches_at ?_, ?_⟩ <;> decide +kernel,
   by refine ⟨up, 0, 0, 1, tgt (pipBase 0), reaches_at ?_, ?_⟩ <;> decide +kernel,
   ⟨up, 0, tgt (secBase + 8), reaches_at (by decide +kernel)⟩,
   by refine ⟨up, 0, 0, tgt (winBase 0 + 8), reaches_at ?_, ?_⟩ <;> decide +kernel,
   by refine ⟨up, 0, 0, tgt (winBase 0 + 8), reaches_at ?_, ?_⟩ <;> decide +kernel,
   by refine ⟨up, 2, 1, targetAt up 2 (mbPageAddr 2 1 mbxDoorbellOff), reaches_at ?_, ?_⟩ <;> decide +kernel,
   by refine ⟨up, 0, 0, 0, tgt (mbAreaAddr 0 0 0), reaches_at ?_, ?_⟩ <;> decide +kernel,
   by refine ⟨up, 0, 0, [], targetAt (hostEntries 0 [] up) 0 (mbPageAddr 0 0 mbxCmdProdOff), reaches_at ?_, ?_⟩ <;> decide +kernel,
   by refine ⟨up, 0, 0, tgt (mbPageAddr 0 0 mbxRspConsOff), reaches_at ?_, ?_⟩ <;> decide +kernel,
   by refine ⟨up, 0, 0, tgt (mbPageAddr 0 0 mbxRingCfgOff), reaches_at ?_, ?_⟩ <;> decide +kernel⟩

/-- The hypotheses of `RegisterEventsComplete` are met. -/
theorem wit_RegisterEventsComplete :
    (∃ (s : State) (c : _) (u : _), tget none s.bus.open_ c = some u ∧ u.raised = false ∧ u.since + 10 ^ 6 ≤ s.tim.cnt) ∧
    (∃ (s : State) (c : _) (u : _), tget none s.bus.open_ c = some u ∧ (u.raised = true ∨ s.tim.cnt < u.since + 10 ^ 6)) ∧
    (∃ (s : State), fwRuns s = true) ∧
    (∃ (s : State) (a : _), protectedReg a = true ∧ physAddr s a ∉ s.bus.badPar ∧ physAddr s a ∉ s.bus.badStg) ∧
    (∃ (s : State) (a : _), protectedReg a = true ∧ physAddr s a ∈ s.bus.badPar ∧ physAddr s a ∉ s.bus.badStg ∧ physAddr s a ∉ s.bus.restoreQ) ∧
    (∃ (s : State) (a : _), protectedReg a = true ∧ physAddr s a ∉ s.bus.badPar ∧ physAddr s a ∈ s.bus.badStg) ∧
    (∃ (s : State) (a : _) (rest : _), fwRuns s = true ∧ s.bus.restoreQ = a :: rest ∧ a ∈ s.bus.badPar) ∧
    (∃ (s : State) (a : _) (t : _), (a, t) ∈ s.bus.restored ∧ t + 10 ^ 6 ≤ s.tim.cnt ∧ a ∈ s.bus.badPar) ∧
    (∃ (s : State) (a : _) (t : _), (a, t) ∈ s.bus.restored ∧ t + 10 ^ 6 ≤ s.tim.cnt ∧ a ∉ s.bus.badPar) ∧
    (∃ (d : _), d < domCount) ∧
    (∃ (s : State) (d : _), d < domCount ∧ d ∉ s.col.stopped) ∧
    (∃ (s : State) (d : _), d < domCount ∧ d ∈ s.col.stopped) ∧
    (∃ (s : State) (c : _), c < cellCount ∧ canResync s c = true ∧ (128 ≤ c ∨ 2 ≤ c % 4)) ∧
    (∃ (s : State) (n : _), n < 32 ∧ canResync s (4 * n) = true) ∧
    (∃ (s : State) (n : _), n < 32 ∧ canResync s (4 * n + 1) = true) ∧
    (∃ (s : State) (c : _), c < cellCount ∧ canResync s c = false) ∧
    (∃ (s : State), 36 ∉ s.col.stopped ∧ s.bud.last < s.tim.cnt / 1024) ∧
    (∃ (s : State), (36 ∈ s.col.stopped ∨ s.tim.cnt / 1024 ≤ s.bud.last)) :=
  ⟨⟨upBus, pwiCommitReg, ⟨false, 1, 0⟩, by decide +kernel⟩,
   ⟨atCnt 0 upBus, pwiCommitReg, ⟨false, 1, 0⟩, by decide +kernel⟩,
   ⟨up, by decide +kernel⟩,
   ⟨up, pwiCeilTime, by decide +kernel⟩,
   ⟨upBad, pwiCeilTime, by decide +kernel⟩,
   ⟨{ up with bus := { up.bus with badStg := [pwiCeilTime] } }, pwiCeilTime, by decide +kernel⟩,
   ⟨upBus, pwiCeilTime, [], by decide +kernel⟩,
   ⟨upBus, pwiCeilTime, 0, by decide +kernel⟩,
   ⟨{ upBus with bus := { upBus.bus with badPar := [] } }, pwiCeilTime, 0, by decide +kernel⟩,
   ⟨0, by decide +kernel⟩,
   ⟨up, 0, by decide +kernel⟩,
   ⟨upBus, 0, by decide +kernel⟩,
   ⟨setC 236 { idleCell with sync := 1 }, 236, by decide +kernel⟩,
   ⟨setC 0 { idleCell with sync := 1 }, 0, by decide +kernel⟩,
   ⟨setC 1 { idleCell with sync := 2 }, 0, by decide +kernel⟩,
   ⟨up, 0, by decide +kernel⟩,
   ⟨atCnt 2048 up, by decide +kernel⟩,
   ⟨up, by decide +kernel⟩⟩

/-- The hypotheses of `CellEventsComplete` are met. -/
theorem wit_CellEventsComplete :
    (∃ (s : State) (c : _) (x : _), x = cellOf s c ∧ ofType c cellV = true ∧ joined x = true ∧ clockRuns s (cellSrc c) = true) ∧
    (∃ (s : State) (c : _) (x : _), x = cellOf s c ∧ ofType c cellV = true ∧ joined x = false ∧ x.rst ≠ 1 ∧ x.rst ≠ 3 ∧ clockRuns s (cellSrc c) = true) ∧
    (∃ (s : State) (c : _) (x : _), x = cellOf s c ∧ ofType c cellP = true ∧ joined x = true ∧ x.flag = false ∧ clockRuns s (cellSrc c) = true) ∧
    (∃ (s : State) (c : _) (x : _), x = cellOf s c ∧ ofType c cellP = true ∧ joined x = true ∧ x.flag = true ∧ clockRuns s (cellSrc c) = true) ∧
    (∃ (s : State) (c : _) (x : _), x = cellOf s c ∧ c < cellCount ∧ cellType c ≠ cellF ∧ joined x = true ∧ bothRun s c = true) ∧
    (∃ (s : State) (c : _) (x : _), x = cellOf s c ∧ c < cellCount ∧ cellType c ≠ cellF ∧ joined x = true ∧ bothRun s c = true ∧ x.flag = true ∧ x.captured = true) ∧
    (∃ (s : State) (c : _) (x : _), x = cellOf s c ∧ ofType c cellF = true ∧ joined x = true ∧ bothRun s c = true) ∧
    (∃ (s : State) (c : _) (x : _), x = cellOf s c ∧ ofType c cellF = true ∧ joined x = true ∧ clockRuns s (cellSrc c) = true ∧ x.kept = []) ∧
    (∃ (s : State) (c : _) (x : _), x = cellOf s c ∧ ofType c cellF = true ∧ joined x = false ∧ x.rst ≠ 1 ∧ x.rst ≠ 3 ∧ clockRuns s (cellSrc c) = true) ∧
    (∃ (s : State) (c : _) (x : _), x = cellOf s c ∧ ofType c cellF = true ∧ joined x = true ∧ bothRun s c = true) ∧
    (∃ (s : State) (c : _) (x : _) (lim : _), x = cellOf s c ∧ lim = rdF s (cellCfg c) 0 16 ∧ c < cellCount ∧ cellType c ≠ cellF ∧ x.flag = true ∧ lim ≠ 0 ∧ 36 ∉ s.col.stopped ∧ rdBit s (cellStat c) 8 = false) ∧
    (∃ (s : State) (c : _) (x : _) (lim : _), x = cellOf s c ∧ lim = rdF s (cellCfg c) 0 16 ∧ ofType c cellF = true ∧ lim ≠ 0 ∧ rdBit s (cellStat c) 8 = false ∧ ((x.fifo ≠ [] ∧ lim * 1000 < s.tim.cnt - x.since) ∨ (x.fifo.length = cellDepth c ∧ lim * 1000 < s.tim.cnt - x.fullAt))) ∧
    (∃ (s : State) (c : _), c < cellCount ∧ (rdF s (cellCfg c) 0 16 = 0 ∨ rdBit s (cellStat c) 8 = true)) ∧
    (∃ (s : State) (c : _) (x : _), x = cellOf s c ∧ c < cellCount ∧ joined x = true) :=
  ⟨by refine ⟨up, 236, _, rfl, ?_⟩; decide +kernel,
   by refine ⟨setC 236 { idleCell with rst := 2 }, 236, _, rfl, ?_⟩; decide +kernel,
   by refine ⟨up, 280, _, rfl, ?_⟩; decide +kernel,
   by refine ⟨setC 280 { idleCell with flag := true }, 280, _, rfl, ?_⟩; decide +kernel,
   by refine ⟨setC 236 { idleCell with flag := true }, 236, _, rfl, ?_⟩; decide +kernel,
   by refine ⟨setC 236 { idleCell with flag := true, captured := true }, 236, _, rfl, ?_⟩; decide +kernel,
   by refine ⟨up, 289, _, rfl, ?_⟩; decide +kernel,
   by refine ⟨up, 289, _, rfl, ?_⟩; decide +kernel,
   by refine ⟨setC 289 { idleCell with rst := 2 }, 289, _, rfl, ?_⟩; decide +kernel,
   by refine ⟨setC 289 { idleCell with fifo := [7], seen := 1 }, 289, _, rfl, ?_⟩; decide +kernel,
   by refine ⟨atCnt (10 ^ 12) (setC 236 { idleCell with flag := true }), 236, _, _, rfl, rfl, ?_⟩; decide +kernel,
   by refine ⟨atCnt (10 ^ 12) (setC 289 { idleCell with fifo := [7] }), 289, _, _, rfl, rfl, ?_⟩; decide +kernel,
   ⟨regsOf [(cellCfg 236, 0)] up, 236, by decide +kernel⟩,
   by refine ⟨up, 236, _, rfl, ?_⟩; decide +kernel⟩

/-- The hypotheses of `IslandEventsComplete` are met. -/
theorem wit_IslandEventsComplete :
    (∃ (s : State) (i : _) (mv : _), i < islCount ∧ mv < 1024 ∧ elapsed s (islGet s i).window (64 * 2 ^ rdF s pwiTiming 24 4) = true) ∧
    (∃ (s : State) (i : _) (mv : _) (u : _), i < islCount ∧ mv < 1024 ∧ (islGet s i).window = some u ∧ s.tim.cnt - u < 64 * 2 ^ rdF s pwiTiming 24 4) ∧
    (∃ (s : State) (i : _) (occ : _), i < islCount ∧ occ ≤ 32 ∧ 36 ∈ s.col.stopped) ∧
    (∃ (s : State) (i : _) (occ : _), i < islCount ∧ occ ≤ 32 ∧ 36 ∉ s.col.stopped ∧ islOos s i = true) ∧
    (∃ (s : State) (i : _) (occ : _), i < islCount ∧ occ ≤ 32 ∧ 36 ∉ s.col.stopped ∧ islOos s i = false ∧ elapsed s (islGet s i).evaluated (rdF s pwiTiming 0 8) = true ∧ rdF s pwiCeilTime 0 20 ≠ 0) ∧
    (∃ (s : State) (i : _) (t : _), i < islCount ∧ (islGet s i).pinned = some t ∧ islPend s i = false ∧ rdF s pwiCeilTime 0 20 * 1000 < s.tim.cnt - t) ∧
    (∃ (s : State) (i : _), i < islCount ∧ ((islGet s i).pinned = none ∨ islPend s i = true)) :=
  ⟨⟨up, 0, 5, by decide +kernel⟩,
   ⟨{ up with isl := [(0, ⟨none, none, none, none, some 0⟩)] }, 0, 5, 0, by decide +kernel⟩,
   ⟨{ up with col := { up.col with stopped := [36] } }, 0, 5, by decide +kernel⟩,
   ⟨upIsolated, 34, 5, by decide +kernel⟩,
   ⟨up, 0, 5, by decide +kernel⟩,
   ⟨{ up with isl := [(0, ⟨none, none, some 0, none, none⟩)], tim := { up.tim with cnt := 10 ^ 12 } }, 0, 0, by decide +kernel⟩,
   ⟨up, 0, by decide +kernel⟩⟩

/-- The hypotheses of `IngressEventsComplete` are met. -/
theorem wit_IngressEventsComplete :
    (∃ (s : State) (p : _) (bytes : List Byte), portExists s p = true ∧ bytes ≠ [] ∧ portUp s p = true ∧ pgRuns s p = true ∧ primrosePort s p = false ∧ fifoUsed s (pgOf p) + bytes.length + 4 ≤ 262144 ∧ ((freMode s p = 2 → ownMac s (dieOf p) bytes = false))) ∧
    (∃ (s : State) (n : _) (k : _) (x : _), n < 32 ∧ fifoHead s n = some (k, x) ∧ pipTakes s n = true ∧ rdF s (engPortProf 0 x.port) 0 8 = 0) ∧
    (∃ (s : State) (n : _) (k : _) (x : _), n < 32 ∧ fifoHead s n = some (k, x) ∧ pipTakes s n = true ∧ rdF s (engPortProf 0 x.port) 0 8 ≠ 0) ∧
    (∃ (s : State) (k : _) (got : _) (x : _), getPkt s k = some x ∧ x.phase = .parsing ∧ got ≤ x.got ∧ x.got ≤ x.bytes.length ∧ windowWaits 0 x.bytes.length x.got (needHp x.ctx (prsStep s x)) = true) ∧
    (∃ (s : State) (k : _) (got : _) (x : _), getPkt s k = some x ∧ x.phase = .parsing ∧ got ≤ x.got ∧ x.got ≤ x.bytes.length ∧ windowWaits 0 x.bytes.length x.got (needHp x.ctx (prsStep s x)) = false) ∧
    (∃ (s : State) (k : _) (got : _) (x : _) (c : _), getPkt s k = some x ∧ x.phase = .parsing ∧ got ≤ x.got ∧ x.got ≤ x.bytes.length ∧ windowWaits 0 x.bytes.length x.got (needHp x.ctx (prsStep s x)) = false ∧ prsStep s x = .go c ∧ x.ctx.steps < c.steps ∧ c.steps ≤ x.ctx.limit ∧ c.steps < c.limit) ∧
    (∃ (s : State) (k : _) (got : _) (x : _) (c : _) (act : _) (why : _), getPkt s k = some x ∧ x.phase = .parsing ∧ got ≤ x.got ∧ x.got ≤ x.bytes.length ∧ windowWaits 0 x.bytes.length x.got (needHp x.ctx (prsStep s x)) = false ∧ prsStep s x = .fin c act why ∧ x.ctx.steps < c.steps ∧ c.steps ≤ x.ctx.limit) ∧
    (∃ (s : State) (k : _) (x : _), getPkt s k = some x ∧ x.phase = .parsed ∧ outOfService s 2 (servingGlen s x.port) = false) ∧
    (∃ (s : State) (k : _) (x : _), getPkt s k = some x ∧ x.phase = .looked ∧ x.fcs = some false) ∧
    (∃ (s : State) (k : _) (x : _) (r : _), getPkt s k = some x ∧ x.phase = .looked ∧ x.fcs ≠ some false ∧ r = filterStage (filterIn s x) s ∧ r.pass = false) ∧
    (∃ (s : State) (k : _) (x : _), getPkt s k = some x ∧ x.complete = true) ∧
    (∃ (s : State) (k : _) (x : _), getPkt s k = some x ∧ x.complete = false ∧ x.phase ≠ .filtered ∧ x.phase ≠ .admitted) ∧
    (∃ (s : State) (k : _) (d : _) (x : _), d < 2 ∧ getPkt s k = some x ∧ x.phase = .filtered ∧ d ∈ x.dies) ∧
    (∃ (s : State) (c : _) (x : _), getCopy s c = some x ∧ x.phase = .waiting ∧ tget [] s.sch.enqWait (dieOf x.port) = [] ∧ resUsed s (dieOf x.port) < enqReserve) ∧
    (∃ (s : State) (c : _) (x : _) (w : _), getCopy s c = some x ∧ x.phase = .waiting ∧ tget [] s.sch.enqWait (dieOf x.port) = w ∧ c ∉ w ∧ (w ≠ [] ∨ enqReserve ≤ resUsed s (dieOf x.port)) ∧ w.length < enqQueue) :=
  ⟨⟨up, 0, frame60, by decide +kernel⟩,
   ⟨regsOf [(engPortProf 0 0, 0)] (upPkt (pk .fifo)), 0, 0, pk .fifo, by decide +kernel⟩,
   ⟨regsOf [(engPortProf 0 0, 1)] (upPkt (pk .fifo)), 0, 0, pk .fifo, by decide +kernel⟩,
   ⟨{ upGo with path := (upPkt { pkPatch with got := 0 }).path }, 0, 0, { pkPatch with got := 0 }, by decide +kernel⟩,
   ⟨upParse, 0, 60, pkPatch, by decide +kernel⟩,
   by refine ⟨upGo, 0, 60, pkPatch, (goOf (prsStep upGo pkPatch)).getD startCtx, ?_, ?_, ?_, (by decide +kernel), ?_, go_eq ?_, ?_⟩ <;> decide +kernel,
   by refine ⟨upParse, 0, 60, pkPatch, (finGot (prsStep upParse pkPatch)).1, (finGot (prsStep upParse pkPatch)).2.1, (finGot (prsStep upParse pkPatch)).2.2, ?_, ?_, ?_, (by decide +kernel), ?_, fin_eq ?_, ?_⟩ <;> decide +kernel,
   ⟨upPkt (pk .parsed), 0, pk .parsed, by decide +kernel⟩,
   by refine ⟨upPkt { pk .looked with fcs := some false }, 0, _, rfl, ?_⟩; decide +kernel,
   by refine ⟨upBlocked, 0, pk .looked, _, ?_, ?_, ?_, rfl, ?_⟩ <;> decide +kernel,
   ⟨upPkt pkDone, 0, pkDone, by decide +kernel⟩,
   ⟨upPkt (pk .parsing), 0, pk .parsing, by decide +kernel⟩,
   by refine ⟨upPkt { pk .filtered with dies := [0] }, 0, 0, _, ?_, rfl, ?_⟩ <;> decide +kernel,
   ⟨upCopy (pk .admitted) (cp .waiting) [], 0, cp .waiting, by decide +kernel⟩,
   ⟨upReserve, 0, cp .waiting, [], by decide +kernel⟩⟩

/-- The hypotheses of `EgressEventsComplete` are met. -/
theorem wit_EgressEventsComplete :
    (∃ (s : State) (c : _) (x : _), getCopy s c = some x ∧ firstMarked s (dieOf x.port) x.queue = some c ∧ ((∀ p, getPkt s x.pkt = some p → p.complete = true)) ∧ hasSlot s (plainMem (dieOf x.port)) 0 = false) ∧
    (∃ (s : State) (c : _) (x : _) (u : _), getCopy s c = some x ∧ firstMarked s (dieOf x.port) x.queue = some c ∧ ((∀ p, getPkt s x.pkt = some p → p.complete = true)) ∧ hasSlot s (plainMem (dieOf x.port)) 0 = true ∧ stackTakes s (dieOf x.port) x.len = true ∧ u = (release (dieOf x.port) 36 292 x.ptr (transfer (dieOf x.port) (pgOf x.port) x.port 292 x.ptr s).2).2) ∧
    (∃ (s : State) (c : _) (x : _) (a : _) (u : _), getCopy s c = some x ∧ firstInHbm s (dieOf x.port) x.queue = some c ∧ plainDepth s (dieOf x.port) x.queue < fld (qw (queueGet s (dieOf x.port) x.queue) 2) 16 16 * 256 ∧ hasSlot s (plainMem (dieOf x.port)) 0 = true ∧ allocate (dieOf x.port) ⟨36, x.len, false, [x.port], []⟩ s = (.ok a, u)) ∧
    (∃ (s : State) (p : _) (u : _) (ch : _), portExists s p = true ∧ portUp s p = true ∧ onTheWay s p < 2 ∧ u = refreshPort p (dropGateLongs p s) ∧ portChoice (atBegin u p) p = some ch) ∧
    (∃ (s : State) (p : _) (u : _), portExists s p = true ∧ portUp s p = true ∧ onTheWay s p < 2 ∧ u = refreshPort p (dropGateLongs p s) ∧ portChoice (atBegin u p) p = none) ∧
    (∃ (s : State) (p : _), portExists s p = true ∧ portUp s p = false) ∧
    (∃ (s : State) (d : _) (level : _) (i : _), d < 2 ∧ i < levelTop level ∧ hasSlot s (schMem d) 0 = true) ∧
    (∃ (s : State) (d : _) (q : _), d < 2 ∧ shpWaits s d = some q ∧ hasSlot s (schMem d) 0 = true ∧ q.ticket = none) ∧
    (∃ (s : State) (c : _) (y : _) (x : _), getCopy s c = some y ∧ getPkt s y.pkt = some x ∧ y.phase = .dequeued ∧ outOfService s 1 (pgOf y.port) = false ∧ (rewriting s (pgOf y.port)).length < 64 ∧ rdF s (engPortProf 1 y.port) 0 8 ≠ 0) ∧
    (∃ (s : State) (c : _) (y : Copy) (x : Pkt) (r : _) (z : _), getCopy s c = some y ∧ getPkt s y.pkt = some x ∧ y.phase = .rewriting ∧ windowWaits 1 x.bytes.length x.got y.ctx.hp = false ∧ r = rweStepOf s x y ∧ r.1 = .fin z ∧ y.ctx.steps + r.2.1 ≤ y.ctx.limit) ∧
    (∃ (s : State) (c : _) (y : _) (x : _) (tl : _), getCopy s c = some y ∧ getPkt s y.pkt = some x ∧ y.tl = some tl ∧ y.phase = .launched ∧ tl ≤ stampNow s y.port true ∧ tget 0 s.path.wireEnd y.port ≤ tl ∧ gateEligible s y.port y.tc (portCharge s y.port y.len) = true) ∧
    (∃ (s : State) (c : _) (y : _) (x : _) (tl : _), getCopy s c = some y ∧ getPkt s y.pkt = some x ∧ y.tl = some tl ∧ y.phase = .launched ∧ tl ≤ stampNow s y.port true ∧ tl < tget 0 s.path.wireEnd y.port) ∧
    (∃ (s : State) (c : _) (y : Copy) (x : Pkt) (r : _) (ts : _) (u : _) (v : _) (we : _), getCopy s c = some y ∧ getPkt s y.pkt = some x ∧ y.phase = .ready ∧ x.complete = true ∧ portUp s y.port = true ∧ pgRuns s y.port = true ∧ inQuarantine s y = false ∧ y.invFcs = false ∧ y.badData = false ∧ x.dec.up = false ∧ y.port ∉ x.dec.upPorts ∧ x.dec.ctrl = false ∧ portRec s y.port = some r ∧ ts = y.tl.getD (stampNow s y.port true) ∧ u = emit (.frame y.port y.out true) (countTx y.port y.out false s) ∧ we = tset 0 u.path.wireEnd y.port (ts + (y.out.length + 24) * 8000 / max 1 (portRate r)) ∧ v = { u with path := { u.path with wireEnd := we } }) ∧
    (∃ (s : State) (p : _) (tc : _) (tenant : _) (bytes : List Byte), portExists s p = true ∧ tc < 8 ∧ tenant < 4096 ∧ 14 ≤ bytes.length ∧ bytes.length ≤ 16380) ∧
    (∃ (s : State) (p : _), portExists s p = true) ∧
    (∃ (s : State) (p : _), portExists s p = true) :=
  ⟨by refine ⟨spent (plainMem 0) 0 (upCopy pkDone { cp .queued with marked := true } [0]), 0, _, rfl, ?_⟩; decide +kernel,
   by refine ⟨upStack (upCopy pkDone { cp .queued with marked := true } [0]), 0, _, _, rfl, ?_, ?_, (by decide +kernel), ?_, rfl⟩ <;> decide +kernel,
   by refine ⟨upHbm, 0, { cp .queued with inHbm := true }, (okOf (allocate 0 ⟨36, 64, false, [0], []⟩ upHbm).1).getD 0, (allocate 0 ⟨36, 64, false, [0], []⟩ upHbm).2, ?_, ?_, ?_, (by decide +kernel), ok_pair ?_⟩ <;> decide +kernel,
   by refine ⟨upCopy pkDone (cp .queued) [0], 0, _, (got (portChoice (atBegin (refreshPort 0 (dropGateLongs 0 (upCopy pkDone (cp .queued) [0]))) 0) 0) (by decide +kernel)), ?_, ?_, ?_, rfl, got_some ?_⟩ <;> decide +kernel,
   by refine ⟨up, 0, _, ?_, ?_, ?_, rfl, ?_⟩ <;> decide +kernel,
   ⟨upDown, 0, by decide +kernel⟩,
   ⟨up, 0, 0, 0, by decide +kernel⟩,
   by refine ⟨upShp, 0, _, ?_, rfl, ?_⟩ <;> decide +kernel,
   ⟨regsOf [(engPortProf 1 0, 1)] (upCopy pkDone (cp .dequeued) []), 0, cp .dequeued, pkDone, by decide +kernel⟩,
   by refine ⟨upRewrite, 0, cpPatch, pkDone, _, (endOf (rweStepOf upRewrite pkDone cpPatch).1).getD emptyCopy, ?_, ?_, ?_, (by decide +kernel), rfl, fin_one ?_, ?_⟩ <;> decide +kernel,
   ⟨upCopy pkDone { cp .launched with tl := some 0 } [], 0, { cp .launched with tl := some 0 }, pkDone, 0, by decide +kernel⟩,
   ⟨upWire 5 (upCopy pkDone { cp .launched with tl := some 0 } []), 0, { cp .launched with tl := some 0 }, pkDone, 0, by decide +kernel⟩,
   by refine ⟨upCopy pkDone (cp .ready) [], 0, cp .ready, pkDone, ⟨1, 0, 0, 1522, true, true⟩, _, _, _, _, ?_, ?_, ?_, (by decide +kernel), ?_, ?_, ?_, (by decide +kernel), ?_, ?_, ?_, (by decide +kernel), ?_, rfl, rfl, rfl, rfl⟩ <;> decide +kernel,
   ⟨up, 0, 0, 0, List.replicate 14 0, by decide +kernel⟩,
   ⟨up, 0, by decide +kernel⟩,
   ⟨up, 0, by decide +kernel⟩⟩

/-- The hypotheses of `GlenEventsComplete` are met. -/
theorem wit_GlenEventsComplete :
    (∃ (s : State) (g : _) (m : _) (q : _) (rest : _), g < 8 ∧ m < 3 ∧ updQueue s (glenMem g m) = q :: rest ∧ isRouteOp q.op = false ∧ hasSlot s (glenMem g m) actUpdate = false) ∧
    (∃ (s : State) (g : _) (m : _) (q : _) (rest : _) (u : _), g < 8 ∧ m < 3 ∧ updQueue s (glenMem g m) = q :: rest ∧ isRouteOp q.op = false ∧ hasSlot s (glenMem g m) actUpdate = true ∧ q.ticket = none ∧ u = charge (glenMem g m) actUpdate (opCost g m q.op s) (setUpdQueue (glenMem g m) rest s)) ∧
    (∃ (s : State) (g : _) (m : _) (q : _) (rest : _) (u : _) (b : _) (v : _), g < 8 ∧ m < 3 ∧ updQueue s (glenMem g m) = q :: rest ∧ isRouteOp q.op = false ∧ hasSlot s (glenMem g m) actUpdate = true ∧ q.ticket = none ∧ u = charge (glenMem g m) actUpdate (opCost g m q.op s) (setUpdQueue (glenMem g m) rest s) ∧ opBad g q.op u = some (b, v)) ∧
    (∃ (s : State) (g : _) (m : _) (q : _) (rest : _) (u : _), g < 8 ∧ m < 3 ∧ updQueue s (glenMem g m) = q :: rest ∧ isRouteOp q.op = true ∧ hasSlot s (glenMem g m) actUpdate = true ∧ q.ticket = none ∧ q.mems.length ≤ 1 ∧ u = charge (glenMem g m) actUpdate (opCost g m q.op s) (setUpdQueue (glenMem g m) rest s)) ∧
    (∃ (s : State) (g : _) (m : _) (q : _) (rest : _) (u : _) (r : _) (t : _), g < 8 ∧ m < 3 ∧ updQueue s (glenMem g m) = q :: rest ∧ hasSlot s (glenMem g m) actUpdate = true ∧ q.ticket = some t ∧ q.mems.length ≤ 1 ∧ u = charge (glenMem g m) actUpdate (opCost g m q.op s) (setUpdQueue (glenMem g m) rest s) ∧ r = opRun g q.op u ∧ r.code ≠ rPending) ∧
    (∃ (s : State) (g : _) (b : _) (rest : _) (u : _) (j : _) (o : _) (i : _), g < 8 ∧ tget [] s.glens.promo g = b :: rest ∧ hasSlot s (glenMem g 0) actLearn = true ∧ u = { s with glens := { s.glens with promo := tset [] s.glens.promo g rest } } ∧ promotable u g b = some (j, o, i)) ∧
    (∃ (s : State) (g : _) (b : _) (rest : _) (u : _), g < 8 ∧ tget [] s.glens.promo g = b :: rest ∧ hasSlot s (glenMem g 0) actLearn = true ∧ u = { s with glens := { s.glens with promo := tset [] s.glens.promo g rest } } ∧ promotable u g b = none) ∧
    (∃ (s : State) (g : _) (p : _) (rest : _) (u : _), g < 8 ∧ takeGood (tget [] s.glens.pend g) = some (p, rest) ∧ hasSlot s (glenMem g 0) actLearn = true ∧ u = { s with glens := { s.glens with pend := tset [] s.glens.pend g rest } } ∧ tblLearn s g p.table ≠ 0 ∧ inFilter s g p.table p.key = false) ∧
    (∃ (s : State) (g : _) (table : _) (k : _) (rest : _) (u : _) (h : _), g < 8 ∧ tget [] s.glens.ageQ g = (table, k) :: rest ∧ hasSlot s (glenMem g 0) actLearn = true ∧ u = charge (glenMem g 0) actLearn 1 { s with glens := { s.glens with ageQ := tset [] s.glens.ageQ g rest } } ∧ emFind u g table k = some h ∧ h.e.isStatic = false) ∧
    (∃ (s : State) (g : _) (u : _), g < 8 ∧ rdF s (emtAgeCfg g) 0 16 ≠ 0 ∧ tget 0 s.glens.tickAt g + rdF s (emtAgeCfg g) 0 16 * 10 ^ 6 ≤ s.tim.cnt ∧ rdBit s (emtAgeStat g) 12 = true ∧ u = tickFrom g (nextTick s g) s) ∧
    (∃ (s : State) (g : _), g < 8 ∧ rdF s (emtAgeCfg g) 0 16 ≠ 0 ∧ tget 0 s.glens.tickAt g + rdF s (emtAgeCfg g) 0 16 * 10 ^ 6 ≤ s.tim.cnt ∧ rdBit s (emtAgeStat g) 12 = false) ∧
    (∃ (s : State) (g : _) (p : _) (u : _), g < 8 ∧ tget 0 s.glens.scanPos g = p ∧ p < 131072 ∧ rdF s (emtAgeCfg g) 0 16 ≠ 0 ∧ tget false s.glens.scanIdle g = false ∧ hasSlot s (glenMem g 0) actLearn = true ∧ usedOf s (glenMem g 0) actScan < rdF s (emtAgeCfg g) 16 12 ∧ u = charge (glenMem g 0) actLearn 1 { s with bud := { s.bud with used := tmod 0 s.bud.used (budKey (glenMem g 0) actScan) (· + 1) } } ∧ bktRetired s g p = false) ∧
    (∃ (s : State) (g : _) (p : _) (i : _) (o : _), g < 8 ∧ tget 0 s.glens.scanPos g = p ∧ p = 131072 + i ∧ rdF s (emtAgeCfg g) 0 16 ≠ 0 ∧ tget false s.glens.scanIdle g = false ∧ o = tget emptyOvf s.glens.ovf (key g i)) ∧
    (∃ (s : State) (g : _), g < 8 ∧ ringDue (emtRing g) (rdF s (emtRing g + 8) 16 8 * 1000) s = true) ∧
    (∃ (s : State) (g : _) (ws : _), g < 8 ∧ fwRestored s = true ∧ rdBit s (emtRing g + 8) 0 = true ∧ rdBit s (emtRing g + 8) 1 = false ∧ ringFill s (emtRing g) ≠ 0 ∧ learnRecord s g (rd s (emtRing g + 0x10)).toNat = some ws) :=
  ⟨⟨spent 0 0 (upGlen [(0, [⟨.emDelete 0 0, none, [0]⟩])]), 0, 0, ⟨.emDelete 0 0, none, [0]⟩, [], by decide +kernel⟩,
   by refine ⟨upGlen [(0, [⟨.emDelete 0 0, none, [0]⟩])], 0, 0, ⟨.emDelete 0 0, none, [0]⟩, [], _, ?_, ?_, ?_, (by decide +kernel), ?_, ?_, rfl⟩ <;> decide +kernel,
   by refine ⟨upGlen [(0, [⟨.emInsert 0 0 5 false, none, [0]⟩])], 0, 0, ⟨.emInsert 0 0 5 false, none, [0]⟩, [], _, (got (opBad 0 (.emInsert 0 0 5 false) upBadOp) (by decide +kernel)).1, (got (opBad 0 (.emInsert 0 0 5 false) upBadOp) (by decide +kernel)).2, ?_, ?_, ?_, (by decide +kernel), ?_, ?_, rfl, some_pair ?_⟩ <;> decide +kernel,
   by refine ⟨upGlen [(2, [⟨.routeDel 0 0 0 0, none, [2]⟩])], 0, 2, ⟨.routeDel 0 0 0 0, none, [2]⟩, [], _, ?_, ?_, ?_, (by decide +kernel), ?_, ?_, ?_, rfl⟩ <;> decide +kernel,
   by refine ⟨upGlen [(0, [⟨.emDelete 0 0, some ⟨1, 0⟩, [0]⟩])], 0, 0, ⟨.emDelete 0 0, some ⟨1, 0⟩, [0]⟩, [], _, _, ⟨1, 0⟩, ?_, ?_, ?_, (by decide +kernel), ?_, ?_, rfl, rfl, ?_⟩ <;> decide +kernel,
   by refine ⟨upPromo, 0, homeBucket up 0 0 0, [], _, 0, ⟨⟨0, 5, 0, false, true, 0⟩, homeBucket up 0 0 0⟩, 0, ?_, ?_, ?_, rfl, ?_⟩ <;> decide +kernel,
   by refine ⟨{ up with glens := { up.glens with promo := [(0, [7])] } }, 0, 7, [], _, ?_, ?_, ?_, rfl, ?_⟩ <;> decide +kernel,
   by refine ⟨upLearn, 0, ⟨1, 0, 5, 0, 0, true, 0, false, false⟩, [], _, ?_, ?_, ?_, rfl, ?_⟩ <;> decide +kernel,
   by refine ⟨upAge, 0, 0, 0, [], upAged, got (emFind upAged 0 0 0) (by decide +kernel), ?_, ?_, ?_, (by decide +kernel), got_some ?_, ?_⟩ <;> decide +kernel,
   by refine ⟨atCnt 1000000000 (regsOf [(emtAgeStat 0, 0x1000)] up), 0, _, ?_, ?_, ?_, (by decide +kernel), rfl⟩ <;> decide +kernel,
   ⟨atCnt 1000000000 up, 0, by decide +kernel⟩,
   by refine ⟨up, 0, 0, _, ?_, ?_, ?_, (by decide +kernel), ?_, ?_, ?_, rfl, ?_⟩ <;> decide +kernel,
   by refine ⟨{ up with glens := { up.glens with scanPos := [(0, 131072)] } }, 0, 131072, 0, _, ?_, ?_, ?_, (by decide +kernel), ?_, rfl⟩ <;> decide +kernel,
   ⟨upRing, 0, by decide +kernel⟩,
   by refine ⟨upRing, 0, _, ?_, ?_, ?_, (by decide +kernel), ?_, rfl⟩ <;> decide +kernel⟩

/-- The hypotheses of `ScrubAndSweepEventsComplete` are met. -/
theorem wit_ScrubAndSweepEventsComplete :
    (∃ (s : State) (g : _) (i : _), g < 8 ∧ i < 32768 ∧ hasSlot s (glenMem g 0) actScrub = true ∧ tget false s.glens.pivotBad (key g i) = true) ∧
    (∃ (s : State) (g : _) (i : _), g < 8 ∧ i < 32768 ∧ hasSlot s (glenMem g 0) actScrub = false) ∧
    (∃ (s : State) (g : _) (i : _) (r : _) (u : _), g < 8 ∧ i < 16384 ∧ r = ruleGet s g i ∧ isWide r = true ∧ hasSlot s (glenMem g 1) actScrub = true ∧ u = charge (glenMem g 1) actScrub r.slices.length s) ∧
    (∃ (s : State) (g : _) (i : _) (r : _), g < 8 ∧ i < 16384 ∧ r = ruleGet s g i ∧ isWide r = true ∧ r.exclude = true ∧ hasSlot s (glenMem g 1) actScrub = true) ∧
    (∃ (s : State) (g : _) (i : _) (r : _) (u : _), g < 8 ∧ i < 16384 ∧ r = ruleGet s g i ∧ isWide r = false ∧ fwUp s = true ∧ r.exclude = false ∧ rdF s (tcmScrubCfg g) 0 16 ≠ 0 ∧ hasSlot s (glenMem g 1) actScrub = true ∧ u = charge (glenMem g 1) actScrub (max 1 r.slices.length) s) ∧
    (∃ (s : State) (g : _) (i : _) (r : _), g < 8 ∧ i < 16384 ∧ r = ruleGet s g i ∧ isWide r = false ∧ fwUp s = true ∧ r.exclude = true ∧ hasSlot s (glenMem g 1) actUpdate = true ∧ hasSlot s (glenMem g 2) actUpdate = true) ∧
    (∃ (s : State) (d : _) (r : _) (rest : _), d < 2 ∧ tget [] s.streams.histQ d = r :: rest ∧ r.residence < 0) ∧
    (∃ (s : State) (g : _) (i : _) (c : _), g < 8 ∧ i < 256 ∧ (gateGet s g i).tc = some c ∧ c ≤ netNs s) ∧
    (∃ (g : _) (i : _), g < 8 ∧ i < 49152) :=
  ⟨⟨{ up with glens := { up.glens with pivotBad := [(0, true)] } }, 0, 0, by decide +kernel⟩,
   ⟨spent 0 2 up, 0, 0, by decide +kernel⟩,
   by refine ⟨upRule 3 false, 0, 0, _, _, ?_, ?_, rfl, (by decide +kernel), ?_, rfl⟩ <;> decide +kernel,
   by refine ⟨upRule 3 true, 0, 0, _, ?_, ?_, rfl, ?_⟩ <;> decide +kernel,
   by refine ⟨upRule 0 false, 0, 0, _, _, ?_, ?_, rfl, (by decide +kernel), ?_, ?_, ?_, (by decide +kernel), rfl⟩ <;> decide +kernel,
   by refine ⟨upRule 0 true, 0, 0, _, ?_, ?_, rfl, ?_⟩ <;> decide +kernel,
   ⟨{ up with streams := { up.streams with histQ := [(0, [⟨0, 0, -1⟩])] } }, 0, ⟨0, 0, -1⟩, [], by decide +kernel⟩,
   ⟨{ up with streams := { up.streams with gates := [(0, { emptyGate with tc := some 0 })] } }, 0, 0, 0, by decide +kernel⟩,
   ⟨0, 0, by decide +kernel⟩⟩

/-- The hypotheses of `BufferEventsComplete` are met. -/
theorem wit_BufferEventsComplete :
    (∃ (s : State) (d : _) (req : _) (o : _) (ptr : _) (k : _) (c : _), d < 2 ∧ req < 38 ∧ o < 512 ∧ namesQuarantined s d ptr = false ∧ ptrCheck s d o ptr = .ok k ∧ c = cellGet s d (fld ptr 0 19) ∧ c.owners.getLast? ≠ some o ∧ c.owners.erase o ≠ [] ∧ c.owners.erase o ≠ [collectId]) ∧
    (∃ (s : State) (d : _) (req : _) (o : _) (ptr : _) (k : _) (c : _), d < 2 ∧ req < 38 ∧ o < 512 ∧ namesQuarantined s d ptr = false ∧ ptrCheck s d o ptr = .ok k ∧ c = cellGet s d (fld ptr 0 19) ∧ (c.owners = [o] ∨ (c.owners.getLast? ≠ some o ∧ c.owners.erase o = [collectId]))) ∧
    (∃ (s : State) (d : _) (req : _) (o : _) (ptr : _) (k : _), d < 2 ∧ req < 38 ∧ o < 512 ∧ namesQuarantined s d ptr = false ∧ ptrCheck s d o ptr = .ok k ∧ (cellGet s d (fld ptr 0 19)).owners.getLast? = some o ∧ (cellGet s d (fld ptr 0 19)).owners ≠ [o]) ∧
    (∃ (s : State) (d : _) (req : _) (o : _) (n : _) (ptr : _) (k : _) (c : _), d < 2 ∧ req < 38 ∧ o < 512 ∧ n < 512 ∧ ptrCheck s d o ptr = .ok k ∧ c = cellGet s d (fld ptr 0 19) ∧ ownerValid s d n = true ∧ n ∉ c.owners ∧ o ∉ c.ports ∧ ownerless (swapOwner c o n) = false) ∧
    (∃ (s : State) (d : _) (req : _) (o : _) (n : _) (ptr : _) (k : _) (c : _), d < 2 ∧ req < 38 ∧ o < 512 ∧ n < 512 ∧ ptrCheck s d o ptr = .ok k ∧ c = cellGet s d (fld ptr 0 19) ∧ ownerValid s d n = true ∧ n ∉ c.owners ∧ o ∈ c.ports ∧ c.owners.length - c.ports.length < 8 ∧ ownerless (swapOwner c o n) = false) ∧
    (∃ (s : State) (d : _) (req : _) (o : _) (n : _) (ptr : _) (k : _), d < 2 ∧ req < 38 ∧ o < 512 ∧ n < 512 ∧ ptrCheck s d o ptr = .ok k ∧ (ownerValid s d n = false ∨ n ∈ (cellGet s d (fld ptr 0 19)).owners)) :=
  ⟨by refine ⟨upCell [0, 290, 291] [0], 0, 0, 290, 0, 0, _, ?_, ?_, ?_, (by decide +kernel), ?_, rfl, ?_⟩ <;> decide +kernel,
   by refine ⟨upCell [0] [0], 0, 0, 0, 0, 0, _, ?_, ?_, ?_, (by decide +kernel), ?_, rfl, ?_⟩ <;> decide +kernel,
   ⟨upCell [0, 290] [0], 0, 0, 290, 0, 0, by decide +kernel⟩,
   by refine ⟨upCell [0, 290] [0], 0, 0, 290, 292, 0, 0, _, ?_, ?_, ?_, (by decide +kernel), ?_, rfl, ?_⟩ <;> decide +kernel,
   by refine ⟨upCell [0, 290] [0], 0, 0, 0, 292, 0, 0, _, ?_, ?_, ?_, (by decide +kernel), ?_, rfl, ?_⟩ <;> decide +kernel,
   ⟨upCell [0, 290] [0], 0, 0, 290, 0, 0, 0, by decide +kernel⟩⟩

/-- The hypotheses of `GateEventsComplete` are met. -/
theorem wit_GateEventsComplete :
    (∃ (s : State) (p : _) (c : _), p < 256 ∧ (gatOf s p).tc = some c ∧ (gatOf s p).pending = true ∧ c ≤ netNs s) ∧
    (∃ (s : State) (p : _), p < 256 ∧ ((gatOf s p).tc = none ∨ (gatOf s p).pending = false)) ∧
    (∃ (s : State) (p : _) (e : _) (u : _), p < 256 ∧ timValid s = true ∧ gateEntryAt s p (netNs s) = some e ∧ u = gateRefresh p s) ∧
    (∃ (s : State) (p : _), p < 256 ∧ preemptActive s p = true ∧ timValid s = true ∧ (listAt s p (netNs s)).1.len ≠ 0) ∧
    (∃ (s : State) (p : _), portExists s p = true ∧ rdBit s (gatPortCfg p) 16 = true) ∧
    (∃ (s : State) (p : _), portExists s p = true ∧ rdBit s (gatPortCfg p) 16 = true) :=
  ⟨⟨upGate, 0, 0, by decide +kernel⟩,
   ⟨up, 0, by decide +kernel⟩,
   by refine ⟨upGate1, 0, (got (gateEntryAt upGate1 0 (netNs upGate1)) (by decide +kernel)), _, ?_, ?_, got_some ?_, rfl⟩ <;> decide +kernel,
   ⟨upGate1, 0, by decide +kernel⟩,
   ⟨upGate, 0, by decide +kernel⟩,
   ⟨upGate, 0, by decide +kernel⟩⟩

/-- The hypotheses of `TimeEventsComplete` are met. -/
theorem wit_TimeEventsComplete :
    (∃ (s : State), rdBit s timStat 2 = true) ∧
    (∃ (s : State), timeOutsOn s = true ∧ (netNanos s + 10 ^ 9 - (rd s timPpsCfg).toNat % 10 ^ 9) % 10 ^ 9 < rdF s timPpsWidth 0 20 * 1000) ∧
    (∃ (s : State), rdF s timPpsWidth 0 20 * 1000 ≤ (netNanos s + 10 ^ 9 - (rd s timPpsCfg).toNat % 10 ^ 9) % 10 ^ 9) ∧
    (∃ (s : State), s.tim.discipline = false) ∧
    (∃ (s : State), s.tim.discipline = true ∧ s.tim.ppsSeen + 2 * 10 ^ 9 ≤ s.tim.cnt) ∧
    (∃ (s : State), rdBit s timStat 5 = true) ∧
    (∃ (s : State), rdBit s timStat 5 = false) :=
  ⟨⟨upTime 4, by decide +kernel⟩,
   ⟨regsOf [(timPpsWidth, 10)] (upTime 1), by decide +kernel⟩,
   ⟨up, by decide +kernel⟩,
   ⟨up, by decide +kernel⟩,
   ⟨{ up with tim := { up.tim with discipline := true, cnt := 2000000000 } }, by decide +kernel⟩,
   ⟨upTime 0x20, by decide +kernel⟩,
   ⟨upTime 4, by decide +kernel⟩⟩

/-- The hypotheses of `CounterEventsComplete` are met. -/
theorem wit_CounterEventsComplete :
    (∃ (s : State) (d : _) (f : _) (x : _), d < 2 ∧ f < 4096 ∧ rcvGet s d f = x ∧ rEn x = true ∧ rResetMs x ≠ 0 ∧ x.timer + rResetMs x * 10 ^ 6 ≤ s.tim.cnt) ∧
    (∃ (s : State) (d : _) (f : _) (x : _) (u : _), d < 2 ∧ f < 4096 ∧ rcvGet s d f = x ∧ rEn x = true ∧ rLatEn x = true ∧ x.latAt + rLatPeriod x * 10 ^ 6 ≤ s.tim.cnt ∧ u = rcvPut d f { x with latAt := s.tim.cnt } s) ∧
    (∃ (s : State) (d : _) (f : _) (x : _), d < 2 ∧ f < 4096 ∧ rcvGet s d f = x ∧ rEn x = true ∧ rLatEn x = true ∧ x.latZero + rLatReset x * 10 ^ 7 ≤ s.tim.cnt) ∧
    (∃ (d : _) (b : _), d < 2 ∧ b < 4096) ∧
    (∃ (s : State) (d : _) (g : _) (level : _) (first : _), d < 2 ∧ g < 8 ∧ rdF s (sampCfg d g) 20 2 = level ∧ level ≠ 3 ∧ rdF s (sampRange d g) 0 18 = first ∧ rdF s (sampCfg d g) 0 20 ≠ 0 ∧ rdF s (sampRange d g) 18 14 ≠ 0 ∧ (sampGet s d g).members = [] ∧ (sampGet s d g).next ≤ s.tim.cnt ∧ 36 ∉ s.col.stopped) ∧
    (∃ (s : State) (d : _) (g : _), d < 2 ∧ g < 8 ∧ rdF s (sampCfg d g) 20 2 ≠ 3 ∧ rdF s (sampCfg d g) 0 20 ≠ 0 ∧ rdF s (sampRange d g) 18 14 ≠ 0 ∧ (sampGet s d g).members ≠ [] ∧ (sampGet s d g).next ≤ s.tim.cnt ∧ 36 ∉ s.col.stopped) ∧
    (∃ (s : State) (d : _) (g : _), d < 2 ∧ g < 8 ∧ s.tim.cnt < (sampGet s d g).next) ∧
    (∃ (s : State) (d : _) (g : _) (i : _) (rest : _) (u : _), d < 2 ∧ g < 8 ∧ (sampGet s d g).members = i :: rest ∧ hasSlot s (schMem d) 1 = true ∧ u = sampPut d g { sampGet s d g with members := rest } (charge (schMem d) 1 1 s)) ∧
    (∃ (s : State) (k : _) (p : _) (b : _), k < 11 ∧ setPeriod s k = p ∧ p ≠ 0 ∧ timValid s = true ∧ b = ((setSt s k).mark / p + 1) * p) ∧
    (∃ (s : State) (k : _) (ns : _) (c : _) (u : _), k < 11 ∧ boundaryDue s k = some (ns, c) ∧ (setSt s k).pend = [] ∧ u = putSetSt k { setSt s k with mark := ns, base := c } s) ∧
    (∃ (s : State) (k : _) (ns : _) (c : _) (u : _), k < 11 ∧ boundaryDue s k = some (ns, c) ∧ (setSt s k).pend ≠ [] ∧ u = putSetSt k { setSt s k with mark := ns, base := c } s) ∧
    (∃ (s : State) (k : _), k < 11 ∧ boundaryDue s k = none) ∧
    (∃ (s : State) (k : _) (x : _) (r : _), k < 11 ∧ setSt s k = x ∧ x.pend ≠ [] ∧ x.owes = [] ∧ rdBit s (dumpRing s k + 8) 1 = false ∧ r = ringPost (dumpRing s k) 1024 (x.pend.length / 16) x.pend s ∧ r.1 = true) ∧
    (∃ (s : State) (n : _), n < 32 ∧ slotDue s n = true ∧ tget false s.path.took n = true) ∧
    (∃ (s : State) (n : _), n < 32 ∧ slotDue s n = true ∧ tget false s.path.took n = false ∧ 0 < tget 0 s.path.wasted n) ∧
    (∃ (s : State) (n : _), n < 32 ∧ slotDue s n = true ∧ tget false s.path.took n = false ∧ tget 0 s.path.wasted n = 0) ∧
    (∃ (s : State) (n : _), n < 32 ∧ slotDue s n = false) ∧
    (∃ (s : State) (n : _) (u : _), n < 32 ∧ rdBit s pmcTagCfg 24 = true ∧ rdBit s (pmcOvf n 0) 27 = true ∧ max 1 (rdF s (pmcOvf n 0) 0 24) ≤ rdF s (pmcOvf n 4) 0 24 ∧ u = emit (.irqMp (pmcOvf n 0)) (wrF (pmcOvf n 4) 0 24 0 s) ∧ rdBit u (pmcOvf n 0x10) 31 = false) :=
  ⟨by refine ⟨upRcv rcv1, 0, 0, _, ?_, ?_, rfl, ?_⟩ <;> decide +kernel,
   by refine ⟨upRcv rcv1, 0, 0, _, _, ?_, ?_, rfl, (by decide +kernel), ?_, ?_, rfl⟩ <;> decide +kernel,
   by refine ⟨upRcv rcv1, 0, 0, _, ?_, ?_, rfl, ?_⟩ <;> decide +kernel,
   ⟨0, 0, by decide +kernel⟩,
   ⟨upSamp, 0, 0, 0, 0, by decide +kernel⟩,
   ⟨{ upSamp with sch := { upSamp.sch with samp := [(0, ⟨0, [0], 0⟩)] } }, 0, 0, by decide +kernel⟩,
   ⟨{ upSamp with sch := { upSamp.sch with samp := [(0, ⟨0, [0], 5⟩)] } }, 0, 0, by decide +kernel⟩,
   by refine ⟨{ up with sch := { up.sch with samp := [(0, ⟨0, [5], 0⟩)] } }, 0, 0, 5, [], _, ?_, ?_, ?_, (by decide +kernel), rfl⟩ <;> decide +kernel,
   ⟨regsOf [(pmcSet 0 0, 100)] (upTime 1), 0, 100000, 100000, by decide +kernel⟩,
   by refine ⟨upDue [], 0, 100000, 0, _, ?_, ?_, ?_, rfl⟩ <;> decide +kernel,
   by refine ⟨upDue (zs 16), 0, 100000, 0, _, ?_, ?_, ?_, rfl⟩ <;> decide +kernel,
   ⟨up, 0, by decide +kernel⟩,
   by refine ⟨regsOf [(dumpRing (upSet (zs 16)) 0 + 8, 1)] (upSet (zs 16)), 0, _, _, ?_, rfl, ?_, (by decide +kernel), ?_, rfl, ?_⟩ <;> decide +kernel,
   ⟨atCnt 100 { up with path := { up.path with took := [(0, true)] } }, 0, by decide +kernel⟩,
   ⟨atCnt 100 { up with path := { up.path with wasted := [(0, 1)] } }, 0, by decide +kernel⟩,
   ⟨atCnt 100 up, 0, by decide +kernel⟩,
   ⟨up, 0, by decide +kernel⟩,
   by refine ⟨regsOf [(pmcTagCfg, 0x1000000), (pmcOvf 0 0, 0x8000001), (pmcOvf 0 4, 5)] up, 0, _, ?_, ?_, ?_, (by decide +kernel), rfl, ?_⟩ <;> decide +kernel⟩

/-- The hypotheses of `FieldEventsComplete` are met. -/
theorem wit_FieldEventsComplete :
    (∃ (s : State) (i : _) (pin : _) (x : _), i < 32 ∧ fiOf s i = x ∧ x.pin ≠ pin ∧ fiFilt s i ≠ 0 ∧ fioStopped s = false) ∧
    (∃ (s : State) (i : _) (pin : _), i < 32 ∧ (fiOf s i).pin = pin) ∧
    (∃ (s : State) (i : _) (pin : _), i < 32 ∧ (fiOf s i).pin ≠ pin ∧ fioStopped s = true) ∧
    (∃ (s : State) (i : _), i < 32 ∧ (fioStopped s = true ∨ s.tim.cnt < (fiOf s i).since + fiFilt s i)) ∧
    (∃ (s : State) (i : _) (x : _), i < 32 ∧ fiOf s i = x ∧ x.acc = none ∧ fioStopped s = false ∧ x.since + fiFilt s i ≤ s.tim.cnt) ∧
    (∃ (s : State) (i : _) (x : _), i < 32 ∧ fiOf s i = x ∧ x.acc = some (fiLogical s i) ∧ fioStopped s = false ∧ x.since + fiFilt s i ≤ s.tim.cnt) ∧
    (∃ (s : State) (i : _) (x : _) (a : _), i < 32 ∧ fiOf s i = x ∧ x.acc = some a ∧ fiLogical s i ≠ a ∧ fioStopped s = false ∧ x.since + fiFilt s i ≤ s.tim.cnt) ∧
    (∃ (s : State) (j : _), j < 16 ∧ (foOf s j).pulse = true ∧ (foOf s j).ends ≤ s.tim.cnt) ∧
    (∃ (s : State) (j : _), j < 16 ∧ ((foOf s j).pulse = false ∨ s.tim.cnt < (foOf s j).ends)) ∧
    (∃ (s : State) (j : _) (pin : _), j < 16 ∧ rdBit s (foCfg j) 27 = true ∧ pin ≠ (foOf s j).level ∧ rdBit s fioFoStat (16 + j) = false) ∧
    (∃ (s : State), fioStopped s = true) ∧
    (∃ (s : State) (pin : _) (op : _) (rest : _), s.fio.trig = (pin, op) :: rest ∧ fioStopped s = false) ∧
    (∃ (s : State) (i : _) (x : _), i < 64 ∧ tevOf s i = x ∧ x.en = true ∧ timValid s = true ∧ x.next ≤ netNs s ∧ x.period = 0) ∧
    (∃ (s : State) (i : _) (x : _) (k : _), i < 64 ∧ tevOf s i = x ∧ x.en = true ∧ timValid s = true ∧ x.next ≤ netNs s ∧ x.period ≠ 0 ∧ k = (netNs s - x.next) / x.period) ∧
    (∃ (s : State) (j : _) (x : _) (n : _) (due : _), j < 8 ∧ pubOf s j = x ∧ x.interval ≠ 0 ∧ pubFormat x ≠ 0 ∧ due = x.sentAt + x.interval * 1000 ∧ due ≤ s.tim.cnt ∧ n = 2 * x.interval) ∧
    (∃ (s : State) (j : _), j < 8 ∧ ((pubOf s j).interval = 0 ∨ s.tim.cnt < (pubOf s j).sentAt + (pubOf s j).interval * 1000)) ∧
    (∃ (s : State) (j : _) (x : _) (due : _), j < 8 ∧ pubOf s j = x ∧ x.beats = true ∧ pubFormat x ≠ 0 ∧ due = x.sentAt + pubT0 x * 10 ^ 6 ∧ due ≤ s.tim.cnt) ∧
    (∃ (s : State) (j : _), j < 8 ∧ ((pubOf s j).beats = false ∨ s.tim.cnt < (pubOf s j).sentAt + pubT0 (pubOf s j) * 10 ^ 6)) :=
  ⟨by refine ⟨up, 0, true, _, ?_, rfl, ?_⟩ <;> decide +kernel,
   ⟨up, 0, false, by decide +kernel⟩,
   ⟨noTick up, 0, true, by decide +kernel⟩,
   ⟨noTick up, 0, by decide +kernel⟩,
   by refine ⟨atCnt (10 ^ 12) up, 0, _, ?_, rfl, ?_⟩ <;> decide +kernel,
   by refine ⟨atCnt (10 ^ 12) (upFio { up.fio with ins := [(0, { restIn with acc := some false })] } up), 0, _, ?_, rfl, ?_⟩ <;> decide +kernel,
   by refine ⟨atCnt (10 ^ 12) (upFio { up.fio with ins := [(0, { restIn with acc := some true })] } up), 0, _, true, ?_, rfl, ?_⟩ <;> decide +kernel,
   ⟨upFio { up.fio with outs := [(0, { restOut with pulse := true })] } up, 0, by decide +kernel⟩,
   ⟨up, 0, by decide +kernel⟩,
   ⟨regsOf [(foCfg 0, 0x8000000)] up, 0, true, by decide +kernel⟩,
   ⟨noTick up, by decide +kernel⟩,
   ⟨upFio { up.fio with trig := [(0, 0)] } up, 0, 0, [], by decide +kernel⟩,
   by refine ⟨upFio { up.fio with tev := [(0, tev1 0)] } (upTime 1), 0, _, ?_, rfl, ?_⟩ <;> decide +kernel,
   by refine ⟨upFio { up.fio with tev := [(0, tev1 5)] } (upTime 1), 0, _, _, ?_, rfl, ?_, (by decide +kernel), ?_, ?_, rfl⟩ <;> decide +kernel,
   by refine ⟨atCnt (10 ^ 12) (upFio { up.fio with pubs := [(0, pub1)] } up), 0, _, _, _, ?_, rfl, ?_, (by decide +kernel), rfl, ?_, rfl⟩ <;> decide +kernel,
   ⟨up, 0, by decide +kernel⟩,
   by refine ⟨atCnt (10 ^ 12) (upFio { up.fio with pubs := [(0, pub1)] } up), 0, _, _, ?_, rfl, ?_, (by decide +kernel), rfl, ?_⟩ <;> decide +kernel,
   ⟨up, 0, by decide +kernel⟩⟩

/-- The hypotheses of `CascadeEventsComplete` are met. -/
theorem wit_CascadeEventsComplete :
    (∃ (s : State) (m : _) (u : _), casRuns s = true ∧ s.path.mpRx.find? (·.ctrl) = some m ∧ readCtl m = none ∧ u = (release m.die 34 290 m.ptr { s with path := { s.path with mpRx := s.path.mpRx.erase m } }).2) ∧
    (∃ (s : State) (m : _) (c : _) (u : _), casRuns s = true ∧ s.path.mpRx.find? (·.ctrl) = some m ∧ readCtl m = some c ∧ c.kind < 4 ∧ u = (release m.die 34 290 m.ptr { s with path := { s.path with mpRx := s.path.mpRx.erase m } }).2) ∧
    (∃ (s : State) (m : _) (c : _) (u : _), casRuns s = true ∧ s.path.mpRx.find? (·.ctrl) = some m ∧ readCtl m = some c ∧ 4 ≤ c.kind ∧ u = (release m.die 34 290 m.ptr { s with path := { s.path with mpRx := s.path.mpRx.erase m } }).2) ∧
    (∃ (s : State) (i : Nat) (q : _), s.cas.frags[i]? = some q) ∧
    (∃ (s : State), casRuns s = true ∧ isWorker s = true ∧ s.cas.join = true ∧ s.cas.helloNext ≤ s.tim.cnt ∧ ownDevice s ≠ 0 ∧ (relayPorts s 256).any (portUp s) = true ∧ partnerSess s 0 = none) ∧
    (∃ (s : State), (casRuns s = false ∨ isWorker s = false ∨ s.cas.join = false ∨ s.tim.cnt < s.cas.helloNext)) ∧
    (∃ (s : State) (k : _) (x : _), casRuns s = true ∧ upSess s k = some x) ∧
    (∃ (s : State) (k : _) (x : _), rdF s casTiming 16 4 ≠ 0 ∧ upSess s k = some x ∧ isWorker s = true ∧ x.lastRx + rdF s casTiming 16 4 * keepaliveNs s ≤ s.tim.cnt) ∧
    (∃ (s : State) (k : _) (x : _) (u : _), rdF s casTiming 16 4 ≠ 0 ∧ upSess s k = some x ∧ isWorker s = false ∧ x.lastRx + rdF s casTiming 16 4 * keepaliveNs s ≤ s.tim.cnt ∧ u = closeSession k s) ∧
    (∃ (s : State) (k : _) (x : _), upSess s k = some x ∧ (rdF s casTiming 16 4 = 0 ∨ s.tim.cnt < x.lastRx + rdF s casTiming 16 4 * keepaliveNs s)) ∧
    (∃ (s : State) (k : _) (x : _), casRuns s = true ∧ isManager s = true ∧ upSess s k = some x) :=
  ⟨by refine ⟨upCtl [], ctlFrame [], _, ?_, ?_, ?_, rfl⟩ <;> decide +kernel,
   by refine ⟨upCtl (ctlBytes 1), ctlFrame (ctlBytes 1), got (readCtl (ctlFrame (ctlBytes 1))) (by decide +kernel), _, ?_, ?_, got_some ?_, (by decide +kernel), rfl⟩ <;> decide +kernel,
   by refine ⟨upCtl (ctlBytes 6), ctlFrame (ctlBytes 6), got (readCtl (ctlFrame (ctlBytes 6))) (by decide +kernel), _, ?_, ?_, got_some ?_, (by decide +kernel), rfl⟩ <;> decide +kernel,
   by refine ⟨{ up with cas := { up.cas with frags := [⟨5, 1, 4, 0, 0, [], 0⟩] } }, 0, _, rfl⟩,
   ⟨upJoin, by decide +kernel⟩,
   ⟨up, by decide +kernel⟩,
   ⟨upCas 1, 1, sess5, by decide +kernel⟩,
   ⟨atCnt (10 ^ 12) (upCas 1), 1, sess5, by decide +kernel⟩,
   by refine ⟨atCnt (10 ^ 12) (upCas 2), 1, sess5, _, ?_, ?_, ?_, (by decide +kernel), rfl⟩ <;> decide +kernel,
   ⟨upCas 1, 1, sess5, by decide +kernel⟩,
   ⟨upCas 2, 1, sess5, by decide +kernel⟩⟩

/-- The hypotheses of `FaultEventsComplete` are met. -/
theorem wit_FaultEventsComplete :
    (∃ (s : State) (p : _) (q : _) (n : _) (u : _), p < 32 ∧ q < 32 ∧ 0 < n ∧ n < 16 ∧ u = bump 97 (pipBase p / 65536) 0 32 1 s) ∧
    (∃ (s : State) (p : _) (u : _), p < 32 ∧ u = bump 97 (pipBase p / 65536) 0 32 1 s) ∧
    (∃ (d : _), d < 2) ∧
    (∃ (d : _) (n : _), d < 2 ∧ n ≤ 64) ∧
    (∃ (s : State), fwStage s ≠ 0 ∧ s.fcl.hold ≠ 5 ∧ fwRestored s = true) ∧
    (∃ (n : _) (addr : _) (kind : _) (idx : _), n < 112 ∧ addr < 2 ^ 32 ∧ unitNamed kind idx = true ∧ n ≠ srcThermWarn) ∧
    (∃ (g : _) (i : _), g < 8 ∧ i < 32768) ∧
    (∃ (n : _), n < 34) ∧
    (∃ (g : _), g < 8) ∧
    (∃ (s : State), s.fcl.raised = []) ∧
    (∃ (s : State) (r : _) (ws : _) (u : _), s.fcl.raised = [r] ∧ r.src < 112 ∧ rdBit s (fclSrcCfg r.src) 8 = false ∧ ws = s.fcl.windows.filter (fun w => decide (s.tim.cnt < w.ends)) ∧ u = inc (fclCnt r.src) { s with fcl := { s.fcl with raised := [], windows := ws } }) ∧
    (∃ (s : State) (i : Nat) (w : _), s.fcl.windows[i]? = some w) ∧
    (∃ (s : State) (k : _), fwUp s = true ∧ k = s.fcl.kept ++ s.fcl.log) ∧
    (∃ (s : State) (kind : _) (idx : _), unitNamed kind idx = true ∧ kind ≠ 1 ∧ (unitOf s kind idx).state = 1) ∧
    (∃ (s : State) (idx : _), idx < 32 ∧ (unitOf s 1 idx).state = 1 ∧ spareServes s idx = false ∧ (inContexts (indexOf s idx) s = ([], []) ∨ (unitOf s 1 idx).since + 10 ^ 6 ≤ s.tim.cnt)) ∧
    (∃ (s : State) (idx : _), idx < 34 ∧ (unitOf s 1 idx).state = 1 ∧ spareServes s idx = false ∧ inContexts (indexOf s idx) s ≠ ([], []) ∧ s.tim.cnt < (unitOf s 1 idx).since + 10 ^ 6) ∧
    (∃ (s : State) (idx : _), idx < 34 ∧ (unitOf s 1 idx).state = 3) ∧
    (∃ (s : State) (n : _), n < 32 ∧ n ∈ s.fcl.rehome ∧ fwUp s = true ∧ spareFree s (n / 16) = true) ∧
    (∃ (s : State) (idx : _), (unitOf s 4 idx).inReset = true) ∧
    (∃ (s : State) (kind : _) (idx : _), (unitOf s kind idx).inReset = false) :=
  ⟨by refine ⟨up, 0, 0, 1, _, ?_, ?_, ?_, (by decide +kernel), rfl⟩ <;> decide +kernel,
   by refine ⟨up, 0, _, ?_, rfl⟩; decide +kernel,
   ⟨0, by decide +kernel⟩,
   ⟨0, 0, by decide +kernel⟩,
   ⟨up, by decide +kernel⟩,
   ⟨srcVinLow, 0, 0, 0, by decide +kernel⟩,
   ⟨0, 0, by decide +kernel⟩,
   ⟨0, by decide +kernel⟩,
   ⟨0, by decide +kernel⟩,
   ⟨up, by decide +kernel⟩,
   by refine ⟨{ up with fcl := { up.fcl with raised := [raise1] } }, raise1, _, _, ?_, ?_, ?_, rfl, rfl⟩ <;> decide +kernel,
   by refine ⟨{ up with fcl := { up.fcl with windows := [⟨1, 5⟩] } }, 0, _, rfl⟩,
   by refine ⟨up, _, ?_, rfl⟩; decide +kernel,
   ⟨setUnit 2 0 { unitOf up 2 0 with state := 1 } up, 2, 0, by decide +kernel⟩,
   ⟨setUnit 1 0 { unitOf up 1 0 with state := 1 } up, 0, by decide +kernel⟩,
   ⟨setUnit 1 0 { unitOf up 1 0 with state := 1 } (upPkt (pk .parsing)), 0, by decide +kernel⟩,
   ⟨setUnit 1 0 { unitOf up 1 0 with state := 3 } up, 0, by decide +kernel⟩,
   ⟨{ up with fcl := { up.fcl with rehome := [0] } }, 0, by decide +kernel⟩,
   ⟨setUnit 4 0 { unitOf up 4 0 with inReset := true } up, 0, by decide +kernel⟩,
   ⟨up, 4, 0, by decide +kernel⟩⟩

/-- The hypotheses of `StartEventsComplete` are met. -/
theorem wit_StartEventsComplete :
    (∃ (s : State) (straps : _) (u : _), s.start.rails = false ∧ s.start.inReset = false ∧ u = afterReset false straps { s with col := { s.col with stopped := [] } }) ∧
    (∃ (s : State), s.start.rails = true) ∧
    (∃ (s : State), s.start.rails = true) ∧
    (∃ (s : State), s.start.rails = true) ∧
    (∃ (s : State), s.start.rails = true ∧ s.start.inReset = false) ∧
    (∃ (s : State) (warm : _) (kept : _) (w : _), s.start.inReset = true ∧ s.start.rails = true ∧ w = (warm && s.start.warmLow && kept && s.shadow.any && s.start.reached)) ∧
    (∃ (s : State) (c : _), 1 ≤ c ∧ c ≤ 8 ∧ c ≠ 3 ∧ c ≠ 4 ∧ startRuns s = true ∧ causeFits s c = true) ∧
    (∃ (s : State) (r : StartReport) (u : _), startRuns s = true ∧ s.start.step = 8 ∧ s.start.kind = 0 ∧ overrun s (storedOk s 0 r.celsius && storedOk s 1 r.celsius) = false ∧ u = wrBit (sadBase 0) 1 r.westUp (wrBit glbStatus sbWestUp r.westUp s)) :=
  ⟨by refine ⟨upOff, 0, _, ?_, ?_, rfl⟩ <;> decide +kernel,
   ⟨up, by decide +kernel⟩,
   ⟨up, by decide +kernel⟩,
   ⟨up, by decide +kernel⟩,
   ⟨up, by decide +kernel⟩,
   by refine ⟨{ up with start := { up.start with inReset := true } }, true, true, _, ?_, ?_, rfl⟩ <;> decide +kernel,
   ⟨atCnt (10 ^ 12) (upStep 7), 1, by decide +kernel⟩,
   by refine ⟨upStep 8, done1, _, ?_, ?_, ?_, (by decide +kernel), rfl⟩ <;> decide +kernel⟩

/-- The hypotheses of `StartEventsComplete` are met, continued. -/
theorem wit_StartEventsComplete_restore :
    ∃ (s : State) (r : StartReport) (u : _), startRuns s = true ∧ s.start.step = 9 ∧ overrun s (storedOk s 0 r.celsius && storedOk s 1 r.celsius) = false ∧ u = restoreAll (wrBit (sadBase 0) 1 r.westUp (wrBit glbStatus sbWestUp r.westUp s)) :=
  by refine ⟨upStep 9, done1, _, ?_, ?_, ?_, rfl⟩ <;> decide +kernel

/-- The hypotheses of `StartEventsComplete` are met, continued. -/
theorem wit_StartEventsComplete_rest :
    (∃ (s : State) (r : StartReport), startRuns s = true ∧ s.start.step ≠ 2 ∧ overrun s (storedOk s 0 r.celsius && storedOk s 1 r.celsius) = true) ∧
    (∃ (s : State), s.start.restarting = true) ∧
    (∃ (s : State) (p : _) (bytes : List Byte), ringPort p = true ∧ 14 ≤ bytes.length ∧ primrosePort s p = true ∧ s.start.plan = true ∧ portUp s p = true) :=
  ⟨⟨atCnt (10 ^ 12) (upStep 8), done1, by decide +kernel⟩,
   ⟨{ up with start := { up.start with restarting := true } }, by decide +kernel⟩,
   ⟨upPlan, 7, List.replicate 14 0, by decide +kernel⟩⟩

/-- The hypotheses of `SecurityEventsComplete` are met. -/
theorem wit_SecurityEventsComplete :
    (∃ (s : State), rdBit s secBase sbNonceValid = true ∧ s.sec.nonceAt + 60 * 10 ^ 9 ≤ s.tim.cnt) ∧
    (∃ (s : State), (rdBit s secBase sbNonceValid = false ∨ s.tim.cnt < s.sec.nonceAt + 60 * 10 ^ 9)) ∧
    (∃ (s : State), rdBit s secBase sbLockout = true ∧ s.sec.lockAt + 60 * 10 ^ 9 ≤ s.tim.cnt) ∧
    (∃ (s : State), (rdBit s secBase sbLockout = false ∨ s.tim.cnt < s.sec.lockAt + 60 * 10 ^ 9)) ∧
    (∃ (s : State), dbgUnlocked s = true ∧ s.sec.unlockEnd ≤ s.tim.cnt) ∧
    (∃ (s : State), (dbgUnlocked s = false ∨ s.tim.cnt < s.sec.unlockEnd)) ∧
    (∃ (s : State) (ws : _) (r : _), r = spdmExchange 0 ws s) :=
  ⟨⟨atCnt (10 ^ 12) (regsOf [(secBase, wd (2 ^ sbNonceValid))] up), by decide +kernel⟩,
   ⟨up, by decide +kernel⟩,
   ⟨atCnt (10 ^ 12) (regsOf [(secBase, wd (2 ^ sbLockout))] up), by decide +kernel⟩,
   ⟨up, by decide +kernel⟩,
   ⟨regsOf [(secBase, wd (2 ^ sbUnlocked))] up, by decide +kernel⟩,
   ⟨up, by decide +kernel⟩,
   by refine ⟨up, [0], _, rfl⟩⟩

/-- The hypotheses of `StepTakesFront` are met. -/
theorem wit_StepTakesFront :
    ∃ (s : State) (c : _) (rest : _), s.pending = c :: rest :=
  ⟨{ up with pending := [.vinLowDetect] }, .vinLowDetect, [], by decide +kernel⟩

/-- The hypotheses of `EmptyQueueTicks` are met. -/
theorem wit_EmptyQueueTicks :
    (∃ (s : State), s.pending = []) ∧
    (∃ (s : State), 36 ∈ s.col.stopped) ∧
    (∃ (s : State) (n : _), 36 ∉ s.col.stopped ∧ rdBit s timStat 5 = false ∧ n = (s.tim.now : Int) + 2 ^ 48 + (sgn 32 (rd s timRateAdj).toNat * 2 ^ 32 + (s.tim.rateRem : Int)) / 10 ^ 9) :=
  ⟨⟨up, by decide +kernel⟩,
   ⟨{ up with col := { up.col with stopped := [36] } }, by decide +kernel⟩,
   by refine ⟨up, _, ?_, ?_, rfl⟩ <;> decide +kernel⟩

/-- The hypotheses of `RegistersStayCanonical` are met. -/
theorem wit_RegistersStayCanonical :
    ∃ (s : State) (t : _), canonical resetOf s.regs = true ∧ step s = .next t :=
  by refine ⟨up, idleTick up, ?_, rfl⟩; decide +kernel

/-- The hypotheses of `FramesReadBack` are met. -/
theorem wit_FramesReadBack :
    ∃ (op : _) (f : Frame), op < 65536 ∧ f.wf = true :=
  ⟨5, fr [7], by decide +kernel⟩

/-- The hypotheses of `HeaderChecksRefuse` are met. -/
theorem wit_HeaderChecksRefuse :
    (∃ (ci : _) (f : _), formatBad ci f = true) ∧
    (∃ (ci : _) (f : _) (s : State), formatBad ci f = false ∧ ci.op ≠ 0 ∧ ((sessOf s f).number = 0 ∨ f.session ≠ (sessOf s f).number)) ∧
    (∃ (ci : _) (f : _) (s : State), formatBad ci f = false ∧ ci.op ≠ 0 ∧ (sessOf s f).number ≠ 0 ∧ f.session = (sessOf s f).number ∧ (sessOf s f).agreed < ci.ver) ∧
    (∃ (ci : _) (f : _) (s : State), formatBad ci f = false ∧ ((ci.op = 0 ∨ (sessOf s f).number ≠ 0 ∧ f.session = (sessOf s f).number ∧ ci.ver ≤ (sessOf s f).agreed)) ∧ admitted ci s f = false) ∧
    (∃ (ci : _) (f : _) (s : State), formatBad ci f = false ∧ ((ci.op = 0 ∨ (sessOf s f).number ≠ 0 ∧ f.session = (sessOf s f).number ∧ ci.ver ≤ (sessOf s f).agreed)) ∧ admitted ci s f = true ∧ ci.write = true ∧ f.mb = 2 ∧ casActive s ≠ f.partner) ∧
    (∃ (op : _) (c : _) (f : _) (s : State) (r : _), findCommand op = some c ∧ r = firmwareRun c.1 c.2 f s ∧ 0x10 ≤ r.status ∧ later r.status = false ∧ r.status ≠ eAuth) :=
  ⟨⟨ciStreamGateSet, { fr [] with rsvd := true }, by decide +kernel⟩,
   ⟨ciStreamGateSet, { fr [] with session := 9 }, up, by decide +kernel⟩,
   ⟨ciStreamGateSet, fr [], upAt 0, by decide +kernel⟩,
   ⟨ciStreamGateSet, { fr [] with mb := 4, session := 5 }, up, by decide +kernel⟩,
   ⟨ciStreamGateSet, { fr [] with mb := 2, partner := 0, session := 3 }, upWorker, by decide +kernel⟩,
   by refine ⟨ciStreamGateSet.op, got (findCommand ciStreamGateSet.op) (by decide +kernel), fr [], up, _, got_some ?_, rfl, ?_⟩ <;> decide +kernel⟩

/-- The hypotheses of `BusErrorsLeaveRegisters` are met. -/
theorem wit_BusErrorsLeaveRegisters :
    (∃ (s : State) (m : _) (a : _) (be : _) (r : _), m ≤ 4 ∧ a % 4 = 0 ∧ a < 2 ^ 32 ∧ be < 16 ∧ busTarget s m a (be == 15) = .error r) ∧
    (∃ (m : _) (a : _), m ≠ 2 ∧ decodeAddr a = none) ∧
    (∃ (s : State) (m : _) (a : _) (b : _) (off : _), m ≠ 2 ∧ decodeAddr a = some (b, off) ∧ blockHeld s a b = true) ∧
    (∃ (s : State) (m : _) (a : _) (b : _) (off : _), m ≠ 2 ∧ decodeAddr a = some (b, off) ∧ blockHeld s a b = false ∧ partnerAway s b = true) ∧
    (∃ (s : State) (m : _) (a : _) (b : _) (off : _), m ≠ 2 ∧ decodeAddr a = some (b, off) ∧ blockHeld s a b = false ∧ partnerAway s b = false ∧ findReg (blockRegs b) off = none) ∧
    (∃ (s : State) (m : _) (a : _) (b : _) (off : _) (d : _) (i : _) (j : _), m ≠ 2 ∧ decodeAddr a = some (b, off) ∧ blockHeld s a b = false ∧ partnerAway s b = false ∧ findReg (blockRegs b) off = some (d, i, j)) :=
  ⟨by refine ⟨up, 0, 0x3FFFFF0, 15, reasonOutside, ?_, ?_, ?_, (by decide +kernel), error_at ?_⟩ <;> decide +kernel,
   ⟨0, 0x3FFFFF0, by decide +kernel⟩,
   ⟨State.reset, 0, glnBase 0, .gln 0, 0, by decide +kernel⟩,
   ⟨upLone, 0, pgBase 0, .pg 0, 0, by decide +kernel⟩,
   ⟨up, 0, pwiCeilTime + 0xFF00, .pwi, 0xFF0C, by decide +kernel⟩,
   ⟨up, 0, pwiCeilTime, .pwi, 0xC, (tgt pwiCeilTime).reg, 0, 0, by decide +kernel⟩⟩

/-- The hypotheses of `RulesMatchSearches` are met. -/
theorem wit_RulesMatchSearches :
    (∃ (s : State) (g : _) (i : _) (r : Rule), (i, r) ∈ ofUnit s.glens.rules g) ∧
    (∃ (s : State) (g : _) (w : _) (grp : _) (i : _) (r : Rule), (i, r) ∈ ofUnit s.glens.rules g ∧ r.valid = true ∧ r.exclude = false ∧ r.width = w ∧ r.group = grp ∧ (∀ q ∈ r.array, q.2 = 0)) :=
  ⟨⟨upRule 1 false, 0, 0, rule1, by decide +kernel⟩,
   ⟨upRule 1 false, 0, 1, 0, 0, rule1, by decide +kernel⟩⟩

/-- The hypotheses of `ExchangesSwapRules` are met. -/
theorem wit_ExchangesSwapRules :
    ∃ (s : State) (g : _) (old : _) (i : _) (r : Rule), g < 8 ∧ old < 16384 ∧ i < 16384 ∧ (ruleGet s g old).valid = true ∧ (ruleGet s g i).valid = false ∧ placeOk s g i r.width = true :=
  ⟨upRule 1 false, 0, 0, 8, rule1, by decide +kernel⟩

/-- The hypotheses of `StreamGatesFollowLists` are met. -/
theorem wit_StreamGatesFollowLists :
    (∃ (x : StreamGate), x.closedInv = true) ∧
    (∃ (x : StreamGate) (t : _), x.closedInv = false ∧ (sgList x t).1.len = 0) ∧
    (∃ (x : _) (t : _) (w : _), sgEntry x t = some w) ∧
    (∃ (x : StreamGate) (t : _) (w : _), x.closedInv = false ∧ sgEntry x t = some w) ∧
    (∃ (f : _) (s : State) (n : _), Ready ciStreamGateSet f s ∧ n = (pw f 1).toNat ∧ 0 < n ∧ n ≤ 64 ∧ f.length = 28 + 4 * n ∧ pf f 0 9 23 = 0 ∧ (pw f 2).toNat < 10 ^ 9 ∧ pf f 4 16 16 = 0 ∧ pw f 5 = 0) ∧
    (∃ (f : _) (s : State) (n : _), Ready ciStreamGateSet f s ∧ n = (pw f 1).toNat ∧ 0 < n ∧ n ≤ 64 ∧ f.length = 28 + 4 * n ∧ pf f 0 9 23 = 0 ∧ (pw f 2).toNat < 10 ^ 9 ∧ pf f 4 16 16 = 0 ∧ (∀ i < n, fld (pw f (7 + i)) 8 24 = 0)) :=
  ⟨⟨{ emptyGate with closedInv := true }, by decide +kernel⟩,
   ⟨emptyGate, 0, by decide +kernel⟩,
   by refine ⟨gate1, 0, _, rfl⟩,
   by refine ⟨gate1, 0, _, ?_, rfl⟩; decide +kernel,
   by refine ⟨frS 1 [0, 1, 0, 0, 0, 0, 0, 0x100], up, _, ready_of ?_, rfl, ?_⟩ <;> decide +kernel,
   by refine ⟨frS 1 [0, 1, 0, 0, 0, 5, 0, 0], up, _, ready_of ?_, rfl, ?_⟩ <;> decide +kernel⟩

/-- The hypotheses of `IslandVoltageMoves` are met. -/
theorem wit_IslandVoltageMoves :
    (∃ (s : State) (i : _), islCode s i ≤ 60 ∧ islFloor s i ≤ islCeil s i ∧ islCeil s i ≤ 60 ∧ ((islMode s i = 2 → rdF s (islCfg i) 20 6 ≤ 60))) ∧
    (∃ (s : State) (i : _), islMode s i = 0 ∧ islCode s i < islFloor s i) ∧
    (∃ (s : State) (i : _), islMode s i = 0 ∧ islFloor s i ≤ islCeil s i ∧ islCeil s i < islCode s i) ∧
    (∃ (s : State) (i : _) (occ : _), islMode s i = 0 ∧ islFloor s i ≤ islCode s i ∧ islCode s i ≤ islCeil s i ∧ raiseWanted s i occ = true) ∧
    (∃ (s : State) (i : _) (occ : _), islMode s i = 0 ∧ (islStep s i occ).1 < islCode s i ∧ islCode s i ≤ islCeil s i) ∧
    (∃ (s : State) (i : _) (occ : _), i < islCount ∧ occ ≤ 32 ∧ islCode s i ≤ 60 ∧ islFloor s i ≤ islCeil s i ∧ islCeil s i ≤ 60 ∧ ((islMode s i = 2 → rdF s (islCfg i) 20 6 ≤ 60))) :=
  ⟨⟨up, 0, by decide +kernel⟩,
   ⟨regsOf [(islStat 0, 0), (islCfg 0, 10)] up, 0, by decide +kernel⟩,
   ⟨regsOf [(islStat 0, 60)] (regsOf [(islCfg 0, 0)] up), 0, by decide +kernel⟩,
   ⟨up, 0, 32, by decide +kernel⟩,
   ⟨upLow, 0, 0, by decide +kernel⟩,
   ⟨up, 0, 5, by decide +kernel⟩⟩

/-- The hypotheses of `BudgetCodesGiveTimes` are met. -/
theorem wit_BudgetCodesGiveTimes :
    (∃ (s : State) (x : _) (y : Copy) (e : _) (m : _), e < 16 ∧ m < 16 ∧ (tagOff x).isSome = false ∧ classBudget s y.tc = m + 16 * e ∧ m + 16 * e ≠ 0) ∧
    (∃ (x : _) (e : _) (m : _), e < 16 ∧ m < 16 ∧ (tagOff x).isSome = true ∧ tagVer x = 2 ∧ tagByte x 7 = m + 16 * e ∧ m + 16 * e ≠ 0) ∧
    (∃ (s : State) (x : _) (y : Copy), (tagOff x).isSome = false ∧ classBudget s y.tc = 0) ∧
    (∃ (x : _), (tagOff x).isSome = true ∧ tagVer x = 2 ∧ tagByte x 7 = 0) ∧
    (∃ (s : State) (x : _) (y : Copy), (tagOff x).isSome = false ∧ classBudget s y.tc = 1) ∧
    (∃ (s : State) (x : _) (y : Copy), (tagOff x).isSome = false ∧ classBudget s y.tc = 255) ∧
    (∃ (s : State) (x : _) (y : Copy), copyBudget s x y = 0 ∧ y.edits = []) :=
  ⟨⟨regsOf [(casBase + 0x20, 0x11)] up, pk .admitted, cp .ready, 1, 1, by decide +kernel⟩,
   ⟨pkTag 0x11, 1, 1, by decide +kernel⟩,
   ⟨up, pk .admitted, cp .ready, by decide +kernel⟩,
   ⟨pkTag 0, by decide +kernel⟩,
   ⟨regsOf [(casBase + 0x20, 1)] up, pk .admitted, cp .ready, by decide +kernel⟩,
   ⟨regsOf [(casBase + 0x20, 255)] up, pk .admitted, cp .ready, by decide +kernel⟩,
   ⟨up, pk .admitted, cp .ready, by decide +kernel⟩⟩

/-! ### The other statements' hypotheses -/

theorem mem_sessionList : (ciSessionList, Instr.sessionList) ∈ commandRows := by simp [commandRows, commandRows0]
/-- The hypotheses of `FramesReadBack` and of `HeaderChecksRefuse` about the catalogue's rows are met. -/
theorem wit_HeaderChecksRefuse_rows :
    ∃ q ∈ commandRows, ∃ (f : Frame) (s : State) (st : Nat),
      f.wf = true ∧ carries f s = true ∧ lockedOut s (mbKey f) q.1.op = false ∧ headerFault q.1 f s = some st :=
  ⟨_, mem_sessionList, { fr [] with session := 9 }, up, eNoSession, by decide +kernel⟩
/-- The hypotheses of `CrowdedMailboxesRefuse` are met. -/
theorem wit_CrowdedMailboxesRefuse :
    (∃ q ∈ commandRows, ∃ (f : Frame) (s : State), q.1.op < 65536 ∧
      f.wf = true ∧ f.mb ≠ 2 ∧ mbRing s f.mb = false ∧ mbBusy s f.mb = true) ∧
    (∃ q ∈ commandRows, ∃ (f : Frame) (s : State), q.1.op < 65536 ∧
      f.wf = true ∧ f.mb ≠ 2 ∧ mbRing s f.mb = true ∧ mbRingSize s f.mb ≤ cmdWaiting s f.mb) ∧
    (∃ q ∈ commandRows, ∃ (f : Frame) (s : State), q.1.op < 65536 ∧
      f.wf = true ∧ f.mb = 2 ∧ 8 ≤ (mb2Of s f.partner).length) :=
  ⟨⟨_, mem_sessionList, fr [], regsOf [(mbxReg 0 mbxStatOff, 1)] up, by decide +kernel⟩,
   ⟨_, mem_sessionList, fr [], regsOf [(mbxReg 0 mbxStatOff, 16), (mbxReg 0 mbxCmdProdOff, 8)] up, by decide +kernel⟩,
   ⟨_, mem_sessionList, { fr [] with mb := 2 }, { up with mbx := { up.mbx with mb2 := [(0, List.replicate 8 [])] } },
    by decide +kernel⟩⟩
/-- The hypotheses of `PlainWritesStoreFields` are met. -/
theorem wit_PlainWritesStoreFields :
    ∃ (s : State) (m a : Nat) (t : Target) (b : Blk) (off : Nat), Reaches s m a t ∧ m ≠ 2 ∧ a % 4 = 0 ∧
      decodeAddr a = some (b, off) ∧ t.reg.act = .store ∧ (∀ w, t.blk ≠ .win w) ∧ s.mbx.log.length < 4096 ∧
      (∀ i < 32, rd s (mbxLostMap i) = 0) :=
  ⟨up, 0, sampCfg 0 0, tgt (sampCfg 0 0), .sch 0, sampCfg 0 0 - schBase 0, reaches_at (by decide +kernel), by decide, by decide +kernel,
   by decide +kernel, by decide +kernel,
   fun w h => Blk.noConfusion ((show (tgt (sampCfg 0 0)).blk = .sch 0 by decide +kernel).symm.trans h),
   by decide +kernel, by decide +kernel⟩
/-- The hypotheses of `StagedGroupsCommit` are met. -/
theorem wit_StagedGroupsCommit :
    (∃ (p : Nat → Bool) (s : State) (fails : List Nat) (r : Nat),
      (fails ++ (if stagedBad p s then [7] else [])).min? = some r ∧ r < 8) ∧
    (∃ (p : Nat → Bool) (s : State) (stat : Nat), p (physAddr s stat) = false ∧ stagedBad p s = false ∧
      canonical (fun _ => none) s.bus.staged = true) :=
  ⟨⟨schBudgetGroup 0, up, [1], 1, by decide +kernel⟩, ⟨schBudgetGroup 0, up, schBudgetStat 0, by decide +kernel⟩⟩

/-! ### Well-formedness, and the table's words -/

/-- The state after a command; the state itself where it stops. -/
def after (c : Instr) (s : State) : State := match exec c s with | .next t => t | _ => s
def stops (c : Instr) (s : State) : Bool := match exec c s with | .fault _ => true | _ => false

/-- A frame that no mailbox can hold, for each check. -/
theorem test_wf_refuses :
    ([{ fr [] with mb := 5 }, { fr [] with partner := 1 }, { fr [] with mb := 2, partner := 2 }, { fr [] with length := 4096 },
      { fr [] with tag := 65536 }, { fr [] with opts := 256 }, { fr [] with scope := 256 },
      { fr [] with payload := [0] }] : List Frame).all
      (fun f => !f.wf && stops (.sessionList f) up) = true := by decide +kernel
theorem test_wf_holds : (fr [1, 2]).wf = true ∧ stops (.sessionList (fr [])) up = false := by decide +kernel
/-- The table gives no row any bits. -/
theorem test_no_word_decodes (n w : Nat) : decodeTableWord n w = none ∧ (up.withFetchWord n w) = up := ⟨rfl, rfl⟩

/-! ### Single steps and values of the manual's worked examples -/

/-- Chapter 15, "finding a register on the west die". -/
theorem test_west_addresses : emtTblCfg 5 0 = 0x02290040 ∧ engCtl 0 20 = 0x02044004 := by decide +kernel
/-- The same example: the board controller's write stores the depth limit; a locked debugger reads 0 and is counted. -/
theorem test_west_access :
    rd (after (.smbRegWrite 0x02044004 0x8040) (regsOf [(glbStatus, 0xFFFFFFFF)] up)) (engCtl 0 20) = 0x8040 ∧
    tget none (after (.regaccUpdate 0x02044004 false 0) (regsOf [(glbStatus, 0xFFFFFFFF), (engCtl 0 20, 5)] up)).bus.done 4 =
      some ⟨true, [0]⟩ ∧
    rd (after (.regaccUpdate 0x02044004 false 0) (regsOf [(glbStatus, 0xFFFFFFFF)] up)) (glbBase + 0x50) = 1 := by
  decide +kernel
/-- The same example: an offset that no table lists is a bus error with REASON 1. -/
theorem test_west_unlisted :
    rdF (after (.regaccUpdate 0x02044FF0 false 0) (regsOf [(glbStatus, 0xFFFFFFFF)] up)) glbCapInfo 0 3 = 1 := by
  decide +kernel
/-- R423's example: FO5 is forced by two dword writes of the MP; those of PF0 are dropped and counted. -/
theorem test_force :
    rd (after (.registerWrite 0 fioForceEn 15 0x00200020) (after (.registerWrite 0 fioForceVal 15 0x00200020) up)) fioForceEn =
      0x20 ∧
    rd (after (.registerWrite 1 fioForceEn 15 0x00200020) (after (.registerWrite 1 fioForceVal 15 0x00200020) up))
      (glbBase + 0x44) = 2 := by decide +kernel

/-- Chapter 4, "recognising hull telemetry": the example's second patch word. -/
def telemetry1 : Nat :=
  0xA0000000 * 2 ^ 224 + 0x00000224 * 2 ^ 128 + 0x80000780 * 2 ^ 96 + 0x00000714 * 2 ^ 64 + 0x01F00000 * 2 ^ 32
/-- A frame whose EtherType 0x88B6 stands at offset 12, and one of another EtherType. -/
def telemetryFrame (t : Nat) : List Byte :=
  (List.range 60).map (fun i => BitVec.ofNat 8 (if i = 12 then 0x88 else if i = 13 then t else i))
def atType : UCtx := { startCtx with hp := 12 }
def goPc (r : StepEnd) : Option Nat := (goOf r).map (·.pc)
/-- Word 0 goes on to word 1 for the example's EtherType and to 0x1FF1 for any other. -/
theorem test_patch_word0 :
    goPc (prsExec (telemetryFrame 0xB6) telemetry0 0x2000 atType) = some 0x2001 ∧
    goPc (prsExec (telemetryFrame 0xB7) telemetry0 0x1FF0 atType) = some 0x1FF1 := by decide +kernel
/-- Word 1 copies sub-type and group to key bytes 72 to 75, records the offset, sets flag 24, CLASS 0x40 and layout 60. -/
theorem test_patch_word1 :
    (finGot (prsExec (telemetryFrame 0xB6) telemetry1 0x2001 atType)).1.cls = 0x40 ∧
    (finGot (prsExec (telemetryFrame 0xB6) telemetry1 0x2001 atType)).1.prof = 60 ∧
    (finGot (prsExec (telemetryFrame 0xB6) telemetry1 0x2001 atType)).1.offs.getD 14 0 = 12 ∧
    (finGot (prsExec (telemetryFrame 0xB6) telemetry1 0x2001 atType)).1.flags = 2 ^ 24 ∧
    ((finGot (prsExec (telemetryFrame 0xB6) telemetry1 0x2001 atType)).1.kb.drop 72).take 4 = [14, 15, 16, 17] := by
  decide +kernel

/-- Chapter 7, "a babbling GOOSE publisher": the meter's record, and its buckets before frames 13 and 25. -/
def babbler (tc tp : Int) : Meter := ⟨0x23D01640, 0x7D0, 0xFA0, 0xA000, tc * unitB, tp * unitB, 0⟩
theorem test_meter_rates : rateOf 0x1640 * 78125 = 200000 * 10000 ∧ rateOf 0x23D0 * 78125 = 2000000 * 10000 := by decide
theorem test_meter_colours :
    chargeOf (babbler 0 0) 146 = 166 ∧ (meterEval (babbler 2000 4000) 166 0 0 0).colour = green ∧
    (meterEval (babbler 14 2068) 166 0 0 0).colour = yellow ∧ (meterEval (babbler 14 136) 166 0 0 0).colour = red := by
  decide +kernel

/-- Chapter 8, "a GOOSE frame with three copies": the MP's release of a cell that only COLLECT holds besides frees it, and
the release repeated is refused with REASON 3, captured and counted. -/
def goose : State :=
  { up with bpm := { up.bpm with pools := [(0, ⟨0, 16384, 8000, [], []⟩)],
                                 cells := [(6720, ⟨.allocated, [290, 510], [], 3, 0, 0, true⟩)] } }
theorem test_goose_release :
    (cellGet (after (.bpmRelease 0 34 290 0x1A40 .none) goose) 0 6720).st = .free ∧
    rd (after (.bpmRelease 0 34 290 0x1A40 .none) (after (.bpmRelease 0 34 290 0x1A40 .none) goose)) (bpmCapInfo 0) =
      wd (3 + 290 * 32 + 34 * 2 ^ 14 + 2 ^ 31) ∧
    rd (after (.bpmRelease 0 34 290 0x1A40 .none) (after (.bpmRelease 0 34 290 0x1A40 .none) goose)) (bpmCntBadFree 0 34) = 1 ∧
    rd (after (.bpmRelease 0 34 290 0x1A40 .none) (after (.bpmRelease 0 34 290 0x1A40 .none) goose)) (bpmCapPtr 0) =
      0x1A40 := by decide +kernel

/-- Chapter 2, "a CCTV storm": an occupancy of 14 raises an automatic island at 0.60 V by one step, one of 11 at 0.715 V
does not. -/
theorem test_island_raises :
    islCode (after (.islandEvaluation 12 14 0) (regsOf [(islStat 12, 0)] up)) 12 = 1 ∧
    islCode (after (.islandEvaluation 12 11 0) (regsOf [(islStat 12, 23)] up)) 12 = 23 := by decide +kernel

/-- Chapter 12: T1 2,000 µs and T0 1,000 ms give repetitions up to 512 ms, and heartbeats then. -/
def pubAt (us : Nat) : State :=
  upFio { up.fio with pubs := [(0, { pub1 with cfg := [1, 0, 0, 0, 0, 0, 1000 * 2 ^ 16 + 2], interval := us, beats := false })] } (atCnt (10 ^ 12) up)
theorem test_pub_intervals :
    (pubOf (after (.pubRepetition 0) (pubAt 256000)) 0).interval = 512000 ∧
    (pubOf (after (.pubRepetition 0) (pubAt 512000)) 0).beats = true := by decide +kernel

/-- R399's example: METER_SET with COUPLE is refused below version 3.1. -/
theorem test_meter_couple :
    (firmwareRun ciMeterSet bodyMeterSet (frS 1 [0, 0x23D01640, 0x7D0, 0xFA0, 0xA080]) (upAt 0x0300)).status = eRange ∧
    (firmwareRun ciMeterSet bodyMeterSet (frS 1 [0, 0x23D01640, 0x7D0, 0xFA0, 0xA080]) (upAt 0x0301)).status = 0 := by
  decide +kernel

end Sys2Proof.Tests
end

section
/-! What a TCAM search matches (R167), and what an exchange of rules leaves (R174, R176). -/

namespace Sys2Proof.Machine
open Sys2Proof

/-! ### Searches -/

/-- A key passes a rule's slices when it agrees with each VALUE wherever that slice's MASK is one. -/
theorem slicesMatch_iff (k : List Nat) (l : List (Nat × Nat)) :
    slicesMatch k l = true ↔ ∀ j v m, l[j]? = some (v, m) → k.getD j 0 &&& m = v &&& m := by
  unfold slicesMatch
  rw [List.all_eq_true]
  constructor
  · intro hall j v m hj
    simpa using hall ((v, m), j) (List.mem_zipIdx_iff_getElem?.mpr hj)
  · rintro hall ⟨⟨v, m⟩, j⟩ hmem
    simpa using hall j v m (List.mem_zipIdx_iff_getElem?.mp hmem)

theorem slicesMatch_of_mask_zero (k : List Nat) {l : List (Nat × Nat)} (hz : ∀ q ∈ l, q.2 = 0) :
    slicesMatch k l = true := by
  rw [slicesMatch_iff]
  intro j v m hj
  have hm : m = 0 := hz (v, m) (List.mem_of_getElem? hj)
  simp [hm]

theorem mem_matching_iff (s : State) (g w grp : Nat) (k : List Nat) (i : Nat) (r : Rule) :
    (i, r) ∈ matching s g w grp k ↔ (i, r) ∈ ofUnit s.glens.rules g ∧ r.valid = true ∧ r.exclude = false ∧
      r.width = w ∧ r.group = grp ∧ slicesMatch k r.array = true := by
  simp [matching, and_assoc]

/-- Settles O56, by the membership of the search's filter and the reading of its slice comparison. -/
theorem rulesMatchSearches : Obligations.RulesMatchSearches := by
  unfold Obligations.RulesMatchSearches
  constructor
  · intro s g w grp k i r hr
    rw [mem_matching_iff, slicesMatch_iff]
    exact and_iff_right hr
  · intro s g w grp k i r hr hv he hw hg hz
    exact (mem_matching_iff ..).mpr ⟨hr, hv, he, hw, hg, slicesMatch_of_mask_zero k hz⟩

/-! ### Rules written -/

theorem key_inj {u v i j : Nat} (hi : i < 2 ^ 32) (hj : j < 2 ^ 32) : key u i = key v j ↔ u = v ∧ i = j := by
  unfold key
  omega

theorem key_ne_of_pair_ne {u v i j : Nat} (hi : i < 16384) (hj : j < 16384) (h : (u, i) ≠ (v, j)) :
    key u i ≠ key v j := by
  rw [Ne, key_inj (by omega) (by omega)]
  simpa using h

@[simp] theorem genUp_glens (g n : Nat) (s : State) : (genUp g n s).glens = s.glens := by
  rw [genUp, incBy, wr_glens]

@[simp] theorem ruleGet_genUp (g n h j : Nat) (s : State) : ruleGet (genUp g n s) h j = ruleGet s h j := by
  rw [ruleGet, genUp_glens, ruleGet]

theorem ruleSet_rules (g i : Nat) (r : Rule) (s : State) :
    (ruleSet g i r s).glens.rules = tset emptyRule s.glens.rules (key g i) { r with hdr := ruleHdr r } := rfl

/-- A rule written stands as given, but for the record of its header, which spells its header as it is now. -/
@[simp] theorem ruleGet_ruleSet_same (g i : Nat) (r : Rule) (s : State) :
    ruleGet (ruleSet g i r s) g i = { r with hdr := ruleHdr r } := by
  rw [ruleGet, ruleSet_rules, tget_tset_same]

theorem ruleGet_ruleSet_other {g i h j : Nat} (r : Rule) (s : State) (hne : key h j ≠ key g i) :
    ruleGet (ruleSet g i r s) h j = ruleGet s h j := by
  rw [ruleGet, ruleSet_rules, tget_tset_other _ _ _ _ _ _ hne, ruleGet]

/-- A rule written changes no register but the occupancy of its glen. -/
theorem rd_ruleSet_other {g a : Nat} (i : Nat) (r : Rule) (s : State) (ha : a ≠ tcmOcc g) :
    rd (ruleSet g i r s) a = rd s a := by
  rw [ruleSet, ruleRaw, tcmOccUpdate, rd_wr_other _ _ _ _ ha]
  exact rd_congr _ _ _ rfl rfl

theorem tcmGen_ne_tcmOcc (g : Nat) : tcmGen g ≠ tcmOcc g := by
  unfold tcmGen tcmOcc
  omega

theorem rd_genUp_tcmGen (g n : Nat) (s : State) : rd (genUp g n s) (tcmGen g) = rd s (tcmGen g) + wd n := by
  rw [genUp, incBy, rd_wr_same]

/-! ### Exchanges -/

/-- The state that an exchange leaves: the new rule written valid, the old one written with VALID clear, TCM_GEN counted. -/
def exchanged (g old i : Nat) (r : Rule) (s : State) : State :=
  genUp g (1 + b2n (ruleGet s g i).exclude)
    (ruleSet g old { ruleGet s g old with valid := false } (ruleSet g i { r with valid := true } s))

section
variable {s : State} {g old i : Nat}

theorem key_ne_of_exchange (ho : old < 16384) (hi : i < 16384) (hold : (ruleGet s g old).valid = true)
    (hnew : (ruleGet s g i).valid = false) : key g old ≠ key g i := by
  refine key_ne_of_pair_ne ho hi fun e => ?_
  obtain ⟨-, rfl⟩ := Prod.mk.inj e
  simp [hold] at hnew

/-- An exchange onto a free place is taken. -/
theorem ruleReplace_eq_exchanged {r : Rule} (ho : old < 16384) (hi : i < 16384)
    (hold : (ruleGet s g old).valid = true) (hnew : (ruleGet s g i).valid = false)
    (hp : placeOk s g i r.width = true) :
    ruleReplace g old i r s = ⟨rDone, r.width + 2, exchanged g old i r s⟩ := by
  have hne := key_ne_of_exchange ho hi hold hnew
  simp [ruleReplace, exchanged, hold, hnew, hp, ruleGet_ruleSet_other _ s hne]

theorem ruleGet_exchanged_new (r : Rule) (hne : key g old ≠ key g i) :
    ruleGet (exchanged g old i r s) g i = { r with valid := true, hdr := ruleHdr { r with valid := true } } := by
  rw [exchanged, ruleGet_genUp, ruleGet_ruleSet_other _ _ hne.symm, ruleGet_ruleSet_same]

theorem ruleGet_exchanged_old (r : Rule) :
    ruleGet (exchanged g old i r s) g old =
      { ruleGet s g old with valid := false, hdr := ruleHdr { ruleGet s g old with valid := false } } := by
  rw [exchanged, ruleGet_genUp, ruleGet_ruleSet_same]

theorem ruleGet_exchanged_other (r : Rule) {h j : Nat} (ho : key h j ≠ key g old) (hi : key h j ≠ key g i) :
    ruleGet (exchanged g old i r s) h j = ruleGet s h j := by
  rw [exchanged, ruleGet_genUp, ruleGet_ruleSet_other _ _ ho, ruleGet_ruleSet_other _ _ hi]

theorem rd_tcmGen_exchanged (r : Rule) :
    rd (exchanged g old i r s) (tcmGen g) = rd s (tcmGen g) + wd (1 + b2n (ruleGet s g i).exclude) := by
  rw [exchanged, rd_genUp_tcmGen, rd_ruleSet_other _ _ _ (tcmGen_ne_tcmOcc g),
    rd_ruleSet_other _ _ _ (tcmGen_ne_tcmOcc g)]

end

/-- What holds of an exchange: `Obligations.ExchangesSwapRules` with the record of both rules' headers (R179, R181)
following their VALID bits. -/
theorem ruleReplace_swaps_rules_and_headers (s : State) (g old i : Nat) (r : Rule) (ho : old < 16384) (hi : i < 16384)
    (hold : (ruleGet s g old).valid = true) (hnew : (ruleGet s g i).valid = false)
    (hp : placeOk s g i r.width = true) :
    ∃ t, ruleReplace g old i r s = ⟨rDone, r.width + 2, t⟩ ∧
      ruleGet t g i = { r with valid := true, hdr := ruleHdr { r with valid := true } } ∧
      ruleGet t g old =
        { ruleGet s g old with valid := false, hdr := ruleHdr { ruleGet s g old with valid := false } } ∧
      (∀ h j, j < 16384 → (h, j) ≠ (g, old) → (h, j) ≠ (g, i) → ruleGet t h j = ruleGet s h j) ∧
      ((ruleGet s g i).exclude = false → rd t (tcmGen g) = rd s (tcmGen g) + 1) := by
  refine ⟨exchanged g old i r s, ruleReplace_eq_exchanged ho hi hold hnew hp,
    ruleGet_exchanged_new r (key_ne_of_exchange ho hi hold hnew), ruleGet_exchanged_old r, ?_, ?_⟩
  · intro h j hj hjo hji
    exact ruleGet_exchanged_other r (key_ne_of_pair_ne hj ho hjo) (key_ne_of_pair_ne hj hi hji)
  · intro hx
    have hone : wd (1 + b2n false) = 1 := by decide
    rw [rd_tcmGen_exchanged, hx, hone]

/-- A rule of one slice as a command's words spell it: VALID clear and no record yet of its header. -/
def oneSliceRule : Rule := ruleOf 1 []

/-- The reset state with one rule, valid, at INDEX 0 of glen 0. -/
def oneValidRule : State := ruleSet 0 0 { oneSliceRule with valid := true } State.reset

/-- Refutes O57: an exchange writes each rule's header into its record `hdr` too (R179, R181), so the new rule does not
stand as `{ r with valid := true }` unless `r.hdr` spelt that header already, which it never does in a rule that a command
writes.  Here such a rule is exchanged onto INDEX 8 of glen 0: its `hdr` was zero, and has VALID set afterwards. -/
theorem not_exchangesSwapRules : ¬ Obligations.ExchangesSwapRules := by
  unfold Obligations.ExchangesSwapRules
  intro h
  have hold : (ruleGet oneValidRule 0 0).valid = true := by decide
  have hnew : (ruleGet oneValidRule 0 8).valid = false := by decide
  have hp : placeOk oneValidRule 0 8 oneSliceRule.width = true := by decide
  obtain ⟨t, heq, -, hclaim, -⟩ := h oneValidRule 0 0 8 oneSliceRule (by decide) (by decide) (by decide) hold hnew hp
  obtain ⟨u, hrun, hmodel, -⟩ :=
    ruleReplace_swaps_rules_and_headers oneValidRule 0 0 8 oneSliceRule (by decide) (by decide) hold hnew hp
  obtain rfl : t = u := congrArg OpRes.st (heq.symm.trans hrun)
  have hhdr := congrArg Rule.hdr (hclaim.symm.trans hmodel)
  exact absurd hhdr (by decide)

end Sys2Proof.Machine
end

section
/-! The latency budget that a code stands for (R366), and what the rewrite engine leaves of a copy without one (R367). -/

namespace Sys2Proof.Machine
open Sys2Proof

/-- The time in ns that a budget code stands for, 0 for no check (R366). -/
def budgetTime (code : Nat) : Nat := if code = 0 then 0 else (16 + code % 16) * 2 ^ (code / 16)

/-! ### The code that applies to a copy (R367) -/

theorem copyBudget_of_no_tag {x : Pkt} (s : State) (y : Copy) (hoff : (tagOff x).isSome = false) :
    copyBudget s x y = budgetTime (classBudget s y.tc) := by
  simp [copyBudget, budgetTime, hoff]

theorem copyBudget_of_version_two {x : Pkt} (s : State) (y : Copy) (hoff : (tagOff x).isSome = true)
    (hver : tagVer x = 2) : copyBudget s x y = budgetTime (tagByte x 7) := by
  simp [copyBudget, budgetTime, hoff, hver]

/-! ### The time of a code (R366) -/

@[simp] theorem budgetTime_zero : budgetTime 0 = 0 := rfl

theorem budgetTime_of_ne_zero {e m : Nat} (hm : m < 16) (hne : m + 16 * e ≠ 0) :
    budgetTime (m + 16 * e) = (16 + m) * 2 ^ e := by
  have hmant : (m + 16 * e) % 16 = m := by omega
  have hexp : (m + 16 * e) / 16 = e := by omega
  rw [budgetTime, if_neg hne, hmant, hexp]

/-- With E = 0 the mantissa is not 0, and any other E doubles the 16 at least once. -/
theorem seventeen_le_budget {e m : Nat} (hne : m + 16 * e ≠ 0) : 17 ≤ (16 + m) * 2 ^ e := by
  cases e with
  | zero => omega
  | succ k =>
    have hpow : 1 ≤ 2 ^ k := Nat.one_le_two_pow
    calc 17 ≤ 16 * (1 * 2) := by decide
      _ ≤ (16 + m) * (2 ^ k * 2) := by gcongr; omega
      _ = (16 + m) * 2 ^ (k + 1) := by rw [Nat.pow_succ]

theorem budget_le_largest {e m : Nat} (he : e < 16) (hm : m < 16) : (16 + m) * 2 ^ e ≤ 1015808 := by
  calc (16 + m) * 2 ^ e ≤ 31 * 2 ^ 15 := by gcongr <;> omega
    _ = 1015808 := by decide

theorem budgetTime_between {e m : Nat} (he : e < 16) (hm : m < 16) (hne : m + 16 * e ≠ 0) :
    budgetTime (m + 16 * e) = (16 + m) * 2 ^ e ∧ 17 ≤ budgetTime (m + 16 * e) ∧
      budgetTime (m + 16 * e) ≤ 1015808 := by
  rw [budgetTime_of_ne_zero hm hne]
  exact ⟨rfl, seventeen_le_budget hne, budget_le_largest he hm⟩

/-! ### A copy without a budget -/

/-- A budget of 0 drops nothing whatever residence the tag has gathered, and a copy without edits keeps its length, so
neither discard of `readyCopy` is taken. -/
theorem readyCopy_of_no_budget {s : State} {x : Pkt} {y : Copy} (c tl : Nat) (hlim : copyBudget s x y = 0)
    (hed : y.edits = []) :
    readyCopy c x y tl s = ctxUpdate 1 (pgOf y.port) (setCopy c
      { y with out := cutTo y.trunc (editFrame x (envFor s x y.port tl) [] y.csum), phase := .ready,
               tl := if isLaunched s x y then some tl else none } s) := by
  simp [readyCopy, hlim, hed]

/-- Settles O60: the code that applies is the tag's or the class's, and E and M are read off it. -/
theorem budgetCodesGiveTimes : Obligations.BudgetCodesGiveTimes := by
  unfold Obligations.BudgetCodesGiveTimes
  refine ⟨?_, ?_, ?_, ?_, ?_, ?_, fun s c x y tl hlim hed => readyCopy_of_no_budget c tl hlim hed⟩
  · intro s x y e m he hm hoff hcode hne
    rw [copyBudget_of_no_tag s y hoff, hcode]
    exact budgetTime_between he hm hne
  · intro s x y e m he hm hoff hver hcode hne
    rw [copyBudget_of_version_two s y hoff hver, hcode]
    exact budgetTime_between he hm hne
  · intro s x y hoff hcode
    rw [copyBudget_of_no_tag s y hoff, hcode, budgetTime_zero]
  · intro s x y hoff hver hcode
    rw [copyBudget_of_version_two s y hoff hver, hcode, budgetTime_zero]
  · intro s x y hoff hcode
    rw [copyBudget_of_no_tag s y hoff, hcode]
    exact budgetTime_of_ne_zero (e := 0) (m := 1) (by decide) (by decide)
  · intro s x y hoff hcode
    rw [copyBudget_of_no_tag s y hoff, hcode]
    exact budgetTime_of_ne_zero (e := 15) (m := 15) (by decide) (by decide)

end Sys2Proof.Machine
end

section
/-! The checks of a command's own chapter (R390, checks 6 to 8), passed. -/

namespace Sys2Proof.Machine
open Sys2Proof

theorem bit_eq (w : Word) (i : Nat) : bit w i = decide (w.toNat / 2 ^ i % 2 = 1) := by
  unfold bit fld
  rfl

section
variable {f : Frame} {s : State} {k : CmdRes}

@[simp] theorem lenIs_pass {n : Nat} (h : f.length = n) : lenIs f n s k = k := if_pos h
@[simp] theorem lenOk_pass {b : Bool} (h : b = true) : lenOk b s k = k := if_pos h
@[simp] theorem inRange_pass {b : Bool} {w : Nat} (h : b = true) : inRange b w s k = k := if_pos h
@[simp] theorem refuse_pass {b : Bool} {c : Nat} (h : b = false) : refuse b c s k = k := by simp [refuse, h]
@[simp] theorem scopeSome_pass (h : f.scope ≠ 0) : scopeSome f s k = k := if_neg h

@[simp] theorem needSlot_pass {us : List Nat} {a : Nat} (h : ∀ u ∈ us, hasSlot s u a = true) :
    needSlot us a s k = k := by
  have hnone : us.find? (fun u => !hasSlot s u a) = none := by simpa using h
  rw [needSlot, hnone]

end

end Sys2Proof.Machine
end

section
/-! Frames and their words (R388), and the catalogue's opcodes (R414). -/

namespace Sys2Proof.Machine
open Sys2Proof

/-! ### Fields of header words -/

theorem fld_wd (n lo k : Nat) (h : n < 2 ^ 32) : fld (wd n) lo k = n / 2 ^ lo % 2 ^ k := by
  rw [fld, wd_toNat, Nat.mod_eq_of_lt h]

/-- The header's words are read back as the fields they were written from; the reserved bit stands for all reserved
bits. -/
theorem frameOf_frameWords (op : Nat) (f : Frame) (ho : op < 65536) (hf : f.wf = true) :
    frameOf f.mb f.partner (frameWords op f) = (op, f) := by
  simp only [Frame.wf, Bool.and_eq_true, decide_eq_true_eq] at hf
  obtain ⟨⟨⟨⟨⟨-, hlen⟩, htag⟩, hopts⟩, hscope⟩, hpay⟩ := hf
  obtain ⟨mb, partner, rsvd, length, tag, opts, session, scope, payload⟩ := f
  dsimp only at hlen htag hopts hscope hpay
  have hpayload : (List.range (length / 4)).map (fun i => payload[i]?.getD 0#32) = payload := by
    rw [← hpay]
    apply List.ext_getElem
    · simp
    · intro i h1 h2
      simp [h2]
  have hw0 : op + length * 2 ^ 16 < 2 ^ 32 := by omega
  have hw1 : tag + opts * 2 ^ 16 < 2 ^ 32 := by omega
  have hw3 : scope + (if rsvd then 2 ^ 31 else 0) < 2 ^ 32 := by split <;> omega
  have hop : (op + length * 2 ^ 16) / 2 ^ 0 % 2 ^ 16 = op := by omega
  have hl : (op + length * 2 ^ 16) / 2 ^ 16 % 2 ^ 12 = length := by omega
  have ht : (tag + opts * 2 ^ 16) / 2 ^ 0 % 2 ^ 16 = tag := by omega
  have hopt : (tag + opts * 2 ^ 16) / 2 ^ 16 % 2 ^ 8 = opts := by omega
  have hsc : (scope + (if rsvd then 2 ^ 31 else 0)) / 2 ^ 0 % 2 ^ 8 = scope := by split <;> omega
  have hr0 : (op + length * 2 ^ 16) / 2 ^ 28 % 2 ^ 4 = 0 := by omega
  have hr1 : (tag + opts * 2 ^ 16) / 2 ^ 24 % 2 ^ 8 = 0 := by omega
  have hr3 : ((scope + (if rsvd then 2 ^ 31 else 0)) / 2 ^ 8 % 2 ^ 24 != 0) = rsvd := by
    cases rsvd
    · have hlow : scope / 256 % 16777216 = 0 := by omega
      simpa using hlow
    · have hhigh : (scope + 2 ^ 31) / 2 ^ 8 % 2 ^ 24 ≠ 0 := by omega
      simpa using hhigh
  simp only [frameOf, frameWords, List.cons_append, List.nil_append, List.getD_cons_zero, List.getD_cons_succ,
    fld_wd _ _ _ hw0, fld_wd _ _ _ hw1, fld_wd _ _ _ hw3, hop, hl, ht, hopt, hsc, hr0, hr1, hr3, bne_self_eq_false,
    Bool.false_or]
  simp [Nat.add_comm 4, hpayload]

/-! ### The catalogue -/

/-- The catalogue lists its commands by rising opcode. -/
theorem commandRows_opcodes_rise : (commandRows.map (fun q => q.1.op)).Pairwise (· < ·) :=
  List.isChain_iff_pairwise.mp (by decide +kernel)

/-- A catalogue command with a well-formed frame goes through its mailbox. -/
theorem commandRow_of_wf {ci : CmdInfo} {body : Body} {f : Frame} {s : State} (hf : f.wf = true) :
    commandRow ci body f s = .next (sendResponses (mailboxCommand ci body f s)) := if_pos hf

/-- Settles O50, by reading the header words field by field; the rising opcodes are distinct. -/
theorem framesReadBack : Obligations.FramesReadBack := by
  unfold Obligations.FramesReadBack
  refine ⟨fun op f ho hf => frameOf_frameWords op f ho hf, ?_, ?_⟩
  · intro q hq
    obtain ⟨body, hfind, hexec⟩ := isRow hq
    exact ⟨body, hfind, fun f s hf => (hexec f s).trans (commandRow_of_wf hf)⟩
  · exact commandRows_opcodes_rise.imp fun h => Nat.ne_of_lt h

end Sys2Proof.Machine
end

section
/-! The commands of groups 0x00 and 0x01 (R396 to R402, R409 to R416): sessions, the engine, ports, groups, mirrors. -/

namespace Sys2Proof.Machine
open Sys2Proof

/-! ### Sessions and the engine -/

theorem rung_shadow (m : Nat) (s : State) : (rung m s).shadow = s.shadow := by unfold rung; split <;> rfl

/-- A command taken leaves the shadow and the journal's count of transactions, which `Same` does not speak of. -/
theorem begun_shadow (ci : CmdInfo) (f : Frame) (s : State) : (begun ci f s).shadow = s.shadow := by
  unfold begun
  split
  · rfl
  · split
    · rfl
    · rw [rung_shadow]; rfl

theorem begun_txn (ci : CmdInfo) (f : Frame) (s : State) : (begun ci f s).mbx.txn = s.mbx.txn := by
  unfold begun
  split
  · rfl
  · split
    · rfl
    · rw [rung_mbx]; rfl

/-- In a falling list, a search finds the largest element that passes. -/
theorem find?_of_falling {p : Nat → Bool} {v : Nat} : ∀ {l : List Nat}, l.Pairwise (· > ·) → v ∈ l → p v = true →
    (∀ x ∈ l, p x = true → x ≤ v) → l.find? p = some v
  | a :: l, hl, hv, hp, htop => by
    obtain ⟨ha, hl⟩ := List.pairwise_cons.mp hl
    obtain rfl | hv := List.mem_cons.mp hv
    · exact List.find?_cons_of_pos hp
    · have hnot : ¬ p a = true := fun hpa =>
        absurd (htop a List.mem_cons_self hpa) (Nat.not_le.mpr (ha v hv))
      rw [List.find?_cons_of_neg hnot]
      exact find?_of_falling hl hv hp fun x hx => htop x (List.mem_cons_of_mem a hx)

/-- HELLO agrees on the highest version in the range that the client names (R396). -/
theorem cmdVersions_find {low high v : Nat} (hv : v ∈ cmdVersions) (hlow : low ≤ v) (hhigh : v ≤ high)
    (htop : ∀ x ∈ cmdVersions, x ≤ high → x ≤ v) :
    cmdVersions.find? (fun x => decide (low ≤ x) && decide (x ≤ high)) = some v :=
  find?_of_falling (by decide) hv (by simp [hlow, hhigh]) fun x hx hp => htop x hx (by simp at hp; exact hp.2)

/-- Settles O1: each body passes its own checks, so the command completes with what the body answers. -/
theorem sessionCommandsComplete : Obligations.SessionCommandsComplete := by
  unfold Obligations.SessionCommandsComplete
  refine ⟨?_, ?_, ?_, ?_, ?_, ?_, ?_, ?_⟩
  · intro f s v h hl h2 h3 hv hlow hhigh htop
    have hrange : pf f 0 0 16 ≤ pf f 0 16 16 := hlow.trans hhigh
    refine completes_of (body := bodyHello) h rfl ?_ (ok_status ..)
    simp [bodyHello, hl, h2, h3, hrange, cmdVersions_find hv hlow hhigh htop]
    rfl
  · intro f s h hl
    exact completes_of h rfl (lenIs_pass hl) (ok_status ..)
  · intro f s r h hl hz hr
    exact completes_of h rfl (by simp [bodyCmdStatus, hl, hz, same_mbx_pend (ready_begun h), hr]) (ok_status ..)
  · intro f s h hl ha ht
    exact completes_of h rfl (by simp [bodyXferWrite, hl, ha, ht]) (ok_status ..)
  · intro f s h hl
    exact completes_of h rfl (by simp [bodySessionList, hl, same_mbx_sess (ready_begun h)]) (ok_status ..)
  · intro f s h hl
    exact completes_of h rfl (by simp [bodyShadowInfo, hl, shadowBytes, begun_shUsed, begun_txn]) (ok_status ..)
  · intro f s h hl hz
    exact completes_of h rfl (by simp [bodyShadowDigest, hl, hz, begun_shadow]) (ok_status ..)
  · intro f s h
    exact completes_of h rfl rfl (ok_status ..)

/-! ### Ports, groups and mirrors -/

/-- A command on an existing port whose word 0 has its reserved bits clear. -/
theorem withPort_pass {f : Frame} {n : Nat} {s : State} {k : Nat → PortRec → CmdRes} {r : PortRec}
    (hr : portRec s (pf f 0 0 8) = some r) (hn : (pw f 0).toNat < 2 ^ n) : withPort f n s k = k (pf f 0 0 8) r := by
  simp [withPort, hr, Nat.div_eq_of_lt hn]

/-- Settles O2: each body passes its own checks, so the command completes with what the body answers. -/
theorem portCommandsComplete : Obligations.PortCommandsComplete := by
  unfold Obligations.PortCommandsComplete
  refine ⟨?_, ?_, ?_, ?_, ?_, ?_, ?_, ?_⟩
  · intro f s h hl hz hw hp hfec hlow hhigh hmode hlanes
    have hwidth : [1, 2, 4, 8].contains (pf f 0 8 4) = true := by simpa using hw
    have hfree : lanesTaken (begun ciPortCreate f s) (pf f 0 0 8) (pf f 0 8 4) = false :=
      (same_lanesTaken (ready_begun h) _ _).trans hlanes
    refine completes_of h rfl ?_ (ok_status ..)
    simp only [bodyPortCreate, hl, hz, hwidth, hp, hlow, hhigh, hmode, hfree, lenIs_pass, inRange_pass, refuse_pass, hfec,
      ne_eq, not_false_eq_true, decide_true, Bool.and_self, Bool.not_true, Bool.false_eq_true, if_false]
  · intro f s r p h hl hp hlt hr hadmin hholds hring
    have hB := ready_begun h
    have h0 : pf f 0 0 8 = p := by rw [pf_whole f 0 8 (by omega), hp]
    have hrec : portRec (begun ciPortDelete f s) (pf f 0 0 8) = some r := by rw [h0, same_portRec hB, hr]
    refine completes_of h rfl ?_ (ok_status ..)
    simp [bodyPortDelete, hl, withPort_pass (n := 8) hrec (by omega), h0, same_primrosePort hB, same_portHolds hB, hring,
      hadmin, hholds]
  · intro f s r p h hl hp hlt hr hring
    have hB := ready_begun h
    have h0 : pf f 0 0 8 = p := by rw [pf_low, hp]; omega
    have hrec : portRec (begun ciPortAdmin f s) (pf f 0 0 8) = some r := by rw [h0, same_portRec hB, hr]
    have hup : bit (pw f 0) 8 = true := by simp only [bit_eq, hp, decide_eq_true_eq]; omega
    refine completes_of h rfl ?_ (ok_status ..)
    simp [bodyPortAdmin, hl, withPort_pass (n := 9) hrec (by omega), h0, same_primrosePort hB, hring, hup]
  · intro f s r p h hl hp hlt hr hring
    have hB := ready_begun h
    have h0 : pf f 0 0 8 = p := by rw [pf_low, hp]; omega
    have hrec : portRec (begun ciPortAdmin f s) (pf f 0 0 8) = some r := by rw [h0, same_portRec hB, hr]
    have hdown : bit (pw f 0) 8 = false := by simp only [bit_eq, hp, decide_eq_false_iff_not]; omega
    refine completes_of h rfl ?_ (ok_status ..)
    simp [bodyPortAdmin, hl, withPort_pass (n := 9) hrec (by omega), h0, same_primrosePort hB, hring, hdown]
  · intro f s r p h hl hp hlt hr
    have h0 : pf f 0 0 8 = p := by rw [pf_whole f 0 8 (by omega), hp]
    have hrec : portRec (begun ciPortStatus f s) (pf f 0 0 8) = some r := by rw [h0, same_portRec (ready_begun h), hr]
    refine completes_of h rfl ?_ (ok_status ..)
    simp [bodyPortStatus, hl, withPort_pass (n := 8) hrec (by omega), h0]
  · intro f s map h hl hz hmap hports
    have hnone : (bitsOf 256 map).find? (fun p => !portExists (begun ciMcastGroupSet f s) p) = none := by
      simpa [same_portExists (ready_begun h)] using hports
    refine completes_of h rfl ?_ (ok_status ..)
    simp only [bodyMcastGroupSet, hl, hz, hmap, hnone, lenIs_pass, inRange_pass, decide_true]
  · intro f s h hl hz
    have hmcast : (begun ciMcastGroupRead f s).ports.mcast = s.ports.mcast := by rw [same_ports (ready_begun h)]
    exact completes_of h rfl (by simp [bodyMcastGroupRead, hl, hz, hmcast]) (ok_status ..)
  · intro f s r p h hl hp hr hz h1 h2
    have hrec : portRec (begun ciMirrorCfg f s) (pf f 0 0 8) = some r := by rw [hp, same_portRec (ready_begun h), hr]
    refine completes_of h rfl ?_ (ok_status ..)
    simp [bodyMirrorCfg, hl, withPort_pass (n := 10) hrec hz, hp, h1, h2]

end Sys2Proof.Machine
end

section
/-! Commands that stage words and commit their group (R391, R430, R431), and scoped writes. -/

namespace Sys2Proof.Machine
open Sys2Proof

/-! ### Registers and budgets as firmware sees them when it begins -/

/-- The carriers of commands lie in the engine-wide blocks, below the field unit's. -/
theorem carrierReg_of_ge {a : Nat} (h : 0x70000 ≤ a) : carrierReg a = false := by
  have hpage : decide (a < mbxBase + 0x240) = false := decide_eq_false (by unfold mbxBase; omega)
  have hcell : doorbellCells.any (fun c => a == cellXfer c) = false := by
    rw [List.any_eq_false]
    intro c hc
    have hlt : c < 304 := by revert c; decide
    have hne : a ≠ cellXfer c := by unfold cellXfer colBase; omega
    simpa using hne
  unfold carrierReg
  rw [hpage, hcell, Bool.and_false, Bool.or_false]

theorem carrierReg_glen (g off : Nat) : carrierReg (glnBase g + off) = false :=
  carrierReg_of_ge (by unfold glnBase dieBase; omega)
theorem carrierReg_bpm (d off : Nat) : carrierReg (bpmBase d + off) = false :=
  carrierReg_of_ge (by unfold bpmBase dieBase; omega)
theorem carrierReg_sch (d off : Nat) : carrierReg (schBase d + off) = false :=
  carrierReg_of_ge (by unfold schBase dieBase; omega)

theorem same_budgetOf {s t : State} (h : Same s t) (u a : Nat) : budgetOf t u a = budgetOf s u a := by
  unfold budgetOf
  simp only [same_rdF h _ _ _ (carrierReg_glen _ _), same_rdF h _ _ _ (carrierReg_bpm _ _),
    same_rdF h _ _ _ (carrierReg_sch _ _)]

theorem same_hasSlot {s t : State} (h : Same s t) (u a : Nat) : hasSlot t u a = hasSlot s u a := by
  unfold hasSlot usedOf
  rw [same_bud h, same_budgetOf h]

/-! ### What a commit leaves in its status -/

@[simp] theorem rd_closeGroup (c a : Nat) (s : State) : rd (closeGroup c s) a = rd s a := rd_congr _ _ _ rfl rfl

theorem refusedWith_closeGroup_wr {stat commit : Nat} (s : State) :
    refusedWith (closeGroup commit (wr stat 1 s)) stat = none := by
  have hone : ¬ fld 1 0 2 = 2 := by decide
  simp only [refusedWith, rdF, rd_closeGroup, rd_wr_same, if_neg hone]

/-- A commit that nothing refuses says so in its status. -/
theorem refusedWith_commitGroup {stat commit : Nat} {p : Nat → Bool} {take : State → State} {s : State}
    (hp : stagedBad p s = false) : refusedWith (commitGroup stat commit p [] take s) stat = none := by
  rw [commitGroup, hp]
  exact refusedWith_closeGroup_wr _

theorem refusedWith_congr {s t : State} {stat : Nat} (h : rd t stat = rd s stat) :
    refusedWith t stat = refusedWith s stat := by
  unfold refusedWith rdF
  rw [h]

/-! ### Scoped commands -/

theorem eachGlen_status {f : Frame} (act : Nat → State → State) (s : State) (h : f.scope ≠ 0) :
    (eachGlen f act s).status < 0x10 := onUnits_status _ _ _ _ h

theorem eachDie_status {f : Frame} (act : Nat → State → State) (s : State) (h : f.scope ≠ 0) :
    (eachDie f act s).status < 0x10 := onUnits_status _ _ _ _ h

theorem onGlens_status {f : Frame} (act : Nat → State → Nat × State) (s : State) (h : f.scope ≠ 0) :
    (onGlens f act s).status < 0x10 := onUnits_status _ _ _ _ h

theorem readUnits_pass {n : Nat} {f : Frame} (rdr : Nat → List Word) (s : State) (h : f.scope ≠ 0) :
    readUnits n f rdr s = ok ((bitsOf n f.scope).flatMap rdr) s := if_neg h

theorem scope_ne_zero {f : Frame} {u : Nat} (h : f.scope = 2 ^ u) : f.scope ≠ 0 := by
  rw [h]; positivity

/-- The element results of a command change no register. -/
theorem rd_elemAnswer (die : Bool) (f : Frame) (codes : List Nat) (s : State) (a : Nat) :
    rd (elemAnswer die f codes s).st a = rd s a := by
  unfold elemAnswer
  dsimp only
  split <;> exact rd_congr _ _ _ rfl rfl

/-- What an action on one unit leaves: nothing of a glen under test. -/
def unitStep (die : Bool) (base id : Nat) (act : Nat → Ticket → State → Nat × State) (t : State) (u : Nat) : State :=
  if !die && outOfService t 2 u then t else (act u ⟨id, base + u⟩ t).2

/-- An action on the units of a mask changes the state unit by unit, in ascending order. -/
theorem runUnits_state (die : Bool) (mask base : Nat) (act : Nat → Ticket → State → Nat × State) (id : Nat) (s : State) :
    (runUnits die mask base act id s).2 =
      (bitsOf (if die then 2 else 8) mask).foldl (unitStep die base id act) s := by
  suffices fold : ∀ (l : List Nat) (acc : List Nat × State),
      (l.foldl (fun acc u =>
        if nbit mask u then
          if !die && outOfService acc.2 2 u then (acc.1 ++ [rOos], acc.2)
          else let r := act u ⟨id, base + u⟩ acc.2; (acc.1 ++ [r.1], r.2)
        else (acc.1 ++ [0xFF], acc.2)) acc).2 =
      (l.filter (nbit mask)).foldl (unitStep die base id act) acc.2 from fold _ ([], s)
  intro l
  induction l with
  | nil => intro acc; rfl
  | cons u l ih =>
    intro acc
    rw [List.foldl_cons, ih, List.filter_cons]
    by_cases hu : nbit mask u = true
    · rw [if_pos hu, if_pos hu, List.foldl_cons]
      congr 1
      unfold unitStep
      split <;> rfl
    · rw [if_neg hu, if_neg hu]

theorem bitsOf_unit {die : Bool} {u : Nat} (hu : u < if die then 2 else 8) :
    bitsOf (if die then 2 else 8) (2 ^ u) = [u] := by
  cases die
  · exact bitsOf_one u hu
  · exact bitsOf_die u hu

/-! ### Commits of the units that SCOPE names -/

section
variable {ci : CmdInfo} {body : Body} {c : Instr} {f : Frame} {s : State}

/-- A command that commits in the units of SCOPE answers element results, or refuses and changes nothing. -/
theorem keeps_commitOn (die : Bool) (f : Frame) (act : Nat → State → State) (stat : Nat → Nat) (b : State) :
    keeps b (commitOn die f act stat b) := by
  unfold commitOn
  dsimp only
  split
  · exact keeps_range b _
  · by_cases hscope : f.scope = 0
    · simp only [onUnits, scopeSome, hscope, if_true]
      exact keeps_range b 0
    · exact .inl (onUnits_status _ _ _ _ hscope)

/-- With one unit named, and no refusal in its status afterwards, the commits complete. -/
theorem commitOn_status {die : Bool} {act : Nat → State → State} {stat : Nat → Nat} {b : State} {u : Nat}
    (hu : u < if die then 2 else 8) (hscope : f.scope = 2 ^ u) (hok : refusedWith (act u b) (stat u) = none) :
    (commitOn die f act stat b).status < 0x10 := by
  have hne := scope_ne_zero hscope
  have hnone : (if !die && outOfService b 2 u then none
      else refusedWith (onUnits die f (fun u _ t => (rDone, act u t)) b).st (stat u)) = none := by
    split
    · rfl
    · next hoos =>
      refine (refusedWith_congr ?_).trans hok
      rw [onUnits, scopeSome_pass hne, rd_elemAnswer, runUnits_state, hscope, bitsOf_unit hu]
      simp only [List.foldl_cons, List.foldl_nil, unitStep, if_neg hoos]
  simp only [commitOn, hscope, bitsOf_unit hu, List.findSome?_cons, List.findSome?_nil]
  rw [hnone]
  exact onUnits_status _ _ _ _ hne

/-- A command whose body commits in each unit that SCOPE names what `stg` stages. -/
theorem commits_of_unrefused {die : Bool} {act stg : Nat → State → State} {stat : Nat → Nat} {group : Nat → Nat → Bool}
    {fails : State → Nat → List Nat} (h : Ready ci f s) (hc : exec c s = commandRow ci body f s)
    (hr : body (sessOf s f).agreed f (begun ci f s) = commitOn die f act stat (begun ci f s))
    (hact : ∀ u t, fails (stg u t) u = [] → stagedBad (group u) (stg u t) = false →
      refusedWith (act u t) (stat u) = none) :
    Commits ci c f s (commitOn die f act stat) (if die then 2 else 8) stg fails group := by
  have hanswers := answers_of h hc hr (keeps_commitOn die f act stat _)
  exact ⟨hanswers, fun u hu hscope hfails hpar => ⟨commitOn_status hu hscope (hact u _ hfails hpar), hanswers⟩⟩

/-- The same where the commit is `commitGroup`. -/
theorem commits_of {die : Bool} {act stg : Nat → State → State} {stat commit : Nat → Nat} {group : Nat → Nat → Bool}
    {fails : State → Nat → List Nat} {take : Nat → State → State} (h : Ready ci f s)
    (hc : exec c s = commandRow ci body f s)
    (hr : body (sessOf s f).agreed f (begun ci f s) = commitOn die f act stat (begun ci f s))
    (hact : ∀ u t, act u t = commitGroup (stat u) (commit u) (group u) (fails (stg u t) u) (take u) (stg u t)) :
    Commits ci c f s (commitOn die f act stat) (if die then 2 else 8) stg fails group := by
  refine commits_of_unrefused h hc hr fun u t hfails hpar => ?_
  rw [hact, hfails]
  exact refusedWith_commitGroup hpar

end

end Sys2Proof.Machine
end

section
/-! The commands on exact-match tables (R145 to R150, R412). -/

namespace Sys2Proof.Machine
open Sys2Proof

/-- Settles O3: the writes pass their checks, and each commit is `commitGroup` of what the command stages. -/
theorem exactConfigCommandsComplete : Obligations.ExactConfigCommandsComplete := by
  unfold Obligations.ExactConfigCommandsComplete
  refine ⟨?_, ?_, ?_, ?_, ?_, ?_, ?_⟩
  · intro f s h hl htbl hlearn hevict hscope
    have hz : pf f 0 2 30 = 0 := pf_high f 0 2 30 (by omega)
    have h0 : pf f 0 0 2 = (pw f 0).toNat := pf_whole f 0 2 (by omega)
    have htake : tblCfgTakes (pw f 1) = true := by simp [tblCfgTakes, hlearn, hevict]
    refine completes_of h rfl ?_ (eachGlen_status _ _ hscope)
    simp only [bodyEmTableCfg, tblCfgWrite, lenIs_pass, inRange_pass, hl, hz, h0, htake, decide_true, if_true]
    rfl
  · intro f s h hl hlt hport
    have hz : pf f 0 8 24 = 0 := pf_high f 0 8 24 hlt
    have h0 : pf f 0 0 8 = (pw f 0).toNat := pf_whole f 0 8 hlt
    refine completes_of h rfl ?_ (ok_status ..)
    simp [bodyEmPortCfg, hl, hz, h0, same_portExists (ready_begun h), hport, emtPortCfg, glenOf]
  · intro f s g h hl hsize hg hscope
    refine completes_of h rfl ?_ (ok_status ..)
    simp only [bodyLearnRingCfg, lenIs_pass, inRange_pass, hl, hsize, decide_true, scopeOne_glen f g hg hscope]
    rfl
  · intro f s h hl htbl hpol
    have hz : pf f 0 2 30 = 0 := pf_high f 0 2 30 (by omega)
    have h0 : pf f 0 0 2 = (pw f 0).toNat := pf_whole f 0 2 (by omega)
    exact completes_of h rfl (by simp [bodyLearnPolicy, hl, hz, h0, hpol]) (ok_status ..)
  · intro f s h hl hslots hscope
    exact completes_of h rfl (by simp [bodyAgeCfg, hl, hslots]) (eachGlen_status _ _ hscope)
  · rintro f s k stg h hl hk hlt rfl
    have hz : pf f 0 6 26 = 0 := pf_high f 0 6 26 (by omega)
    have h0 : pf f 0 0 6 = k := by rw [pf_whole f 0 6 (by omega), hk]
    refine commits_of (die := false) (take := fun g => commitStaged (keyGroup g)) h rfl ?_ fun _ _ => rfl
    simp only [bodyEmKeyLayout, lenIs_pass, inRange_pass, hl, hz, h0, decide_true]
  · rintro f s stg h hl hres rfl
    refine commits_of (die := false) (take := fun g => armStaged (glnBudgetGroup g)) h rfl ?_ fun _ _ => rfl
    simp only [bodyGlenBudgetSet, lenIs_pass, inRange_pass, hl, (hres 0 (by decide)).1, (hres 0 (by decide)).2,
      (hres 1 (by decide)).1, (hres 1 (by decide)).2, (hres 2 (by decide)).1, (hres 2 (by decide)).2, decide_true,
      Bool.and_self]
    rfl

/-- A debug read whose slot is there. -/
theorem debugSlot_pass {g m : Nat} {s t : State} {k : State → CmdRes} (hB : Same s t)
    (h : hasSlot s (glenMem g m) actDebug = true) : debugSlot g m t k = k (debugRead g m 1 t) :=
  needSlot_pass (by simpa [same_hasSlot hB] using h)

/-- Settles O4: operands pass their checks, and a debug read has the slot that it waits for. -/
theorem exactEntryCommandsComplete : Obligations.ExactEntryCommandsComplete := by
  unfold Obligations.ExactEntryCommandsComplete
  refine ⟨?_, ?_, ?_, ?_, ?_, ?_, ?_, ?_⟩
  · intro f s h hl hlt hscope
    have hz : pf f 0 3 29 = 0 := pf_high f 0 3 29 hlt
    have h0 : pf f 0 0 2 = (pw f 0).toNat % 4 := pf_low f 0 2
    exact completes_of h rfl (by simp [bodyTblInsert, hl, hz, h0]) (onUnits_status _ _ _ _ hscope)
  · intro f s h hl hlt hscope
    have hz : pf f 0 2 30 = 0 := pf_high f 0 2 30 hlt
    have h0 : pf f 0 0 2 = (pw f 0).toNat := pf_whole f 0 2 hlt
    exact completes_of h rfl (by simp [bodyTblDelete, hl, hz, h0]) (onUnits_status _ _ _ _ hscope)
  · intro f s h hl hlt hsel hscope
    have hz : pf f 0 2 30 = 0 := pf_high f 0 2 30 hlt
    have h0 : pf f 0 0 2 = (pw f 0).toNat := pf_whole f 0 2 hlt
    have h1 : pf f 1 11 21 = 0 := pf_high f 1 11 21 hsel
    have hport : pf f 1 0 8 = (pw f 1).toNat % 256 := pf_low f 1 8
    exact completes_of h rfl (by simp [bodyTblFlush, hl, hz, h0, h1, hport]) (onUnits_status _ _ _ _ hscope)
  · intro f s h hmod hmin hscope
    exact completes_of h rfl (by simp [bodyTblBulkInsert, hmod, hmin]) (onEntries_status _ _ _ _ _ hscope)
  · intro f s g e h hl hlt hg hscope hslot hfind
    have hz : pf f 0 2 30 = 0 := pf_high f 0 2 30 hlt
    have h0 : pf f 0 0 2 = (pw f 0).toNat := pf_whole f 0 2 hlt
    refine completes_of h rfl ?_ (ok_status ..)
    simp only [bodyTblLookup, lenIs_pass, inRange_pass, hl, hz, h0, decide_true, scopeOne_glen f g hg hscope,
      debugSlot_pass (m := 0) (ready_begun h) hslot, hfind]
    rfl
  · intro f s g h hl hlt hg hscope hslot hfind
    have hz : pf f 0 2 30 = 0 := pf_high f 0 2 30 hlt
    have h0 : pf f 0 0 2 = (pw f 0).toNat := pf_whole f 0 2 hlt
    refine completes_of h rfl ?_ (ok_status ..)
    simp only [bodyTblLookup, lenIs_pass, inRange_pass, hl, hz, h0, decide_true, scopeOne_glen f g hg hscope,
      debugSlot_pass (m := 0) (ready_begun h) hslot, hfind]
    rfl
  · intro f s g h hl hlt htok hg hscope hslot
    have hz : pf f 0 2 30 = 0 := pf_high f 0 2 30 hlt
    have h0 : pf f 0 0 2 = (pw f 0).toNat := pf_whole f 0 2 hlt
    refine completes_of h rfl ?_ (by split <;> exact ok_status ..)
    simp only [bodyTblIterate, lenIs_pass, inRange_pass, hl, hz, h0, htok, decide_true, scopeOne_glen f g hg hscope,
      debugSlot_pass (m := 0) (ready_begun h) hslot]
    rfl
  · intro f s h hl hscope
    exact completes_of h rfl (by rw [bodyTblCapacity, lenIs_pass hl, readUnits_pass _ _ hscope]) (ok_status ..)

end Sys2Proof.Machine
end

section
/-! The commands on routes by their longest match and the TCAM (R157 to R187, R412). -/

namespace Sys2Proof.Machine
open Sys2Proof

theorem allGlens_scope_ne_zero (f : Frame) : (allGlens f).scope ≠ 0 := by
  unfold allGlens
  split
  · exact (by decide : (255 : Nat) ≠ 0)
  · assumption

theorem checkRoute_pass {f : Frame} {i : Nat} {del : Bool} {s : State} {k : CmdRes} (h : routeFault f i del = none) :
    checkRoute f i del s k = k := by
  simp only [checkRoute, h]

/-- Settles O5: the routes named are in range, and each write goes to the update units as `onUnits` says. -/
theorem routeCommandsComplete : Obligations.RouteCommandsComplete := by
  unfold Obligations.RouteCommandsComplete
  refine ⟨?_, ?_, ?_, ?_, ?_, ?_, ?_, ?_⟩
  · rintro f s stg h hl hk rfl
    have hz : pf f 0 6 26 = 0 := pf_high f 0 6 26 hk
    have h0 : pf f 0 0 6 = (pw f 0).toNat := pf_whole f 0 6 hk
    refine commits_of (die := false) (take := fun g => commitStaged (keyGroup g)) h rfl ?_ fun _ _ => rfl
    simp only [bodyLpmKeyLayout, lenIs_pass, inRange_pass, hl, hz, h0, decide_true]
  · intro f s h hl hlt hport
    have hz : pf f 0 8 24 = 0 := pf_high f 0 8 24 hlt
    have h0 : pf f 0 0 8 = (pw f 0).toNat := pf_whole f 0 8 hlt
    refine completes_of h rfl ?_ (ok_status ..)
    simp [bodyLpmPortVrf, hl, hz, h0, same_portExists (ready_begun h), hport, lpmPortVrf, glenOf]
  · intro f s h hl hbit hroute
    refine completes_of h rfl ?_ (onUnits_status _ _ _ _ (allGlens_scope_ne_zero f))
    simp [bodyRouteAdd, hl, hbit, checkRoute_pass hroute]
  · intro f s h hl hbit hroute
    refine completes_of h rfl ?_ (onUnits_status _ _ _ _ (allGlens_scope_ne_zero f))
    simp [bodyRouteDelete, hl, hbit, checkRoute_pass hroute]
  · intro f s h hmod hmin hroutes
    have hnone : (List.range (f.length / 16)).findSome?
        (fun i => routeFault f (4 * i) (bit (pw f (4 * i)) 31)) = none := by simpa using hroutes
    refine completes_of h rfl ?_ (onEntries_status _ _ _ _ _ (allGlens_scope_ne_zero f))
    simp [bodyRouteBulk, hmod, hmin, hnone]
  · intro f s g h hl hlt hg hscope hslot
    have hz : pf f 0 9 23 = 0 := pf_high f 0 9 23 hlt
    refine completes_of h rfl ?_ (by split <;> exact ok_status ..)
    simp only [bodyRouteLookup, lenIs_pass, inRange_pass, hl, hz, decide_true, scopeOne_glen f g hg hscope,
      debugSlot_pass (m := 0) (ready_begun h) hslot]
    rfl
  · intro f s n h hn hmin hmax hl htop
    refine completes_of h rfl ?_ (onUnits_status _ _ _ _ (allGlens_scope_ne_zero f))
    simp [bodyNexthopSet, hn, hmin, hmax, hl, htop]
  · intro f s h hl hscope
    exact completes_of h rfl (by rw [bodyRouteCapacity, lenIs_pass hl, readUnits_pass _ _ hscope]) (ok_status ..)

/-! ### The TCAM -/

/-- A rule's payload that is in range, of the length that its WIDTH gives. -/
theorem checkRule_pass {f : Frame} {i w : Nat} {s : State} {k : CmdRes} (hw : pf f (i + 1) 0 4 = w) (hmin : 1 ≤ w)
    (hmax : w ≤ 8) (hl : f.length = ruleLen f i) (hi : (pw f i).toNat < 16384) (hz : pf f (i + 1) 8 8 = 0)
    (ha : actionOk (pw f (i + 2 + 6 * w)) (pw f (i + 3 + 6 * w)) = true) : checkRule f i s k = k := by
  simp [checkRule, hw, hmin, hmax, hl, hi, hz, ha]

theorem searchCount_status (gs : List Nat) (w grp : Nat) (k : List Nat) (s : State) :
    (searchCount gs w grp k s).status < 0x10 := ok_status ..

theorem searchStep_status (gs : List Nat) (w grp : Nat) (k : List Nat) (tok : Option (Word × Word)) (s : State) :
    (searchStep gs w grp k tok s).status < 0x10 := by
  unfold searchStep
  dsimp only
  split <;> exact ok_status ..

theorem same_glenSlots {s t : State} (h : Same s t) {m : Nat} {gs : List Nat}
    (hs : ∀ g ∈ gs, hasSlot s (3 * g + m) actDebug = true) :
    ∀ u ∈ gs.map (fun g => glenMem g m), hasSlot t u actDebug = true := by
  intro u hu
  obtain ⟨g, hg, rfl⟩ := List.mem_map.mp hu
  rw [same_hasSlot h]
  exact hs g hg

/-- Settles O6: rules named are in range, and the searches and reads have the slots that they wait for. -/
theorem tcamCommandsComplete : Obligations.TcamCommandsComplete := by
  unfold Obligations.TcamCommandsComplete
  refine ⟨?_, ?_, ?_, ?_, ?_, ?_, ?_, ?_⟩
  · rintro f s stg h hl hk rfl
    have hz : pf f 0 6 26 = 0 := pf_high f 0 6 26 hk
    have h0 : pf f 0 0 6 = (pw f 0).toNat := pf_whole f 0 6 hk
    refine commits_of (die := false) (take := fun g => commitStaged (keyGroup g)) h rfl ?_ fun _ _ => rfl
    simp only [bodyTcamKeyLayout, lenIs_pass, inRange_pass, hl, hz, h0, decide_true]
  · intro f s w h hw hmin hmax hl hi hz ha hscope
    have hlen : f.length = ruleLen f 0 := by rw [ruleLen, hw]; omega
    refine completes_of h rfl ?_ (onUnits_status _ _ _ _ hscope)
    rw [bodyTcamRuleWrite, checkRule_pass hw hmin hmax hlen hi hz (by simpa using ha)]
    rfl
  · intro f s h hl hi hscope
    exact completes_of h rfl (by simp [bodyTcamRuleDelete, hl, hi]) (onUnits_status _ _ _ _ hscope)
  · intro f s w h hw hmin hmax hl hold hi hz ha hscope
    have hlen : f.length = ruleLen f 1 := by rw [ruleLen, hw]; omega
    refine completes_of h rfl ?_ (onUnits_status _ _ _ _ hscope)
    rw [bodyTcamRuleReplace, checkRule_pass hw hmin hmax hlen hi hz (by simpa [Nat.add_comm] using ha)]
    rw [inRange_pass (by simpa using hold)]
    rfl
  · intro f s h hl ha hscope
    have hact : (!bit (pw f 0) 14 || actionOk (pw f 1) (pw f 2)) = true := by
      cases hb : bit (pw f 0) 14
      · rfl
      · exact ha hb
    exact completes_of h rfl (by simp only [bodyTcamActionSet, lenIs_pass, inRange_pass, hl, hact])
      (onUnits_status _ _ _ _ hscope)
  · intro f s g h hl hi hg hscope hslot1 hslot2
    have hslot : ∀ u ∈ [glenMem g 2], hasSlot (begun ciTcamRuleRead f s) u actDebug = true := by
      simpa [same_hasSlot (ready_begun h), glenMem] using hslot2
    refine completes_of h rfl ?_ (ok_status ..)
    simp only [bodyTcamRuleRead, lenIs_pass, inRange_pass, hl, hi, decide_true, scopeOne_glen f g hg hscope,
      debugSlot_pass (m := 1) (ready_begun h) hslot1, needSlot_pass hslot]
    rfl
  · intro f s w h hl hw hmin hmax hlt htok hscope hslots
    have hz : pf f 0 9 23 = 0 := pf_high f 0 9 23 hlt
    have htok1 : (!bit (pw f 0) 8 || decide (pf f 1 30 2 = 0)) = true := by
      cases hb : bit (pw f 0) 8
      · rfl
      · simpa using (htok hb).1
    have htok2 : (!bit (pw f 0) 8 || decide (pf f 2 3 4 = 0)) = true := by
      cases hb : bit (pw f 0) 8
      · rfl
      · simpa using (htok hb).2
    refine completes_of h rfl ?_ ?_
    · simp only [bodyTcamSearch, lenIs_pass, inRange_pass, hl, hw, hmin, hmax, hz, htok1, htok2, decide_true, Bool.and_self,
        scopeSome_pass hscope, needSlot_pass (same_glenSlots (m := 1) (ready_begun h) hslots),
        same_mbPrivileged (ready_begun h)]
      split <;> rfl
    · split
      · exact searchCount_status ..
      · exact searchStep_status ..
  · intro f s h hl hscope
    exact completes_of h rfl (lenIs_pass hl) (eachGlen_status _ _ hscope)

end Sys2Proof.Machine
end

section
/-! The commands on streams, stream gates, meters and colours (R196 to R219, R412). -/

namespace Sys2Proof.Machine
open Sys2Proof

/-- Settles O7: the operands pass their checks, and each glen named has its record changed. -/
theorem streamCommandsComplete : Obligations.StreamCommandsComplete := by
  unfold Obligations.StreamCommandsComplete
  refine ⟨?_, ?_, ?_, ?_, ?_, ?_, ?_, ?_, ?_, ?_, ?_⟩
  · rintro f s stg h hl hk rfl
    have hz : pf f 0 6 26 = 0 := pf_high f 0 6 26 hk
    have h0 : pf f 0 0 6 = (pw f 0).toNat := pf_whole f 0 6 hk
    refine commits_of (die := false) (take := fun g => commitStaged (keyGroup g)) h rfl ?_ fun _ _ => rfl
    simp only [bodyStreamKeyLayout, lenIs_pass, inRange_pass, hl, hz, h0, decide_true]
  · intro f s h hl hlt hscope
    have hz : pf f 12 15 17 = 0 := pf_high f 12 15 17 hlt
    have hh : pf f 12 0 15 = (pw f 12).toNat := pf_whole f 12 15 hlt
    exact completes_of h rfl (by simp [bodyStreamIdAdd, hl, hz, hh]) (onGlens_status _ _ hscope)
  · intro f s h hl hscope
    exact completes_of h rfl (lenIs_pass hl) (onGlens_status _ _ hscope)
  · intro f s h hl hlt h1 h3 hhist h4 hscope
    have hok : ctxFault (fun i => pw f (1 + i)) = none := by simp [ctxFault, h1, h3, h4, Nat.not_lt.mpr hhist]
    refine completes_of h rfl ?_ (eachGlen_status _ _ hscope)
    simp only [bodyStreamCtxSet, lenIs_pass, inRange_pass, hl, hlt, decide_true, hok]
    rfl
  · intro f s g h hl hlt hg hscope
    exact completes_of h rfl (by simp [bodyStreamCtxRead, hl, hlt, scopeOne_glen f g hg hscope]) (ok_status ..)
  · intro f s h hl hk hlt hscope
    refine completes_of h rfl ?_ (eachGlen_status _ _ hscope)
    simp [bodyStreamUnblock, hl, hk, hlt, unblock]
  · intro f s h hl hk hlt hscope
    refine completes_of h rfl ?_ (eachGlen_status _ _ hscope)
    simp [bodyStreamUnblock, hl, hk, hlt, unblock]
  · intro f s h hl hk hok hscope
    refine completes_of h rfl ?_ (eachGlen_status _ _ hscope)
    simp [bodyStreamUnblock, hl, hk, hok, unblock]
  · intro f s h hl hscope
    exact completes_of h rfl (by rw [bodyStreamCapacity, lenIs_pass hl, readUnits_pass _ _ hscope]) (ok_status ..)
  · intro f s h hl hlt hrise hscope
    have hnone : (List.range 14).find? (fun i => decide ((pw f (2 + i)).toNat < (pw f (1 + i)).toNat)) = none := by
      simpa using hrise
    refine completes_of h rfl ?_ (eachGlen_status _ _ hscope)
    simp only [bodyHistEdgesSet, lenIs_pass, inRange_pass, hl, hlt, decide_true, hnone]
  · intro f s g h hl hlt hg hscope
    exact completes_of h rfl (by simp [bodyHistRead, hl, hlt, scopeOne_glen f g hg hscope, ctxBins]) (ok_status ..)

/-- A glen's meter record is committed where no check refuses it, staged or not. -/
theorem refusedWith_polCommit {g : Nat} {resetBkt : Bool} {s : State}
    (hfails : meterFails (rdStg s (polAddr g)) (rdStg s (polData g 0)) (rdStg s (polData g 1)) (rdStg s (polData g 2))
      (rdStg s (polData g 3)) = [])
    (hpar : stagedBad (polGroup g) s = false) : refusedWith (polCommit g resetBkt s) (polStat g) = none := by
  unfold polCommit
  dsimp only
  split
  · rw [hfails]
    exact refusedWith_commitGroup hpar
  · exact refusedWith_closeGroup_wr s

/-- Settles O8: the operands pass their checks; a meter record is committed by `polCommit`. -/
theorem meterCommandsComplete : Obligations.MeterCommandsComplete := by
  unfold Obligations.MeterCommandsComplete
  refine ⟨?_, ?_, ?_, ?_, ?_, ?_⟩
  · intro f s n h hn hmax hl h0 hns hsec hcycle hres hsome hscope
    have hz : pf f 0 9 23 = 0 := pf_high f 0 9 23 h0
    have hz4 : pf f 4 16 16 = 0 := pf_high f 4 16 16 hsec
    have hsec4 : pf f 4 0 16 = (pw f 4).toNat := pf_whole f 4 16 hsec
    have hcyc : (decide (n = 0) || decide ((pw f 5).toNat ≠ 0)) = true := by
      by_cases hn0 : n = 0
      · simp [hn0]
      · simp [hcycle hn0]
    have hents : (((List.range n).map (fun i => pw f (7 + i))).all (fun e => decide (fld e 5 3 = 0)) &&
        (decide (n = 0) || ((List.range n).map (fun i => pw f (7 + i))).any (fun e => decide (fld e 8 24 ≠ 0)))) =
        true := by
      by_cases hn0 : n = 0
      · simp [hn0]
      · simpa [hn0] using ⟨hres, hsome hn0⟩
    refine completes_of h rfl ?_ (eachGlen_status _ _ hscope)
    simp only [bodyStreamGateSet, lenIs_pass, inRange_pass, hn, hmax, hl, hz, hns, hz4, hsec4, hcyc, hents, decide_true,
      Bool.or_true]
  · rintro f s stg h hl hver hz hz2 rfl
    have hcouple : (decide (0x0301 ≤ (sessOf s f).agreed) || !bit (pw f 4) 7) = true := by simpa using hver
    refine commits_of_unrefused (die := false) h rfl ?_ fun g t hfails hpar => refusedWith_polCommit hfails hpar
    simp only [bodyMeterSet, lenIs_pass, inRange_pass, hl, hcouple, hz, hz2, decide_true, Bool.and_self]
  · intro f s g h hl hok hg hscope
    exact completes_of h rfl (by simp [bodyMeterRead, hl, hok, scopeOne_glen f g hg hscope, meterRecord]) (ok_status ..)
  · intro f s n h hn hmin hmax hl htop hscope
    exact completes_of h rfl (by simp [bodyTenantPolicerMap, hn, hmin, hmax, hl, htop]) (eachGlen_status _ _ hscope)
  · intro f s h hbit hl h1 h8 hscope
    exact completes_of h rfl (by simp [bodyColourMapSet, hbit, hl, h1, h8]) (eachGlen_status _ _ hscope)
  · intro f s h hbit hl h1 h8 hscope
    exact completes_of h rfl (by simp [bodyColourMapSet, hbit, hl, h1, h8]) (eachGlen_status _ _ hscope)

end Sys2Proof.Machine
end

section
/-! The commands on the buffer pool managers (R226, R243, R245 to R248, R412). -/

namespace Sys2Proof.Machine
open Sys2Proof

/-- No word of a command has a bit at or above `i`. -/
theorem find?_high_none {f : Frame} {i l n : Nat} (h : ∀ k < n, (pw f k).toNat < 2 ^ i) :
    (List.range n).find? (fun k => decide (pf f k i l ≠ 0)) = none := by
  rw [List.find?_eq_none]
  intro k hk
  simp [pf_high f k i l (h k (List.mem_range.mp hk))]

/-- Settles O9: the operands pass their checks; the commits are `commitGroup`, the audit is `auditDie` on each die. -/
theorem bpmCommandsComplete : Obligations.BpmCommandsComplete := by
  unfold Obligations.BpmCommandsComplete
  refine ⟨?_, ?_, ?_, ?_, ?_, ?_, ?_⟩
  · rintro f s stg h hl hlt rfl
    refine commits_of (die := true) (take := fun d t => rebuildPools d (commitStaged (layoutGroup d) t)) h rfl ?_
      fun _ _ => rfl
    simp only [bodyBpmPoolLayout, lenIs_pass, hl, find?_high_none hlt]
  · rintro f s n stg h hl hn hok rfl
    have hlen : (decide (f.length % 12 = 0) && decide (12 ≤ f.length)) = true := by
      have h1 : f.length % 12 = 0 := by omega
      have h2 : 12 ≤ f.length := by omega
      simp [h1, h2]
    have hdiv : f.length / 12 = n := by omega
    refine commits_of (die := true) (take := fun d t => poolStatsUpdate d (commitStaged (quotaGroup d) t)) h rfl ?_
      fun _ _ => rfl
    have hnone : (List.range n).findSome? (fun i =>
        if 38 ≤ fld (pw f (3 * i)) 0 6 ∨ fld (pw f (3 * i)) 6 2 ≠ 0 ∨ fld (pw f (3 * i)) 10 22 ≠ 0 then some (3 * i)
        else if pf f (3 * i + 1) 19 13 ≠ 0 then some (3 * i + 1)
        else if pf f (3 * i + 2) 19 13 ≠ 0 then some (3 * i + 2) else none) = none := by
      rw [List.findSome?_eq_none_iff]
      intro i hi
      obtain ⟨hreq, h6, h10, hmin, hmax⟩ := hok i (List.mem_range.mp hi)
      simp [Nat.not_le.mpr hreq, h6, h10, pf_high f _ 19 13 hmin, pf_high f _ 19 13 hmax]
    simp only [bodyBpmQuotaSet, lenOk_pass, hlen, hdiv, hnone]
  · intro f s h hl hscope
    exact completes_of h rfl (by rw [bodyBpmStatus, lenIs_pass hl, readUnits_pass _ _ hscope]) (ok_status ..)
  · rintro f s stg h hl h15 h31 h1 rfl
    refine commits_of (die := true) (take := fun d => armStaged (plainBudgetGroup d)) h rfl ?_ fun _ _ => rfl
    simp only [bodyBpmBudgetSet, lenIs_pass, inRange_pass, hl, h15, h31, h1, decide_true, Bool.and_self]
  · intro f s h hl hlt hscope
    refine completes_of h rfl ?_ (eachDie_status _ _ hscope)
    simp only [bodyBpmYellowKeep, lenIs_pass, hl, find?_high_none hlt]
  · intro f s h hl hscope
    have hok := eachDie_status auditDie (begun ciBpmAudit f s) hscope
    exact completes_of h rfl (by simp only [bodyBpmAudit, lenIs_pass, hl, if_pos hok]) hok
  · intro f s h hl hscope
    exact completes_of h rfl (by rw [bodyBpmCapacity, lenIs_pass hl, readUnits_pass _ _ hscope]) (ok_status ..)

end Sys2Proof.Machine
end

section
/-! The commands on the scheduler (R251 to R277, R412). -/

namespace Sys2Proof.Machine
open Sys2Proof

/-! ### Scheduler records as firmware sees them when it begins -/

theorem same_nodeGet {s t : State} (h : Same s t) (d n : Nat) : nodeGet t d n = nodeGet s d n := by
  unfold nodeGet; rw [same_sch h]
theorem same_queueGet {s t : State} (h : Same s t) (d i : Nat) : queueGet t d i = queueGet s d i := by
  unfold queueGet; rw [same_sch h]
theorem same_busyQueues {s t : State} (h : Same s t) (d n : Nat) : busyQueues t d n = busyQueues s d n := by
  unfold busyQueues qList; rw [same_sch h]
theorem same_shpWaits {s t : State} (h : Same s t) (d : Nat) : shpWaits t d = shpWaits s d := by
  unfold shpWaits; rw [same_sch h]
theorem same_freeSpareNode {s t : State} (h : Same s t) (d : Nat) : freeSpareNode t d = freeSpareNode s d := by
  unfold freeSpareNode; simp only [same_nodeGet h]
theorem same_nodeWordOk {s t : State} (h : Same s t) (d : Nat) (w : Word) : nodeWordOk t d w = nodeWordOk s d w := by
  unfold nodeWordOk; rw [same_portExists h]
theorem same_namesPort {s t : State} (h : Same s t) (f : Frame) (p : Nat) : namesPort f t p = namesPort f s p := by
  unfold namesPort; simp only [same_portExists h]

/-! ### A command that names one die -/

section
variable {f : Frame} {s : State} {k : CmdRes}

/-- A record access of a command goes on where each die named has a slot of the configuration activity left. -/
theorem cfgWait_pass (h : ∀ d ∈ bitsOf 2 f.scope, hasSlot s (schMem d) 0 = true) : cfgWait f s k = k := by
  refine needSlot_pass fun u hu => ?_
  obtain ⟨d, hd, rfl⟩ := List.mem_map.mp hu
  exact h d hd

theorem cfgWait_pass_die {d : Nat} (hd : d < 2) (hscope : f.scope = 2 ^ d) (h : hasSlot s (schMem d) 0 = true) :
    cfgWait f s k = k := cfgWait_pass (by simpa [hscope, bitsOf_die d hd] using h)

/-- A command that names one unit does what it says of that unit alone. -/
theorem onUnits_congr_one {die : Bool} {u : Nat} (hu : u < if die then 2 else 8) (hscope : f.scope = 2 ^ u)
    {act act' : Nat → Ticket → State → Nat × State} (h : act u = act' u) :
    onUnits die f act s = onUnits die f act' s := by
  have hrun : runUnits die f.scope 0 act s.mbx.nextPend s = runUnits die f.scope 0 act' s.mbx.nextPend s := by
    unfold runUnits
    refine List.foldl_ext _ _ _ fun acc v hv => ?_
    by_cases hbit : nbit f.scope v = true
    · have hmem : v ∈ bitsOf (if die then 2 else 8) (2 ^ u) := by
        rw [← hscope]; exact List.mem_filter.mpr ⟨hv, hbit⟩
      rw [bitsOf_unit hu, List.mem_singleton] at hmem
      rw [hmem, h]
    · rw [if_neg hbit, if_neg hbit]
  rw [onUnits, onUnits, hrun]

end

/-! ### A shaper's commit -/

@[simp] theorem shpWaits_wrStg (a : Nat) (v : Word) (s : State) (d : Nat) : shpWaits (wrStg a v s) d = shpWaits s d := rfl
@[simp] theorem rd_setShpWait (d : Nat) (q : Option ShpPend) (s : State) (a : Nat) : rd (setShpWait d q s) a = rd s a := rfl

/-- A status word that does not say "refused". -/
theorem refusedWith_wr_none {stat : Nat} {v : Word} (s : State) (h : ¬ fld v 0 2 = 2) :
    refusedWith (wr stat v s) stat = none := by
  rw [refusedWith, rdF, rd_wr_same, if_neg h]

/-- An accepted commit says so in its status, PENDING or not. -/
theorem refusedWith_shpAccept (d : Nat) (q : ShpPend) (s : State) : refusedWith (shpAccept d q s) (shpStat d) = none := by
  unfold shpAccept
  split
  · exact refusedWith_wr_none _ (by decide)
  · exact (refusedWith_congr (rd_setShpWait _ _ _ _)).trans (refusedWith_wr_none _ (by decide))

/-- A commit that no check refuses is not refused. -/
theorem refusedWith_shpCommit {d : Nat} {reset : Bool} {t : Option Ticket} {s : State}
    (hfails : shpFails (rdStg s (shpAddr d)) (rdStg s (shpData d 0)) (rdStg s (shpData d 1)) (rdStg s (shpData d 2)) = [])
    (hwait : shpWaits s d = none) (hpar : stagedBad (shpGroup d) s = false) :
    refusedWith (shpCommit d reset t s) (shpStat d) = none := by
  simp only [shpCommit, hfails, hwait, hpar, Option.isSome_none, Bool.false_eq_true, if_false, List.append_nil,
    List.min?_nil]
  split
  · exact refusedWith_closeGroup_wr s
  · exact refusedWith_shpAccept _ _ _

/-- The address and the words of a shaper's record, staged. -/
def stageShp (d : Nat) (f : Frame) (t : State) : State :=
  (List.range 3).foldl (fun z i => wrStg (shpData d i) (pw f (1 + i)) z) (wrStg (shpAddr d) (pw f 0) t)

theorem stageShp_eq (d : Nat) (f : Frame) (t : State) :
    stageShp d f t = wrStg (shpData d 2) (pw f 3) (wrStg (shpData d 1) (pw f 2) (wrStg (shpData d 0) (pw f 1)
      (wrStg (shpAddr d) (pw f 0) t))) := rfl

theorem shpData_ne {d i j : Nat} (h : i ≠ j) : shpData d i ≠ shpData d j := by unfold shpData; omega
theorem shpAddr_ne_shpData (d i : Nat) : shpAddr d ≠ shpData d i := by unfold shpAddr shpData; omega

theorem rdStg_stageShp_addr (d : Nat) (f : Frame) (t : State) : rdStg (stageShp d f t) (shpAddr d) = pw f 0 := by
  simp [stageShp_eq, rdStg_wrStg_other _ _ _ _ (shpAddr_ne_shpData _ _)]
theorem rdStg_stageShp_data (d : Nat) (f : Frame) (t : State) {i : Nat} (hi : i < 3) :
    rdStg (stageShp d f t) (shpData d i) = pw f (1 + i) := by
  have hne : ∀ j, i ≠ j → shpData d i ≠ shpData d j := fun j => shpData_ne
  rw [stageShp_eq]
  rcases (by omega : i = 0 ∨ i = 1 ∨ i = 2) with rfl | rfl | rfl
  · rw [rdStg_wrStg_other _ _ _ _ (hne 2 (by decide)), rdStg_wrStg_other _ _ _ _ (hne 1 (by decide)), rdStg_wrStg_same]
  · rw [rdStg_wrStg_other _ _ _ _ (hne 2 (by decide)), rdStg_wrStg_same]
  · rw [rdStg_wrStg_same]

/-- Settles O10: the operands pass their checks, and a slot of the configuration activity is there. -/
theorem schedulerWritesComplete : Obligations.SchedulerWritesComplete := by
  unfold Obligations.SchedulerWritesComplete
  refine ⟨?_, ?_, ?_, ?_, ?_, ?_, ?_, ?_, ?_, ?_, ?_⟩
  · intro f s h hl hp hex h23 h15 hn
    have hex' := (same_portExists (ready_begun h) _).trans hex
    exact completes_of h rfl (by simp [bodySchPortSet, hl, hp, hex', h23, h15, hn]) (ok_status ..)
  · rintro f s d n h hl hd hscope hslot rfl hn hok hfree
    have hsame := ready_begun h
    have hok' := (same_nodeWordOk hsame _ _).trans hok
    have hslot' := (same_hasSlot hsame _ _).trans hslot
    have hbusy : ((nodePort (pw f 1) != nodePort (nodeGet (begun ciSchNodeSet f s) d (pw f 0).toNat) ||
        nodeEn (nodeGet (begun ciSchNodeSet f s) d (pw f 0).toNat) && !nodeEn (pw f 1)) &&
        !(busyQueues (begun ciSchNodeSet f s) d (pw f 0).toNat).isEmpty) = false := by
      rw [same_nodeGet hsame, same_busyQueues hsame]
      rcases hfree with ⟨hport, hen⟩ | hidle
      · cases hold : nodeEn (nodeGet s d (pw f 0).toNat)
        · simp [hport]
        · simp [hport, hen hold]
      · simp [hidle]
    refine completes_of h rfl ?_ (eachDie_status _ _ (scope_ne_zero hscope))
    simp only [bodySchNodeSet, lenIs_pass, inRange_pass, refuse_pass, hl, scopeOne_die f d hd hscope, hn, hok', hbusy,
      cfgWait_pass_die hd hscope hslot', decide_true]
    rfl
  · intro f s n h hl hn htop hok hscope hslot
    have hdiv : f.length / 4 - 1 = n := by omega
    have hnone : (List.range n).find? (fun i => fld (pw f (1 + i)) 16 16 != 0 ||
        decide (firstSpareNode ≤ fld (pw f (1 + i)) 0 15)) = none := by
      rw [List.find?_eq_none]
      intro i hi
      obtain ⟨h16, hlow⟩ := hok i (List.mem_range.mp hi)
      simp [h16, hlow]
    have hslot' : ∀ d ∈ bitsOf 2 f.scope, hasSlot (begun ciSchTenantMap f s) (schMem d) 0 = true := fun d hd =>
      (same_hasSlot (ready_begun h) _ _).trans (hslot d hd)
    refine completes_of h rfl ?_ (eachDie_status _ _ hscope)
    simp only [bodySchTenantMap, lenOk_pass, inRange_pass, show 8 ≤ f.length by omega, hdiv, htop, hnone,
      cfgWait_pass hslot', decide_true]
  · intro f s d h hver hl hd hscope hslot hi hfails
    have hslot' := (same_hasSlot (ready_begun h) _ _).trans hslot
    refine completes_of h rfl ?_ (eachDie_status _ _ (scope_ne_zero hscope))
    simp only [bodySchQueueSet, lenIs_pass, inRange_pass, if_pos hver, hl, scopeOne_die f d hd hscope, hi,
      decide_eq_true hver, hfails, cfgWait_pass_die hd hscope hslot', decide_true, Bool.true_or, List.min?_nil]
    rfl
  · rintro f s d i r h hver hl hd hscope hslot rfl hi hbit rfl hfails
    have hsame := ready_begun h
    have hslot' := (same_hasSlot hsame _ _).trans hslot
    have hold := Nat.not_le.mpr hver
    refine completes_of h rfl ?_ (eachDie_status _ _ (scope_ne_zero hscope))
    simp only [bodySchQueueSet, lenIs_pass, inRange_pass, if_neg hold, hl, scopeOne_die f d hd hscope, hi, hbit,
      same_queueGet hsame, hfails, cfgWait_pass_die hd hscope hslot', decide_true, Bool.not_false, Bool.or_true,
      Bool.or_false, List.min?_nil]
    rfl
  · rintro f s d stg h hl h0 hd hscope hnode hport rfl hfails hwait hpar
    have hsame := ready_begun h
    have hz : pf f 0 20 12 = 0 := pf_high f 0 20 12 h0
    have hnode' : (decide (pf f 0 18 2 ≠ 1) || decide (pf f 0 0 18 < firstSpareNode)) = true := by
      by_cases h1 : pf f 0 18 2 = 1
      · simp [hnode h1]
      · simp [h1]
    have hport' : (decide (pf f 0 18 2 ≠ 2) || namesPort f (begun ciShaperSet f s) (pf f 0 0 18)) = true := by
      by_cases h2 : pf f 0 18 2 = 2
      · simp [same_namesPort hsame, hport h2]
      · simp [h2]
    have hone : ∀ {act act' : Nat → Ticket → State → Nat × State}, act d = act' d →
        onUnits true f act (begun ciShaperSet f s) = onUnits true f act' (begun ciShaperSet f s) :=
      onUnits_congr_one (die := true) hd hscope
    refine completes_of h rfl ?_ (onUnits_status _ _ _ _ (scope_ne_zero hscope))
    have hunref : refusedWith (shpCommit d (nbit f.opts 0) (some ⟨(begun ciShaperSet f s).mbx.nextPend, 0 + d⟩)
        (stageShp d f (begun ciShaperSet f s))) (shpStat d) = none := by
      refine refusedWith_shpCommit ?_ ((same_shpWaits hsame d).trans hwait) hpar
      rw [rdStg_stageShp_addr, rdStg_stageShp_data d f _ (by decide : 0 < 3),
        rdStg_stageShp_data d f _ (by decide : 1 < 3), rdStg_stageShp_data d f _ (by decide : 2 < 3)]
      exact hfails
    simp only [bodyShaperSet, lenIs_pass, inRange_pass, hl, hz, scopeOne_die f d hd hscope, hnode', hport', decide_true]
    rw [hscope, bitsOf_die d hd, List.findSome?_cons]
    have hstat : ∀ {act : Nat → Ticket → State → Nat × State},
        (act d ⟨(begun ciShaperSet f s).mbx.nextPend, 0 + d⟩ (begun ciShaperSet f s)).2 =
          shpCommit d (nbit f.opts 0) (some ⟨(begun ciShaperSet f s).mbx.nextPend, 0 + d⟩)
            (stageShp d f (begun ciShaperSet f s)) →
        refusedWith (onUnits true f act (begun ciShaperSet f s)).st (shpStat d) = none := by
      intro act hact
      refine (refusedWith_congr ?_).trans hunref
      rw [onUnits, scopeSome_pass (scope_ne_zero hscope), rd_elemAnswer, runUnits_state, hscope,
        bitsOf_unit (die := true) hd]
      simp only [List.foldl_cons, List.foldl_nil, unitStep, Bool.not_true, Bool.false_and, Bool.false_eq_true, if_false,
        hact]
    rw [hstat rfl]
    exact hone rfl
  · intro f s h hl hg h1 hscope
    have hz : pf f 1 22 10 = 0 := pf_high f 1 22 10 h1
    exact completes_of h rfl (by simp [bodySchSampleCfg, hl, hg, hz]) (eachDie_status _ _ hscope)
  · rintro f s stg h hl h15 h31 h1 rfl
    refine commits_of (die := true) (take := fun d => armStaged (schBudgetGroup d)) h rfl ?_ fun _ _ => rfl
    simp only [bodySchBudgetSet, lenIs_pass, inRange_pass, hl, h15, h31, h1, decide_true, Bool.and_self]
  · intro f s d m h hl hn hd hscope hfree hslot
    have hsame := ready_begun h
    have hslot' := (same_hasSlot hsame _ _).trans hslot
    refine completes_of h rfl ?_ (ok_status ..)
    simp only [bodySchNodeRehome, lenIs_pass, inRange_pass, hl, hn, scopeOne_die f d hd hscope,
      (same_freeSpareNode hsame d).trans hfree, cfgWait_pass_die hd hscope hslot', decide_true]
  · intro f s d h hl hd hscope h0 h1 hslot
    have hslot' := (same_hasSlot (ready_begun h) _ _).trans hslot
    have hzero : pw f 0 = 0 := BitVec.eq_of_toNat_eq h0
    refine completes_of h rfl ?_ (eachDie_status _ _ (scope_ne_zero hscope))
    simp [bodySchQueueFlush, hl, hzero, h1, scopeOne_die f d hd hscope, cfgWait_pass_die hd hscope hslot', dieDone]
  · intro f s d h hl hd hscope h0 h1 hslot
    have hslot' := (same_hasSlot (ready_begun h) _ _).trans hslot
    have hne : pw f 0 ≠ 0 := fun e => by rw [e] at h0; cases h0
    refine completes_of h rfl ?_ (eachDie_status _ _ (scope_ne_zero hscope))
    simp only [bodySchQueueFlush, lenIs_pass, inRange_pass, hl, h0, if_neg hne, h1, scopeOne_die f d hd hscope,
      cfgWait_pass_die hd hscope hslot', le_refl, decide_true, firstSpareNode]
    rfl

/-- Settles O11: the operands pass their checks, and a slot of the configuration activity is there. -/
theorem schedulerReadsComplete : Obligations.SchedulerReadsComplete := by
  unfold Obligations.SchedulerReadsComplete
  refine ⟨?_, ?_, ?_⟩
  · intro f s d h hl h0 htop hnode hport hd hscope hslot
    have hsame := ready_begun h
    have hslot' := (same_hasSlot hsame _ _).trans hslot
    have hz : pf f 0 20 12 = 0 := pf_high f 0 20 12 h0
    have hnode' : (decide (pf f 0 18 2 ≠ 1) || decide (pf f 0 0 18 < firstSpareNode)) = true := by
      by_cases h1 : pf f 0 18 2 = 1
      · simp [hnode h1]
      · simp [h1]
    have hport' : (decide (pf f 0 18 2 ≠ 2) || namesPort f (begun ciShaperRead f s) (pf f 0 0 18)) = true := by
      by_cases h2 : pf f 0 18 2 = 2
      · simp [same_namesPort hsame, hport h2]
      · simp [h2]
    refine completes_of h rfl ?_ (ok_status ..)
    simp only [bodyShaperRead, lenIs_pass, inRange_pass, hl, hz, htop, hnode', hport', scopeOne_die f d hd hscope,
      cfgWait_pass_die hd hscope hslot', decide_true, Bool.and_self]
  · rintro f s d i h hl rfl hi hd hscope hslot
    have hslot' := (same_hasSlot (ready_begun h) _ _).trans hslot
    refine completes_of h rfl ?_ (ok_status ..)
    simp only [bodySchQueueRead, lenIs_pass, inRange_pass, hl, hi, scopeOne_die f d hd hscope,
      cfgWait_pass_die hd hscope hslot', decide_true]
  · intro f s h hl hscope
    exact completes_of h rfl (by rw [bodySchCapacity, lenIs_pass hl, readUnits_pass _ _ hscope]) (ok_status ..)

end Sys2Proof.Machine
end

section
/-! The commands on network time and on gate lists (R281 to R305, R413). -/

namespace Sys2Proof.Machine
open Sys2Proof

theorem same_portUnused {s t : State} (h : Same s t) (p : Nat) : portUnused t p = portUnused s p := by
  unfold portUnused portOfLane; simp only [same_portRec h]
theorem same_netNs {s t : State} (h : Same s t) : netNs t = netNs s := by
  unfold netNs; rw [same_tim h]
theorem same_gatOf {s t : State} (h : Same s t) (p : Nat) : gatOf t p = gatOf s p := by
  unfold gatOf; rw [same_gat h]
theorem same_netFrac {s t : State} (h : Same s t) : netFrac t = netFrac s := by
  unfold netFrac; rw [same_tim h]

/-- Settles O12: the operands pass their checks; what is answered is read as the command found it. -/
theorem timeCommandsComplete : Obligations.TimeCommandsComplete := by
  unfold Obligations.TimeCommandsComplete
  refine ⟨?_, ?_, ?_, ?_, ?_, ?_, ?_, ?_⟩
  · intro f s h hl
    have hsame := ready_begun h
    have hstat : rd (begun ciTimeGet f s) timStat = rd s (timBase + 4) := hsame.2 _ (by decide)
    refine completes_of h rfl ?_ (ok_status ..)
    rw [bodyTimeGet, lenIs_pass hl, hstat, netNanos, netSec, netNanos, netSec, same_netNs hsame, same_netFrac hsame]
  · intro f s h hl h0 h2
    have hz : pf f 2 16 16 = 0 := pf_high f 2 16 16 h2
    refine completes_of h rfl ?_ (ok_status ..)
    simp only [bodyTimeSet, lenIs_pass, inRange_pass, hl, h0, hz, decide_true]
    rfl
  · intro f s h hl
    exact completes_of h rfl (lenIs_pass hl) (ok_status ..)
  · intro f s h hl h0
    exact completes_of h rfl (by simp only [bodyTimeSlew, lenIs_pass, inRange_pass, hl, h0, decide_true]) (ok_status ..)
  · intro f s h hl h0
    have hz : pf f 0 2 30 = 0 := pf_high f 0 2 30 h0
    exact completes_of h rfl (by simp only [bodyTimeSource, lenIs_pass, inRange_pass, hl, hz, decide_true]) (ok_status ..)
  · intro f s h hl h0 h1 h2
    have hz : pf f 2 1 31 = 0 := pf_high f 2 1 31 h2
    exact completes_of h rfl (by simp only [bodyTimePpsCfg, lenIs_pass, inRange_pass, hl, h0, h1, hz, decide_true])
      (ok_status ..)
  · intro f s h hl hp hused
    have hused' := (same_portUnused (ready_begun h) _).trans hused
    exact completes_of h rfl (by simp [bodyTimePortAdj, hl, hp, hused', timPortAdj]) (ok_status ..)
  · intro f s h hl h2 h19 hver h1
    have hz : pf f 0 19 13 = 0 := pf_high f 0 19 13 h19
    have hopt : (decide (0x0300 ≤ (sessOf s f).agreed) || !bit (pw f 0) 18) = true := by
      simpa only [Bool.or_eq_true, decide_eq_true_eq, Bool.not_eq_true'] using hver
    refine completes_of h rfl ?_ (ok_status ..)
    simp only [bodyPtpInstanceSet, lenIs_pass, inRange_pass, refuse_pass, hl, h2, hz, hopt, h1, bne_self_eq_false,
      decide_true, Bool.and_self]

/-! ### A port's gate list -/

@[simp] theorem rd_setGat (p : Nat) (x : GatePort) (s : State) (a : Nat) : rd (setGat p x s) a = rd s a :=
  rd_congr _ _ _ rfl rfl

theorem gatChange_ne_gatStat (p i : Nat) : gatStat p ≠ gatChange p i := by unfold gatStat gatChange gatReg; omega

theorem rdF_gatStat_showChange (p lo n : Nat) (tc : Option Nat) (s : State) :
    rdF (showChange p tc s) (gatStat p) lo n = rdF s (gatStat p) lo n := by
  unfold rdF showChange
  rw [rd_wr_other _ _ _ _ (gatChange_ne_gatStat p 2), rd_wr_other _ _ _ _ (gatChange_ne_gatStat p 1),
    rd_wr_other _ _ _ _ (gatChange_ne_gatStat p 0)]

theorem rdF_gatStat_fixChange (p lo n : Nat) (s : State) :
    rdF (fixChange p s) (gatStat p) lo n = rdF s (gatStat p) lo n := by
  rw [fixChange, rdF_gatStat_showChange, rdF, rdF, rd_setGat]

theorem rdF_gatResult (p res reason : Nat) (s : State) (hres : res < 4) :
    rdF (gatResult p res reason s) (gatStat p) 0 2 = res := by
  have hfield := fld_setFld_same (rd s (gatStat p)) 0 5 (res + 4 * reason) (by decide)
  rw [gatResult, rdF, wrF, rd_wr_same]
  unfold fld at hfield ⊢
  omega

/-- A gate list's commit that no check refuses says so in its status. -/
theorem gatListCommit_taken {p : Nat} {s : State} (hpar : stagedBad (gatGroup p) s = false)
    (hok : gateFaults (stagedBank s p) (rdStg s (gatAdmin p 1)).toNat = []) :
    rdF (gatListCommit p s) (gatStat p) 0 2 = 1 := by
  simp only [gatListCommit, hpar, hok, Bool.false_eq_true, if_false, List.append_nil, List.min?_nil]
  split
  · exact (rdF_gatStat_fixChange ..).trans (rdF_gatResult p 1 0 _ (by decide))
  · exact (rdF_gatStat_showChange ..).trans (rdF_gatResult p 1 0 _ (by decide))

/-- Settles O13: the operands pass their checks; a commit that no check refuses says so in its status. -/
theorem gateCommandsComplete : Obligations.GateCommandsComplete := by
  unfold Obligations.GateCommandsComplete
  refine ⟨?_, ?_, ?_, ?_, ?_⟩
  · rintro f s p n h hn hmax hl rfl hp hex htop hopt
    have hex' := (same_portExists (ready_begun h) _).trans hex
    have hz : pf f 0 8 24 = 0 := pf_high f 0 8 24 hp
    have hport : pf f 0 0 8 = (pw f 0).toNat := pf_whole f 0 8 hp
    refine completes_of h rfl ?_ (ok_status ..)
    simp only [bodyGateListSet, lenIs_pass, inRange_pass, hn, hl, hmax, hz, hport, hex', htop, hopt, decide_true,
      Bool.or_true, Bool.and_self, Bool.not_false, if_true]
  · rintro f s p n stg act res h hn hmax hl rfl hp hex htop hopt rfl rfl rfl
    have hex' := (same_portExists (ready_begun h) _).trans hex
    have hz : pf f 0 8 24 = 0 := pf_high f 0 8 24 hp
    have hport : pf f 0 0 8 = (pw f 0).toNat := pf_whole f 0 8 hp
    have hanswers := answers_of (c := .gateListSet f) (res := fun b : State =>
        let t := gatListCommit (pw f 0).toNat (gateSetStage (pw f 0).toNat f (setGateStg (pw f 0).toNat
          (stageEntries (pw f 1).toNat ((List.range n).map (fun i => (pw f (9 + 2 * i), pw f (10 + 2 * i))))
            (gateStgOf b (pw f 0).toNat)) b))
        if rdF t (gatStat (pw f 0).toNat) 0 2 = 2 then err eRange (0x80 + rdF t (gatStat (pw f 0).toNat) 2 3) b
        else ok [wd (rdF t (gatStat (pw f 0).toNat) 0 5), rd t (gatChange (pw f 0).toNat 0),
          rd t (gatChange (pw f 0).toNat 1), rd t (gatChange (pw f 0).toNat 2)] t) h rfl
      (by
        simp only [bodyGateListSet, lenIs_pass, inRange_pass, hn, hl, hmax, hz, hport, hex', htop, hopt, decide_true,
          Bool.or_true, Bool.and_self, Bool.not_true, Bool.false_eq_true, if_false]
        rfl)
      (by
        dsimp only
        split
        · exact keeps_range _ _
        · exact keeps_ok _ _ _)
    refine ⟨hanswers, ?_⟩
    rintro u rfl hpar hok
    have hne : ¬ (1 = 2) := by decide
    refine ⟨?_, hanswers⟩
    simp only [gatListCommit_taken hpar hok, if_neg hne]
    exact ok_status ..
  · rintro f s p bank h hl rfl hp hex hsel htop hn rfl
    have hsame := ready_begun h
    have hex' := (same_portExists hsame _).trans hex
    have hge : ∀ off, carrierReg (gatReg (pw f 0).toNat off) = false := fun off =>
      carrierReg_of_ge (by unfold gatReg gatBase dieBase; omega)
    have hadmin : adminBank (begun ciGateListRead f s) (pw f 0).toNat = adminBank s (pw f 0).toNat := by
      unfold adminBank
      simp only [hsame.2 (gatAdmin _ _) (hge _), same_gatOf hsame]
    have hzero : (pw f 1 = 0) ↔ ((pw f 1).toNat = 0) := ⟨fun e => by rw [e]; rfl, fun e => BitVec.eq_of_toNat_eq e⟩
    refine completes_of h rfl ?_ (ok_status ..)
    simp only [bodyGateListRead, lenIs_pass, inRange_pass, hl, hp, hex', hsel, htop, hn, hadmin, hzero,
      same_gatOf hsame, hsame.2 (gatStat _) (hge _), hsame.2 (gatChange _ _) (hge _), decide_true, Bool.and_self]
      <;> rfl
  · rintro f s p h hl rfl hp hex h1 h2
    have hex' := (same_portExists (ready_begun h) _).trans hex
    have hz1 : pf f 1 19 13 = 0 := pf_high f 1 19 13 h1
    have hz2 : pf f 2 16 16 = 0 := pf_high f 2 16 16 h2
    exact completes_of h rfl (by simp [bodyGatePortCfg, hl, hp, hex', hz1, hz2]) (ok_status ..)
  · rintro f s p h hl rfl hp hex
    have hex' := (same_portExists (ready_begun h) _).trans hex
    exact completes_of h rfl (by simp [bodyGateListDiscard, hl, hp, hex']) (ok_status ..)

end Sys2Proof.Machine
end

section
/-! The commands on the FRE blocks and on microcode (R106 to R111, R319 to R333). -/

namespace Sys2Proof.Machine
open Sys2Proof

theorem carrierReg_fre (d off : Nat) : carrierReg (freBase d + off) = false :=
  carrierReg_of_ge (by unfold freBase dieBase; omega)

theorem same_allPorts {s t : State} (h : Same s t) : allPorts t = allPorts s := by
  unfold allPorts; rw [same_ports h]
theorem same_domainElsewhere {s t : State} (h : Same s t) (p dom : Nat) :
    domainElsewhere t p dom = domainElsewhere s p dom := by
  have hreg : ∀ q, carrierReg (frePortCfg q) = false := fun q => by
    unfold frePortCfg; rw [Nat.add_assoc]; exact carrierReg_fre _ _
  unfold domainElsewhere portDupEn portDomain
  simp only [same_allPorts h, same_rdBit h _ _ (hreg _), same_rdF h _ _ _ (hreg _)]

/-- Settles O14: the operands pass their checks, and each die named has its record changed. -/
theorem redundancyCommandsComplete : Obligations.RedundancyCommandsComplete := by
  unfold Obligations.RedundancyCommandsComplete
  refine ⟨?_, ?_, ?_, ?_, ?_, ?_, ?_, ?_⟩
  · rintro f s p h hl rfl hp hex h12 h29 hdom
    have hsame := ready_begun h
    have hex' := (same_portExists hsame _).trans hex
    have hdom' : (bit (pw f 1) 10 && domainElsewhere (begun ciFrePortCfg f s) (pw f 0).toNat (fld (pw f 1) 6 4)) =
        false := by
      rw [same_domainElsewhere hsame]
      cases hen : bit (pw f 1) 10
      · rfl
      · exact hdom hen
    exact completes_of h rfl (by simp [bodyFrePortCfg, hl, hp, hex', h12, h29, hdom']) (ok_status ..)
  · intro f s n h hl hn htop hok hscope
    have hdiv : f.length / 4 - 1 = n := by omega
    have hnone : (List.range n).find? (fun i => fld (pw f (1 + i)) 15 1 != 0 || fld (pw f (1 + i)) 29 3 != 0) =
        none := by
      rw [List.find?_eq_none]
      intro i hi
      obtain ⟨h15, h29⟩ := hok i (List.mem_range.mp hi)
      simp [h15, h29]
    refine completes_of h rfl ?_ (eachDie_status _ _ hscope)
    simp only [bodyFreHandleMap, lenOk_pass, inRange_pass, show 8 ≤ f.length by omega, hdiv, htop, hnone, decide_true]
  · intro f s d h hl hz hd hscope
    exact completes_of h rfl (by simp [bodyFreGenSet, hl, hz, scopeOne_die f d hd hscope])
      (eachDie_status _ _ (scope_ne_zero hscope))
  · intro f s d h hl hn hok hd hscope
    refine completes_of h rfl ?_ (eachDie_status _ _ (scope_ne_zero hscope))
    simp only [bodyFreRcvSet, lenIs_pass, inRange_pass, hl, hn, scopeOne_die f d hd hscope, hok, decide_true,
      List.min?_nil]
    rfl
  · rintro f s d n h hl rfl hn hd hscope
    exact completes_of h rfl (by simp [bodyFreRcvRead, hl, hn, scopeOne_die f d hd hscope]) (ok_status ..)
  · rintro f s d n h hl rfl hn hd hscope
    exact completes_of h rfl (by simp [bodyFreRcvReset, hl, hn, scopeOne_die f d hd hscope])
      (eachDie_status _ _ (scope_ne_zero hscope))
  · intro f s h hl h0 hmac hscope
    have hz : pf f 0 16 16 = 0 := pf_high f 0 16 16 h0
    have hnone : (List.range 4).find? (fun i => pf f (3 + 2 * i) 16 15 != 0) = none := by
      rw [List.find?_eq_none]
      intro i hi
      simp [hmac i (List.mem_range.mp hi)]
    refine completes_of h rfl ?_ (eachDie_status _ _ hscope)
    simp only [bodyFreDupCfg, lenIs_pass, inRange_pass, hl, hz, hnone, decide_true]
  · intro f s h hl hscope
    exact completes_of h rfl (by rw [bodyFreDupStatus, lenIs_pass hl, readUnits_pass _ _ hscope]) (ok_status ..)

/-! ### Microcode -/

theorem carrierReg_engReg (e pip off : Nat) : carrierReg (engReg e pip off) = false :=
  carrierReg_of_ge (by unfold engReg pipBase dieBase; split <;> omega)

theorem same_enginesBusy {s t : State} (h : Same s t) (e : Nat) : enginesBusy t e = enginesBusy s e := by
  unfold enginesBusy engBank
  simp only [same_rdBit h _ _ (carrierReg_engReg _ _ _)]

theorem imageFrom_regs (f : Frame) (host : Bool) (n addr : Nat) (s : State) :
    (imageFrom f host n addr s).2.regs = s.regs ∧ (imageFrom f host n addr s).2.bus = s.bus := by
  unfold imageFrom; split <;> exact ⟨rfl, rfl⟩

section
variable {ci : CmdInfo} {f : Frame} {s : State} {e : Nat}

/-- What UCODE_PATCH_LOAD does with an image that its operands name. -/
def patchLoad (f : Frame) (e : Nat) (b : List Byte) (t s : State) : CmdRes :=
  if !imageGood t e b then err eAuth 0 (raise srcPatchAuth 0 0 0 t)
  else refuse (enginesBusy s e) eBusy s <|
    match patchGap t e (imgN b) with
    | some base =>
      let u := loadSet e ⟨b, base⟩ t
      if nbit f.opts 0 then loaded b base (3 + e) (switchSet e u) else loaded b base (7 + e) u
    | none =>
      if !nbit f.opts 1 then err eNoRoom 0 s
      else
        let q : GapLoad := ⟨e, mbKey f, b⟩
        let u := revertSet e t
        gapLoad e q { u with ucode := { u.ucode with gaps := u.ucode.gaps ++ [q] } }

theorem bodyUcodePatchLoad_eq {v : Nat} {t : State} {b : List Byte} (hl : f.length = 16) (he : e < 2)
    (hkind : pf f 0 1 2 = e + 1) (h0 : (pw f 0).toNat < 8) (hmb : bit (pw f 0) 0 = true → f.mb ≤ 1)
    (h1 : (pw f 1).toNat ≤ 65536)
    (himg : imageFrom f (bit (pw f 0) 0) (pw f 1).toNat (w64 (pw f 2) (pw f 3)) s = (b, t))
    (hgap : s.ucode.gaps.find? (fun q => q.e == e && q.mb == mbKey f) = none) :
    bodyUcodePatchLoad v f s = patchLoad f e b t s := by
  have hz : pf f 0 3 29 = 0 := pf_high f 0 3 29 h0
  have hcheck : ((pf f 0 1 2 == 1 || pf f 0 1 2 == 2) && decide (pf f 0 3 29 = 0) &&
      !(bit (pw f 0) 0 && decide (1 < f.mb))) = true := by
    have hsel : e + 1 = 1 ∨ e + 1 = 2 := by omega
    cases hhost : bit (pw f 0) 0
    · simpa [hkind, hz] using (by omega : e = 0 ∨ e = 1)
    · simpa [hkind, hz, hmb hhost] using (by omega : e = 0 ∨ e = 1)
  have hsub : pf f 0 1 2 - 1 = e := by omega
  simp only [bodyUcodePatchLoad, lenIs_pass, inRange_pass, hl, hcheck, h1, decide_true, hsub, hgap, himg]
  rfl

theorem withEngine_pass {k : Nat → CmdRes} (hl : f.length = 4) (he : e < 2) (h0 : (pw f 0).toNat = e + 1) :
    withEngine f s k = k e := by
  have hsel : ((e + 1 == 1) || (e + 1 == 2)) = true := by
    simpa using (by omega : e = 0 ∨ e = 1)
  simp only [withEngine, lenIs_pass, inRange_pass, hl, h0, hsel, Nat.add_sub_cancel]

/-- The profile commands write a port's profile of one engine. -/
theorem portProfile_pass {p : Nat} (hl : f.length = 8) (h0 : (pw f 0).toNat = p) (hp : p < 256)
    (hex : portExists s p = true) (hok : profOk e (pw f 1).toNat = true) :
    portProfile e f s = ok [] (portCfgWrite p (engPortProf e p) 0xFF (pw f 1) s) := by
  simp only [portProfile, lenIs_pass, inRange_pass, hl, h0, hp, hex, hok, decide_true, Bool.and_self]

end

/-- Settles O15: the operands pass their checks; a load goes as `patchLoad` says. -/
theorem microcodeCommandsComplete : Obligations.MicrocodeCommandsComplete := by
  unfold Obligations.MicrocodeCommandsComplete
  refine ⟨?_, ?_, ?_, ?_, ?_, ?_, ?_⟩
  · intro f s e b t base h hl he hkind h0 hmb h1 himg hgap hbusy hbase
    have hsame := ready_begun h
    have hbusy' := (same_enginesBusy hsame e).trans hbusy
    have hgap' : (begun ciUcodePatchLoad f s).ucode.gaps.find? (fun q => q.e == e && q.mb == mbKey f) = none := by
      rw [same_ucode hsame]; exact hgap
    refine answers_of h rfl ((bodyUcodePatchLoad_eq hl he hkind h0 hmb h1 himg hgap').trans ?_) ?_
    · rw [patchLoad, refuse_pass hbusy', hbase]
      cases imageGood t e b <;> rfl
    · split
      · split <;> exact keeps_ok _ _ _
      · exact keeps_auth _ _ _
  · intro f s e b t h hl he hkind h0 hmb h1 himg hgap hbusy hbase hopt hrevert
    have hsame := ready_begun h
    have hbusy' := (same_enginesBusy hsame e).trans hbusy
    have hgap' : (begun ciUcodePatchLoad f s).ucode.gaps.find? (fun q => q.e == e && q.mb == mbKey f) = none := by
      rw [same_ucode hsame]; exact hgap
    refine answers_of h rfl ((bodyUcodePatchLoad_eq hl he hkind h0 hmb h1 himg hgap').trans ?_) ?_
    · have hidle : ∀ u, enginesBusy { revertSet e t with ucode := u } e = false := fun _ => hrevert
      rw [patchLoad, refuse_pass hbusy', hbase, hopt]
      simp only [gapLoad, hidle, Bool.not_true, Bool.false_eq_true, if_false]
      cases imageGood t e b <;> rfl
    · dsimp only
      split
      · exact keeps_ok _ _ _
      · exact keeps_auth _ _ _
  · intro f s e h hl he h0 hbusy
    have hbusy' := (same_enginesBusy (ready_begun h) e).trans hbusy
    exact completes_of h rfl (by rw [bodyUcodePatchSwitch, withEngine_pass hl he h0, refuse_pass hbusy']) (ok_status ..)
  · intro f s e h hl he h0 hbusy
    have hbusy' := (same_enginesBusy (ready_begun h) e).trans hbusy
    exact completes_of h rfl (by rw [bodyUcodePatchRevert, withEngine_pass hl he h0, refuse_pass hbusy']) (ok_status ..)
  · intro f s e h hl he h0
    exact completes_of h rfl (withEngine_pass hl he h0) (ok_status ..)
  · intro f s p h hl h0 hp hex hok
    exact completes_of h rfl (portProfile_pass hl h0 hp ((same_portExists (ready_begun h) _).trans hex) hok)
      (ok_status ..)
  · intro f s p h hl h0 hp hex hok
    exact completes_of h rfl (portProfile_pass hl h0 hp ((same_portExists (ready_begun h) _).trans hex) hok)
      (ok_status ..)

end Sys2Proof.Machine
end

section
/-! The commands on field inputs, publications and field outputs (R335 to R357). -/

namespace Sys2Proof.Machine
open Sys2Proof

theorem same_pubOf {s t : State} (h : Same s t) (j : Nat) : pubOf t j = pubOf s j := by
  unfold pubOf; rw [same_fio h]
theorem same_ringPortsOk {s t : State} (h : Same s t) (x : PubSt) : ringPortsOk t x = ringPortsOk s x := by
  unfold ringPortsOk; simp only [same_portExists h]

/-- Settles O16: the operands pass their checks. -/
theorem fieldInputCommandsComplete : Obligations.FieldInputCommandsComplete := by
  unfold Obligations.FieldInputCommandsComplete
  refine ⟨?_, ?_, ?_, ?_, ?_, ?_⟩
  · intro f s h hl h0 h1
    have hz : pf f 1 24 8 = 0 := pf_high f 1 24 8 h1
    exact completes_of h rfl (by simp only [bodyFiCfg, lenIs_pass, inRange_pass, hl, h0, hz, decide_true]) (ok_status ..)
  · intro f s h hl h0 h1
    exact completes_of h rfl (by simp only [bodyFiRead, lenIs_pass, inRange_pass, hl, h0, h1, decide_true])
      (ok_status ..)
  · rintro f s j x h hl rfl hj rfl hfmt h2 h12 h28 hports h6
    have hsame := ready_begun h
    have hz : pf f 6 16 16 = 0 := pf_high f 6 16 16 h6
    rw [← same_pubOf hsame] at hfmt hports ⊢
    refine completes_of h rfl ?_ (ok_status ..)
    simp only [bodyFioPubSet, lenIs_pass, inRange_pass, hl, hj, decide_eq_true hfmt, h2, h12, h28,
      (same_ringPortsOk hsame _).trans hports, hz, decide_true, Bool.and_self]
  · rintro f s n k h rfl rfl hl h3 hn h25 hst hsq ht hk hpos
    have hnone : ((List.range (pf f 2 16 6)).map (fun i => (pf f (3 + i) 0 9, pf f (3 + i) 16 6, pf f (3 + i) 24 1))).findIdx?
        (fun p => decide (48 ≤ p.2.1) || decide (pf f 0 16 9 < p.1 + (if p.2.2 = 0 then 1 else 8))) = none := by
      rw [List.findIdx?_eq_none_iff]
      intro p hp
      obtain ⟨i, hi, rfl⟩ := List.mem_map.mp hp
      obtain ⟨hmem, hoff⟩ := hpos i (List.mem_range.mp hi)
      rw [decide_eq_false (Nat.not_le.mpr hmem), decide_eq_false (Nat.not_lt.mpr hoff)]
      rfl
    refine completes_of h rfl ?_ (ok_status ..)
    simp only [bodyFioGooseTemplate, lenOk_pass, lenIs_pass, inRange_pass, show 12 ≤ f.length by omega, ← hl, h3, hn, h25,
      hst, hsq, ht, hk, hnone, decide_true, Bool.and_self]
  · intro f s h hl h2
    exact completes_of h rfl (by simp only [bodyFioEventRingCfg, lenIs_pass, inRange_pass, hl, h2, decide_true])
      (ok_status ..)
  · intro f s h hl h16
    exact completes_of h rfl (by simp only [bodyFioUtcOffset, lenIs_pass, inRange_pass, hl, h16, decide_true])
      (ok_status ..)

/-- Settles O17: the operands pass their checks. -/
theorem fieldOutputCommandsComplete : Obligations.FieldOutputCommandsComplete := by
  unfold Obligations.FieldOutputCommandsComplete
  refine ⟨?_, ?_, ?_, ?_, ?_⟩
  · rintro f s j h hl rfl hj h1 hop
    have hz : pf f 1 29 3 = 0 := pf_high f 1 29 3 h1
    refine completes_of h rfl ?_ (ok_status ..)
    simp only [bodyFoCfg, lenIs_pass, inRange_pass, hl, hj, hz, decide_eq_true hop, decide_true, Bool.and_self]
  · intro f s h hl
    exact completes_of h rfl (lenIs_pass hl) (ok_status ..)
  · rintro f s start h hl h6 h12 h14 h0 h1 h3 rfl hsoon
    have hsame := ready_begun h
    have hz : pf f 0 17 15 = 0 := pf_high f 0 17 15 h0
    have hz3 : pf f 3 16 16 = 0 := pf_high f 3 16 16 h3
    have hlate : (!(bit (pw f 0) 16 && (pw f 4).toNat == 0 &&
        decide (w64 (pw f 2) (pw f 3) * 10 ^ 9 + (pw f 1).toNat < netNs s + 1000))) = true := by
      by_cases hone : bit (pw f 0) 16 = true ∧ (pw f 4).toNat = 0
      · have hle : ¬ w64 (pw f 2) (pw f 3) * 10 ^ 9 + (pw f 1).toNat < netNs s + 1000 :=
          Nat.not_lt.mpr (hsoon hone)
        rw [decide_eq_false hle, Bool.and_false, Bool.not_false]
      · have hoff : (bit (pw f 0) 16 && (pw f 4).toNat == 0) = false := by simpa using hone
        rw [hoff, Bool.false_and, Bool.not_false]
    refine completes_of h rfl ?_ (ok_status ..)
    simp only [bodyFoTimeEvent, lenIs_pass, inRange_pass, hl, h6, decide_eq_true h12, h14, hz, h1, hz3,
      same_netNs hsame, hlate, decide_true, Bool.and_self]
    rfl
  · intro f s h hl h0 hhold
    have hz : pf f 0 16 16 = 0 := pf_high f 0 16 16 h0
    have hgo : decide (4 ≤ (begun ciFoRelease f s).fcl.hold) = false := by
      rw [same_fcl (ready_begun h)]; exact decide_eq_false (Nat.not_le.mpr hhold)
    exact completes_of h rfl (by simp only [bodyFoRelease, lenIs_pass, inRange_pass, refuse_pass, hl, hz, hgo, decide_true])
      (ok_status ..)
  · intro f s h hl h0 h1
    exact completes_of h rfl (by simp only [bodyFoRead, lenIs_pass, inRange_pass, hl, h0, h1, decide_true])
      (ok_status ..)

end Sys2Proof.Machine
end

section
/-! The commands on the cascade (R359 to R361, R383). -/

namespace Sys2Proof.Machine
open Sys2Proof

theorem same_casRole {s t : State} (h : Same s t) : casRole t = casRole s := by
  unfold casRole; exact same_rdF h _ _ _ (by decide)
theorem same_isManager {s t : State} (h : Same s t) : isManager t = isManager s := by
  unfold isManager; rw [same_casRole h]
theorem same_isWorker {s t : State} (h : Same s t) : isWorker t = isWorker s := by
  unfold isWorker; rw [same_casRole h]
theorem same_sessWith {s t : State} (h : Same s t) (p : CasSess → Bool) : sessWith t p = sessWith s p := by
  unfold sessWith; rw [same_cas_sess h]
theorem same_sessAt {s t : State} (h : Same s t) (k : Nat) : sessAt t k = sessAt s k := by
  unfold sessAt; rw [same_cas_sess h]
theorem same_casActive {s t : State} (h : Same s t) : casActive t = casActive s := by
  unfold casActive; exact same_rdF h _ _ _ (by decide)

theorem casRole_of_manager {s : State} (h : isManager s = true) : casRole s = 2 := by simpa [isManager] using h
theorem casRole_of_worker {s : State} (h : isWorker s = true) : casRole s = 1 := by simpa [isWorker] using h

/-- A command that names the partner of a session that is up goes on with it. -/
theorem withPartner_pass {f : Frame} {s : State} {i : Nat} {x : CasSess} {k : Nat → CasSess → CmdRes}
    (hrole : casRole s ≠ 0) (hsess : sessWith s (fun y => y.up && y.device == (pw f 0).toNat) = some i)
    (hat : sessAt s i = some x) : withPartner f s k = k i x := by
  simp only [withPartner, refuse_pass, beq_false_of_ne hrole, hsess, hat]

/-- CAS_JOIN_CFG's checks, passed. -/
theorem bodyCasJoinCfg_pass {f : Frame} {s : State} {v : Nat} (hl : 4 ≤ f.length) (h1 : pf f 0 1 7 = 0)
    (h16 : pf f 0 16 16 = 0) (hrole : casRole s ≠ 0)
    (hall : ∀ d ∈ (f.payload.drop 1).map (·.toNat), 1 ≤ d ∧ d < 0xFFFFF) :
    bodyCasJoinCfg v f s = ok [] { s with cas := if isWorker s then { s.cas with join := bit (pw f 0) 0 }
      else { s.cas with prio := pf f 0 8 8, allow := (f.payload.drop 1).map (·.toNat) } } := by
  have hlist : ((f.payload.drop 1).map (·.toNat)).all (fun d => decide (1 ≤ d ∧ d < everyone)) = true := by
    rw [List.all_eq_true]
    exact fun d hd => decide_eq_true (hall d hd)
  simp only [bodyCasJoinCfg, lenOk_pass, inRange_pass, refuse_pass, hl, h1, h16, hlist, beq_false_of_ne hrole,
    decide_true, Bool.and_self]

/-- What CAS_FORWARD leaves: the command is on its way to the worker, whose response is to be passed on. -/
def forwarded (f : Frame) (k : Nat) (x : CasSess) (b : State) : State :=
  let t := sendOn k kCommand (bytesOf (lset (f.payload.drop 1) 2 (wd x.mbSess))) b
  { t with cas := { t.cas with fwd := t.cas.fwd ++ [⟨k, f.mb, f.tag⟩] } }

/-- Settles O18: the operands pass their checks; CAS_FORWARD's answer is left to the worker's response. -/
theorem cascadeCommandsComplete : Obligations.CascadeCommandsComplete := by
  unfold Obligations.CascadeCommandsComplete
  refine ⟨?_, ?_, ?_, ?_, ?_, ?_, ?_, ?_, ?_, ?_, ?_⟩
  · intro f s h hl h0
    exact completes_of h rfl (by simp only [bodyCasRoleSet, lenIs_pass, inRange_pass, hl, h0, decide_true])
      (ok_status ..)
  · intro f s h hl h0 hnone
    have hidle : (sessWith (begun ciCasDeviceId f s) (·.up)).isSome = false := by
      rw [same_sessWith (ready_begun h), hnone]; rfl
    exact completes_of h rfl (by simp only [bodyCasDeviceId, lenIs_pass, inRange_pass, refuse_pass, hl, h0, hidle,
      decide_true]) (ok_status ..)
  · intro f s h hl hp hex h1 hver
    have hz : pf f 1 3 29 = 0 := pf_high f 1 3 29 h1
    have hex' := (same_portExists (ready_begun h) _).trans hex
    obtain ⟨hmin, hmax⟩ : 1 ≤ pf f 1 1 2 ∧ pf f 1 1 2 ≤ 2 := by
      rcases List.mem_pair.mp hver with hv | hv <;> rw [hv] <;> decide
    exact completes_of h rfl (by simp only [bodyCasPortCfg, lenIs_pass, inRange_pass, hl, hp, hex', hz, hmin, hmax,
      decide_true, Bool.and_self]) (ok_status ..)
  · intro f s h hl
    exact completes_of h rfl (lenIs_pass hl) (ok_status ..)
  · intro f s h hl h0 h10 h3
    exact completes_of h rfl (by simp only [bodyCasRelayCfg, lenIs_pass, inRange_pass, hl, h0, h10, decide_eq_true h3,
      decide_true, Bool.and_self]) (ok_status ..)
  · intro f s h hl h1 h16 hworker hall
    have hworker' := (same_isWorker (ready_begun h)).trans hworker
    have hrole : casRole (begun ciCasJoinCfg f s) ≠ 0 := by rw [casRole_of_worker hworker']; decide
    exact completes_of h rfl ((bodyCasJoinCfg_pass hl h1 h16 hrole hall).trans (by rw [hworker']; rfl)) (ok_status ..)
  · intro f s h hl h1 h16 hmanager hall
    have hmanager' := (same_isManager (ready_begun h)).trans hmanager
    have hrole : casRole (begun ciCasJoinCfg f s) = 2 := casRole_of_manager hmanager'
    have hworker : isWorker (begun ciCasJoinCfg f s) = false := by unfold isWorker; rw [hrole]; rfl
    exact completes_of h rfl ((bodyCasJoinCfg_pass hl h1 h16 (by rw [hrole]; decide) hall).trans (by rw [hworker]; rfl))
      (ok_status ..)
  · intro f s k x h hl hrole hsess hat
    have hsame := ready_begun h
    rw [← same_casRole hsame] at hrole
    rw [← same_sessWith hsame] at hsess
    rw [← same_sessAt hsame] at hat
    exact completes_of h rfl ((lenIs_pass hl).trans (withPartner_pass hrole hsess hat)) (ok_status ..)
  · intro f s k x h hl hrole hsess hat
    have hsame := ready_begun h
    rw [← same_casRole hsame] at hrole
    rw [← same_sessWith hsame] at hsess
    rw [← same_sessAt hsame] at hat
    refine completes_of h rfl ((lenIs_pass hl).trans ((withPartner_pass hrole hsess hat).trans ?_)) (ok_status ..)
    simp only [same_isManager hsame, same_isWorker hsame, same_casActive hsame, same_mbx_sess hsame]
  · rintro f s k x ws h hl rfl hlen hmanager hsess hat
    have hsame := ready_begun h
    have hmanager' := (same_isManager hsame).trans hmanager
    have hrole : casRole (begun ciCasForward f s) ≠ 0 := by rw [casRole_of_manager hmanager']; decide
    rw [← same_sessWith hsame] at hsess
    rw [← same_sessAt hsame] at hat
    refine ⟨_, rfl, commandRow_later (body := bodyCasForward)
      (r := ⟨stLater, 0, [], forwarded f k x (begun ciCasForward f s)⟩) h ?_ rfl⟩
    simp only [bodyCasForward, lenOk_pass, refuse_pass, hl, hlen, hmanager', withPartner_pass hrole hsess hat,
      decide_true, Bool.and_self, Bool.not_true]
    rfl
  · intro f s h hl hmanager
    have hsame := ready_begun h
    have hmanager' := (same_isManager hsame).trans hmanager
    refine completes_of h rfl ?_ (ok_status ..)
    simp only [bodyCasWorkerList, lenIs_pass, refuse_pass, hl, hmanager', Bool.not_true, same_cas_sess hsame,
      same_cas_lost hsame, same_cas_refused hsame]
      <;> rfl

end Sys2Proof.Machine
end

section
/-! The commands on faults, units, counters, dumps and samples (R479 to R519, R557). -/

namespace Sys2Proof.Machine
open Sys2Proof

/-- Between the mailbox pages and the cells no register carries commands. -/
theorem carrierReg_between {a : Nat} (h : 0x10240 ≤ a) (h' : a < 0x60000) : carrierReg a = false := by
  have hpage : decide (a < mbxBase + 0x240) = false := decide_eq_false (by unfold mbxBase; omega)
  have hcell : doorbellCells.any (fun c => a == cellXfer c) = false := by
    rw [List.any_eq_false]
    intro c _
    have hne : a ≠ cellXfer c := by unfold cellXfer colBase; omega
    simpa using hne
  unfold carrierReg
  rw [hpage, hcell, Bool.and_false, Bool.or_false]

theorem carrierReg_fcl {off : Nat} (h : off < 0x10000) : carrierReg (fclBase + off) = false :=
  carrierReg_between (by unfold fclBase; omega) (by unfold fclBase; omega)

/-- Registers of one array, read as the command found them. -/
theorem same_rd_array {s t : State} (h : Same s t) {a n : Nat} (ha : ∀ w < n, carrierReg (a + 4 * w) = false) :
    (List.range n).map (fun w => rd t (a + 4 * w)) = (List.range n).map (fun w => rd s (a + 4 * w)) :=
  List.map_congr_left fun w hw => h.2 _ (ha w (List.mem_range.mp hw))

theorem same_fcl_array {s t : State} (h : Same s t) {off n : Nat} (hoff : off + 4 * n ≤ 0x10000) :
    (List.range n).map (fun w => rd t (fclBase + off + 4 * w)) =
      (List.range n).map (fun w => rd s (fclBase + off + 4 * w)) :=
  same_rd_array h fun w hw => by rw [Nat.add_assoc]; exact carrierReg_fcl (by omega)

theorem same_fclLocked {s t : State} (h : Same s t) : fclLocked t = fclLocked s :=
  same_rdBit h _ _ (carrierReg_fcl (by decide))

/-- Settles O19: the operands pass their checks, and the configuration is not locked. -/
theorem faultCommandsComplete : Obligations.FaultCommandsComplete := by
  unfold Obligations.FaultCommandsComplete
  refine ⟨?_, ?_, ?_, ?_, ?_, ?_, ?_⟩
  · intro f s h hl
    have hsame := ready_begun h
    refine completes_of h rfl ?_ (ok_status ..)
    rw [bodyFaultStatus, lenIs_pass hl, same_fcl_array hsame (by decide), same_fcl_array hsame (by decide),
      same_fcl_array hsame (by decide), same_fcl_array hsame (by decide), same_fcl_array hsame (by decide)]
  · intro f s h hl
    exact completes_of h rfl (by simp only [bodyFaultLog, lenIs_pass, hl, same_fcl (ready_begun h)]) (ok_status ..)
  · intro f s h hl h3
    have hmask : maskOk (pw f 3) = true := by simpa [maskOk, pf] using pf_high f 3 16 16 h3
    exact completes_of h rfl (by simp only [bodyFaultAck, lenIs_pass, inRange_pass, hl, hmask]) (ok_status ..)
  · rintro f s n h hl rfl hn h1 h1' h5 hlock
    have hz : pf f 1 10 22 = 0 := pf_high f 1 10 22 h1'
    have hmask : maskOk (pw f 5) = true := by simpa [maskOk, pf] using pf_high f 5 16 16 h5
    have hlock' := (same_fclLocked (ready_begun h)).trans hlock
    refine completes_of h rfl ?_ (ok_status ..)
    simp only [bodyFaultSrcCfg, lenIs_pass, inRange_pass, refuse_pass, hl, hn, h1, hz, hmask, hlock', decide_true,
      Bool.and_self]
    rfl
  · intro f s h hl h0 hlock
    have hz : pf f 0 18 14 = 0 := pf_high f 0 18 14 h0
    have hlock' := (same_fclLocked (ready_begun h)).trans hlock
    exact completes_of h rfl (by simp only [bodyFaultWindow, lenIs_pass, inRange_pass, refuse_pass, hl, hz, hlock',
      decide_true]) (ok_status ..)
  · intro f s h hl h0 h2 hunit
    have hz : pf f 2 16 16 = 0 := pf_high f 2 16 16 h2
    exact completes_of h rfl (by simp only [bodyFaultInject, lenIs_pass, inRange_pass, hl, h0, hz, hunit, decide_true,
      Bool.and_self]) (ok_status ..)
  · intro f s h hl
    exact completes_of h rfl (lenIs_pass hl) (ok_status ..)

/-! ### Units -/

theorem same_unitOf {s t : State} (h : Same s t) (kind idx : Nat) : unitOf t kind idx = unitOf s kind idx := by
  unfold unitOf; rw [same_fcl h]
theorem same_spareServes {s t : State} (h : Same s t) (n : Nat) : spareServes t n = spareServes s n := by
  unfold spareServes; rw [same_bus h]
theorem same_spareFree {s t : State} (h : Same s t) (d : Nat) : spareFree t d = spareFree s d := by
  unfold spareFree; rw [same_bus h, same_outOfService h]
theorem same_unitWord {s t : State} (h : Same s t) (kind idx : Nat) : unitWord t kind idx = unitWord s kind idx := by
  unfold unitWord; rw [same_unitOf h, same_spareServes h]

/-- A word 0 that names a unit. -/
theorem withUnit_pass {f : Frame} {s : State} {k : Nat → Nat → CmdRes} {kind idx : Nat} (hkind : pf f 0 12 4 = kind)
    (hidx : pf f 0 0 12 = idx) (h0 : (pw f 0).toNat < 2 ^ 16) (hunit : unitNamed kind idx = true) (hne : kind ≠ 0) :
    withUnit f s k = k kind idx := by
  have hz : pf f 0 16 16 = 0 := pf_high f 0 16 16 h0
  simp only [withUnit, inRange_pass, hkind, hidx, hz, hunit, decide_eq_true hne, decide_true, Bool.and_self]

theorem testable_ne_zero {kind : Nat} (h : testable kind = true) : kind ≠ 0 := by
  rintro rfl; exact absurd h (by decide)

/-- Settles O20: the operands name a unit in the state that the command needs. -/
theorem unitCommandsComplete : Obligations.UnitCommandsComplete := by
  unfold Obligations.UnitCommandsComplete
  refine ⟨?_, ?_, ?_, ?_, ?_⟩
  · intro f s kind idx h hl hkind hidx h0 hunit htest hstate hpip hspare
    have hsame := ready_begun h
    have hserves : (kind == 1 && decide (idx < 32) && spareServes (begun ciUnitDrain f s) idx) = false := by
      by_cases hp : kind = 1 ∧ idx < 32
      · rw [same_spareServes hsame, (hpip hp.1 hp.2).1, Bool.and_false]
      · have hoff : (kind == 1 && decide (idx < 32)) = false := by simpa using hp
        rw [hoff, Bool.false_and]
    have hnone : noSpare (begun ciUnitDrain f s) kind idx = false := by
      by_cases hp : kind = 1 ∧ idx < 32
      · rw [noSpare, same_spareFree hsame, (hpip hp.1 hp.2).2, Bool.not_true, Bool.and_false]
      · have hoff : (kind == 1 && decide (idx < 32)) = false := by simpa using hp
        rw [noSpare, hoff, Bool.false_and]
    have hbusy : (kind == 1 && decide (32 ≤ idx) && (begun ciUnitDrain f s).bus.spareOf.getD (idx - 32) 0 != 0) = false := by
      by_cases hp : kind = 1 ∧ 32 ≤ idx
      · rw [same_bus hsame, hspare hp.1 hp.2, bne_self_eq_false, Bool.and_false]
      · have hoff : (kind == 1 && decide (32 ≤ idx)) = false := by simpa using hp
        rw [hoff, Bool.false_and]
    refine completes_of h rfl ?_ (ok_status ..)
    rw [bodyUnitDrain, lenIs_pass hl, withUnit_pass hkind hidx h0 hunit (testable_ne_zero htest)]
    simp only [refuse_pass, htest, same_unitOf hsame, hstate, hserves, hnone, hbusy, Bool.not_true, ne_eq,
      not_true_eq_false, decide_false, Bool.or_self]
  · intro f s kind idx h hl hkind hidx h0 hunit htest hstate h1 hplan hsib
    have hsame := ready_begun h
    have hz : pf f 1 1 31 = 0 := pf_high f 1 1 31 h1
    have hbit : pf f 1 0 1 = 0 ∨ pf f 1 0 1 = 1 := by
      have hlt : pf f 1 0 1 < 2 := fld_lt _ _ _
      omega
    have hplan' : (decide (pf f 1 0 1 = 0) || kind == 2 || kind == 3) = true := by
      rcases hbit with h0' | h1'
      · simp [h0']
      · rcases hplan h1' with rfl | rfl <;> simp
    have hsib' : ((kind == 2 || kind == 3) && decide (pf f 1 0 1 = 0) &&
        outOfService (begun ciUnitTest f s) 2 (siblingOf (if kind = 3 then idx / 80 else idx))) = false := by
      rw [same_outOfService hsame]
      by_cases hg : (kind = 2 ∨ kind = 3) ∧ pf f 1 0 1 = 0
      · rw [hsib hg.2 hg.1, Bool.and_false]
      · have hoff : ((kind == 2 || kind == 3) && decide (pf f 1 0 1 = 0)) = false := by
          rw [Bool.eq_false_iff]
          simpa using hg
        rw [hoff, Bool.false_and]
    refine completes_of h rfl ?_ (ok_status ..)
    rw [bodyUnitTest, lenIs_pass hl, withUnit_pass hkind hidx h0 hunit (testable_ne_zero htest)]
    simp only [inRange_pass, refuse_pass, hz, hplan', htest, same_unitOf hsame, hstate, hsib', decide_true, Bool.and_self,
      Bool.not_true, ne_eq, not_true_eq_false, decide_false]
  · intro f s kind idx h hl hkind hidx h0 hunit htest hstate
    have hsame := ready_begun h
    refine completes_of h rfl ?_ (ok_status ..)
    rw [bodyUnitReturn, lenIs_pass hl, withUnit_pass hkind hidx h0 hunit (testable_ne_zero htest)]
    simp [htest, same_unitOf hsame, hstate]
  · intro f s h hl
    have hword : ∀ kind, unitWord (begun ciUnitStatus f s) kind = unitWord s kind := fun kind =>
      funext (same_unitWord (ready_begun h) kind)
    exact completes_of h rfl (by simp only [bodyUnitStatus, lenIs_pass, hl, hword]) (ok_status ..)
  · intro f s idx h hl h0 hidx hserves hfree
    have hsame := ready_begun h
    have hkind : pf f 0 12 4 = 1 := by unfold pf fld; omega
    have hidx' : pf f 0 0 12 = idx := by unfold pf fld; omega
    have hunit : unitNamed 1 idx = true := decide_eq_true (by omega)
    refine completes_of h rfl ?_ (ok_status ..)
    rw [bodyRehome, lenIs_pass hl, withUnit_pass hkind hidx' (by omega) hunit (by decide)]
    simp [hidx, noSpare, same_spareServes hsame, hserves, same_spareFree hsame, hfree]

/-! ### Counters, dumps and samples -/

theorem same_setSt {s t : State} (h : Same s t) (k : Nat) : setSt t k = setSt s k := by
  unfold setSt; rw [same_dmp h]
theorem same_dumpHeld {s t : State} (h : Same s t) (k : Nat) : dumpHeld t k = dumpHeld s k := by
  unfold dumpHeld; rw [same_dmp h]
theorem carrierReg_slot (n i : Nat) : carrierReg (slotReg n 0 + 4 * i) = false :=
  carrierReg_of_ge (by unfold slotReg pipBase dieBase; split <;> omega)

/-- A ring's configuration passes its checks. -/
theorem ringCfgCmd_pass {b : Nat} {f : Frame} {s : State} (h1 : pf f 1 0 12 = 0) (h3 : pf f 3 2 4 ≤ 10) :
    ringCfgCmd b f s = ok [] (ringCfgWrite b 10 (pw f 3) (wr (b + 4) (pw f 2) (wr b (pw f 1) s))) := by
  simp only [ringCfgCmd, inRange_pass, h1, h3, decide_true]

/-- Settles O21: the operands pass their checks. -/
theorem dumpCommandsComplete : Obligations.DumpCommandsComplete := by
  unfold Obligations.DumpCommandsComplete
  refine ⟨?_, ?_, ?_, ?_, ?_, ?_, ?_, ?_, ?_⟩
  · rintro f s k h hl rfl hk h1 h2 h3
    have hz1 : pf f 1 26 6 = 0 := pf_high f 1 26 6 h1
    have hz2 : pf f 2 19 13 = 0 := pf_high f 2 19 13 h2
    have hz3 : pf f 3 19 13 = 0 := pf_high f 3 19 13 h3
    exact completes_of h rfl (by simp only [bodyDumpSetCfg, lenIs_pass, inRange_pass, hl, hk, hz1, hz2, hz3,
      decide_true]) (ok_status ..)
  · rintro f s a h hl h0 h1 h3 rfl
    exact completes_of h rfl (by simp only [bodyDumpRingCfg, lenIs_pass, inRange_pass, hl, h0, ringCfgCmd_pass h1 h3,
      decide_true]) (ok_status ..)
  · rintro f s a h hl h0 h1 h3 rfl
    exact completes_of h rfl (by simp only [bodySampleRingCfg, lenIs_pass, inRange_pass, hl, h0, ringCfgCmd_pass h1 h3,
      decide_true]) (ok_status ..)
  · intro f s h hl h0 hidle
    have hz : pf f 0 11 21 = 0 := pf_high f 0 11 21 h0
    have hgo : (bitsOf 11 (pw f 0).toNat).any (fun k => (setSt (begun ciDumpNow f s) k).pend != []) = false := by
      rw [List.any_eq_false]
      intro k hk
      rw [same_setSt (ready_begun h), hidle k hk]
      decide
    exact completes_of h rfl (by simp only [bodyDumpNow, lenIs_pass, inRange_pass, refuse_pass, hl, hz, hgo, decide_true])
      (ok_status ..)
  · rintro f s k ws h hl rfl hk rfl h1 h1' h2 h2'
    have hheld := same_dumpHeld (ready_begun h) (pw f 0).toNat
    exact completes_of h rfl (by simp only [bodyDumpRead, lenIs_pass, inRange_pass, hl, hk, hheld, h1, h1', h2, h2',
      decide_true, Bool.and_self]) (ok_status ..)
  · rintro f s k r h hl rfl hk h0 hfind
    have hz : pf f 0 12 20 = 0 := pf_high f 0 12 20 h0
    exact completes_of h rfl (by simp only [bodyCounterRead, lenIs_pass, inRange_pass, hl, hk, hz, hfind, decide_true,
      Bool.and_self]) (ok_status ..)
  · intro f s h hl h0 h1
    have hz : pf f 0 25 7 = 0 := pf_high f 0 25 7 h0
    have hz1 : pf f 1 24 8 = 0 := pf_high f 1 24 8 h1
    exact completes_of h rfl (by simp only [bodyPktSampleCfg, lenIs_pass, inRange_pass, hl, hz, hz1, decide_true])
      (ok_status ..)
  · intro f s h hl h1
    have hz1 : pf f 1 28 4 = 0 := pf_high f 1 28 4 h1
    exact completes_of h rfl (by simp only [bodyOvfSampleCfg, lenIs_pass, inRange_pass, hl, hz1, decide_true])
      (ok_status ..)
  · intro f s h hl
    refine completes_of h rfl ?_ (ok_status ..)
    simp only [bodySlotRead, lenIs_pass, hl, regsFrom, (ready_begun h).2 _ (carrierReg_slot _ _)]

end Sys2Proof.Machine
end

section
/-! The commands on the start, identity and debug (R455 to R478, R520 to R536). -/

namespace Sys2Proof.Machine
open Sys2Proof

theorem same_fwStage {s t : State} (h : Same s t) : fwStage t = fwStage s := same_rdF h _ _ _ (by decide)
theorem same_bootSrc {s t : State} (h : Same s t) : bootSrc t = bootSrc s := same_rdF h _ _ _ (by decide)
theorem same_xferBytes {s t : State} (h : Same s t) (m n : Nat) : xferBytes t m n = xferBytes s m n := by
  unfold xferBytes; rw [same_mbx_xfer h]
theorem same_imageRuns {s t : State} (h : Same s t) (b : List Byte) : imageRuns t b = imageRuns s b := by
  unfold imageRuns; rw [same_sec h]

/-- Settles O22: the operands pass their checks; an image is taken or refused by `imageRuns`. -/
theorem startCommandsComplete : Obligations.StartCommandsComplete := by
  unfold Obligations.StartCommandsComplete
  refine ⟨?_, ?_, ?_, ?_, ?_, ?_, ?_⟩
  · intro f s h hl
    exact completes_of h rfl (lenIs_pass hl) (ok_status ..)
  · intro f s h hl hstage
    have hgo : decide (fwStage (begun ciFwRestart f s) = 0) = false := by
      rw [same_fwStage (ready_begun h)]; exact decide_eq_false hstage
    exact completes_of h rfl (by simp only [bodyFwRestart, lenIs_pass, refuse_pass, hl, hgo]) (ok_status ..)
  · rintro f s img h hl h0 hloader hloop hhold hboot hstep rfl
    have hsame := ready_begun h
    refine answers_of h rfl ?_ ?_
    · simp only [bodyFwBoot, lenIs_pass, inRange_pass, refuse_pass, hl, h0, same_start hsame, same_fcl hsame,
        same_bootSrc hsame, same_xferBytes hsame, same_imageRuns hsame, hloader, hloop, hhold, hboot, hstep, decide_true,
        Bool.not_true, ne_eq, not_true_eq_false, decide_false, Bool.or_self]
      cases imageRuns s (xferBytes s (mbKey f) (pw f 0).toNat) <;> rfl
    · dsimp only
      split
      · exact keeps_ok _ _ _
      · exact keeps_auth _ _ _
  · rintro f s r h hl h0 hmb h1 rfl
    have hz : pf f 0 1 31 = 0 := pf_high f 0 1 31 h0
    have hhost : (!(bit (pw f 0) 0 && decide (1 < f.mb))) = true := by
      cases hbit : bit (pw f 0) 0
      · rfl
      · rw [decide_eq_false (Nat.not_lt.mpr (hmb hbit))]; rfl
    have hlen : (bit (pw f 0) 0 || decide ((pw f 1).toNat ≤ 65536)) = true := by
      cases hbit : bit (pw f 0) 0
      · rw [decide_eq_true (h1 hbit)]; rfl
      · rfl
    refine answers_of h rfl ?_ ?_
    · simp only [bodyFwImageWrite, lenIs_pass, inRange_pass, hl, hz, hhost, hlen, decide_true, Bool.and_self]
      cases imageRuns _ (imageFrom f (bit (pw f 0) 0) (pw f 1).toNat (w64 (pw f 2) (pw f 3))
        (begun ciFwImageWrite f s)).1 <;> rfl
    · split
      · exact keeps_ok _ _ _
      · exact keeps_auth _ _ _
  · intro f s h hl h0
    exact completes_of h rfl (by simp only [bodyFwSlotSelect, lenIs_pass, inRange_pass, hl, h0, decide_true])
      (ok_status ..)
  · intro f s h hl hnot
    have hgo : (begun ciPrimroseHandover f s).start.handedOver = false := by rw [same_start (ready_begun h)]; exact hnot
    exact completes_of h rfl (by simp only [bodyPrimroseHandover, lenIs_pass, refuse_pass, hl, hgo]) (ok_status ..)
  · intro f s h hl
    exact completes_of h rfl (lenIs_pass hl) (ok_status ..)

/-- Settles O23: the operands pass their checks; a record is taken or refused by `checkRecord`. -/
theorem identityCommandsComplete : Obligations.IdentityCommandsComplete := by
  unfold Obligations.IdentityCommandsComplete
  refine ⟨?_, ?_, ?_, ?_, ?_, ?_, ?_, ?_, ?_, ?_, ?_, ?_⟩
  · intro f s h hl h0 h1 h2
    have hbit : bit (pw f 0) 0 = true := by rw [bit_eq, h0]; decide
    have hsec := same_sec (ready_begun h)
    exact completes_of h rfl (by simp only [bodyIdCertRead, lenIs_pass, inRange_pass, hl, h0, hbit, hsec, h1, h2, le_refl,
      decide_true, if_true]) (ok_status ..)
  · intro f s h hl h0 h1 h2
    have hbit : bit (pw f 0) 0 = false := by rw [bit_eq, h0]; decide
    exact completes_of h rfl (by simp only [bodyIdCertRead, lenIs_pass, inRange_pass, hl, h0, hbit, h1, h2, zero_le,
      decide_true, Bool.false_eq_true, if_false]) (ok_status ..)
  · rintro f s n h hl rfl hmin hmax
    have hsec := same_sec (ready_begun h)
    exact completes_of h rfl (by simp only [bodyMeasurementRead, lenIs_pass, inRange_pass, hl, hmin, hmax, hsec,
      and_self, decide_true]) (ok_status ..)
  · rintro f s n h rfl hmin hmax hl hnone
    have hsec := same_sec (ready_begun h)
    have hpos : 4 ≤ f.length := by omega
    refine answers_of h rfl ?_ ?_
    · simp only [bodyOwnerCertSet, lenOk_pass (decide_eq_true hpos), inRange_pass, hmin, hmax, hsec, hnone,
        List.isEmpty_nil, if_true, Nat.add_zero, lenIs_pass hl, and_self, decide_true]
      cases Config.certOk (payloadBytes f 1 (pw f 0).toNat) <;> rfl
    · split
      · exact keeps_ok _ _ _
      · exact keeps_range _ _
  · rintro f s n h rfl hmin hmax hl hsome
    have hsec := same_sec (ready_begun h)
    have hpos : 4 ≤ f.length := by omega
    have howner : s.sec.owner.isEmpty = false := by simpa using hsome
    have hmore : ¬ 200 = 0 := by decide
    refine answers_of h rfl ?_ ?_
    · simp only [bodyOwnerCertSet, lenOk_pass (decide_eq_true hpos), inRange_pass, hmin, hmax, hsec, howner,
        Bool.false_eq_true, if_false, lenIs_pass hl, if_neg hmore, and_self, decide_true]
      cases Config.certOk (payloadBytes f 1 (pw f 0).toNat) <;> rfl
    · dsimp only
      split
      · split
        · exact keeps_ok _ _ _
        · exact keeps_auth _ _ _
      · exact keeps_range _ _
  · intro f s h hl hsome
    have howner : (begun ciOwnerCertClear f s).sec.owner.isEmpty = false := by
      rw [same_sec (ready_begun h)]; simpa using hsome
    refine answers_of h rfl ?_ ?_
    · simp only [bodyOwnerCertClear, lenIs_pass, refuse_pass, hl, howner]
    · dsimp only
      split
      · exact keeps_ok _ _ _
      · exact keeps_auth _ _ _
  · intro f s h hl
    have hsame := ready_begun h
    exact completes_of h rfl (by simp only [bodySvnCommit, lenIs_pass, hl, same_sec hsame, same_start hsame])
      (ok_status ..)
  · intro f s h hl
    exact completes_of h rfl (lenOk_pass (decide_eq_true hl)) (ok_status ..)
  · intro f s h hl
    refine answers_of h rfl (lenIs_pass hl) ?_
    dsimp only
    split
    · exact keeps_ok _ _ _
    · exact keeps_auth _ _ _
  · intro f s h hl
    exact completes_of h rfl (lenIs_pass hl) (ok_status ..)
  · intro f s h hl hnone h0
    have hz : pf f 0 1 31 = 0 := pf_high f 0 1 31 h0
    have hsec := same_sec (ready_begun h)
    exact completes_of h rfl (by simp only [bodyDebugPolicy, lenIs_pass, inRange_pass, hl, hz, hsec, hnone,
      List.isEmpty_nil, if_true, decide_true]) (ok_status ..)
  · intro f s h hl hsome h0 hsigner
    have hz : pf f 0 1 31 = 0 := pf_high f 0 1 31 h0
    have howner : (begun ciDebugPolicy f s).sec.owner.isEmpty = false := by
      rw [same_sec (ready_begun h)]; simpa using hsome
    refine answers_of h rfl ?_ ?_
    · simp only [bodyDebugPolicy, lenIs_pass, inRange_pass, hl, hz, howner, hsigner, Bool.false_eq_true, if_false,
        if_true, decide_true]
      cases (checkRecord 1 [] (payloadBytes f 1 200) (begun ciDebugPolicy f s)).1 <;> rfl
    · dsimp only
      split
      · exact keeps_ok _ _ _
      · exact keeps_auth _ _ _

end Sys2Proof.Machine
end

section
/-! The commands on islands and col cells (R58, R81): COL_STATUS counts its own doorbell. -/

namespace Sys2Proof.Machine
open Sys2Proof

/-- With no cascade session there is none that a response could go out on. -/
theorem sendResponses_of_no_session {s : State} (h : s.cas.sess = []) :
    sendResponses s = { s with cas := { s.cas with resp := [] } } := by
  suffices hfold : ∀ (l : List (Nat × List Word)) (t : State), t.cas.sess = [] →
      l.foldl (fun t q => if (partnerSess t q.1).isSome then sendOn (partnerKey t q.1) kResponse (bytesOf q.2) t else t) t =
        t from hfold _ _ h
  intro l
  induction l with
  | nil => intro t _; rfl
  | cons q l ih =>
    intro t ht
    have hnone : (partnerSess t q.1).isSome = false := by
      unfold partnerSess upSess sessAt
      rw [ht]
      rfl
    rw [List.foldl_cons, hnone, if_neg (by decide)]
    exact ih t ht

/-- Firmware up in Peony, with a session of version 3.2 on MB0. -/
def peonyUp : State :=
  { State.reset with
    regs := [(mbxFwStat, 13)]
    mbx := { State.reset.mbx with sess := [(0, ⟨1, 0x0302, 0⟩)], opened := 1 }
    start := { State.reset.start with step := 10, reached := true } }

/-- COL_STATUS of cell 279, which carries MB0's doorbell, on MB0. -/
def ownDoorbellStatus : Frame := ⟨0, 0, false, 4, 7, 0, 1, 0, [279]⟩

/-- The transfer count that COL_STATUS answers on MB0. -/
def answeredXfer : Out3 → Word
  | .next t => (tget [] t.mbx.resp 0).getD 7 0
  | _ => 0

theorem answeredXfer_ownDoorbell : answeredXfer (exec (.colStatus ownDoorbellStatus) peonyUp) = 1 := by decide +kernel

theorem ready_ownDoorbell : Ready ciColStatus ownDoorbellStatus peonyUp := by unfold Ready; decide +kernel

/-- Refutes O24: COL_STATUS of the cell of its own mailbox's doorbell answers the count with that doorbell's transfer, not
the count from before. -/
theorem not_islandCommandsComplete : ¬ Obligations.IslandCommandsComplete := by
  intro h
  unfold Obligations.IslandCommandsComplete at h
  obtain ⟨_, _, _, _, _, _, hstatus, _⟩ := h
  obtain ⟨_, u, hexec, ⟨_, hresp⟩, hsame⟩ := hstatus ownDoorbellStatus peonyUp 279 0 ready_ownDoorbell rfl rfl (by decide)
    (by decide)
  have hsess : u.cas.sess = [] :=
    (same_cas_sess hsame).trans (same_cas_sess (ready_begun ready_ownDoorbell))
  have hreg : mbRing peonyUp ownDoorbellStatus.mb = false := by decide +kernel
  have hxfer := answeredXfer_ownDoorbell
  rw [hexec, sendResponses_of_no_session hsess] at hxfer
  rw [hreg] at hresp
  obtain ⟨hwords, _⟩ := hresp
  have hzero : (tget [] u.mbx.resp ownDoorbellStatus.mb).getD 7 0 = 0 := by
    rw [hwords]
    decide +kernel
  exact absurd (hxfer.symm.trans hzero) (by decide)

end Sys2Proof.Machine
end

section
/-! Accesses of any register by any master (R420 to R432, R546 to R548). -/

namespace Sys2Proof.Machine
open Sys2Proof

/-! ### The register that an access reaches -/

theorem findReg_mem {l : List RegDesc} {off : Nat} {d : RegDesc} {i j : Nat} (h : findReg l off = some (d, i, j)) :
    d ∈ l := by
  induction l with
  | nil => cases h
  | cons e l ih =>
    rw [findReg] at h
    split at h
    · cases h; exact List.mem_cons_self
    · exact List.mem_cons_of_mem _ (ih h)

/-- An access reaches a row of the table of the block that its address lies in. -/
theorem reaches_row {s : State} {m a : Nat} {t : Target} (h : Reaches s m a t) :
    ∃ off, decodeAddr t.addr = some (t.blk, off) ∧ findReg (blockRegs t.blk) off = some (t.reg, t.i, t.j) := by
  obtain ⟨_, htarget, _, _⟩ := h
  unfold busTarget at htarget
  split at htarget
  · cases htarget
  · split at htarget
    · cases htarget
    · next off hdecode =>
      split at htarget
      · cases htarget
      · split at htarget
        · cases htarget
        · split at htarget
          · cases htarget
          · next hfind =>
            rw [if_pos rfl] at htarget
            cases htarget
            exact ⟨off, hdecode, hfind⟩

theorem reaches_mem {s : State} {m a : Nat} {t : Target} (h : Reaches s m a t) : t.reg ∈ blockRegs t.blk := by
  obtain ⟨_, _, hfind⟩ := reaches_row h
  exact findReg_mem hfind

/-- PF1's BAR holds registers of the mailbox block alone. -/
theorem reaches_pf1_blk {s : State} {a : Nat} {t : Target} (h : Reaches s 2 a t) : t.blk = .mbx := by
  obtain ⟨off, hdecode, _⟩ := reaches_row h
  obtain ⟨x, hpf1, haddr⟩ := reaches_pf1 h
  have hrange : 0x10000 ≤ x ∧ x < 0x20000 := by
    unfold pf1Addr mbxBase at hpf1
    split at hpf1
    · rw [Option.some.injEq] at hpf1; omega
    · split at hpf1
      · rw [Option.some.injEq] at hpf1; omega
      · cases hpf1
  have hpage : x / 0x10000 = 1 := by omega
  rw [haddr, decodeAddr, if_neg (by omega), if_pos (by omega), hpage, Option.some.injEq, Prod.mk.injEq] at hdecode
  exact hdecode.1.symm

theorem mbx_act_ne_staged : ∀ d ∈ regsMbx, d.act ≠ .staged ∧ d.act ≠ .gatStaged ∧ d.rd ≠ .lo64 := by decide +kernel
theorem win_act_ne_staged : ∀ d ∈ regsWin, d.act ≠ .staged := by decide +kernel

/-- A register with some effect that no mailbox register has is reached by its BAR0 address. -/
theorem reaches_regAt_of_not_mbx {s : State} {m a : Nat} {t : Target} (h : Reaches s m a t) (hblk : t.blk ≠ .mbx) :
    t.addr = a ∧ regAt a = some (t.blk, t.reg, t.i, t.j) :=
  reaches_regAt h fun hm => hblk (reaches_pf1_blk (hm ▸ h))

theorem reaches_not_mbx {s : State} {m a : Nat} {t : Target} (h : Reaches s m a t)
    (hd : t.reg.act = .staged ∨ t.reg.act = .gatStaged ∨ t.reg.rd = .lo64) : t.blk ≠ .mbx := by
  intro hblk
  have hmem := reaches_mem h
  rw [hblk] at hmem
  obtain ⟨hne, hne', hrd⟩ := mbx_act_ne_staged _ hmem
  rcases hd with hd | hd | hd
  · exact hne hd
  · exact hne' hd
  · exact hrd hd

theorem reaches_isStaged {s : State} {m a : Nat} {t : Target} (h : Reaches s m a t)
    (hd : t.reg.act = .staged ∨ t.reg.act = .gatStaged) : isStaged a = true := by
  have hblk : t.blk ≠ .mbx := reaches_not_mbx h (hd.elim .inl fun e => .inr (.inl e))
  rw [isStaged, (reaches_regAt_of_not_mbx h hblk).2]
  rcases hd with hd | hd <;> simp [hd]

/-- A window has no staged register. -/
theorem reaches_not_win {s : State} {m a : Nat} {t : Target} (h : Reaches s m a t) (hact : t.reg.act = .staged) (w : Nat) :
    t.blk ≠ .win w := by
  intro hblk
  have hmem := reaches_mem h
  rw [hblk] at hmem
  exact win_act_ne_staged _ hmem hact

/-- A write of a staged register goes to its staged copy. -/
theorem writeEffect_staged {m off : Nat} {t : Target} {v : Word} {bad : Bool} (hact : t.reg.act = .staged)
    (hwin : ∀ w, t.blk ≠ .win w) (s : State) : writeEffect m off t v bad s = stageWrite m off t v s := by
  obtain ⟨addr, blk, reg, i, j⟩ := t
  dsimp only at hact hwin
  unfold writeEffect
  dsimp only
  rw [hact]
  cases blk with
  | win w => exact absurd rfl (hwin w)
  | _ => rfl

theorem accessOk_of {s : State} {m a : Nat} {t : Target} (h : Reaches s m a t) (ha : a % 4 = 0) (htop : a < 2 ^ 32) :
    accessOk m a = true := by
  simp only [accessOk, masterOk, decide_eq_true h.1, decide_eq_true ha, decide_eq_true htop, Bool.and_self]

/-- No register lies beyond the BAR. -/
theorem decodeAddr_lt {a : Nat} {q : Blk × Nat} (h : decodeAddr a = some q) : a < 2 ^ 32 := by
  by_contra hlt
  unfold decodeAddr at h
  rw [if_neg (by omega), if_neg (by omega), if_neg (by omega), if_neg (by omega), if_neg (by omega), if_neg (by omega)] at h
  cases h

/-! ### Accesses that complete, and those that meet a bus error -/

theorem busWrite_takes {s : State} {m a : Nat} {t : Target} (h : Reaches s m a t) (hl : lockDrops s m t = false) (v : Word)
    {b : Blk} {off : Nat} (ho : decodeAddr t.addr = some (b, off)) :
    busWrite m a v s = written m t v (writeEffect m off t v false) s := busWriteWith_takes h hl v false off b ho

theorem busWrite_error {s : State} {m a r : Nat} (h : busTarget s m a true = .error r) (v : Word) :
    busWrite m a v s = answer m ⟨false, []⟩ (busError m a true r s) := by
  simp only [busWrite, busWriteWith, beq_self_eq_true, h]

theorem busRead_error {s : State} {m a r : Nat} (h : busTarget s m a true = .error r) :
    busRead m a s = answer m ⟨false, [0]⟩ (busError m a false r s) := by
  simp only [busRead, h]

theorem readTarget_takes {s : State} {m a : Nat} {t : Target} (h : Reaches s m a t) :
    readTarget m t s = readValue m t (parityRead t s) := by
  obtain ⟨_, _, hhidden, hused⟩ := h
  have hne : ¬ (0 = all32) := by decide
  have hmask : ~~~(wd 0) = BitVec.allOnes 32 := by decide
  simp only [readTarget, hhidden, hused, hne, hmask, Bool.false_eq_true, if_false, if_true, BitVec.and_allOnes]

@[simp] theorem done_answer (m : Nat) (c : Completion) (s : State) : tget none (answer m c s).bus.done m = some c :=
  tget_tset_same none s.bus.done m (some c)

theorem smbResult_answer (c : Completion) (s : State) : smbResult (answer 3 c s) = if c.ok then 0 else 1 := by
  rw [smbResult, done_answer]

/-- The board controller's write, by what its access completed with. -/
theorem smbWrite_eq {s u : State} {a : Nat} {v : Word} {c : Completion} (h : busWrite 3 a v s = answer 3 c u) :
    smbWrite a v s = { answer 3 c u with bus := { (answer 3 c u).bus with smbStatus := if c.ok then 0 else 1 } } := by
  rw [smbWrite, h, smbResult_answer]

theorem smbReadReg_eq {s u : State} {a : Word} {c : Completion} (ha : s.bus.smbAddr = some a)
    (h : busRead 3 a.toNat s = answer 3 c u) :
    smbReadReg s = smbGive ((if c.ok then 0 else 1) :: leBytes4 (c.words.getD 0 0)) (answer 3 c u) := by
  rw [smbReadReg, ha]
  simp only [h, smbResult_answer, done_answer]

/-- The debugger's access, by what it completed with. -/
theorem regacc_write_eq {s u : State} {a : Nat} {v : Word} {c : Completion} (h : busWrite 4 a v s = answer 4 c u) :
    regacc a true v s = { answer 4 c u with bus := { (answer 4 c u).bus with tapStatus := if c.ok then 1 else 3 } } := by
  simp only [regacc, h, if_true, done_answer]

theorem regacc_read_eq {s u : State} {a : Nat} {v : Word} {c : Completion} (h : busRead 4 a s = answer 4 c u) :
    regacc a false v s = { answer 4 c u with bus := { (answer 4 c u).bus with
      tapData := c.words.getD 0 0, tapStatus := if c.ok then 1 else 3 } } := by
  simp only [regacc, h, Bool.false_eq_true, if_false, done_answer]

/-- A command that checks its operands and goes on. -/
theorem needs_true {b : Bool} {s : State} (h : b = true) : needs b s = .next s := by rw [needs, h, if_pos rfl]

/-- A read's value and effect, at a register whose kind of read is known. -/
def regRead (a : Nat) : Option (RdAct × Nat) := (regAt a).map (fun q => (q.2.1.rd, q.2.2.1))

theorem reaches_read {s : State} {m a : Nat} {t : Target} {r : RdAct} {i : Nat} (h : Reaches s m a t)
    (hp : pf1Addr a = none) (hk : regRead a = some (r, i)) : t.addr = a ∧ t.reg.rd = r ∧ t.i = i := by
  obtain ⟨ha, hr⟩ := reaches_regAt h (reaches_not_pf1 h hp)
  rw [regRead, hr] at hk
  simp only [Option.map_some, Option.some.injEq, Prod.mk.injEq] at hk
  exact ⟨ha, hk⟩

theorem reads_of {c : Instr} {s : State} {m a : Nat} {t : Target} {word : State → Word} {act : State → State}
    (h : Reaches s m a t) (hc : exec c s = .next (busRead m a s))
    (hv : ∀ u, readValue m t u = (word u, act u)) : Reads c s m t word act := by
  rw [Reads, hc, busRead_takes h, hv]

theorem islPeak_reads : ∀ i < islCount, regRead (islPeak i) = some (.peak, i) := by decide +kernel

theorem pf1Addr_none {a : Nat} (h : 0x4000 ≤ a) : pf1Addr a = none := by
  rw [pf1Addr, if_neg (by omega), if_neg (by omega)]

section
variable {s : State} {fn addr count : Nat}

/-- A read request of the host that its operands allow. -/
theorem exec_pcieReadRequest (hfn : fn < 2) (hmin : 1 ≤ count) (ha : addr % 4 = 0) (htop : addr + 4 * count ≤ 2 ^ 32) :
    exec (.pcieReadRequest fn addr count) s = .next (readRequest fn addr count s) :=
  needs_true (by simp only [decide_eq_true hfn, decide_eq_true hmin, decide_eq_true ha, decide_eq_true htop,
    Bool.and_self])

theorem readRequest_ok (hmax : count ≤ 32)
    (h : firstError s (fn + 1) ((List.range count).map (fun i => addr + 4 * i)) = none) :
    readRequest fn addr count s =
      answer (fn + 1) ⟨true, (readDwords (fn + 1) ((List.range count).map (fun i => addr + 4 * i)) s).1⟩
        (readDwords (fn + 1) ((List.range count).map (fun i => addr + 4 * i)) s).2 := by
  rw [Nat.add_comm fn 1] at h ⊢
  simp only [readRequest, if_neg (Nat.not_lt.mpr hmax), h]

end

/-- Settles O25: each access goes by the register that it reaches, or by its bus error. -/
theorem registerAccessesComplete : Obligations.RegisterAccessesComplete := by
  unfold Obligations.RegisterAccessesComplete
  refine ⟨?_, ?_, ?_, ?_, ?_, ?_, ?_, ?_, ?_, ?_, ?_, ?_, ?_, ?_, ?_, ?_, ?_, ?_, ?_, ?_, ?_, ?_, ?_, ?_, ?_, ?_⟩
  · intro s m a t v b off h ha htop hl ho
    have hok : (accessOk m a && decide (15 < 16)) = true := by rw [accessOk_of h ha htop]; rfl
    exact (needs_true hok).trans (congrArg _ (busWrite_takes h hl v ho))
  · intro s m a t v b off h ha hact ho
    have hl : lockDrops s m t = false :=
      lockDrops_other (by rw [hact]; decide) (by rw [hact]; decide) (by rw [hact]; decide)
    have haddr := (reaches_regAt_of_not_mbx h (reaches_not_mbx h (.inl hact))).1
    have hok : (accessOk m a && isStaged a) = true := by
      rw [accessOk_of h ha (haddr ▸ decodeAddr_lt ho), reaches_isStaged h (.inl hact)]; rfl
    refine (needs_true hok).trans (congrArg _ ((busWrite_takes h hl v ho).trans ?_))
    rw [written, written, writeEffect_staged hact (reaches_not_win h hact), stageWrite]
  · intro s m a t v b off h ha hact ho
    have hl : lockDrops s m t = false :=
      lockDrops_other (by rw [hact]; decide) (by rw [hact]; decide) (by rw [hact]; decide)
    have haddr := (reaches_regAt_of_not_mbx h (reaches_not_mbx h (.inr (.inl hact)))).1
    have hok : (accessOk m a && isStaged a) = true := by
      rw [accessOk_of h ha (haddr ▸ decodeAddr_lt ho), reaches_isStaged h (.inr hact)]; rfl
    exact (needs_true hok).trans (congrArg _ (busWrite_takes h hl v ho))
  · intro s m a t h ha hrd
    obtain ⟨haddr, hreg⟩ := reaches_regAt_of_not_mbx h (reaches_not_mbx h (.inr (.inr hrd)))
    obtain ⟨off, ho, _⟩ := reaches_row h
    have hok : (accessOk m a && isCounterLo a) = true := by
      rw [accessOk_of h ha (haddr ▸ decodeAddr_lt ho), isCounterLo, hreg]
      exact beq_iff_eq.mpr hrd
    exact reads_of h (needs_true hok) fun u => by simp only [readValue, hrd]; rfl
  · intro s m t h
    obtain ⟨haddr, hrd, _⟩ := reaches_read (r := .timFrac) (i := 0) h (by decide) (by decide +kernel)
    exact reads_of h (needs_true (decide_eq_true h.1)) fun u => by simp only [readValue, hrd, haddr]
  · intro s m i t h hi
    have hp : pf1Addr (islPeak i) = none := pf1Addr_none (by unfold islPeak pwiBase; omega)
    obtain ⟨haddr, hrd, hidx⟩ := reaches_read h hp (islPeak_reads i hi)
    have hok : (masterOk m && decide (i < islCount)) = true := by simp [masterOk, h.1, hi]
    exact reads_of h (needs_true hok) fun u => by simp only [readValue, hrd, haddr, hidx]
  · intro s a t v b off h ha htop hl ho hrails
    refine ⟨_, rfl, (needs_true (by simp [smbAddrOk, ha, htop])).trans ?_⟩
    rw [smbOn, hrails, if_pos rfl, smbWrite_eq (busWrite_takes h hl v ho)]
    rfl
  · intro s a r v h ha htop hrails
    refine ⟨_, rfl, (needs_true (by simp [smbAddrOk, ha, htop])).trans ?_⟩
    rw [smbOn, hrails, if_pos rfl, smbWrite_eq (busWrite_error h v)]
    rfl
  · intro s a ha htop hrails
    refine (needs_true (by simp [smbAddrOk, ha, htop])).trans ?_
    rw [smbOn, hrails, if_pos rfl]
  · intro s a t h hrails haddr
    refine ⟨_, _, rfl, ?_⟩
    show Host.Outcome.next (if smbOn s then smbReadReg s else s) = _
    rw [smbOn, hrails, if_pos rfl, smbReadReg_eq haddr (busRead_takes h)]
    rfl
  · intro s a r h hrails haddr
    show Host.Outcome.next (if smbOn s then smbReadReg s else s) = _
    rw [smbOn, hrails, if_pos rfl, smbReadReg_eq haddr (busRead_error h)]
    rfl
  · intro s hrails hnone
    show Host.Outcome.next (if smbOn s then smbReadReg s else s) = _
    rw [smbOn, hrails, if_pos rfl, smbReadReg, hnone]
  · intro s hrails
    show Host.Outcome.next (if smbOn s then smbGive [s.bus.smbStatus] s else s) = _
    rw [smbOn, hrails, if_pos rfl]
  · intro s hrails
    show Host.Outcome.next (if smbOn s && smbAlert s then smbGive [2 * smbAddress s] s else s) = _
    rw [smbOn, hrails, smbAlert]
    simp only [Bool.true_and, Bool.and_eq_true, decide_eq_true_eq]
    rfl
  · intro s hrails
    show Host.Outcome.next (if smbOn s then raise srcSmbErr 0 0 0 s else s) = _
    rw [smbOn, hrails, if_pos rfl]
  · intro s a v hrails ha htop
    have hoff : smbOn s = false := hrails
    have haddr : smbAddrOk a = true := by simp [smbAddrOk, ha, htop]
    refine ⟨(needs_true haddr).trans ?_, (needs_true haddr).trans ?_, ?_, ?_, ?_, ?_⟩
    · rw [hoff]; rfl
    · rw [hoff]; rfl
    · show Host.Outcome.next (if smbOn s then smbReadReg s else s) = _
      rw [hoff]; rfl
    · show Host.Outcome.next (if smbOn s then smbGive [s.bus.smbStatus] s else s) = _
      rw [hoff]; rfl
    · show Host.Outcome.next (if smbOn s && smbAlert s then smbGive [2 * smbAddress s] s else s) = _
      rw [hoff]; rfl
    · show Host.Outcome.next (if smbOn s then raise srcSmbErr 0 0 0 s else s) = _
      rw [hoff]; rfl
  · intro s a t v b off h ha htop hl ho
    refine ⟨_, rfl, (needs_true (by simp only [decide_eq_true ha, decide_eq_true htop, Bool.and_self])).trans ?_⟩
    rw [regacc_write_eq (busWrite_takes h hl v ho)]
    rfl
  · intro s a t v h ha htop
    refine ⟨_, _, rfl, (needs_true (by simp only [decide_eq_true ha, decide_eq_true htop, Bool.and_self])).trans ?_⟩
    rw [regacc_read_eq (busRead_takes h)]
    rfl
  · intro s a r v h ha htop
    refine ⟨_, rfl, (needs_true (by simp only [decide_eq_true ha, decide_eq_true htop, Bool.and_self])).trans ?_⟩
    rw [regacc_write_eq (busWrite_error h v)]
    rfl
  · intro s fn addr count hfn hmin hmax ha htop h
    rw [exec_pcieReadRequest hfn hmin ha htop, readRequest_ok hmax h]
  · intro s fn addr t hfn ha htop h
    obtain ⟨_, htarget, _, _⟩ := id h
    have hnone : firstError s (fn + 1) ((List.range 1).map (fun i => addr + 4 * i)) = none := by
      show firstError s (fn + 1) [addr] = none
      simp only [firstError, htarget]
    have hread : readDwords (fn + 1) ((List.range 1).map (fun i => addr + 4 * i)) s =
        ([(readValue (fn + 1) t (parityRead t s)).1], (readValue (fn + 1) t (parityRead t s)).2) := by
      show readDwords (fn + 1) [addr] s = _
      simp only [readDwords, htarget, readTarget_takes h]
    refine ⟨(readValue (fn + 1) t (parityRead t s)).1, (readValue (fn + 1) t (parityRead t s)).2, rfl, ?_⟩
    rw [exec_pcieReadRequest hfn (le_refl 1) ha htop, readRequest_ok (by decide) hnone, hread]
  · intro s fn addr count a r hfn hmin hmax ha htop h
    rw [exec_pcieReadRequest hfn hmin ha htop]
    rw [Nat.add_comm fn 1] at h ⊢
    simp only [readRequest, if_neg (Nat.not_lt.mpr hmax), h]
  · intro s fn addr count hfn hmin ha htop
    rw [exec_pcieReadRequest hfn (by omega) ha htop, Nat.add_comm fn 1]
    simp only [readRequest, if_pos hmin]
  · intro s hperst
    refine ⟨_, rfl, ?_⟩
    show Host.Outcome.next (perst true s) = _
    simp only [perst, hperst, if_true, Bool.false_eq_true, if_false]
  · intro s hperst
    refine ⟨_, rfl, ?_⟩
    show Host.Outcome.next (perst false s) = _
    simp only [perst, hperst, if_true, Bool.false_eq_true, if_false]
  · intro s
    show Host.Outcome.next (perst s.start.perst s) = _
    cases hperst : s.start.perst <;> simp only [perst, hperst, if_true, Bool.false_eq_true, if_false]

end Sys2Proof.Machine
end

section
/-! Writes of registers with an effect of their own (R420 to R434), by the row of the register map that they reach. -/

namespace Sys2Proof.Machine
open Sys2Proof

/-- What the register map says of an address: block, effect, index, and the RW and W1C fields. -/
structure RegFields where
  blk : Blk
  act : WrAct
  i : Nat
  rw : Nat
  w1c : Nat
  deriving DecidableEq

def regFields (a : Nat) : Option RegFields :=
  (regAt a).map (fun q => ⟨q.1, q.2.1.act, q.2.2.1, q.2.1.rw, q.2.1.w1c⟩)

theorem reaches_fields {s : State} {m a x : Nat} {t : Target} {k : RegFields} (h : Reaches s m a t) (hx : t.addr = x)
    (hk : regFields x = some k) :
    t.blk = k.blk ∧ t.reg.act = k.act ∧ t.i = k.i ∧ t.reg.rw = k.rw ∧ t.reg.w1c = k.w1c := by
  obtain ⟨off, hdecode, hfind⟩ := reaches_row h
  subst hx
  have hreg : regAt t.addr = some (t.blk, t.reg, t.i, t.j) := by simp only [regAt, hdecode, hfind, Option.map_some]
  rw [regFields, hreg, Option.map_some, Option.some.injEq] at hk
  subst hk
  exact ⟨rfl, rfl, rfl, rfl, rfl⟩

/-- The first pages of PF1's BAR are the general block in BAR0. -/
theorem pf1Addr_of_fields {a : Nat} {k : RegFields} (hk : regFields a = some k) (hb : k.blk ≠ .glb) :
    pf1Addr a = none := by
  refine pf1Addr_none (Nat.not_lt.mp fun hlt => hb ?_)
  have hdecode : decodeAddr a = some (.glb, a) := if_pos (by omega)
  simp only [regFields, regAt, hdecode, Option.map_map] at hk
  obtain ⟨_, _, rfl⟩ := Option.map_eq_some_iff.mp hk
  rfl

/-- FCL_CFG.LOCK guards no register of this effect. -/
def unlocked (w : WrAct) : Prop := w ≠ .fclCfg ∧ w ≠ .fclSrcCfg ∧ w ≠ .fclNbr

section
variable {c : Instr} {s : State} {m a x : Nat} {t : Target} {v : Word} {act : State → State} {k : RegFields}

/-- A write of a register whose row the map gives has the effect of that row. -/
theorem busWrite_row (h : Reaches s m a t) (hx : t.addr = x) (hk : regFields x = some k) (hl : lockDrops s m t = false)
    (he : ∀ off (d : RegDesc) j u, decodeAddr x = some (k.blk, off) →
      writeEffect m off ⟨x, k.blk, { d with act := k.act, rw := k.rw, w1c := k.w1c }, k.i, j⟩ v false u = act u) :
    busWrite m a v s = written m t v act s := by
  obtain ⟨off, hdecode, _⟩ := reaches_row h
  obtain ⟨hblk, hact, hi, hrw, hw1c⟩ := reaches_fields h hx hk
  rw [busWrite_takes h hl v hdecode]
  obtain ⟨addr, blk, reg, i, j⟩ := t
  obtain ⟨kblk, kact, ki, krw, kw1c⟩ := k
  dsimp only at hx hdecode hblk hact hi hrw hw1c he
  subst hx hblk hact hi hrw hw1c
  rw [written, written, ← he off reg j _ hdecode]

theorem writes_row (h : Reaches s m a t) (hx : t.addr = x) (hc : exec c s = .next (busWrite m a v s))
    (hk : regFields x = some k) (hl : lockDrops s m t = false)
    (he : ∀ off (d : RegDesc) j u, decodeAddr x = some (k.blk, off) →
      writeEffect m off ⟨x, k.blk, { d with act := k.act, rw := k.rw, w1c := k.w1c }, k.i, j⟩ v false u = act u) :
    Writes c s m t v act := by
  rw [Writes, hc, busWrite_row h hx hk hl he]

theorem writes_at (h : Reaches s m a t) (hc : exec c s = .next (busWrite m a v s)) (hk : regFields a = some k)
    (hb : k.blk ≠ .glb) (hl : unlocked k.act)
    (he : ∀ off (d : RegDesc) j u, decodeAddr a = some (k.blk, off) →
      writeEffect m off ⟨a, k.blk, { d with act := k.act, rw := k.rw, w1c := k.w1c }, k.i, j⟩ v false u = act u) :
    Writes c s m t v act := by
  have hx := (reaches_regAt h (reaches_not_pf1 h (pf1Addr_of_fields hk hb))).1
  have hact := (reaches_fields h hx hk).2.1
  exact writes_row h hx hc hk (lockDrops_other (hact ▸ hl.1) (hact ▸ hl.2.1) (hact ▸ hl.2.2)) he

/-- The two writes of a group's commit register. -/
theorem group_writes {commit discard : Instr} {act' : State → State} (h : Reaches s m a t)
    (hcommit : exec commit s = .next (busWrite m a 1 s)) (hdiscard : exec discard s = .next (busWrite m a 2 s))
    (hk : regFields a = some k) (hb : k.blk ≠ .glb) (hl : unlocked k.act)
    (he : ∀ off (d : RegDesc) j w u, decodeAddr a = some (k.blk, off) →
      writeEffect m off ⟨a, k.blk, { d with act := k.act, rw := k.rw, w1c := k.w1c }, k.i, j⟩ w false u =
        commitBits w act act' u) :
    Writes commit s m t 1 act ∧ Writes discard s m t 2 act' :=
  ⟨writes_at h hcommit hk hb hl fun off d j u ho => he off d j 1 u ho,
   writes_at h hdiscard hk hb hl fun off d j u ho => he off d j 2 u ho⟩

end

theorem glenOk_of {s : State} {m a g : Nat} {t : Target} (h : Reaches s m a t) (hg : g < 8) : glenOk m g = true := by
  simp only [glenOk, masterOk, decide_eq_true h.1, decide_eq_true hg, Bool.and_self]
theorem dieOk_of {s : State} {m a d : Nat} {t : Target} (h : Reaches s m a t) (hd : d < 2) : dieOk m d = true := by
  simp only [dieOk, masterOk, decide_eq_true h.1, decide_eq_true hd, Bool.and_self]
theorem masterOk_of {s : State} {m a : Nat} {t : Target} (h : Reaches s m a t) : masterOk m = true :=
  decide_eq_true h.1
theorem masterOk_and {s : State} {m a : Nat} {t : Target} {p : Prop} [Decidable p] (h : Reaches s m a t) (hp : p) :
    (masterOk m && decide p) = true := by
  rw [masterOk_of h, decide_eq_true hp]; rfl

/-! ### The staged groups' commit registers (R434) -/

/-- The commit registers' rows. -/
theorem commit_rows :
    (regFields pwiCommitReg = some ⟨.pwi, .pwiCommit, 0, 0, 0⟩) ∧
    (∀ g < 8, regFields (glnBudgetCommitReg g) = some ⟨.gln g, .glnBudgetCommit, 0, 0, 0⟩) ∧
    (∀ g < 8, regFields (emtKeyCommit g) = some ⟨.gln g, .emtKeyCommit, 0, 0, 0⟩) ∧
    (∀ g < 8, regFields (polCommitReg g) = some ⟨.gln g, .polStgCommit, 0, 0, 0⟩) ∧
    (∀ d < 2, regFields (bpmLayoutCommitReg d) = some ⟨.bpm d, .bpmLayoutCommit, 0, 0, 0⟩) ∧
    (∀ d < 2, regFields (bpmQuotaCommitReg d) = some ⟨.bpm d, .bpmQuotaCommit, 0, 0, 0⟩) ∧
    (∀ d < 2, regFields (bpmBudgetCommitReg d) = some ⟨.bpm d, .bpmBudgetCommit, 0, 0, 0⟩) ∧
    (∀ d < 2, regFields (schBudgetCommitReg d) = some ⟨.sch d, .schBudgetCommit, 0, 0, 0⟩) ∧
    (∀ d < 2, regFields (shpCommitReg d) = some ⟨.sch d, .schShpCommit, 0, 0, 0⟩) ∧
    (∀ p < 256, regFields (gatCommit p) = some ⟨.gat (p / 128), .gatListCommit, p % 128, 0, 0⟩) := by
  refine ⟨?_, ?_, ?_, ?_, ?_, ?_, ?_, ?_, ?_, ?_⟩ <;> decide +kernel

/-- Settles O26: each commit register's row says which group it commits and discards. -/
theorem stagedGroupsComplete : Obligations.StagedGroupsComplete := by
  unfold Obligations.StagedGroupsComplete
  obtain ⟨pwiCommit_fields, glnBudgetCommit_fields, emtKeyCommit_fields, polCommit_fields, bpmLayoutCommit_fields,
    bpmQuotaCommit_fields, bpmBudgetCommit_fields, schBudgetCommit_fields, shpCommit_fields, gatCommit_fields⟩ :=
    commit_rows
  refine ⟨?_, ?_, ?_, ?_, ?_, ?_, ?_, ?_, ?_, ?_⟩
  · intro s m t h
    exact group_writes h (needs_true (masterOk_of h)) (needs_true (masterOk_of h)) pwiCommit_fields nofun
      ⟨nofun, nofun, nofun⟩ fun _ _ _ _ _ _ => rfl
  · intro s m g t h hg
    exact group_writes h (needs_true (glenOk_of h hg)) (needs_true (glenOk_of h hg)) (glnBudgetCommit_fields g hg) nofun
      ⟨nofun, nofun, nofun⟩ fun _ _ _ _ _ _ => rfl
  · intro s m g t h hg
    exact group_writes h (needs_true (glenOk_of h hg)) (needs_true (glenOk_of h hg)) (emtKeyCommit_fields g hg) nofun
      ⟨nofun, nofun, nofun⟩ fun _ _ _ _ _ _ => rfl
  · intro s m g r t h hg
    refine ⟨?_, writes_at h (needs_true (glenOk_of h hg)) (polCommit_fields g hg) nofun ⟨nofun, nofun, nofun⟩
      fun _ _ _ _ _ => rfl⟩
    cases r
    · exact writes_at h (needs_true (glenOk_of h hg)) (polCommit_fields g hg) nofun ⟨nofun, nofun, nofun⟩
        fun _ _ _ _ _ => rfl
    · exact writes_at h (needs_true (glenOk_of h hg)) (polCommit_fields g hg) nofun ⟨nofun, nofun, nofun⟩
        fun _ _ _ _ _ => rfl
  · intro s m d t h hd
    exact group_writes h (needs_true (dieOk_of h hd)) (needs_true (dieOk_of h hd)) (bpmLayoutCommit_fields d hd) nofun
      ⟨nofun, nofun, nofun⟩ fun _ _ _ _ _ _ => rfl
  · intro s m d t h hd
    exact group_writes h (needs_true (dieOk_of h hd)) (needs_true (dieOk_of h hd)) (bpmQuotaCommit_fields d hd) nofun
      ⟨nofun, nofun, nofun⟩ fun _ _ _ _ _ _ => rfl
  · intro s m d t h hd
    exact group_writes h (needs_true (dieOk_of h hd)) (needs_true (dieOk_of h hd)) (bpmBudgetCommit_fields d hd) nofun
      ⟨nofun, nofun, nofun⟩ fun _ _ _ _ _ _ => rfl
  · intro s m d t h hd
    exact group_writes h (needs_true (dieOk_of h hd)) (needs_true (dieOk_of h hd)) (schBudgetCommit_fields d hd) nofun
      ⟨nofun, nofun, nofun⟩ fun _ _ _ _ _ _ => rfl
  · intro s m d r t h hd
    refine ⟨?_, writes_at h (needs_true (dieOk_of h hd)) (shpCommit_fields d hd) nofun ⟨nofun, nofun, nofun⟩
      fun _ _ _ _ _ => rfl⟩
    cases r
    · exact writes_at h (needs_true (dieOk_of h hd)) (shpCommit_fields d hd) nofun ⟨nofun, nofun, nofun⟩
        fun _ _ _ _ _ => rfl
    · exact writes_at h (needs_true (dieOk_of h hd)) (shpCommit_fields d hd) nofun ⟨nofun, nofun, nofun⟩
        fun _ _ _ _ _ => rfl
  · intro s m p t h hp
    have hport : 128 * (p / 128) + p % 128 = p := Nat.div_add_mod p 128
    refine group_writes h (needs_true (masterOk_and h hp)) (needs_true (masterOk_and h hp)) (gatCommit_fields p hp) nofun
      ⟨nofun, nofun, nofun⟩ fun _ _ _ _ _ _ => ?_
    show commitBits _ (gatListCommit (128 * (p / 128) + p % 128)) (gatListDiscard (128 * (p / 128) + p % 128)) _ = _
    rw [hport]

end Sys2Proof.Machine
end

section
/-! Registers with an effect of their own (R80 to R473): hash seeds, rings, network time, field outputs, col cells, banks. -/

namespace Sys2Proof.Machine
open Sys2Proof

/-! ### W1C fields -/

theorem bit_getLsbD (w : Word) (i : Nat) : bit w i = w.getLsbD i := by
  rw [bit_eq, BitVec.getLsbD, Nat.testBit_eq_decide_div_mod_eq]

/-- One bit cleared. -/
theorem and_not_twoPow (w : Word) {i : Nat} (hi : i < 32) : w &&& ~~~(BitVec.twoPow 32 i) = setBit w i false := by
  refine BitVec.eq_of_getLsbD_eq fun j hj => ?_
  rw [← bit_getLsbD (setBit w i false), BitVec.getLsbD_and, BitVec.getLsbD_not, BitVec.getLsbD_twoPow]
  by_cases hij : j = i
  · subst hij
    rw [bit_setBit_same _ _ _ hi]
    simp [hi]
  · have hne : i ≠ j := fun e => hij e.symm
    rw [bit_setBit_other _ _ _ _ hi hij, bit_getLsbD]
    simp [hj, hne]

theorem storeFields_w1c {a : Nat} {d : RegDesc} {v : Word} {s : State} (h : d.rw = 0) :
    storeFields a d v s = wr a (rd s a &&& ~~~(v &&& wd d.w1c)) s := by
  have hkeep : ~~~(0#32) = BitVec.allOnes 32 := by decide
  have hzero : wd 0 = 0#32 := by decide
  simp only [storeFields, h, hkeep, hzero, BitVec.and_allOnes, BitVec.and_zero, BitVec.or_zero]

theorem storeFields_all {a : Nat} {d : RegDesc} {v : Word} {s : State} (h : d.rw = all32) (h1 : d.w1c = 0) :
    storeFields a d v s = wr a v s := by
  have hall : wd all32 = BitVec.allOnes 32 := by decide
  have hzero : wd 0 = 0#32 := by decide
  have hkeep : ~~~(0#32) = BitVec.allOnes 32 := by decide
  have hclear : ~~~(BitVec.allOnes 32) = 0#32 := by decide
  simp only [storeFields, h, h1, hall, hzero, hkeep, hclear, BitVec.and_allOnes, BitVec.and_zero, BitVec.zero_or]

/-- A write of 1 to one W1C bit of a register without RW fields. -/
theorem storeFields_bit {a i : Nat} {d : RegDesc} {v : Word} {s : State} (h : d.rw = 0) (hi : i < 32)
    (hv : v &&& wd d.w1c = BitVec.twoPow 32 i) : storeFields a d v s = wrBit a i false s := by
  rw [storeFields_w1c h, hv, and_not_twoPow _ hi, wrBit]

/-! ### Rows of the register map -/

/-- Rows of the registers with an effect of their own. -/
theorem effect_rows :
    (∀ w < 3, regFields (pwiPend w) = some ⟨.pwi, .store, w, 0, all32⟩) ∧
    (∀ g < 8, regFields (emtSeed g) = some ⟨.gln g, .emtHash, 0, all32, 0⟩ ∧ decodeAddr (emtSeed g) =
      some (.gln g, 0x10008)) ∧
    (∀ g < 8, regFields (emtHashCfg g) = some ⟨.gln g, .emtHash, 0, 31, 256⟩ ∧ decodeAddr (emtHashCfg g) =
      some (.gln g, 0x10004)) ∧
    (∀ g < 8, regFields (stmSeed g) = some ⟨.gln g, .stmSeed, 0, all32, 0⟩) ∧
    (∀ d < 2, regFields (freDupSeed d) = some ⟨.fre d, .freDupSeed, 0, all32, 0⟩) ∧
    (regFields (timStep + 8) = some ⟨.tim, .timStepGo, 0, 0, 0⟩) ∧
    (regFields timRateAdj = some ⟨.tim, .timRateAdj, 0, all32, 0⟩) ∧
    (regFields timCfg = some ⟨.tim, .timCfg, 0, 0x3FFFFF, 0⟩) ∧
    (regFields fioForceEn = some ⟨.fio, .foForceEn, 0, 0xFFFF, 0⟩) ∧
    (regFields fioForceVal = some ⟨.fio, .foForceVal, 0, 0xFFFF, 0⟩) ∧
    (regFields fioFoStat = some ⟨.fio, .store, 0, 0, 0xFFFF0000⟩) ∧
    (regFields casCfg = some ⟨.cas, .casCfg, 0, 0xFFFF03FF, 0⟩) ∧
    (regFields casStat = some ⟨.cas, .store, 0, 0, 0x180⟩) ∧
    (∀ w < 10, regFields (colStallPend w) = some ⟨.col, .colStallPend, w, 0, all32⟩) ∧
    (∀ w < 10, regFields (colOvfPend w) = some ⟨.col, .colOvfPend, w, 0, all32⟩) ∧
    (∀ c < cellCount, regFields (cellStat c) = some ⟨.col, .colCellStat, c, 0, 0x700⟩) ∧
    (∀ n < 34, regFields (engBank 0 n) = some ⟨.pip n, .prsBank, 0, 0, 0x18⟩) ∧
    (∀ n < 34, regFields (engBank 1 n) = some ⟨.pip n, .rweBank, 0, 0, 0x18⟩) ∧
    (∀ n < 34, regFields (engPatchAddr 0 n) = some ⟨.pip n, .prsPatchAddr, 0, 0x101FF, 0⟩) ∧
    (∀ n < 34, regFields (engPatchAddr 1 n) = some ⟨.pip n, .rwePatchAddr, 0, 0x100FF, 0⟩) ∧
    (∀ n < 34, regFields (engPatchData 0 n 0) = some ⟨.pip n, .prsPatchData, 0, all32, 0⟩) ∧
    (∀ n < 34, regFields (engPatchData 1 n 0) = some ⟨.pip n, .rwePatchData, 0, all32, 0⟩) := by
  refine ⟨?_, ?_, ?_, ?_, ?_, ?_, ?_, ?_, ?_, ?_, ?_, ?_, ?_, ?_, ?_, ?_, ?_, ?_, ?_, ?_, ?_, ?_⟩ <;> decide +kernel

/-! ### Record rings -/

/-- The rings with registers of their own. -/
theorem recordRing_cases {r : RingName} (h : recordRing r = true) :
    (∃ g < 8, r = .learn g) ∨ (∃ i < 4, r = .dump i) ∨ (∃ d < 2, r = .queueSample d) ∨ r = .packetSample ∨ r = .event := by
  cases r with
  | learn g => exact .inl ⟨g, of_decide_eq_true h, rfl⟩
  | dump i => exact .inr (.inl ⟨i, of_decide_eq_true h, rfl⟩)
  | queueSample d => exact .inr (.inr (.inl ⟨d, of_decide_eq_true h, rfl⟩))
  | packetSample => exact .inr (.inr (.inr (.inl rfl)))
  | event => exact .inr (.inr (.inr (.inr rfl)))
  | response m => cases h

/-- The block that holds a record ring's registers, and the largest SIZE that it takes. -/
def ringBlk : RingName → Blk
  | .learn g => .gln g
  | .event => .fio
  | _ => .pmc
def ringTop : RingName → Nat
  | .learn _ => 8
  | .event => 8
  | _ => 10

theorem learnRing_fields : ∀ g < 8,
    regFields (ringBase (.learn g) + 8) = some ⟨.gln g, .ringCfg 8, 0, 0xFF003F, 256⟩ ∧
    regFields (ringBase (.learn g) + 0x10) = some ⟨.gln g, .ringCons, 0, all32, 0⟩ := by decide +kernel
theorem dumpRing_fields : ∀ i < 4,
    regFields (ringBase (.dump i) + 8) = some ⟨.pmc, .ringCfg 10, 0, 0xFF003F, 256⟩ ∧
    regFields (ringBase (.dump i) + 0x10) = some ⟨.pmc, .ringCons, 0, all32, 0⟩ ∧
    decodeAddr (ringBase (.dump i) + 0x10) = some (.pmc, 0x210 + 0x20 * i) := by decide +kernel
theorem queueSampleRing_fields : ∀ d < 2,
    regFields (ringBase (.queueSample d) + 8) = some ⟨.pmc, .ringCfg 10, 0, 0xFF003F, 256⟩ ∧
    regFields (ringBase (.queueSample d) + 0x10) = some ⟨.pmc, .ringCons, 0, all32, 0⟩ ∧
    decodeAddr (ringBase (.queueSample d) + 0x10) = some (.pmc, 0x310 + 0x20 * d) := by decide +kernel
theorem packetSampleRing_fields :
    regFields (ringBase .packetSample + 8) = some ⟨.pmc, .ringCfg 10, 0, 0xFF003F, 256⟩ ∧
    regFields (ringBase .packetSample + 0x10) = some ⟨.pmc, .ringCons, 0, all32, 0⟩ ∧
    decodeAddr (ringBase .packetSample + 0x10) = some (.pmc, 0x350) := by decide +kernel
theorem eventRing_fields :
    regFields (ringBase .event + 8) = some ⟨.fio, .ringCfg 8, 0, 0xFF003F, 256⟩ ∧
    regFields (ringBase .event + 0x10) = some ⟨.fio, .ringCons, 0, all32, 0⟩ := by decide +kernel

theorem ringCfg_fields {r : RingName} (h : recordRing r = true) :
    regFields (ringBase r + 8) = some ⟨ringBlk r, .ringCfg (ringTop r), 0, 0xFF003F, 256⟩ := by
  rcases recordRing_cases h with ⟨g, hg, rfl⟩ | ⟨i, hi, rfl⟩ | ⟨d, hd, rfl⟩ | rfl | rfl
  · exact (learnRing_fields g hg).1
  · exact (dumpRing_fields i hi).1
  · exact (queueSampleRing_fields d hd).1
  · exact packetSampleRing_fields.1
  · exact eventRing_fields.1

theorem ringBlk_ne_glb (r : RingName) : ringBlk r ≠ .glb := by cases r <;> exact nofun

/-- A ring's configuration written. -/
theorem writeEffect_ringCfg (m off a j : Nat) (r : RingName) (d : RegDesc) (v : Word) (u : State) (top rw w1c i : Nat) :
    writeEffect m off ⟨a, ringBlk r, { d with act := .ringCfg top, rw := rw, w1c := w1c }, i, j⟩ v false u =
      ringCfgWrite (a - 8) top v u := by
  cases r <;> rfl

/-- Settles O27: the row of each register says its effect. -/
theorem registerEffectsComplete : Obligations.RegisterEffectsComplete := by
  unfold Obligations.RegisterEffectsComplete
  obtain ⟨pwiPend_fields, emtSeed_fields, emtHashCfg_fields, stmSeed_fields, freDupSeed_fields, timStepGo_fields,
    timRateAdj_fields, timCfg_fields, fioForceEn_fields, fioForceVal_fields, fioFoStat_fields, casCfg_fields,
    casStat_fields, colStallPend_fields, colOvfPend_fields, cellStat_fields, prsBank_fields, rweBank_fields,
    prsPatchAddr_fields, rwePatchAddr_fields, prsPatchData_fields, rwePatchData_fields⟩ := effect_rows
  refine ⟨?_, ?_, ?_, ?_, ?_, ?_, ?_, ?_, ?_, ?_, ?_, ?_, ?_, ?_, ?_, ?_, ?_, ?_, ?_, ?_, ?_, ?_, ?_, ?_, ?_⟩
  · intro s m w v t h hw
    refine writes_at h (needs_true (masterOk_and h hw)) (pwiPend_fields w hw) nofun ⟨nofun, nofun, nofun⟩
      fun _ _ _ u _ => (storeFields_w1c rfl).trans ?_
    have hall : wd all32 = BitVec.allOnes 32 := by decide
    rw [hall, BitVec.and_allOnes]
  · intro s m g v t h hg
    obtain ⟨hk, hoff⟩ := emtSeed_fields g hg
    refine writes_at h (needs_true (glenOk_of h hg)) hk nofun ⟨nofun, nofun, nofun⟩ fun off _ _ _ ho => ?_
    rw [hoff, Option.some.injEq, Prod.mk.injEq] at ho
    rw [← ho.2]
    rfl
  · intro s m g v t h hg
    obtain ⟨hk, hoff⟩ := emtHashCfg_fields g hg
    refine writes_at h (needs_true (glenOk_of h hg)) hk nofun ⟨nofun, nofun, nofun⟩ fun off _ _ _ ho => ?_
    rw [hoff, Option.some.injEq, Prod.mk.injEq] at ho
    rw [← ho.2]
    rfl
  · intro s m g v t h hg
    exact writes_at h (needs_true (glenOk_of h hg)) (stmSeed_fields g hg) nofun ⟨nofun, nofun, nofun⟩
      fun _ _ _ _ _ => rfl
  · intro s m d v t h hd
    exact writes_at h (needs_true (dieOk_of h hd)) (freDupSeed_fields d hd) nofun ⟨nofun, nofun, nofun⟩
      fun _ _ _ _ _ => rfl
  · intro s m ring v t h hring
    have hc : exec (.ringConsWrite m ring v) s = .next (busWrite m (ringBase ring + 0x10) v s) :=
      needs_true (by rw [masterOk_of h, hring]; rfl)
    rcases recordRing_cases hring with ⟨g, hg, rfl⟩ | ⟨i, hi, rfl⟩ | ⟨d, hd, rfl⟩ | rfl | rfl
    · refine writes_at h hc (learnRing_fields g hg).2 nofun ⟨nofun, nofun, nofun⟩ fun _ _ _ u _ => ?_
      show ringConsWrite (ringBase (.learn g) + 0x10 - 0x10) 256 v u = _
      rw [Nat.add_sub_cancel]
    · obtain ⟨_, hk, hoff⟩ := dumpRing_fields i hi
      refine writes_at h hc hk nofun ⟨nofun, nofun, nofun⟩ fun off _ _ u ho => ?_
      rw [hoff, Option.some.injEq, Prod.mk.injEq] at ho
      have hlow : off < 0x300 := by omega
      show ringConsWrite (ringBase (.dump i) + 0x10 - 0x10) (if off < 0x300 then 1024 else 256) v u = _
      rw [if_pos hlow, Nat.add_sub_cancel]
    · obtain ⟨_, hk, hoff⟩ := queueSampleRing_fields d hd
      refine writes_at h hc hk nofun ⟨nofun, nofun, nofun⟩ fun off _ _ u ho => ?_
      rw [hoff, Option.some.injEq, Prod.mk.injEq] at ho
      have hhigh : ¬ off < 0x300 := by omega
      show ringConsWrite (ringBase (.queueSample d) + 0x10 - 0x10) (if off < 0x300 then 1024 else 256) v u = _
      rw [if_neg hhigh, Nat.add_sub_cancel]
    · obtain ⟨_, hk, hoff⟩ := packetSampleRing_fields
      refine writes_at h hc hk nofun ⟨nofun, nofun, nofun⟩ fun off _ _ u ho => ?_
      rw [hoff, Option.some.injEq, Prod.mk.injEq] at ho
      have hhigh : ¬ off < 0x300 := by omega
      show ringConsWrite (ringBase .packetSample + 0x10 - 0x10) (if off < 0x300 then 1024 else 256) v u = _
      rw [if_neg hhigh, Nat.add_sub_cancel]
    · refine writes_at h hc eventRing_fields.2 nofun ⟨nofun, nofun, nofun⟩ fun _ _ _ u _ => ?_
      show ringConsWrite (ringBase .event + 0x10 - 0x10) 256 v u = _
      rw [Nat.add_sub_cancel]
  · intro s m ring v t top h hring hact
    have hk := ringCfg_fields hring
    have haddr := (reaches_regAt h (reaches_not_pf1 h (pf1Addr_of_fields hk (ringBlk_ne_glb ring)))).1
    have htop := (reaches_fields h haddr hk).2.1
    rw [hact, WrAct.ringCfg.injEq] at htop
    refine writes_at h (needs_true (by rw [masterOk_of h, hring]; rfl)) hk (ringBlk_ne_glb ring) ⟨nofun, nofun, nofun⟩
      fun _ _ _ _ _ => (writeEffect_ringCfg ..).trans ?_
    rw [htop, Nat.add_sub_cancel]
  · intro s m t h
    exact writes_at h (needs_true (masterOk_of h)) timStepGo_fields nofun ⟨nofun, nofun, nofun⟩ fun _ _ _ _ _ => rfl
  · intro s m v t h
    exact writes_at h (needs_true (masterOk_of h)) timRateAdj_fields nofun ⟨nofun, nofun, nofun⟩
      fun _ _ _ _ _ => storeFields_all rfl rfl
  · intro s m src t h
    exact writes_at h (needs_true (masterOk_of h)) timCfg_fields nofun ⟨nofun, nofun, nofun⟩ fun _ _ _ _ _ => rfl
  · intro s m v t h
    exact writes_at h (needs_true (masterOk_of h)) fioForceEn_fields nofun ⟨nofun, nofun, nofun⟩ fun _ _ _ _ _ => rfl
  · intro s m v t h
    exact writes_at h (needs_true (masterOk_of h)) fioForceVal_fields nofun ⟨nofun, nofun, nofun⟩ fun _ _ _ _ _ => rfl
  · intro s m j t h hj
    have hbit : ∀ j < 16, wd (2 ^ (16 + j)) &&& wd 0xFFFF0000 = BitVec.twoPow 32 (16 + j) := by decide
    exact writes_at h (needs_true (masterOk_and h hj)) fioFoStat_fields nofun ⟨nofun, nofun, nofun⟩
      fun _ _ _ _ _ => storeFields_bit rfl (by omega) (hbit j hj)
  · intro s m r t h hr
    exact writes_at h (needs_true (masterOk_and h (by omega))) casCfg_fields nofun ⟨nofun, nofun, nofun⟩
      fun _ _ _ _ _ => rfl
  · intro s m t h
    have hbit : (0x100 : Word) &&& wd 0x180 = BitVec.twoPow 32 8 := by decide
    exact writes_at h (needs_true (masterOk_of h)) casStat_fields nofun ⟨nofun, nofun, nofun⟩
      fun _ _ _ _ _ => storeFields_bit rfl (by decide) hbit
  · intro s m c t h hc
    have hc' : c < 304 := hc
    exact writes_at h (needs_true (masterOk_and h hc)) (colStallPend_fields _ (by omega)) nofun ⟨nofun, nofun, nofun⟩
      fun _ _ _ _ _ => rfl
  · intro s m c t h hc
    exact writes_at h (needs_true (masterOk_and h hc)) (cellStat_fields c hc) nofun ⟨nofun, nofun, nofun⟩
      fun _ _ _ _ _ => rfl
  · intro s m c t h hc
    have hc' : c < 304 := hc
    exact writes_at h (needs_true (masterOk_and h hc)) (colOvfPend_fields _ (by omega)) nofun ⟨nofun, nofun, nofun⟩
      fun _ _ _ _ _ => rfl
  · intro s m c t h hc
    exact writes_at h (needs_true (masterOk_and h hc)) (cellStat_fields c hc) nofun ⟨nofun, nofun, nofun⟩
      fun _ _ _ _ _ => rfl
  · intro s m n t h hn
    exact writes_at h (needs_true (masterOk_and h hn)) (prsBank_fields n hn) nofun ⟨nofun, nofun, nofun⟩
      fun _ _ _ _ _ => rfl
  · intro s m n t h hn
    exact writes_at h (needs_true (masterOk_and h hn)) (rweBank_fields n hn) nofun ⟨nofun, nofun, nofun⟩
      fun _ _ _ _ _ => rfl
  · intro s m n v t h hn
    exact writes_at h (needs_true (masterOk_and h hn)) (prsPatchAddr_fields n hn) nofun ⟨nofun, nofun, nofun⟩
      fun _ _ _ _ _ => rfl
  · intro s m n v t h hn
    exact writes_at h (needs_true (masterOk_and h hn)) (prsPatchData_fields n hn) nofun ⟨nofun, nofun, nofun⟩
      fun _ _ _ _ _ => rfl
  · intro s m n v t h hn
    exact writes_at h (needs_true (masterOk_and h hn)) (rwePatchAddr_fields n hn) nofun ⟨nofun, nofun, nofun⟩
      fun _ _ _ _ _ => rfl
  · intro s m n v t h hn
    exact writes_at h (needs_true (masterOk_and h hn)) (rwePatchData_fields n hn) nofun ⟨nofun, nofun, nofun⟩
      fun _ _ _ _ _ => rfl

end Sys2Proof.Machine
end

section
/-! Captures, fault records, windows and mailbox registers written (R393 to R436, R472 to R493). -/

namespace Sys2Proof.Machine
open Sys2Proof

/-! ### Captures and fault records -/

/-- Rows of the captures, the fault records and a pipeline's mode. -/
theorem capture_rows :
    (∀ d < 2, regFields (bpmBase d + 0x104) = some ⟨.bpm d, .store, 0, 0, 0x80000000⟩) ∧
    (regFields glbCapInfo = some ⟨.glb, .glbBuserr, 0, 0, 0x80000000⟩) ∧
    (∀ p < 32, regFields (pmcOvf p 0x10) = some ⟨.pmc, .pmcOvfCap, p, 0, 0x80000000⟩) ∧
    (∀ w < 4, regFields (fclStatus + 4 * w) = some ⟨.fcl, .fclStatus, w, 0, all32⟩) ∧
    (regFields fclFirst = some ⟨.fcl, .fclFirst, 0, 0, 0x80000000⟩) ∧
    (regFields (fclBase + 0x84) = some ⟨.fcl, .fclLogPop, 0, 0, 0⟩) ∧
    (regFields fclCfg = some ⟨.fcl, .fclCfg, 0, 0x7FFFF, 0⟩) ∧
    (∀ n < 34, regFields (pipBase n) = some ⟨.pip n, .pipCtl, 0, 3, 0⟩) ∧
    (regFields (secBase + 8) = some ⟨.sec, .secDbgReq, 0, 0, 0⟩) := by
  refine ⟨?_, ?_, ?_, ?_, ?_, ?_, ?_, ?_, ?_⟩ <;> decide +kernel

/-- Bit 31 alone is written to a W1C bit 31. -/
theorem capture_bit : (0x80000000 : Word) &&& wd 0x80000000 = BitVec.twoPow 32 31 := by decide

/-- LOCK does not keep from writing FCL_CFG a master that finds it clear, nor the MP. -/
theorem lockDrops_free {s : State} {m : Nat} {t : Target} (h : m = 0 ∨ rdBit s fclCfg 18 = false) :
    lockDrops s m t = false := by
  rcases h with rfl | h
  · rfl
  · rw [lockDrops, fclLocked, h, Bool.and_false, Bool.false_and]

/-- A write that sets LOCK leaves it set. -/
theorem fclCfgWrite_lock (w : Word) (s : State) :
    fclCfgWrite (setBit w 18 true) s = wrM fclCfg 0x7FFFF (setBit w 18 true) s := by
  have hidem : setBit (setBit w 18 true) 18 true = setBit w 18 true := by
    refine BitVec.eq_of_getLsbD_eq fun j hj => ?_
    rw [← bit_getLsbD, ← bit_getLsbD]
    by_cases hlock : j = 18
    · subst hlock
      rw [bit_setBit_same _ _ _ hj, bit_setBit_same _ _ _ hj]
    · exact bit_setBit_other _ _ _ _ (by omega) hlock
  rw [fclCfgWrite, bit_setBit_same _ _ _ (by omega), Bool.true_or, hidem]

/-! ### The indirect windows -/

theorem winCmd_fields : ∀ w < 4, regFields (winBase w + 8) = some ⟨.win w, .winCmd, 0, 0, 0⟩ ∧
    decodeAddr (winBase w + 8) = some (.win w, 8) ∧ configReg (winBase w + 8) = false := by decide +kernel

/-- A write of a window's command register, which no shadow keeps. -/
theorem winCmd_written {s : State} {m w : Nat} {t : Target} (v : Word) (bad : Bool) (h : Reaches s m (winBase w + 8) t)
    (hw : w < 4) : busWriteWith m (winBase w + 8) 15 v bad s = answer m ⟨true, []⟩ (winCmd w v bad (parityFresh t.addr s)) := by
  obtain ⟨hk, hdecode, hconfig⟩ := winCmd_fields w hw
  have haddr := (reaches_regAt h (reaches_not_pf1 h (pf1Addr_of_fields hk nofun))).1
  obtain ⟨hblk, hact, _, _, _⟩ := reaches_fields h haddr hk
  have hlock : lockDrops s m t = false := lockDrops_other (hact ▸ nofun) (hact ▸ nofun) (hact ▸ nofun)
  rw [busWriteWith_takes h hlock v bad 8 (.win w) (haddr ▸ hdecode)]
  obtain ⟨addr, blk, reg, i, j⟩ := t
  dsimp only at haddr hblk hact
  subst haddr hblk
  dsimp only
  rw [if_neg (by rw [hact]; nofun), postLog, if_pos (.inr (by rw [hconfig, hact]; rfl))]
  rfl

/-! ### The mailboxes' registers -/

/-- Rows of a mailbox's page. -/
theorem mbxPage_rows :
    (∀ mb < 5, regFields (mbxReg mb mbxDoorbellOff) = some ⟨.mbx, .mbxDoorbell, 0, 0, 0⟩) ∧
    (∀ mb < 5, regFields (mbxReg mb mbxCmdProdOff) = some ⟨.mbx, .mbxCmdProd, 0, all32, 0⟩) ∧
    (∀ mb < 5, regFields (mbxReg mb mbxRspConsOff) = some ⟨.mbx, .mbxRspCons, 0, all32, 0⟩) ∧
    (∀ mb < 5, regFields (mbxReg mb mbxRingCfgOff) = some ⟨.mbx, .mbxRingCfg, 0, if mb < 2 then 15 else 0, 0⟩) := by
  refine ⟨?_, ?_, ?_, ?_⟩ <;> decide +kernel
/-- A table's row is found where no row before it lists the offset. -/
theorem findReg_getElem {l : List RegDesc} {n off i j : Nat} {d : RegDesc} (hrow : l[n]? = some d)
    (hbefore : ∀ e ∈ l.take n, e.at? off = none) (hat : d.at? off = some (i, j)) : findReg l off = some (d, i, j) := by
  induction l generalizing n with
  | nil => cases hrow
  | cons e l ih =>
    cases n with
    | zero =>
      rw [List.getElem?_cons_zero, Option.some.injEq] at hrow
      rw [findReg, hrow, hat]
    | succ n =>
      rw [findReg, hbefore e List.mem_cons_self]
      exact ih hrow fun e he => hbefore e (List.mem_cons_of_mem _ he)

/-- A row of adjacent dwords lists none of the offsets below it or past its end. -/
theorem at?_apart {d : RegDesc} {off : Nat} (hstride : d.stride = 4) (h : off < d.off ∨ d.off + 4 * d.count ≤ off) :
    d.at? off = none := by
  unfold RegDesc.at?
  by_cases hlow : off < d.off
  · rw [if_pos hlow]
  · rw [if_neg hlow]
    dsimp only
    rw [hstride, if_neg (by omega)]

/-- The command areas' rows, and the rows before each: none reaches into the area. -/
theorem mbxArea_row : ∀ mb < 5, ∃ d, regsMbx[17 + 15 * mb]? = some d ∧
    (d.off = 0x2000 + 0x2000 * mb ∧ d.stride = 4 ∧ d.count = 1024 ∧ d.st2 = 4 ∧ d.n2 = 1) ∧
    d.act = .mbxArea ∧ d.rw = all32 ∧ d.w1c = 0 := by
  intro mb hmb
  interval_cases mb <;> exact ⟨_, rfl, ⟨rfl, rfl, rfl, rfl, rfl⟩, rfl, rfl, rfl⟩
theorem before_mbxArea_row : ∀ mb < 5, ∀ d ∈ regsMbx.take (17 + 15 * mb),
    d.stride = 4 ∧ d.off + 4 * d.count ≤ 0x2000 + 0x2000 * mb := by decide +kernel

theorem mbxArea_fields {mb i : Nat} (hmb : mb < 5) (hi : i < 1024) :
    regFields (mbxBase + 0x2000 + 0x2000 * mb + 4 * i) = some ⟨.mbx, .mbxArea, i, all32, 0⟩ := by
  obtain ⟨d, hd, ⟨hoff, hstride, hcount, hst2, hn2⟩, hact, hrw, hw1c⟩ := mbxArea_row mb hmb
  have hbase : mbxBase = 0x10000 := rfl
  have hdecode : decodeAddr (mbxBase + 0x2000 + 0x2000 * mb + 4 * i) = some (.mbx, 0x2000 + 0x2000 * mb + 4 * i) := by
    have hpage : (mbxBase + 0x2000 + 0x2000 * mb + 4 * i) / 0x10000 = 1 := by omega
    rw [decodeAddr, if_neg (by omega), if_pos (by omega), hpage]
    simp only [Option.some.injEq, Prod.mk.injEq, true_and]
    omega
  have hat : d.at? (0x2000 + 0x2000 * mb + 4 * i) = some (i, 0) := by
    unfold RegDesc.at?
    rw [hoff, hstride, hcount, hst2, hn2, if_neg (by omega), Nat.add_sub_cancel_left]
    dsimp only
    rw [Nat.mul_mod_right, if_pos ⟨by omega, by omega, by omega⟩, Option.some.injEq, Prod.mk.injEq]
    omega
  have hfind : findReg (blockRegs .mbx) (0x2000 + 0x2000 * mb + 4 * i) = some (d, i, 0) := by
    refine findReg_getElem hd (fun e he => ?_) hat
    obtain ⟨hs, htop⟩ := before_mbxArea_row mb hmb e he
    exact at?_apart hs (.inr (by omega))
  simp only [regFields, regAt, hdecode, hfind, Option.map_some, hact, hrw, hw1c]

theorem mbxPage_mbxReg {mb off : Nat} (h : off < 0x40) : mbxPage (mbxReg mb off) = mb := by
  unfold mbxPage mbxReg; omega
theorem mbxArea_area {mb i : Nat} (h : i < 1024) : mbxArea (mbxBase + 0x2000 + 0x2000 * mb + 4 * i) = mb := by
  unfold mbxArea; omega

/-- PF1 finds MB1's page in its own BAR; every other master finds each page in BAR0. -/
theorem reaches_mbPage {s : State} {m mb off : Nat} {t : Target} (h : Reaches s m (mbPageAddr m mb off) t)
    (hoff : off < 0x40) (hm : m ≠ 2 ∨ mb = 1) : t.addr = mbxReg mb off := by
  unfold mbPageAddr at h
  by_cases hpf1 : m = 2
  · have hmb : mb = 1 := hm.resolve_left fun hne => hne hpf1
    rw [if_pos ⟨hpf1, hmb⟩] at h
    obtain ⟨x, hx, haddr⟩ := reaches_pf1 (hpf1 ▸ h)
    rw [pf1Addr, if_pos hoff, Option.some.injEq] at hx
    rw [haddr, ← hx, hmb]
    rfl
  · rw [if_neg fun e => hpf1 e.1] at h
    exact (reaches_regAt h hpf1).1

theorem reaches_mbArea {s : State} {m mb i : Nat} {t : Target} (h : Reaches s m (mbAreaAddr m mb i) t) (hi : i < 1024)
    (hm : m ≠ 2 ∨ mb = 1) : t.addr = mbxBase + 0x2000 + 0x2000 * mb + 4 * i := by
  unfold mbAreaAddr at h
  by_cases hpf1 : m = 2
  · have hmb : mb = 1 := hm.resolve_left fun hne => hne hpf1
    rw [if_pos ⟨hpf1, hmb⟩] at h
    obtain ⟨x, hx, haddr⟩ := reaches_pf1 (hpf1 ▸ h)
    rw [pf1Addr, if_neg (by omega), if_pos (by omega), Option.some.injEq] at hx
    omega
  · rw [if_neg fun e => hpf1 e.1] at h
    exact (reaches_regAt h hpf1).1

theorem mbOk_of {s : State} {m a mb : Nat} {t : Target} (h : Reaches s m a t) (hmb : mb < 5) : mbOk m mb = true :=
  masterOk_and h hmb

/-- Settles O28: the row of each register says its effect. -/
theorem captureAndMailboxWritesComplete : Obligations.CaptureAndMailboxWritesComplete := by
  unfold Obligations.CaptureAndMailboxWritesComplete
  obtain ⟨bpmCapture_fields, glbCapInfo_fields, pmcOvfCap_fields, fclStatus_fields, fclFirst_fields,
    fclLogPop_fields, fclCfg_fields, pipCtl_fields, secDbgReq_fields⟩ := capture_rows
  obtain ⟨mbxDoorbell_fields, mbxCmdProd_fields, mbxRspCons_fields, mbxRingCfg_fields⟩ := mbxPage_rows
  refine ⟨?_, ?_, ?_, ?_, ?_, ?_, ?_, ?_, ?_, ?_, ?_, ?_, ?_, ?_, ?_, ?_⟩
  · intro s m d t h hd
    exact writes_at h (needs_true (dieOk_of h hd)) (bpmCapture_fields d hd) nofun ⟨nofun, nofun, nofun⟩
      fun _ _ _ _ _ => storeFields_bit rfl (by decide) capture_bit
  · intro s m t h
    have haddr := (reaches_regAt h (reaches_not_pf1 h (by decide))).1
    have hact := (reaches_fields h haddr glbCapInfo_fields).2.1
    exact writes_row h haddr (needs_true (masterOk_of h)) glbCapInfo_fields
      (lockDrops_other (hact ▸ nofun) (hact ▸ nofun) (hact ▸ nofun))
      fun _ _ _ _ _ => storeFields_bit rfl (by decide) capture_bit
  · intro s m p t h hp
    exact writes_at h (needs_true (masterOk_and h hp)) (pmcOvfCap_fields p hp) nofun ⟨nofun, nofun, nofun⟩
      fun _ _ _ _ _ => storeFields_bit rfl (by decide) capture_bit
  · intro s m w v t h hw
    exact writes_at h (needs_true (masterOk_and h hw)) (fclStatus_fields w hw) nofun ⟨nofun, nofun, nofun⟩
      fun _ _ _ _ _ => rfl
  · intro s m t h
    exact writes_at h (needs_true (masterOk_of h)) fclFirst_fields nofun ⟨nofun, nofun, nofun⟩ fun _ _ _ _ _ => rfl
  · intro s m t h
    exact writes_at h (needs_true (masterOk_of h)) fclLogPop_fields nofun ⟨nofun, nofun, nofun⟩ fun _ _ _ _ _ => rfl
  · intro s m t h hlock
    have haddr := (reaches_regAt h (reaches_not_pf1 h (pf1Addr_of_fields fclCfg_fields nofun))).1
    exact writes_row h haddr (needs_true (masterOk_of h)) fclCfg_fields (lockDrops_free hlock)
      fun _ _ _ u _ => fclCfgWrite_lock (rd s fclCfg) u
  · intro s m n mode t h hn hmode
    have hfld : fld (wd mode) 0 2 = mode := by unfold fld wd; simp; omega
    refine writes_at h (needs_true ?_) (pipCtl_fields n hn) nofun ⟨nofun, nofun, nofun⟩ fun _ _ _ u _ => ?_
    · rw [pipOk, masterOk_of h, decide_eq_true hn, decide_eq_true hmode]; rfl
    · show pipModeWrite n (fld (wd mode) 0 2) u = _
      rw [hfld]
  · intro s m t h
    exact writes_at h (needs_true (masterOk_of h)) secDbgReq_fields nofun ⟨nofun, nofun, nofun⟩ fun _ _ _ _ _ => rfl
  · intro s m w bad t h hw
    exact (needs_true (masterOk_and h hw)).trans (congrArg _ (winCmd_written 1 bad h hw))
  · intro s m w t h hw
    exact (needs_true (masterOk_and h hw)).trans (congrArg _ (winCmd_written 2 false h hw))
  · intro s m mb t h hmb hm
    have haddr := reaches_mbPage h (by decide) hm
    have hact := (reaches_fields h haddr (mbxDoorbell_fields mb hmb)).2.1
    refine writes_row h haddr (needs_true (mbOk_of h hmb)) (mbxDoorbell_fields mb hmb)
      (lockDrops_other (hact ▸ nofun) (hact ▸ nofun) (hact ▸ nofun)) fun _ _ _ u _ => ?_
    show doorbell (mbxPage (mbxReg mb mbxDoorbellOff)) u = _
    rw [mbxPage_mbxReg (by decide)]
  · intro s m mb i v t h hmb hi hm
    have haddr := reaches_mbArea h hi hm
    have hact := (reaches_fields h haddr (mbxArea_fields hmb hi)).2.1
    refine writes_row h haddr (needs_true ?_) (mbxArea_fields hmb hi)
      (lockDrops_other (hact ▸ nofun) (hact ▸ nofun) (hact ▸ nofun)) fun _ _ _ u _ => ?_
    · rw [mbOk_of h hmb, decide_eq_true hi]; rfl
    · show areaWrite (mbxArea (mbxBase + 0x2000 + 0x2000 * mb + 4 * i)) i v u = _
      rw [mbxArea_area hi]
  · intro s m mb v es t h hmb hm
    have haddr := reaches_mbPage h (by decide) hm
    have hk := mbxCmdProd_fields mb hmb
    have hact := (reaches_fields h haddr hk).2.1
    have hwrite := busWrite_row (act := cmdProdWrite mb v) h haddr hk
      (lockDrops_other (hact ▸ nofun) (hact ▸ nofun) (hact ▸ nofun)) fun _ _ _ u _ => by
        show cmdProdWrite (mbxPage (mbxReg mb mbxCmdProdOff)) v u = _
        rw [mbxPage_mbxReg (by decide)]
    refine (needs_true (mbOk_of h hmb)).trans (congrArg _ (hwrite.trans ?_))
    rw [written, written, if_neg (by rw [hact]; nofun)]
  · intro s m mb v t h hmb hm
    have haddr := reaches_mbPage h (by decide) hm
    have hact := (reaches_fields h haddr (mbxRspCons_fields mb hmb)).2.1
    refine writes_row h haddr (needs_true (mbOk_of h hmb)) (mbxRspCons_fields mb hmb)
      (lockDrops_other (hact ▸ nofun) (hact ▸ nofun) (hact ▸ nofun)) fun _ _ _ u _ => ?_
    show rspConsWrite (mbxPage (mbxReg mb mbxRspConsOff)) v u = _
    rw [mbxPage_mbxReg (by decide)]
  · intro s m mb v t h hmb hm
    have haddr := reaches_mbPage h (by decide) hm
    have hact := (reaches_fields h haddr (mbxRingCfg_fields mb hmb)).2.1
    refine writes_row h haddr (needs_true (mbOk_of h hmb)) (mbxRingCfg_fields mb hmb)
      (lockDrops_other (hact ▸ nofun) (hact ▸ nofun) (hact ▸ nofun)) fun _ _ _ u _ => ?_
    show mbRingCfgWrite (mbxPage (mbxReg mb mbxRingCfgOff)) v u = _
    rw [mbxPage_mbxReg (by decide)]

end Sys2Proof.Machine
end

section
/-! What the block does by itself around its registers (R27 to R31, R62, R76, R77, R406, R428 to R432). -/

namespace Sys2Proof.Machine
open Sys2Proof

/-! ### Parity and restores -/

theorem contains_true {l : List Nat} {a : Nat} (h : a ∈ l) : l.contains a = true := List.contains_iff_mem.mpr h
theorem contains_false {l : List Nat} {a : Nat} (h : a ∉ l) : l.contains a = false :=
  Bool.eq_false_iff.mpr fun e => h (List.contains_iff_mem.mp e)

theorem parityFound_new {a : Nat} {s : State} (h : physAddr s a ∉ s.bus.restoreQ) :
    parityFound a s = (fun t : State => { t with bus := { t.bus with
      restoreQ := t.bus.restoreQ ++ [physAddr t a] } }) (raise srcCfgParity a 0 0 s) := by
  unfold parityFound
  dsimp only
  rw [raise_bus, contains_false h]
  rfl

theorem restoreWrite_bad {s : State} {a : Nat} {rest : List Nat} (hq : s.bus.restoreQ = a :: rest) (hbad : a ∈ s.bus.badPar) :
    restoreWrite s = incSat glbParStat 16 16 { s with
      regs := tset (resetOf a) s.regs a (restoreValue s a),
      ports := { s.ports with tuning := tset none s.ports.tuning a none },
      bus := { s.bus with restoreQ := rest, badPar := s.bus.badPar.filter (fun x => x != a),
                          restored := s.bus.restored.filter (fun x => x.1 != a) ++ [(a, s.tim.cnt)] } } := by
  unfold restoreWrite
  rw [hq]
  dsimp only
  rw [contains_true hbad, if_pos rfl]

/-- A restore 1 ms old is checked again. -/
theorem restoreVerify_due {s : State} {a t : Nat} (hmem : (a, t) ∈ s.bus.restored) (hdue : t + 10 ^ 6 ≤ s.tim.cnt) :
    restoreVerify a s = (fun s1 : State => if s1.bus.badPar.contains a then raise srcCfgRestoreFail a 7 (a / 65536) s1 else s1)
      { s with bus := { s.bus with restored := s.bus.restored.filter (fun x => x.1 != a) } } := by
  unfold restoreVerify
  refine if_pos (List.any_eq_true.mpr ⟨(a, t), hmem, ?_⟩)
  rw [beq_self_eq_true, decide_eq_true hdue]
  rfl

/-! ### Cells that have resynchronised -/

theorem cellResynced_ready {c : Nat} {through : List Nat} {s : State} (h : canResync s c = true) :
    cellResynced c through s = if 128 ≤ c then resync c s
      else if c % 4 = 0 ∧ (cellOf s c).sync = 1 then cutIngress (c / 4) through (resync c s)
      else if c % 4 = 1 ∧ (cellOf s c).sync = 2 then cutEgress (c / 4) through (resync c s) else resync c s := by
  unfold cellResynced
  rw [h]
  rfl

theorem exec_colResyncComplete {c : Nat} {through : List Nat} {s : State} (hc : c < cellCount) :
    exec (.colResyncComplete c through) s = .next (cellResynced c through s) :=
  (needs_true (decide_eq_true hc)).trans (congrArg _ (if_pos hc))

/-- Settles O29: each event under the condition of its branch. -/
theorem registerEventsComplete : Obligations.RegisterEventsComplete := by
  unfold Obligations.RegisterEventsComplete
  refine ⟨?_, ?_, ?_, ?_, ?_, ?_, ?_, ?_, ?_, ?_, ?_, ?_, ?_, ?_, ?_, ?_, ?_, ?_⟩
  · intro s c u hopen hraised hdue
    show Host.Outcome.next (uncommitted c s) = _
    rw [uncommitted, hopen]
    dsimp only
    rw [hraised, if_neg (by simpa using hdue)]
  · intro s c u hopen hstill
    show Host.Outcome.next (uncommitted c s) = _
    rw [uncommitted, hopen]
    dsimp only
    rw [if_pos (by simpa using hstill)]
  · intro s h
    show Host.Outcome.next (if fwRuns s then applyLog s else s) = _
    rw [if_pos h]
  · intro s a us hprot hpar hstg
    refine (needs_true hprot).trans ?_
    simp only [parityCheck, contains_false hpar, contains_false hstg, Bool.false_eq_true, if_false]
  · intro s a hprot hpar hstg hq
    refine (needs_true hprot).trans ?_
    simp only [parityCheck, contains_true hpar, if_true, parityFound_new hq, raise_bus, contains_false hstg,
      Bool.false_eq_true, if_false]
  · intro s a hprot hpar hstg
    refine (needs_true hprot).trans ?_
    simp only [parityCheck, contains_false hpar, contains_true hstg, Bool.false_eq_true, if_false, if_true]
  · intro s a rest hfw hq hbad
    refine ⟨_, ?_, restoreWrite_bad hq hbad⟩
    show Host.Outcome.next (if fwRuns s then restoreWrite s else s) = _
    rw [if_pos hfw]
  · intro s a t hmem hdue hbad
    show Host.Outcome.next (restoreVerify a s) = _
    rw [restoreVerify_due hmem hdue]
    simp only [contains_true hbad, if_true]
  · intro s a t hmem hdue hbad
    show Host.Outcome.next (restoreVerify a s) = _
    rw [restoreVerify_due hmem hdue]
    simp only [contains_false hbad, Bool.false_eq_true, if_false]
  · intro s d hd
    refine (needs_true (decide_eq_true hd)).trans (congrArg _ ?_)
    have habsent : declaredAbsent s d = if d = 38 then onOscillator s else decide (d ∈ s.col.stopped) := by
      simp only [declaredAbsent, List.contains_eq_mem]
    rw [habsent]
    by_cases h : (if d = 38 then onOscillator s else decide (d ∈ s.col.stopped)) = true
    · rw [if_pos h, if_neg fun e => by rw [h] at e; exact Bool.noConfusion e.2]
    · rw [if_neg h, if_pos ⟨hd, Bool.eq_false_iff.mpr h⟩]
  · intro s d ps hd hrun
    refine (needs_true (decide_eq_true hd)).trans (congrArg _ ((if_pos hd).trans ?_))
    simp only [clockBack, contains_false hrun, Bool.false_eq_true, not_false_eq_true, if_true]
  · intro s d ps hd hstop
    refine (needs_true (decide_eq_true hd)).trans (congrArg _ ((if_pos hd).trans ?_))
    simp only [clockBack, contains_true hstop, not_true_eq_false, if_false]
  · intro s c thru hc hready hplain
    rw [exec_colResyncComplete hc, cellResynced_ready hready]
    by_cases hhigh : 128 ≤ c
    · rw [if_pos hhigh]
    · rw [if_neg hhigh, if_neg (by omega), if_neg (by omega)]
  · intro s n thru hn hready
    have hc : 4 * n < 304 := by omega
    rw [exec_colResyncComplete hc, cellResynced_ready hready, if_neg (by omega), Nat.mul_div_cancel_left n (by omega)]
    by_cases hsync : (cellOf s (4 * n)).sync = 1
    · rw [if_pos ⟨by omega, hsync⟩, if_pos hsync]
    · rw [if_neg fun e => hsync e.2, if_neg (by omega), if_neg hsync]
  · intro s n thru hn hready
    have hc : 4 * n + 1 < 304 := by omega
    have hgroup : (4 * n + 1) / 4 = n := by omega
    rw [exec_colResyncComplete hc, cellResynced_ready hready, if_neg (by omega), if_neg (by omega), hgroup]
    by_cases hsync : (cellOf s (4 * n + 1)).sync = 2
    · rw [if_pos ⟨by omega, hsync⟩, if_pos hsync]
    · rw [if_neg fun e => hsync e.2, if_neg hsync]
  · intro s c thru hc hready
    rw [exec_colResyncComplete hc, cellResynced, hready]
    rfl
  · intro s hclock hdue
    show Host.Outcome.next (periodService s) = _
    have hperiod : periodDue s = true := by
      rw [periodDue, contains_false hclock]
      exact decide_eq_true hdue
    rw [periodService, if_pos hperiod]
    rfl
  · intro s hnot
    show Host.Outcome.next (periodService s) = _
    have hperiod : periodDue s = false := by
      rcases hnot with hclock | hlast
      · rw [periodDue, contains_true hclock]; rfl
      · rw [periodDue, periodNow, decide_eq_false (Nat.not_lt.mpr hlast), Bool.and_false]
    rw [periodService, hperiod]
    rfl

end Sys2Proof.Machine
end

section
/-! What the col cells do by themselves (R63 to R80). -/

namespace Sys2Proof.Machine
open Sys2Proof

theorem ofType_iff {c t : Nat} : ofType c t = true ↔ c < cellCount ∧ cellType c = t := by
  simp only [ofType, Bool.and_eq_true, decide_eq_true_eq, beq_iff_eq]

theorem joined_iff {x : ColCell} : joined x = true ↔ x.rst = 0 ∧ x.sync = 0 := by
  simp only [joined, Bool.and_eq_true, beq_iff_eq]

/-- The source of a cell whose clock runs and that is not in reset may write it. -/
theorem sourceWrites {s : State} {c : Nat} {x : ColCell} (h1 : x.rst ≠ 1) (h3 : x.rst ≠ 3)
    (hclock : clockRuns s (cellSrc c) = true) : (x.rst == 1 || x.rst == 3 || !clockRuns s (cellSrc c)) = false := by
  rw [beq_false_of_ne h1, beq_false_of_ne h3, hclock]; rfl

theorem joined_rst {x : ColCell} {n : Nat} (h : joined x = true) (hn : n ≠ 0) : x.rst ≠ n :=
  fun e => hn (e ▸ (joined_iff.mp h).1)

section
variable {s : State} {c : Nat} {x : ColCell}

theorem transferStart_joined (v : Nat) (hx : x = cellOf s c) (hj : joined x = true) (hclock : clockRuns s (cellSrc c) = true) :
    transferStart c v s = if x.flag then s else setCell c (begin_ { x with cur := v } v s.tim.cnt) s := by
  subst hx
  have hsource := sourceWrites (joined_rst hj (by decide)) (joined_rst hj (by decide)) hclock
  simp only [transferStart, hsource, hj, Bool.false_eq_true, if_false, Bool.not_true]

theorem transferStart_apart (v : Nat) (hx : x = cellOf s c) (hj : joined x = false) (h1 : x.rst ≠ 1) (h3 : x.rst ≠ 3)
    (hclock : clockRuns s (cellSrc c) = true) : transferStart c v s = setCell c { x with cur := v } s := by
  subst hx
  simp only [transferStart, sourceWrites h1 h3 hclock, hj, Bool.false_eq_true, if_false, Bool.not_false, if_true]

theorem pulseArrives_joined (hx : x = cellOf s c) (hj : joined x = true) (hclock : clockRuns s (cellSrc c) = true) :
    pulseArrives c s = if x.flag = false then setCell c (begin_ { x with ovfIn := x.accOvf } 1 s.tim.cnt) s
      else if x.acc < 15 then setCell c { x with acc := x.acc + 1 } s
      else pulseLost c (setCell c { x with accOvf := true } s) := by
  subst hx
  have h1 : ((cellOf s c).rst == 1) = false := beq_false_of_ne (joined_rst hj (by decide))
  have h3 : ((cellOf s c).rst == 3) = false := beq_false_of_ne (joined_rst hj (by decide))
  cases hflag : (cellOf s c).flag <;> simp [pulseArrives, h1, h3, hclock, hj, hflag]

theorem capture_live (hx : x = cellOf s c) (hj : joined x = true) (hrun : bothRun s c = true) :
    capture c s = if cellType c = cellF then setCell c { x with seen := x.fifo.length } s
      else if !x.flag || x.captured then s
      else inc (cellXfer c) (setCell c { x with
        captured := true, last := if cellType c = cellP then x.last + x.val else x.val } s) := by
  subst hx
  simp only [capture, hj, hrun, Bool.not_true, Bool.or_self, Bool.false_eq_true, if_false]

theorem ackSeen_live (hx : x = cellOf s c) (hj : joined x = true) (hrun : bothRun s c = true) :
    ackSeen c s = if cellType c = cellF then setCell c (fifoFill c s.tim.cnt { x with
        fifo := x.fifo.drop x.read, seen := x.seen - x.read, read := 0, stalled := x.stalled && x.read == 0 }) s
      else if !x.flag || !x.captured then s
      else if 0 < x.acc then setCell c (begin_ { x with ovfIn := x.accOvf, acc := 0 } x.acc s.tim.cnt) s
      else setCell c { x with flag := false, captured := false, ovfIn := false, stalled := false } s := by
  subst hx
  simp only [ackSeen, hj, hrun, Bool.not_true, Bool.or_self, Bool.false_eq_true, if_false]

theorem fifoWrite_source (w : Nat) (hx : x = cellOf s c) (h1 : x.rst ≠ 1) (h3 : x.rst ≠ 3)
    (hclock : clockRuns s (cellSrc c) = true) :
    fifoWrite c w s = setCell c (if joined x then fifoFill c s.tim.cnt { x with kept := x.kept ++ [w] }
      else { x with kept := x.kept ++ [w] }) s := by
  subst hx
  simp only [fifoWrite, h1, h3, hclock, Bool.true_eq_false, or_self, if_false]

/-- One word finds a free entry, or stays with its source. -/
theorem fifoFill_one (now w : Nat) (x : ColCell) (hkept : x.kept = []) :
    let y := fifoFill c now { x with kept := x.kept ++ [w] }
    (if x.fifo.length < cellDepth c then y.fifo = x.fifo ++ [w] ∧ y.kept = [] else y.fifo = x.fifo ∧ y.kept = [w]) ∧
      y = { x with fifo := y.fifo, kept := y.kept, since := y.since, fullAt := y.fullAt } := by
  refine ⟨?_, rfl⟩
  simp only [fifoFill, hkept, List.nil_append]
  by_cases hroom : x.fifo.length < cellDepth c
  · obtain ⟨n, hn⟩ : ∃ n, cellDepth c - x.fifo.length = n + 1 := ⟨cellDepth c - x.fifo.length - 1, by omega⟩
    rw [if_pos hroom, hn]
    simp
  · rw [if_neg hroom, Nat.sub_eq_zero_of_le (Nat.not_lt.mp hroom)]
    exact ⟨List.append_nil _, rfl⟩

theorem stallCheck_holds {lim : Nat} (hx : x = cellOf s c) (hlim : lim = rdF s (cellCfg c) 0 16)
    (hon : lim ≠ 0) (hfirst : rdBit s (cellStat c) 8 = false) (hstall : stallHolds s c lim x = true) :
    stallCheck c s = raise srcColStall c 0 0 (wrBit (colStallPend (c / 32)) (c % 32) true
      (wrBit (cellStat c) 8 true (setCell c { x with stalled := true } s))) := by
  subst hx hlim
  simp only [stallCheck, hstall, hfirst, bne_iff_ne.mpr hon, Bool.not_false, Bool.and_self, if_true]

theorem stallCheck_quiet
    (h : stallHolds s c (rdF s (cellCfg c) 0 16) (cellOf s c) = false ∨ rdF s (cellCfg c) 0 16 = 0 ∨
      rdBit s (cellStat c) 8 = true) : stallCheck c s = s := by
  rcases h with h | h | h <;> simp [stallCheck, h]

end

/-- Settles O30: a cell that is joined takes the branch of its type and phase. -/
theorem cellEventsComplete : Obligations.CellEventsComplete := by
  unfold Obligations.CellEventsComplete
  refine ⟨?_, ?_, ?_, ?_, ?_, ?_, ?_, ?_, ?_, ?_, ?_, ?_, ?_, ?_, ?_⟩
  · intro s c v x hx htype hj hclock
    exact (if_pos htype).trans (congrArg _ (transferStart_joined v hx hj hclock))
  · intro s c v x hx htype hj h1 h3 hclock
    exact (if_pos htype).trans (congrArg _ (transferStart_apart v hx hj h1 h3 hclock))
  · intro s c x hx htype hj hflag hclock
    exact (if_pos htype).trans (congrArg _ ((pulseArrives_joined hx hj hclock).trans (if_pos hflag)))
  · intro s c x hx htype hj hflag hclock
    refine (if_pos htype).trans (congrArg _ ((pulseArrives_joined hx hj hclock).trans ?_))
    rw [if_neg (by rw [hflag]; decide)]
    rfl
  · intro s c x hx hc htype hj hrun
    refine (if_pos hc).trans (congrArg _ ((capture_live hx hj hrun).trans ?_))
    rw [if_neg htype]
    by_cases hgo : x.flag = true ∧ x.captured = false
    · rw [if_pos hgo, hgo.1, hgo.2]; rfl
    · rw [if_neg hgo, if_pos (by cases hflag : x.flag <;> simp_all)]
  · intro s c x hx hc htype hj hrun hflag hcap
    refine (if_pos hc).trans (congrArg _ ((ackSeen_live hx hj hrun).trans ?_))
    rw [if_neg htype, hflag, hcap]
    by_cases hacc : 0 < x.acc
    · rw [if_pos hacc, if_pos hacc]; rfl
    · rw [if_neg hacc, if_neg hacc]; rfl
  · intro s c x hx htype hj hrun
    obtain ⟨hc, hfifo⟩ := ofType_iff.mp htype
    exact ⟨(if_pos hc).trans (congrArg _ ((capture_live hx hj hrun).trans (if_pos hfifo))),
      (if_pos hc).trans (congrArg _ ((ackSeen_live hx hj hrun).trans (if_pos hfifo)))⟩
  · intro s c w x hx htype hj hclock hkept
    refine ⟨fifoFill c s.tim.cnt { x with kept := x.kept ++ [w] }, (if_pos htype).trans (congrArg _ ?_),
      fifoFill_one s.tim.cnt w x hkept⟩
    rw [fifoWrite_source w hx (joined_rst hj (by decide)) (joined_rst hj (by decide)) hclock, if_pos hj]
  · intro s c w x hx htype hj h1 h3 hclock
    refine (if_pos htype).trans (congrArg _ ((fifoWrite_source w hx h1 h3 hclock).trans ?_))
    rw [hj]
    rfl
  · intro s c x hx htype hj hrun
    refine (if_pos htype).trans (congrArg _ ?_)
    subst hx
    simp only [fifoRead, hj, hrun, and_true]
  · intro s c x lim hx hlim hc htype hflag hon hclock hfirst
    have hholds : stallHolds s c lim x = decide (lim * 1000 < s.tim.cnt - x.since) := by
      rw [stallHolds, if_neg htype, hflag, stalledFor, contains_false hclock, Bool.false_or, Bool.true_and]
    refine (if_pos hc).trans (congrArg _ ?_)
    by_cases hlate : lim * 1000 < s.tim.cnt - x.since
    · rw [if_pos hlate]
      exact stallCheck_holds hx hlim hon hfirst (hholds.trans (decide_eq_true hlate))
    · rw [if_neg hlate]
      subst hx hlim
      exact stallCheck_quiet (.inl (hholds.trans (decide_eq_false hlate)))
  · intro s c x lim hx hlim htype hon hfirst hlate
    obtain ⟨hc, hfifo⟩ := ofType_iff.mp htype
    refine (if_pos hc).trans (congrArg _ (stallCheck_holds hx hlim hon hfirst ?_))
    rw [stallHolds, if_pos hfifo]
    rcases hlate with ⟨hwords, hlate⟩ | ⟨hfull, hlate⟩
    · simp [stalledFor, hlate, hwords]
    · simp [stalledFor, hlate, hfull]
  · intro s c hc hquiet
    exact (if_pos hc).trans (congrArg _ (stallCheck_quiet (.inr hquiet)))
  · intro s c x hx hc hj
    obtain ⟨hrst, hsync⟩ := joined_iff.mp hj
    subst hx
    constructor <;>
    · refine (if_pos hc).trans (congrArg _ ?_)
      simp [partnerReset, hrst, hsync, sideLost]
  · intro s
    rfl

end Sys2Proof.Machine
end

section
/-! What an island's loop does by itself (R44 to R53). -/

namespace Sys2Proof.Machine
open Sys2Proof

/-! ### Fields and bits of one word -/

theorem bit_setFld_other (w : Word) (lo n v j : Nat) (h : lo + n ≤ 32) (hj : j < lo ∨ lo + n ≤ j) :
    bit (setFld w lo n v) j = bit w j := by
  rw [bit, fld_setFld_other _ _ _ _ _ _ h (hj.imp_left Nat.succ_le_of_lt), bit]

theorem fld_setBit_other (w : Word) (i lo n : Nat) (b : Bool) (hi : i < 32) (h : lo + n ≤ i ∨ i < lo) :
    fld (setBit w i b) lo n = fld w lo n := fld_setFld_other _ _ _ _ _ _ hi (h.imp_right Nat.succ_le_of_lt)

/-! ### Reads after writes of an island's registers -/

theorem rd_wrF_same (a lo n v : Nat) (s : State) : rd (wrF a lo n v s) a = setFld (rd s a) lo n v := rd_wr_same ..
theorem rd_wrBit_same (a i : Nat) (b : Bool) (s : State) : rd (wrBit a i b s) a = setBit (rd s a) i b := rd_wr_same ..
theorem rd_wrF_other {a b : Nat} (lo n v : Nat) (s : State) (h : a ≠ b) : rd (wrF b lo n v s) a = rd s a := rd_wr_other _ _ _ _ h
theorem rd_wrBit_other {a b : Nat} (i : Nat) (v : Bool) (s : State) (h : a ≠ b) : rd (wrBit b i v s) a = rd s a :=
  rd_wr_other _ _ _ _ h
theorem rd_incBy_other {a b : Nat} (n : Nat) (s : State) (h : a ≠ b) : rd (incBy b n s) a = rd s a := rd_wr_other _ _ _ _ h
@[simp] theorem rd_islPut (i a : Nat) (x : IslSt) (s : State) : rd (islPut i x s) a = rd s a := rfl
@[simp] theorem islGet_islPut (i : Nat) (x : IslSt) (s : State) : islGet (islPut i x s) i = x := tget_tset_same _ _ _ _

theorem islStat_ne_islPeak (i : Nat) : islStat i ≠ islPeak i := by unfold islStat islPeak; omega
theorem islStat_ne_islSteps (i : Nat) : islStat i ≠ islSteps i := by unfold islStat islSteps; omega
theorem islStat_ne_islPace (i : Nat) : islStat i ≠ islPace i := by unfold islStat islPace; omega
theorem islStat_ne_pwiPend (i j : Nat) (hj : j < islCount) : islStat i ≠ pwiPend (j / 32) := by
  have h : j < 96 := hj
  unfold islStat pwiPend; omega
theorem islCfg_ne_islStat (i : Nat) : islCfg i ≠ islStat i := by unfold islCfg islStat; omega
theorem islCfg_ne_islSteps (i : Nat) : islCfg i ≠ islSteps i := by unfold islCfg islSteps; omega

/-! ### The commanded voltage set -/

theorem setCode_stat (i c : Nat) (s : State) : ∃ low high, rd (setCode i c s) (islStat i) =
    setBit (setBit (setBit (setFld (rd s (islStat i)) 0 6 c) 6 low) 7 high) 9 (belowCode (rdF s (islStat i) 16 10) c) := by
  refine ⟨c == islFloor s i, c == islCeil s i, ?_⟩
  unfold setCode
  dsimp only
  rw [rd_wr_other _ _ _ _ (islStat_ne_islPeak i), rd_wr_same, fld_setBit_other _ _ _ _ _ (by omega) (by omega),
    fld_setBit_other _ _ _ _ _ (by omega) (by omega), fld_setFld_other _ _ _ _ _ _ (by omega) (by omega), rdF]

theorem islCode_setCode (i : Nat) {c : Nat} (s : State) (hc : c < 64) : islCode (setCode i c s) i = c := by
  obtain ⟨low, high, hstat⟩ := setCode_stat i c s
  rw [islCode, rdF, hstat, fld_setBit_other _ _ _ _ _ (by omega) (by omega), fld_setBit_other _ _ _ _ _ (by omega) (by omega),
    fld_setBit_other _ _ _ _ _ (by omega) (by omega), fld_setFld_same _ _ _ _ (by omega)]
  exact Nat.mod_eq_of_lt hc

theorem setCode_low (i c : Nat) (s : State) :
    rdBit (setCode i c s) (islStat i) 9 = belowCode (rdF s (islStat i) 16 10) c := by
  obtain ⟨low, high, hstat⟩ := setCode_stat i c s
  rw [rdBit, hstat, bit_setBit_same _ _ _ (by omega)]

theorem rd_setCode_other {i c a : Nat} (s : State) (hstat : a ≠ islStat i) (hpeak : a ≠ islPeak i) :
    rd (setCode i c s) a = rd s a := by
  unfold setCode
  rw [rd_wr_other _ _ _ _ hpeak, rd_wr_other _ _ _ _ hstat]

/-! ### The step of a loop -/

theorem islCode_lt (s : State) (i : Nat) : islCode s i < 64 := fld_lt _ _ _
theorem islFloor_lt (s : State) (i : Nat) : islFloor s i < 64 := fld_lt _ _ _
theorem islCeil_lt (s : State) (i : Nat) : islCeil s i < 64 := fld_lt _ _ _

/-- The lower branch of a step. -/
theorem fst_ite_lower (p q r : Prop) [Decidable (p ∧ q ∧ r)] (v : Nat) (x y : IslSt) :
    (if p ∧ q ∧ r then (v - 1, x) else (v, y)).1 = v ∨ ((if p ∧ q ∧ r then (v - 1, x) else (v, y)).1 = v - 1 ∧ r) := by
  by_cases h : p ∧ q ∧ r
  · rw [if_pos h]; exact .inr ⟨rfl, h.2.2⟩
  · rw [if_neg h]; exact .inl rfl

theorem lowered_of_lt {p q r : Prop} {_ : Decidable (p ∧ q ∧ r)} {v : Nat} {x y : IslSt}
    (h : (if p ∧ q ∧ r then (v - 1, x) else (v, y)).1 < v) : r :=
  (fst_ite_lower p q r v x y).elim (fun e => absurd e (Nat.ne_of_lt h)) And.right

/-- An automatic loop's step: one code at most, up toward the floor or the ceiling, down toward the ceiling or the floor. -/
theorem autoStep_moves (s : State) (i occ : Nat) :
    (autoStep s i occ).1 = islCode s i ∨
    ((autoStep s i occ).1 = islCode s i + 1 ∧ (islCode s i < islFloor s i ∨ islCode s i < islCeil s i)) ∨
    ((autoStep s i occ).1 = islCode s i - 1 ∧ (islCeil s i < islCode s i ∨ islFloor s i < islCode s i)) := by
  unfold autoStep
  dsimp only
  split
  · next h => exact .inr (.inl ⟨rfl, .inl h⟩)
  · split
    · next h => exact .inr (.inr ⟨rfl, .inl h⟩)
    · split
      · by_cases h : islCode s i < islCeil s i
        · exact .inr (.inl ⟨if_pos h, .inr h⟩)
        · exact .inl (if_neg h)
      · by_cases hlower : lowerOk s i occ = true
        · rw [if_pos hlower]
          exact (fst_ite_lower ..).imp id fun h => .inr ⟨h.1, .inr h.2⟩
        · rw [if_neg hlower]
          exact .inl rfl

theorem islStep_auto {s : State} {i : Nat} (occ : Nat) (h : islMode s i = 0) : islStep s i occ = autoStep s i occ := by
  rw [islStep, h]
  rfl

/-- In the fixed mode the code moves toward FIXED_V. -/
theorem islStep_fixed {s : State} {i : Nat} (occ : Nat) (h : islMode s i = 2) : (islStep s i occ).1 =
    if islCode s i < rdF s (islCfg i) 20 6 then islCode s i + 1
    else if rdF s (islCfg i) 20 6 < islCode s i then islCode s i - 1 else islCode s i := by
  rw [islStep, h]
  rfl

theorem islStep_held {s : State} {i : Nat} (occ : Nat) (h0 : islMode s i ≠ 0) (h2 : islMode s i ≠ 2) :
    (islStep s i occ).1 = islCode s i := by
  unfold islStep
  dsimp only
  split
  · contradiction
  · contradiction
  · rfl

/-- A step moves the code by one at most, and up only below one of the codes that the settings name. -/
theorem islStep_moves (s : State) (i occ : Nat) :
    (islStep s i occ).1 = islCode s i ∨
    ((islStep s i occ).1 = islCode s i + 1 ∧ (islCode s i < islFloor s i ∨ islCode s i < islCeil s i ∨
      (islMode s i = 2 ∧ islCode s i < rdF s (islCfg i) 20 6))) ∨
    (islStep s i occ).1 = islCode s i - 1 := by
  by_cases h0 : islMode s i = 0
  · rw [islStep_auto occ h0]
    rcases autoStep_moves s i occ with h | ⟨h, hup⟩ | ⟨h, _⟩
    · exact .inl h
    · exact .inr (.inl ⟨h, hup.elim .inl fun e => .inr (.inl e)⟩)
    · exact .inr (.inr h)
  · by_cases h2 : islMode s i = 2
    · rw [islStep_fixed occ h2]
      split
      · next h => exact .inr (.inl ⟨rfl, .inr (.inr ⟨h2, h⟩)⟩)
      · split
        · exact .inr (.inr rfl)
        · exact .inl rfl
    · exact .inl (islStep_held occ h0 h2)

theorem islStep_lt (s : State) (i occ : Nat) : (islStep s i occ).1 < 64 := by
  have hcode := islCode_lt s i
  have hfloor := islFloor_lt s i
  have hceil := islCeil_lt s i
  have hfixed : rdF s (islCfg i) 20 6 < 64 := fld_lt _ _ _
  rcases islStep_moves s i occ with h | ⟨h, hup⟩ | h <;> omega

/-! ### An evaluation -/

/-- What every evaluation writes before the loop's step: the occupancy and the steps. -/
def evalBase (i occ steps : Nat) (s : State) : State := incBy (islSteps i) steps (wrF (islStat i) 10 6 occ s)

/-- The state that an evaluation of a running loop leaves, but for the ceiling fault. -/
def evalState (i occ steps : Nat) (s : State) : State :=
  let s1 := islPut i { (islStep s i occ).2 with
    pinned := if islPinned s i occ then some ((islGet s i).pinned.getD s.tim.cnt) else none
    evaluated := some s.tim.cnt } (setCode i (islStep s i occ).1 (evalBase i occ steps s))
  wr (islStat i) (setFld (setBit (setBit (rd s1 (islStat i)) 8 (islPinned s i occ)) 28 false) 26 2 (islMode s i)) s1

/-- The cases of an evaluation. -/
theorem evaluate_eq (i occ steps : Nat) (s : State) : evaluate i occ steps s =
    if ticksStopped s then evalBase i occ steps s
    else if islOos s i then islFollow false i (evalBase i occ steps s)
    else if !elapsed s (islGet s i).evaluated (rdF s pwiTiming 0 8) then evalBase i occ steps s
    else if rdF s pwiCeilTime 0 20 = 0 then ceilingCheck i (evalState i occ steps s) else evalState i occ steps s := rfl

theorem evalState_stat (i occ steps : Nat) (s : State) : rd (evalState i occ steps s) (islStat i) =
    setFld (setBit (setBit (rd (setCode i (islStep s i occ).1 (evalBase i occ steps s)) (islStat i)) 8 (islPinned s i occ))
      28 false) 26 2 (islMode s i) := by
  unfold evalState
  dsimp only
  rw [rd_wr_same, rd_islPut]

theorem rd_evalBase_stat (i occ steps : Nat) (s : State) :
    rd (evalBase i occ steps s) (islStat i) = setFld (rd s (islStat i)) 10 6 occ := by
  rw [evalBase, rd_incBy_other _ _ (islStat_ne_islSteps i), rd_wrF_same]

theorem rd_evalBase_other {i occ steps a : Nat} (s : State) (hstat : a ≠ islStat i) (hsteps : a ≠ islSteps i) :
    rd (evalBase i occ steps s) a = rd s a := by
  rw [evalBase, rd_incBy_other _ _ hsteps, rd_wrF_other _ _ _ _ hstat]

theorem islCode_evalState (i occ steps : Nat) (s : State) : islCode (evalState i occ steps s) i = (islStep s i occ).1 := by
  rw [islCode, rdF, evalState_stat, fld_setFld_other _ _ _ _ _ _ (by omega) (by omega),
    fld_setBit_other _ _ _ _ _ (by omega) (by omega), fld_setBit_other _ _ _ _ _ (by omega) (by omega)]
  exact islCode_setCode i _ (islStep_lt s i occ)

theorem evalState_pinned (i occ steps : Nat) (s : State) : rdBit (evalState i occ steps s) (islStat i) 8 = islPinned s i occ := by
  rw [rdBit, evalState_stat, bit_setFld_other _ _ _ _ _ (by omega) (by omega),
    bit_setBit_other _ _ _ _ (by omega) (by omega), bit_setBit_same _ _ _ (by omega)]

theorem evalState_low (i occ steps : Nat) (s : State) : rdBit (evalState i occ steps s) (islStat i) 9 =
    belowCode (rdF s (islStat i) 16 10) (islCode (evalState i occ steps s) i) := by
  rw [islCode_evalState, rdBit, evalState_stat, bit_setFld_other _ _ _ _ _ (by omega) (by omega),
    bit_setBit_other _ _ _ _ (by omega) (by omega), bit_setBit_other _ _ _ _ (by omega) (by omega)]
  refine (setCode_low i _ _).trans ?_
  rw [rdF, rd_evalBase_stat i occ steps s, fld_setFld_other _ _ _ _ _ _ (by omega) (by omega), rdF]

theorem rd_evalState_other {i occ steps a : Nat} (s : State) (hstat : a ≠ islStat i) (hsteps : a ≠ islSteps i)
    (hpeak : a ≠ islPeak i) : rd (evalState i occ steps s) a = rd s a := by
  unfold evalState
  dsimp only
  rw [rd_wr_other _ _ _ _ hstat, rd_islPut, rd_setCode_other _ hstat hpeak, rd_evalBase_other _ hstat hsteps]

theorem islGet_evalState (i occ steps : Nat) (s : State) : islGet (evalState i occ steps s) i =
    { (islStep s i occ).2 with
      pinned := if islPinned s i occ then some ((islGet s i).pinned.getD s.tim.cnt) else none
      evaluated := some s.tim.cnt } := tget_tset_same _ _ _ _

/-- The ceiling check where the island is not pinned, or has been raised. -/
theorem ceilingCheck_quiet {i : Nat} {s : State} (h : (islGet s i).pinned = none ∨ islPend s i = true) :
    ceilingCheck i s = s := by
  unfold ceilingCheck
  split
  · rfl
  · next t hpinned =>
    rcases h with h | h
    · rw [hpinned] at h; cases h
    · rw [h]; rfl

theorem ceilingCheck_late {i t : Nat} {s : State} (hpinned : (islGet s i).pinned = some t) (hpend : islPend s i = false)
    (hlate : rdF s pwiCeilTime 0 20 * 1000 < s.tim.cnt - t) :
    ceilingCheck i s = raise srcIslCeiling i 9 i (wrBit (pwiPend (i / 32)) (i % 32) true s) := by
  unfold ceilingCheck
  rw [hpinned]
  dsimp only
  rw [hpend, decide_eq_true hlate]
  rfl

/-- Settles O31: an evaluation in the branch of the island's service, its time and its settings. -/
theorem islandEventsComplete : Obligations.IslandEventsComplete := by
  unfold Obligations.IslandEventsComplete
  refine ⟨?_, ?_, ?_, ?_, ?_, ?_, ?_⟩
  · intro s i n ps mv hi hmv hdue
    have hdue' : (!elapsed s (islGet s i).window (ratioLen s)) = false := by rw [ratioLen, hdue]; rfl
    refine ⟨_, (if_pos ⟨hi, hmv⟩).trans (congrArg _ (if_neg (by rw [hdue']; decide))), ?_, ?_, ?_, ?_⟩
    · rw [islGet_islPut]
    · rw [rd_islPut, rd_wr_same]; rfl
    · rw [rd_islPut, rd_wr_other _ _ _ _ (islStat_ne_islPace i), rd_wrBit_same, rd_wrF_same]; rfl
    · intro a hstat hpace
      rw [rd_islPut, rd_wr_other _ _ _ _ hpace, rd_wrBit_other _ _ _ hstat, rd_wrF_other _ _ _ _ hstat]
  · intro s i n ps mv u hi hmv hwindow hearly
    have hdue : elapsed s (islGet s i).window (ratioLen s) = false := by
      rw [hwindow, elapsed, decide_eq_false (by unfold ratioLen; omega)]
    refine (if_pos ⟨hi, hmv⟩).trans (congrArg _ (if_pos ?_))
    rw [hdue]; rfl
  · intro s i occ steps hi hocc hstop
    refine (if_pos ⟨hi, hocc⟩).trans (congrArg _ ((evaluate_eq i occ steps s).trans (if_pos ?_)))
    exact contains_true hstop
  · intro s i occ steps hi hocc hrun hoos
    have hticks : ticksStopped s = false := contains_false hrun
    refine (if_pos ⟨hi, hocc⟩).trans (congrArg _ ((evaluate_eq i occ steps s).trans ?_))
    rw [hticks, hoos]
    rfl
  · intro s i occ steps hi hocc hrun hoos hdue hceil
    have hticks : ticksStopped s = false := contains_false hrun
    refine ⟨evalState i occ steps s, (if_pos ⟨hi, hocc⟩).trans (congrArg _ ((evaluate_eq i occ steps s).trans ?_)),
      islCode_evalState i occ steps s, evalState_pinned i occ steps s, evalState_low i occ steps s, ?_, ?_,
      fun a hstat hsteps hpeak => rd_evalState_other s hstat hsteps hpeak⟩
    · rw [hticks, hoos, hdue, if_neg hceil]; rfl
    · rw [islGet_evalState]
    · rw [islGet_evalState]
  · intro s i t hi hpinned hpend hlate
    exact (if_pos hi).trans (congrArg _ (ceilingCheck_late hpinned hpend hlate))
  · intro s i hi hquiet
    exact (if_pos hi).trans (congrArg _ (ceilingCheck_quiet hquiet))

/-! ### The voltage window (R45 to R51) -/

theorem autoStep_below {s : State} {i : Nat} (occ : Nat) (h : islCode s i < islFloor s i) :
    autoStep s i occ = (islCode s i + 1, { islGet s i with dwell := none }) := if_pos h

theorem autoStep_above {s : State} {i : Nat} (occ : Nat) (hfloor : islFloor s i ≤ islCode s i)
    (h : islCeil s i < islCode s i) : autoStep s i occ = (islCode s i - 1, { islGet s i with dwell := none }) :=
  (if_neg (Nat.not_lt.mpr hfloor)).trans (if_pos h)

theorem autoStep_raise {s : State} {i occ : Nat} (hfloor : islFloor s i ≤ islCode s i) (hceil : islCode s i ≤ islCeil s i)
    (h : raiseWanted s i occ = true) : autoStep s i occ =
      (if islCode s i < islCeil s i then islCode s i + 1 else islCode s i, { islGet s i with dwell := none }) :=
  (if_neg (Nat.not_lt.mpr hfloor)).trans ((if_neg (Nat.not_lt.mpr hceil)).trans (if_pos h))

/-- An automatic loop goes down inside the window only where nothing raises and both lower conditions hold. -/
theorem autoStep_lowers {s : State} {i occ : Nat} (hceil : islCode s i ≤ islCeil s i)
    (h : (autoStep s i occ).1 < islCode s i) :
    raiseWanted s i occ = false ∧ lowerOk s i occ = true ∧ islFloor s i < islCode s i := by
  by_cases hfloor : islCode s i < islFloor s i
  · rw [autoStep_below occ hfloor] at h
    exact absurd h (by simp)
  · cases hraise : raiseWanted s i occ with
    | true =>
      rw [autoStep_raise (Nat.not_lt.mp hfloor) hceil hraise] at h
      dsimp only at h
      split at h <;> omega
    | false =>
      unfold autoStep at h
      rw [if_neg hfloor, if_neg (Nat.not_lt.mpr hceil), hraise, if_neg (by decide)] at h
      by_cases hlower : lowerOk s i occ = true
      · rw [if_pos hlower] at h
        exact ⟨rfl, hlower, lowered_of_lt h⟩
      · rw [if_neg hlower] at h
        exact absurd h (Nat.lt_irrefl _)

/-- A step stays at 60 where the settings do. -/
theorem islStep_le_sixty {s : State} {i : Nat} (occ : Nat) (hcode : islCode s i ≤ 60) (hwindow : islFloor s i ≤ islCeil s i)
    (hceil : islCeil s i ≤ 60) (hfixed : islMode s i = 2 → rdF s (islCfg i) 20 6 ≤ 60) : (islStep s i occ).1 ≤ 60 := by
  rcases islStep_moves s i occ with h | ⟨h, hup⟩ | h
  · omega
  · rcases hup with hup | hup | ⟨hmode, hup⟩
    · omega
    · omega
    · have := hfixed hmode; omega
  · omega

theorem islCode_evalBase (i occ steps : Nat) (s : State) : islCode (evalBase i occ steps s) i = islCode s i := by
  rw [islCode, rdF, rd_evalBase_stat, fld_setFld_other _ _ _ _ _ _ (by omega) (by omega), islCode, rdF]

theorem islFloor_evalBase (i occ steps : Nat) (s : State) : islFloor (evalBase i occ steps s) i = islFloor s i := by
  rw [islFloor, rdF, rd_evalBase_other s (islCfg_ne_islStat i) (islCfg_ne_islSteps i), islFloor, rdF]

/-- An island that follows its block stays at its code, or goes to its floor. -/
theorem islCode_islFollow (i : Nat) (s : State) :
    islCode (islFollow false i s) i = islCode s i ∨ islCode (islFollow false i s) i = islFloor s i := by
  unfold islFollow
  split
  · exact .inl rfl
  · split
    · refine .inr ?_
      rw [islCode, rdF, rd_islPut, rd_wrBit_same, rd_wrBit_same, fld_setBit_other _ _ _ _ _ (by omega) (by omega),
        fld_setBit_other _ _ _ _ _ (by omega) (by omega)]
      exact islCode_setCode i s (islFloor_lt s i)
    · refine .inl ?_
      rw [if_neg (by decide), islCode, rdF, rd_wrBit_same, fld_setBit_other _ _ _ _ _ (by omega) (by omega), islCode, rdF]

theorem islCode_ceilingCheck (i : Nat) (s : State) (hi : i < islCount) : islCode (ceilingCheck i s) i = islCode s i := by
  unfold ceilingCheck
  split
  · rfl
  · dsimp only
    split
    · rw [islCode, rdF, rd_raise, rd_wrBit_other _ _ _ (islStat_ne_pwiPend i i hi), islCode, rdF]
    · rfl

theorem islCode_evaluate {s : State} {i : Nat} (occ steps : Nat) (hi : i < islCount) (hcode : islCode s i ≤ 60)
    (hwindow : islFloor s i ≤ islCeil s i) (hceil : islCeil s i ≤ 60)
    (hfixed : islMode s i = 2 → rdF s (islCfg i) 20 6 ≤ 60) : islCode (evaluate i occ steps s) i ≤ 60 := by
  have hbase : islCode (evalBase i occ steps s) i ≤ 60 := (islCode_evalBase i occ steps s).trans_le hcode
  have hstep : islCode (evalState i occ steps s) i ≤ 60 :=
    (islCode_evalState i occ steps s).trans_le (islStep_le_sixty occ hcode hwindow hceil hfixed)
  rw [evaluate_eq]
  split
  · exact hbase
  · split
    · rcases islCode_islFollow i (evalBase i occ steps s) with h | h
      · exact h.trans_le hbase
      · rw [h, islFloor_evalBase]; omega
    · split
      · exact hbase
      · split
        · exact (islCode_ceilingCheck i _ hi).trans_le hstep
        · exact hstep

/-- Settles O59: the step of each mode, by the branch of `autoStep` that the conditions name. -/
theorem islandVoltageMoves : Obligations.IslandVoltageMoves := by
  unfold Obligations.IslandVoltageMoves
  refine ⟨?_, ?_, ?_, ?_, ?_, ?_, ?_⟩
  · intro s i occ
    rcases islStep_moves s i occ with h | ⟨h, _⟩ | h <;> omega
  · intro s i occ hcode hwindow hceil hfixed
    exact islStep_le_sixty occ hcode hwindow hceil hfixed
  · intro s i occ hmode hlow
    rw [islStep_auto occ hmode, autoStep_below occ hlow]
    exact ⟨rfl, rfl⟩
  · intro s i occ hmode hwindow hhigh
    rw [islStep_auto occ hmode, autoStep_above occ (by omega) hhigh]
    exact ⟨Nat.sub_add_cancel (by omega), rfl⟩
  · intro s i occ hmode hfloor hceil hraise
    rw [islStep_auto occ hmode, autoStep_raise hfloor hceil hraise]
    refine ⟨?_, rfl⟩
    dsimp only
    split <;> omega
  · intro s i occ hmode hdown hceil
    rw [islStep_auto occ hmode] at hdown
    exact autoStep_lowers hceil hdown
  · intro s i occ steps hi hocc hcode hwindow hceil hfixed
    exact ⟨_, if_pos ⟨hi, hocc⟩, islCode_evaluate occ steps hi hcode hwindow hceil hfixed⟩

end Sys2Proof.Machine
end

section
/-! The steps of a packet from its MAC to its queue (R18 to R22, R84 to R94, R202, R227, R252). -/

namespace Sys2Proof.Machine
open Sys2Proof

/-! ### Into a context -/

/-- The state after a frame has joined its port group's FIFO. -/
def frameIn (p got : Nat) (bytes : List Byte) (s : State) : State :=
  let t := setPkt s.path.nextPkt (newPkt s p got bytes) (setFifo (pgOf p) (fifoUsed s (pgOf p) + bytes.length + 4) s)
  { t with path := { t.path with nextPkt := s.path.nextPkt + 1 } }

theorem frameIngress_taken {s : State} {p got : Nat} {bytes : List Byte} (hup : portUp s p = true) (hrun : pgRuns s p = true)
    (hprim : primrosePort s p = false) (hroom : fifoUsed s (pgOf p) + bytes.length + 4 ≤ 262144)
    (hhsr : freMode s p = 2 → ownMac s (dieOf p) bytes = false) : frameIngress p got bytes s = frameIn p got bytes s := by
  have hown : ¬ (freMode s p = modeHsr ∧ ownMac s (dieOf p) bytes = true) := fun e => by
    rw [hhsr e.1] at e; exact Bool.noConfusion e.2
  unfold frameIngress
  dsimp only
  rw [hup, hrun, hprim, if_neg (by decide), if_neg (Nat.not_lt.mpr hroom), if_neg hown]
  rfl

theorem fifoUsed_frameIn (p got : Nat) (bytes : List Byte) (s : State) :
    fifoUsed (frameIn p got bytes s) (pgOf p) = fifoUsed s (pgOf p) + bytes.length + 4 := by
  have hports : (frameIn p got bytes s).ports =
      (setFifo (pgOf p) (fifoUsed s (pgOf p) + bytes.length + 4) s).ports := rfl
  rw [fifoUsed, hports]
  exact tget_tset_same 0 s.ports.fifo (pgOf p) (fifoUsed s (pgOf p) + bytes.length + 4)

theorem getPkt_setPkt_same (k : Nat) (x : Pkt) (s : State) : getPkt (setPkt k x s) k = some x :=
  tget_tset_same none s.path.pkts k (some x)
theorem getPkt_setPkt_other {k j : Nat} (x : Pkt) (s : State) (h : j ≠ k) : getPkt (setPkt k x s) j = getPkt s j :=
  tget_tset_other none none s.path.pkts k j (some x) h

theorem drawTag_ports (pip : Nat) (s : State) : (drawTag pip s).2.ports = s.ports := by
  unfold drawTag
  split <;> rfl

/-- A frame that has taken a context, and the state that it was taken in. -/
def ctxPkt (s : State) (n : Nat) (x : Pkt) : Pkt :=
  let t := drawTag n (setFifo n (fifoUsed s n - (x.bytes.length + 4)) s)
  { x with phase := .parsing, profile := rdF s (engPortProf 0 x.port) 0 8, tagged := t.1, ctx := { startCtx with
      pc := prsEntry s n (activeBank s 0 n) (rdF s (engPortProf 0 x.port) 0 8), bank := activeBank s 0 n,
      limit := stepLimit s 0 n, depthLimit := rdF s (engCtl 0 n) 8 10, flags := if t.1 then 2 ^ 18 else 0 } }
def ctxState (s : State) (n : Nat) (x : Pkt) : State :=
  let t := drawTag n (setFifo n (fifoUsed s n - (x.bytes.length + 4)) s)
  { t.2 with path := { t.2.path with took := tset false t.2.path.took n true } }

theorem fifoUsed_ctxState (s : State) (n : Nat) (x : Pkt) :
    fifoUsed (ctxState s n x) n = fifoUsed s n - (x.bytes.length + 4) := by
  show tget 0 (drawTag n _).2.ports.fifo n = _
  rw [drawTag_ports]
  exact tget_tset_same _ _ _ _

theorem contextTake_eq {s : State} {n k : Nat} {x : Pkt} (hhead : fifoHead s n = some (k, x)) (htakes : pipTakes s n = true) :
    contextTake n s = if rdF s (engPortProf 0 x.port) 0 8 = 0
      then prsDiscard k n (countEng 0 n pcDrop 1 (setPkt k (ctxPkt s n x) (ctxState s n x)))
      else ctxUpdate 0 n (setPkt k (ctxPkt s n x) (ctxState s n x)) := by
  unfold contextTake
  rw [hhead]
  dsimp only
  rw [htakes]
  rfl

theorem exec_parseContextTake {s : State} {n : Nat} (hn : n < 32) : exec (.parseContextTake n) s = .next (contextTake n s) :=
  (needs_true (decide_eq_true hn)).trans (congrArg _ (if_pos hn))

/-! ### A parse step -/

section
variable {s : State} {k got : Nat} {bad : Bool} {x : Pkt} (hx : getPkt s k = some x) (hphase : x.phase = .parsing)
  (hgot : got ≤ x.got)
include hx hphase hgot

/-- A parse step of a packet whose bytes so far are those that it has. -/
theorem parseStep_eq : parseStep k got bad s =
    if windowWaits 0 x.bytes.length x.got (needHp x.ctx (prsStep s x)) then ctxUpdate 0 x.pip (setPkt k x s)
    else if bad then prsFault k x.pip srcUcodeParity (effective s 0 x.pip x.ctx.bank x.ctx.pc)
      (patchParity 0 x.pip (effective s 0 x.pip x.ctx.bank x.ctx.pc) s)
    else
      let n := min (stepsAfter x.ctx (prsStep s x)) (max (x.ctx.steps + 1) x.ctx.limit)
      let s1 := countEng 0 x.pip pcSteps (n - x.ctx.steps) (setPkt k { x with ctx := { x.ctx with steps := n } } s)
      if n < stepsAfter x.ctx (prsStep s x) then
        prsFault k x.pip srcUcodeStep ((freeW s1).1.toNat % 0x1400) (freeW s1).2
      else match prsStep s x with
      | .go c => if c.limit ≤ n then prsFault k x.pip srcUcodeStep (effective s 0 x.pip c.bank c.pc) s1
                 else ctxUpdate 0 x.pip (setPkt k { x with ctx := c } s1)
      | .fin c act why => prsEnd k x c act why s1
      | .drop _ => prsDiscard k x.pip (countEng 0 x.pip pcDrop 1 s1)
      | .fault src a => prsFault k x.pip src a s1 := by
  have hmax : max x.got (min got x.bytes.length) = x.got := by omega
  unfold parseStep
  rw [hx]
  dsimp only
  rw [hmax]
  exact if_neg (by rw [hphase]; decide)

theorem parseStep_waits (hwait : windowWaits 0 x.bytes.length x.got (needHp x.ctx (prsStep s x)) = true) :
    parseStep k got bad s = ctxUpdate 0 x.pip (setPkt k x s) := by
  rw [parseStep_eq hx hphase hgot, if_pos hwait]

theorem parseStep_bad (hwait : windowWaits 0 x.bytes.length x.got (needHp x.ctx (prsStep s x)) = false) :
    parseStep k got true s = prsFault k x.pip srcUcodeParity (effective s 0 x.pip x.ctx.bank x.ctx.pc)
      (patchParity 0 x.pip (effective s 0 x.pip x.ctx.bank x.ctx.pc) s) := by
  rw [parseStep_eq hx hphase hgot, hwait]
  rfl

variable {c : UCtx} (hlimit : c.steps ≤ x.ctx.limit)
  (hwait : windowWaits 0 x.bytes.length x.got (needHp x.ctx (prsStep s x)) = false)
include hlimit hwait

theorem parseStep_go (hstep : prsStep s x = .go c) (hgo : c.steps < c.limit) :
    parseStep k got false s = ctxUpdate 0 x.pip (setPkt k { x with ctx := c }
      (countEng 0 x.pip pcSteps (c.steps - x.ctx.steps) (setPkt k { x with ctx := { x.ctx with steps := c.steps } } s))) := by
  have hn : min c.steps (max (x.ctx.steps + 1) x.ctx.limit) = c.steps := by omega
  rw [parseStep_eq hx hphase hgot, hwait, if_neg (by decide), if_neg (by decide), hstep]
  dsimp only [stepsAfter]
  rw [hn]
  exact (if_neg (Nat.lt_irrefl _)).trans (if_neg (Nat.not_le.mpr hgo))

theorem parseStep_fin {act why : Nat} (hstep : prsStep s x = .fin c act why) :
    parseStep k got false s = prsEnd k x c act why
      (countEng 0 x.pip pcSteps (c.steps - x.ctx.steps) (setPkt k { x with ctx := { x.ctx with steps := c.steps } } s)) := by
  have hn : min c.steps (max (x.ctx.steps + 1) x.ctx.limit) = c.steps := by omega
  rw [parseStep_eq hx hphase hgot, hwait, if_neg (by decide), if_neg (by decide), hstep]
  dsimp only [stepsAfter]
  rw [hn]
  exact if_neg (Nat.lt_irrefl _)

end

/-! ### Filter, FCS, admission -/

/-- The packet that the filter stage leaves, but for the sequence number and the dies of one that passes. -/
def filteredPkt (s : State) (x : Pkt) (r : FilterOut) : Pkt :=
  { x with phase := .filtered, colour := r.colour, tenant := r.tenant,
           handle := r.ctx.map (fun c => 32768 * (filterIn s x).glen + c),
           charged := if x.complete then [] else r.charged,
           dec := { x.dec with tc := r.ipv.getD x.dec.tc }, times := lset x.times 2 (s.tim.cnt - x.arrival) }

theorem filterPkt_refused {s : State} {k : Nat} {x : Pkt} (hx : getPkt s k = some x) (hphase : x.phase = .looked)
    (hfcs : x.fcs ≠ some false) (hpass : (filterStage (filterIn s x) s).pass = false) :
    filterPkt k .none s = discardPkt k 4 (setPkt k (filteredPkt s x (filterStage (filterIn s x) s))
      (filterStage (filterIn s x) s).st) := by
  unfold filterPkt
  rw [hx]
  dsimp only
  rw [if_neg (not_not.mpr hphase), if_neg hfcs]
  dsimp only [meterBad]
  exact if_neg (by rw [hpass]; decide)

theorem fcsResult_early {s : State} {k : Nat} {x : Pkt} (hx : getPkt s k = some x) (hcomplete : x.complete = false)
    (hphase : ¬ (x.phase = .filtered ∨ x.phase = .admitted)) :
    fcsResult k true s = reapPkt k (fireTrigger k (learnFcs (servingGlen s x.port) k true
      (correctMeters (servingGlen s x.port) (frameLen x) x.charged
        (setPkt k { x with got := x.bytes.length, complete := true, fcs := some true, charged := [] } (countRx x true s))))) := by
  unfold fcsResult
  rw [hx]
  dsimp only
  rw [hcomplete, if_neg (by decide), if_neg hphase]
  rfl

theorem admission_die {s : State} {k d : Nat} {x : Pkt} (hx : getPkt s k = some x) (hphase : x.phase = .filtered)
    (hd : d ∈ x.dies) : admission k d .none s = reapPkt k (admitOn k d x
      (setPkt k { x with phase := .admitted, dies := x.dies.filter (fun e => e != d) } s)) := by
  unfold admission
  rw [hx]
  dsimp only
  rw [if_neg]
  · rfl
  · rw [contains_true hd, hphase]; decide

/-- Settles O32: each step of a packet under the condition of its branch. -/
theorem ingressEventsComplete : Obligations.IngressEventsComplete := by
  unfold Obligations.IngressEventsComplete
  refine ⟨?_, ?_, ?_, ?_, ?_, ?_, ?_, ?_, ?_, ?_, ?_, ?_, ?_, ?_, ?_⟩
  · intro s p got bytes hport hbytes hup hrun hprim hroom hhsr
    have hpos : 0 < bytes.length := List.length_pos_iff.mpr hbytes
    refine ⟨frameIn p got bytes s, (needs_true ?_).trans (congrArg _ ((if_pos ⟨hport, hpos⟩).trans
      (frameIngress_taken hup hrun hprim hroom hhsr))), getPkt_setPkt_same .., rfl,
      fifoUsed_frameIn .., ?_, fun _ => rfl⟩
    · rw [hport, decide_eq_true hpos]; rfl
    · exact fun k hk => getPkt_setPkt_other _ _ hk
  · intro s n k x hn hhead htakes hprof
    exact ⟨ctxPkt s n x, ctxState s n x, (exec_parseContextTake hn).trans
      (congrArg _ ((contextTake_eq hhead htakes).trans (if_pos hprof))), rfl, hprof, fifoUsed_ctxState s n x⟩
  · intro s n k x hn hhead htakes hprof
    exact ⟨ctxPkt s n x, ctxState s n x, (exec_parseContextTake hn).trans
      (congrArg _ ((contextTake_eq hhead htakes).trans (if_neg hprof))), rfl, rfl, rfl, fifoUsed_ctxState s n x⟩
  · intro s k got bad x hx hphase hgot _ hwait
    exact congrArg _ (parseStep_waits hx hphase hgot hwait)
  · intro s k got x hx hphase hgot _ hwait
    exact congrArg _ (parseStep_bad hx hphase hgot hwait)
  · intro s k got x c hx hphase hgot _ hwait hstep _ hlimit hgo
    exact congrArg _ (parseStep_go hx hphase hgot hlimit hwait hstep hgo)
  · intro s k got x c act why hx hphase hgot _ hwait hstep _ hlimit
    exact congrArg _ (parseStep_fin hx hphase hgot hlimit hwait hstep)
  · intro s k bad x hx hphase hservice
    show Host.Outcome.next (glenLookup k bad s) = _
    rw [glenLookup, hx]
    dsimp only
    rw [if_neg (by rw [hphase, hservice]; decide)]
  · intro s k bad x hx hphase hfcs
    show Host.Outcome.next (filterPkt k bad s) = _
    rw [filterPkt, hx]
    dsimp only
    rw [if_neg (not_not.mpr hphase), if_pos hfcs]
  · intro s k x r hx hphase hfcs hr hpass
    subst hr
    exact ⟨filteredPkt s x _, congrArg _ (filterPkt_refused hx hphase hfcs hpass), rfl, rfl, rfl⟩
  · intro s k good x hx hcomplete
    show Host.Outcome.next (fcsResult k good s) = _
    rw [fcsResult, hx]
    exact congrArg _ (if_pos hcomplete)
  · intro s k x hx hcomplete hfiltered hadmitted
    exact ⟨_, rfl, congrArg _ (fcsResult_early hx hcomplete (not_or.mpr ⟨hfiltered, hadmitted⟩))⟩
  · intro s k d x hd hx hphase hmem
    exact ⟨_, rfl, (needs_true (decide_eq_true hd)).trans (congrArg _ ((if_pos hd).trans (admission_die hx hphase hmem)))⟩
  · intro s c x hx hphase hwait hres
    show Host.Outcome.next (enqueue c s) = _
    rw [enqueue, hx]
    dsimp only
    rw [hwait, if_neg (by simp [hphase]), if_pos ⟨rfl, hres⟩]
  · intro s c x w hx hphase hwait hnew hfull hroom
    subst hwait
    have hlate : ¬ ((tget [] s.sch.enqWait (dieOf x.port)).isEmpty = true ∧ resUsed s (dieOf x.port) < enqReserve) := by
      rw [List.isEmpty_iff]
      exact fun e => hfull.elim (fun h => h e.1) (fun h => absurd e.2 (Nat.not_lt.mpr h))
    show Host.Outcome.next (enqueue c s) = _
    rw [enqueue, hx]
    dsimp only
    rw [if_neg (by rw [hphase, contains_false hnew]; decide), if_neg hlate, if_pos hroom]

end Sys2Proof.Machine
end

section
/-! The steps of a copy from its queue to the wire (R238, R252 to R270, R307 to R317). -/

namespace Sys2Proof.Machine
open Sys2Proof

/-! ### Spilling -/

section
variable {s : State} {c : Nat} {x : Copy} (hx : getCopy s c = some x)
include hx

/-- The marked frame at the front of those that spill, whole. -/
theorem spillCopy_front (hfirst : firstMarked s (dieOf x.port) x.queue = some c)
    (hwhole : ∀ p, getPkt s x.pkt = some p → p.complete = true) : spillCopy c s =
      if !hasSlot s (plainMem (dieOf x.port)) 0 then waited (plainMem (dieOf x.port)) 0 s
      else
        let t := transfer (dieOf x.port) (pgOf x.port) x.port 292 x.ptr s
        let s1 := (release (dieOf x.port) 36 292 x.ptr t.2).2
        if stackTakes s (dieOf x.port) x.len then
          bumpQ (dieOf x.port) x.queue cntSpilled 1 (setCopy c { x with inHbm := true, marked := false, spilled := true }
            (charge (plainMem (dieOf x.port)) 0 (segsOf x) s1))
        else
          let s2 := bumpQ (dieOf x.port) x.queue dropSpill 1 (unqueue c x s1)
          let s3 := match getPkt s2 x.pkt with | some p => samplePkt p (sampleOf x 0) 6 s2 | none => s2
          reapPkt x.pkt (endCopy c s3) := by
  unfold spillCopy
  rw [hx]
  dsimp only
  refine if_neg fun h => ?_
  rw [hfirst] at h
  rcases h with h | h
  · exact h rfl
  · cases hp : getPkt s x.pkt with
    | none => rw [hp] at h; exact Bool.noConfusion h
    | some p =>
      rw [hp] at h
      dsimp only at h
      rw [hwhole p hp] at h
      exact Bool.noConfusion h

theorem spillReturn_room {a : Nat} {u : State} (hfirst : firstInHbm s (dieOf x.port) x.queue = some c)
    (hroom : plainDepth s (dieOf x.port) x.queue < fld (qw (queueGet s (dieOf x.port) x.queue) 2) 16 16 * 256)
    (hslot : hasSlot s (plainMem (dieOf x.port)) 0 = true)
    (hcell : allocate (dieOf x.port) ⟨36, x.len, false, [x.port], []⟩ s = (.ok a, u)) :
    spillReturn c false s = charge (plainMem (dieOf x.port)) 0 ((x.len + 63) / 64)
      (setCopy c { x with inHbm := false, ptr := wd a } u) := by
  unfold spillReturn
  rw [hx]
  dsimp only
  rw [if_neg (not_or.mpr ⟨not_not.mpr hfirst, Nat.not_le.mpr hroom⟩), hslot, hcell]
  dsimp only
  rw [Bool.or_false]
  rfl

end

/-! ### A port's decision -/

theorem portDecide_ready {s : State} {p : Nat} (hup : portUp s p = true) (hway : onTheWay s p < 2) :
    portDecide p .none s = match portChoice (atBegin (refreshPort p (dropGateLongs p s)) p) p with
      | some ch => sendChoice p ch (refreshPort p (dropGateLongs p s))
      | none => refreshPort p (dropGateLongs p s) := if_pos ⟨hup, hway⟩

theorem exec_portDecision {s : State} {p : Nat} {bad : SchBad} (hport : portExists s p = true) :
    exec (.portDecision p bad) s = .next (portDecide p bad s) :=
  (needs_true hport).trans (congrArg _ (if_pos hport))

/-! ### The rewrite of a copy -/

/-- A copy that has taken a context of its pipeline. -/
def rweCtx (s : State) (x : Pkt) (y : Copy) : Copy :=
  { y with phase := .rewriting, edits := [], csum := 0, ctx := { startCtx with
      pc := rweEntry s (pgOf y.port) (activeBank s 1 (pgOf y.port)) (rdF s (engPortProf 1 y.port) 0 8)
      bank := activeBank s 1 (pgOf y.port), limit := stepLimit s 1 (pgOf y.port), offs := x.ctx.offs } }

section
variable {s : State} {c : Nat} {y : Copy} {x : Pkt} (hy : getCopy s c = some y) (hx : getPkt s y.pkt = some x)
include hy hx

theorem rweTake_ready (hphase : y.phase = .dequeued) (hservice : outOfService s 1 (pgOf y.port) = false)
    (hroom : (rewriting s (pgOf y.port)).length < 64) (hprof : rdF s (engPortProf 1 y.port) 0 8 ≠ 0) :
    rweTake c s = ctxUpdate 1 (pgOf y.port) (setCopy c (rweCtx s x y) s) := by
  have hserves : (!(spareServes s (pgOf y.port) || !outOfService s 1 (pgOf y.port))) = false := by
    rw [hservice, Bool.not_false, Bool.or_true]; rfl
  have hgo : ¬ (y.phase ≠ .dequeued ∨ (!(spareServes s (pgOf y.port) || !outOfService s 1 (pgOf y.port))) = true ∨
      64 ≤ (rewriting s (pgOf y.port)).length) := by
    rw [hserves, hphase]
    simpa using hroom
  unfold rweTake
  rw [hy]
  dsimp only
  rw [hx]
  exact (if_neg hgo).trans (if_neg hprof)

theorem rweStep_fin {r : RweEnd × Nat × State} {z : Copy} (hphase : y.phase = .rewriting)
    (hwait : windowWaits 1 x.bytes.length x.got y.ctx.hp = false) (hr : r = rweStepOf s x y) (hfin : r.1 = .fin z)
    (hlimit : y.ctx.steps + r.2.1 ≤ y.ctx.limit) : rweStep c .none s =
      rweFinish c x { z with ctx := { z.ctx with steps := y.ctx.steps + r.2.1 } } .none r.2.2 := by
  subst hr
  unfold rweStep
  rw [hy]
  dsimp only
  rw [hx]
  dsimp only
  rw [if_neg (by rw [hphase, hwait]; decide), if_neg (by decide), hfin]
  exact if_neg (Nat.not_lt.mpr hlimit)

section
variable {tl : Nat} (htl : y.tl = some tl) (hphase : y.phase = .launched) (hdue : tl ≤ stampNow s y.port true)
include htl hphase hdue

/-- A launched copy whose launch time has come. -/
theorem launchTime_due : launchTime c s =
    if tl < tget 0 s.path.wireEnd y.port ∨ !gateEligible s y.port y.tc (portCharge s y.port y.len) then
      setCopy c { y with tl := some (launchAt s y.port) } s
    else readyCopy c x y tl s := by
  unfold launchTime
  rw [hy]
  dsimp only
  rw [hx, htl]
  exact if_neg (not_or.mpr ⟨not_not.mpr hphase, Nat.not_lt.mpr hdue⟩)

end

/-- A good copy of a whole frame leaves. -/
theorem transmit_good {r : PortRec} {ts : Nat} {u v : State} {we : Sparse Nat} (hphase : y.phase = .ready)
    (hwhole : x.complete = true) (hup : portUp s y.port = true) (hrun : pgRuns s y.port = true)
    (hcell : inQuarantine s y = false) (hinv : y.invFcs = false) (hdata : y.badData = false) (hdec : x.dec.up = false)
    (hports : y.port ∉ x.dec.upPorts) (hctrl : x.dec.ctrl = false) (hrec : portRec s y.port = some r)
    (hts : ts = y.tl.getD (stampNow s y.port true))
    (hu : u = emit (.frame y.port y.out true) (countTx y.port y.out false s))
    (hwe : we = tset 0 u.path.wireEnd y.port (ts + (y.out.length + 24) * 8000 / max 1 (portRate r)))
    (hv : v = { u with path := { u.path with wireEnd := we } }) :
    transmit c false s = (fun w => reapPkt y.pkt (endCopy c (modPkt y.pkt (fun z => { z with sent := true })
        (setGat y.port { gatOf w y.port with wire := none } w))))
      (samplePkt x (sampleOf y ((ts : Int) - x.stamp)) 0 (releaseCopy y (afterSent x y ts v))) := by
  have hgo : ¬ (y.phase ≠ .ready ∨ (!x.complete) = true ∨ (!portUp s y.port) = true ∨ (!pgRuns s y.port) = true) := by
    rw [hphase, hwhole, hup, hrun]; decide
  subst hv hwe hu hts
  unfold transmit
  rw [hy]
  dsimp only
  rw [hx]
  dsimp only
  rw [if_neg hgo, hcell, hinv, hdata, hdec, hctrl, contains_false hports, hrec]
  rfl

end

/-- Settles O33: each step of a copy under the condition of its branch. -/
theorem egressEventsComplete : Obligations.EgressEventsComplete := by
  unfold Obligations.EgressEventsComplete
  refine ⟨?_, ?_, ?_, ?_, ?_, ?_, ?_, ?_, ?_, ?_, ?_, ?_, ?_, ?_, ?_, ?_⟩
  · intro s c x hx hfirst hwhole hslot
    refine congrArg _ ((spillCopy_front hx hfirst hwhole).trans (if_pos ?_))
    rw [hslot]; rfl
  · intro s c x u hx hfirst hwhole hslot hstack hu
    subst hu
    refine congrArg _ ((spillCopy_front hx hfirst hwhole).trans ((if_neg ?_).trans (if_pos hstack)))
    rw [hslot]; decide
  · intro s c x a u hx hfirst hroom hslot hcell
    exact congrArg _ (spillReturn_room hx hfirst hroom hslot hcell)
  · intro s p u ch hport hup hway hu hch
    subst hu
    rw [exec_portDecision hport, portDecide_ready hup hway, hch]
  · intro s p u hport hup hway hu hch
    subst hu
    rw [exec_portDecision hport, portDecide_ready hup hway, hch]
  · intro s p hport hup
    refine (exec_portDecision hport).trans (congrArg _ (if_neg fun h => ?_))
    have hup' : portUp s p = true := h.1
    rw [hup] at hup'
    exact Bool.noConfusion hup'
  · intro s d level i hd hi hslot
    refine (needs_true ?_).trans (congrArg _ ((if_pos ⟨hd, hi⟩).trans (if_pos hslot)))
    rw [decide_eq_true hd, decide_eq_true hi]; rfl
  · intro s d q hd hq hslot hticket
    refine (needs_true (decide_eq_true hd)).trans (congrArg _ ((if_pos hd).trans ?_))
    unfold shpEffect
    rw [hq]
    dsimp only
    rw [if_pos hslot, hticket]
    rfl
  · intro s c y x hy hx hphase hservice hroom hprof
    exact ⟨rweCtx s x y, congrArg _ (rweTake_ready hy hx hphase hservice hroom hprof), rfl, rfl, rfl⟩
  · intro s c y x r z hy hx hphase hwait hr hfin hlimit
    exact congrArg _ (rweStep_fin hy hx hphase hwait hr hfin hlimit)
  · intro s c y x tl hy hx htl hphase hdue hwire hgate
    refine congrArg _ ((launchTime_due hy hx htl hphase hdue).trans (if_neg ?_))
    rw [hgate]
    simpa using hwire
  · intro s c y x tl hy hx htl hphase hdue hwire
    exact congrArg _ ((launchTime_due hy hx htl hphase hdue).trans (if_pos (.inl hwire)))
  · intro s c y x r ts u v we hy hx hphase hwhole hup hrun hcell hinv hdata hdec hports hctrl hrec hts hu hwe hv
    exact ⟨_, rfl, congrArg _
      (transmit_good hy hx hphase hwhole hup hrun hcell hinv hdata hdec hports hctrl hrec hts hu hwe hv)⟩
  · intro s p tc tenant bytes ck host hport htc htenant hmin hmax
    have hfits : (portExists s p && decide (tc < 8) && decide (tenant < 4096) && decide (14 ≤ bytes.length) &&
        decide (bytes.length ≤ 16380)) = true := by
      rw [hport, decide_eq_true htc, decide_eq_true htenant, decide_eq_true hmin, decide_eq_true hmax]; rfl
    exact (needs_true hfits).trans (congrArg _ (if_pos hfits))
  · intro s p hport
    exact (needs_true hport).trans (congrArg _ (if_pos hport))
  · intro s p hport
    exact (needs_true hport).trans (congrArg _ (if_pos hport))

end Sys2Proof.Machine
end

section
/-! A glen's own work: updates, promotions, learning, aging (R126 to R145, R402). -/

namespace Sys2Proof.Machine
open Sys2Proof

/-! ### The update unit -/

section
variable {s u : State} {g m : Nat} {p : GlenOp → Bool} {fails : Bool} {q : QueuedOp} {rest : List QueuedOp}
  (hq : updQueue s (glenMem g m) = q :: rest) (hp : p q.op = true)
include hq hp

theorem opServe_waits (hslot : hasSlot s (glenMem g m) actUpdate = false) :
    opServe g m p fails s = waited (glenMem g m) actUpdate s := by
  unfold opServe
  dsimp only
  rw [hq]
  dsimp only
  rw [hp, hslot]
  rfl

variable (hslot : hasSlot s (glenMem g m) actUpdate = true)
  (hu : u = charge (glenMem g m) actUpdate (opCost g m q.op s) (setUpdQueue (glenMem g m) rest s))
include hslot hu

/-- The operation at the head is granted its slots: it waits in its next memory, or completes its element. -/
theorem opServe_granted : opServe g m p fails s =
    if (opFinish g q.op q.ticket (q.mems.drop 1) fails u).1 = rPending then
      (opFinish g q.op q.ticket (q.mems.drop 1) fails u).2
    else if q.ticket.isSome then keepShadow s (completeElem q.ticket
      (opFinish g q.op q.ticket (q.mems.drop 1) fails u).1 (opFinish g q.op q.ticket (q.mems.drop 1) fails u).2)
    else completeElem q.ticket (opFinish g q.op q.ticket (q.mems.drop 1) fails u).1
      (opFinish g q.op q.ticket (q.mems.drop 1) fails u).2 := by
  subst hu
  unfold opServe
  dsimp only
  rw [hq]
  dsimp only
  rw [hp, hslot]
  rfl

/-- Without an element to complete, what the operation leaves is what it does. -/
theorem opServe_silent (hticket : q.ticket = none) :
    opServe g m p fails s = (opFinish g q.op none (q.mems.drop 1) fails u).2 := by
  rw [opServe_granted hq hp hslot hu, hticket]
  exact ite_self _

/-- With the last memory's slots the operation is carried out. -/
theorem opServe_last (hticket : q.ticket = none) (hlast : q.mems.length ≤ 1) :
    opServe g m p false s = (opRun g q.op u).st := by
  rw [opServe_silent hq hp hslot hu hticket, List.drop_eq_nil_of_le hlast]
  rfl

theorem opServe_completes {t : Ticket} {r : OpRes} (hticket : q.ticket = some t) (hlast : q.mems.length ≤ 1)
    (hr : r = opRun g q.op u) (hdone : r.code ≠ rPending) :
    opServe g m p false s = keepShadow s (completeElem (some t) r.code r.st) := by
  subst hr
  rw [opServe_granted hq hp hslot hu, hticket, List.drop_eq_nil_of_le hlast]
  exact if_neg hdone

end

theorem opFinish_fails {g b : Nat} {op : GlenOp} {t : Option Ticket} {ms : List Nat} {u v : State}
    (h : opBad g op u = some (b, v)) : opFinish g op t ms true u = (rFailed, verifyFailed g b v) := by
  unfold opFinish
  rw [if_pos rfl, h]

theorem exec_glenUpdate {s : State} {g m : Nat} {fails : Bool} (hg : g < 8) (hm : m < 3) :
    exec (.glenUpdateOperation g m fails) s = .next (opServe g m (fun op => !isRouteOp op) fails s) := if_pos ⟨hg, hm⟩

theorem exec_prefixUpdate {s : State} {g m : Nat} {bad : Option Nat} (hg : g < 8) (hm : m < 3)
    (hbad : bad.all (fun i => decide (i < 32768)) = true) :
    exec (.prefixUpdateOperation g m bad) s = .next (opServe g m isRouteOp false (prefixRead g m bad s)) :=
  if_pos ⟨hg, hm, hbad⟩

/-! ### Promotion, learning, aging -/

theorem promotionServe_granted {s u : State} {g b : Nat} {rest : List Nat} {fails : Bool}
    (hq : tget [] s.glens.promo g = b :: rest) (hslot : hasSlot s (glenMem g 0) actLearn = true)
    (hu : u = { s with glens := { s.glens with promo := tset [] s.glens.promo g rest } }) :
    promotionServe g fails s = match promotable u g b with
      | some (j, o, i) => charge (glenMem g 0) actLearn 3
          (if fails then verifyFailed g b u else queuePromotion g b (promote g b j o i u))
      | none => u := by
  subst hu
  unfold promotionServe
  rw [hq]
  exact if_pos hslot

theorem exec_promotion {s : State} {g : Nat} {fails : Bool} (hg : g < 8) :
    exec (.promotion g fails) s = .next (promotionServe g fails s) :=
  (needs_true (decide_eq_true hg)).trans (congrArg _ (if_pos hg))

theorem learnService_posts {s u : State} {g : Nat} {p : LearnPend} {rest : List LearnPend} {fails : Bool}
    (hq : takeGood (tget [] s.glens.pend g) = some (p, rest)) (hslot : hasSlot s (glenMem g 0) actLearn = true)
    (hu : u = { s with glens := { s.glens with pend := tset [] s.glens.pend g rest } })
    (hlearn : tblLearn s g p.table ≠ 0) (hfilter : inFilter s g p.table p.key = false) :
    learnService g fails s = charge (glenMem g 0) actLearn (learnPost g p fails u).1 (learnPost g p fails u).2 := by
  subst hu
  unfold learnService
  dsimp only
  rw [hq]
  refine (if_pos hslot).trans ((if_neg hlearn).trans (if_neg ?_))
  rw [hfilter]
  decide

theorem ageRefresh_granted {s u : State} {g table k : Nat} {rest : List (Nat × Nat)} {h : EmHit}
    (hq : tget [] s.glens.ageQ g = (table, k) :: rest) (hslot : hasSlot s (glenMem g 0) actLearn = true)
    (hu : u = charge (glenMem g 0) actLearn 1 { s with glens := { s.glens with ageQ := tset [] s.glens.ageQ g rest } })
    (hfind : emFind u g table k = some h) (hdynamic : h.e.isStatic = false) :
    ageRefresh g s = emRewrite g (homeBucket u g table k) h { h.e with age := ageNow u g } u := by
  subst hu
  unfold ageRefresh
  dsimp only
  rw [hq]
  dsimp only
  rw [if_pos hslot, hfind]
  dsimp only
  rw [hdynamic]
  rfl

/-- A tick that is not taken is deferred and counted. -/
def tickLate (g : Nat) (t : State) : State :=
  { t with glens := { t.glens with
    tickLate := tmod 0 t.glens.tickLate g (· + 1)
    tickLateCnt := tmod 0 t.glens.tickLateCnt g (fun n => (n + 1) % 2 ^ 32) } }

@[simp] theorem rd_tickFrom (g n a : Nat) (s : State) : rd (tickFrom g n s) a = rd s a := rd_congr _ _ _ rfl rfl
@[simp] theorem rd_tickLate (g a : Nat) (s : State) : rd (tickLate g s) a = rd s a := rd_congr _ _ _ rfl rfl
theorem ageNow_tickFrom (g n : Nat) (s : State) : ageNow (tickFrom g n s) g = ageNow s g := by
  rw [ageNow, rdF, rd_tickFrom, ageNow, rdF]
theorem ageNow_tickLate (g : Nat) (s : State) : ageNow (tickLate g s) g = ageNow s g := by
  rw [ageNow, rdF, rd_tickLate, ageNow, rdF]
theorem tickLate_counts (g n : Nat) (s : State) :
    tget 0 (tickLate g (tickFrom g n s)).glens.tickLate g = tget 0 s.glens.tickLate g + 1 :=
  tget_tset_same 0 s.glens.tickLate g (tget 0 s.glens.tickLate g + 1)

theorem tickDue_of {s : State} {g : Nat} (hon : rdF s (emtAgeCfg g) 0 16 ≠ 0)
    (hdue : tget 0 s.glens.tickAt g + rdF s (emtAgeCfg g) 0 16 * 10 ^ 6 ≤ s.tim.cnt) : tickDue s g = true := by
  rw [tickDue, nextTick, bne_iff_ne.mpr hon, decide_eq_true hdue, Bool.and_self]

theorem ageTick_due {s : State} {g : Nat} (hdue : tickDue s g = true) :
    ageTick g s = if rdBit s (emtAgeStat g) 12 then ageAdvance g (tickFrom g (nextTick s g) s)
      else tickLate g (tickFrom g (nextTick s g) s) := by
  unfold ageTick
  generalize nextTick s g = n
  dsimp only
  rw [hdue, rdBit, rd_tickFrom, ← rdBit]
  exact if_neg (by decide)

/-- What the scanner deletes of a bucket that reads well. -/
theorem scanAged_good {s : State} {g b : Nat} (h : bktRetired s g b = false) :
    scanAged s g b .none = (List.range 4).filter (fun i => agedOut s g (bktGet s g b i)) := by
  have hage : ∀ i, (ScanBad.none != ScanBad.age i) = true := fun i => rfl
  unfold scanAged
  rw [if_neg (by rw [h]; decide)]
  simp only [hage, Bool.and_true]

section
variable {s : State} {g p : Nat} (hpos : tget 0 s.glens.scanPos g = p) (hon : rdF s (emtAgeCfg g) 0 16 ≠ 0)
  (hpass : tget false s.glens.scanIdle g = false)
include hpos hon hpass

theorem ageScan_bucket {u : State} (hp : p < 131072) (hslot : hasSlot s (glenMem g 0) actLearn = true)
    (hscan : usedOf s (glenMem g 0) actScan < rdF s (emtAgeCfg g) 16 12)
    (hu : u = charge (glenMem g 0) actLearn 1
      { s with bud := { s.bud with used := tmod 0 s.bud.used (budKey (glenMem g 0) actScan) (· + 1) } })
    (hgood : bktRetired s g p = false) : ageScan g .none s = scanAdvance g (((List.range 4).filter (fun i =>
      agedOut u g (bktGet u g p i))).foldl (fun t i => ageDelete g p ⟨false, i, bktGet u g p i⟩ false t) u) := by
  have hretired : bktRetired u g p = false := by rw [hu]; exact hgood
  subst hu
  rw [← scanAged_good hretired]
  unfold ageScan
  dsimp only
  rw [if_neg (not_or.mpr ⟨hon, by rw [hpass]; decide⟩), hpos, if_pos hp, if_pos ⟨hslot, hscan⟩]
  rfl

theorem ageScan_overflow {i : Nat} {o : OvfEntry} (hp : p = 131072 + i) (ho : o = tget emptyOvf s.glens.ovf (key g i)) :
    ageScan g .none s = scanAdvance g (if agedOut s g o.e then ageDelete g o.home ⟨true, i, o.e⟩ false s else s) := by
  subst hp ho
  unfold ageScan
  dsimp only
  rw [if_neg (not_or.mpr ⟨hon, by rw [hpass]; decide⟩), hpos, if_neg (by omega), Nat.add_sub_cancel_left]

end

theorem learnConsume_next {s : State} {g : Nat} {ws : List Word} (hfw : fwRestored s = true)
    (hen : rdBit s (emtRing g + 8) 0 = true) (hmp : rdBit s (emtRing g + 8) 1 = false)
    (hfill : ringFill s (emtRing g) ≠ 0) (hrec : learnRecord s g (rd s (emtRing g + 0x10)).toNat = some ws) :
    learnConsume g s = wr (emtRing g + 0x10) (wd ((rd s (emtRing g + 0x10)).toNat + 1)) (replicate g ws s) := by
  unfold learnConsume
  dsimp only
  rw [hfw, hen, hmp, beq_false_of_ne hfill, if_neg (by decide), hrec]

/-- Settles O34: each unit's step once its slots are granted. -/
theorem glenEventsComplete : Obligations.GlenEventsComplete := by
  unfold Obligations.GlenEventsComplete
  refine ⟨?_, ?_, ?_, ?_, ?_, ?_, ?_, ?_, ?_, ?_, ?_, ?_, ?_, ?_, ?_⟩
  · intro s g m fails q rest hg hm hq hop hslot
    rw [exec_glenUpdate hg hm, opServe_waits hq (by rw [hop]; rfl) hslot]
  · intro s g m q rest u hg hm hq hop hslot hticket hu
    have hserve : (!isRouteOp q.op) = true := by rw [hop]; rfl
    refine ⟨?_, fun hlast => ?_⟩
    · rw [exec_glenUpdate hg hm, opServe_silent hq hserve hslot hu hticket]
      rfl
    · rw [exec_glenUpdate hg hm, opServe_last hq hserve hslot hu hticket hlast]
  · intro s g m q rest u b v hg hm hq hop hslot hticket hu hbad
    rw [exec_glenUpdate hg hm, opServe_silent hq (by rw [hop]; rfl) hslot hu hticket, opFinish_fails hbad]
  · intro s g m q rest u hg hm hq hop hslot hticket hlast hu
    refine ⟨?_, fun i hi hm0 => ?_⟩
    · exact (exec_prefixUpdate hg hm rfl).trans (congrArg _ (opServe_last hq hop hslot hu hticket hlast))
    · have hread : prefixRead g m (some i) s = badPrefix g i s := by
        unfold prefixRead
        rw [hq]
        exact if_pos ⟨hm0, hop, hslot⟩
      rw [exec_prefixUpdate hg hm (by rw [Option.all_some, decide_eq_true hi]), exec_prefixUpdate hg hm rfl, hread]
      rfl
  · intro s g m q rest u r t hg hm hq hslot hticket hlast hu hr hdone
    exact (if_pos ⟨hg, hm⟩).trans (congrArg _ (opServe_completes hq rfl hslot hu hticket hlast hr hdone))
  · intro s g b rest u j o i hg hq hslot hu hprom
    refine ⟨?_, ?_⟩
    · rw [exec_promotion hg, promotionServe_granted hq hslot hu, hprom]
      rfl
    · rw [exec_promotion hg, promotionServe_granted hq hslot hu, hprom]
      rfl
  · intro s g b rest u hg hq hslot hu hprom fails
    rw [exec_promotion hg, promotionServe_granted hq hslot hu, hprom]
  · intro s g p fails rest u hg hq hslot hu hlearn hfilter
    exact (if_pos hg).trans (congrArg _ (learnService_posts hq hslot hu hlearn hfilter))
  · intro s g table k rest u h hg hq hslot hu hfind hdynamic
    exact (if_pos hg).trans (congrArg _ (ageRefresh_granted hq hslot hu hfind hdynamic))
  · intro s g u hg hon hdue hpass hu
    refine (if_pos hg).trans (congrArg _ ((ageTick_due (tickDue_of hon hdue)).trans ((if_pos hpass).trans ?_)))
    rw [hu, ageAdvance, ageNow_tickFrom]
  · intro s g hg hon hdue hpass
    exact ⟨_, (if_pos hg).trans (congrArg _ ((ageTick_due (tickDue_of hon hdue)).trans
      (if_neg (by rw [hpass]; decide)))), tickLate_counts g (nextTick s g) s,
      (ageNow_tickLate g _).trans (ageNow_tickFrom g (nextTick s g) s)⟩
  · intro s g p u hg hpos hp hon hpass hslot hscan hu hgood
    exact (if_pos hg).trans (congrArg _ (ageScan_bucket hpos hon hpass hp hslot hscan hu hgood))
  · intro s g p i o hg hpos hp hon hpass ho
    exact (if_pos hg).trans (congrArg _ (ageScan_overflow hpos hon hpass hp ho))
  · intro s g hg hdue
    exact (if_pos (decide_eq_true hg)).trans (congrArg _ (if_pos hdue))
  · intro s g ws hg hfw hen hmp hfill hrec
    exact (if_pos hg).trans (congrArg _ (learnConsume_next hfw hen hmp hfill hrec))

end Sys2Proof.Machine
end

section
/-! Scrubs, the stream memories' management port, gate switches, the meter sweep (R161, R181 to R183, R203, R212, R217). -/

namespace Sys2Proof.Machine
open Sys2Proof

theorem scrubbed_granted {s : State} {g m : Nat} (n : Nat) (act : State → State)
    (h : hasSlot s (glenMem g m) actScrub = true) : scrubbed g m n act s = act (charge (glenMem g m) actScrub n s) :=
  if_pos h

theorem narrowFix_granted {s : State} {g i : Nat} (fix : State → State) (h1 : hasSlot s (glenMem g 1) actUpdate = true)
    (h2 : hasSlot s (glenMem g 2) actUpdate = true) : narrowFix g i fix s = fix (charge (glenMem g 2) actUpdate 2
      (charge (glenMem g 1) actUpdate (restoreSlots (ruleGet s g i)) s)) := if_pos ⟨h1, h2⟩

section
variable {s : State} {g i : Nat} (hnarrow : isWide (ruleGet s g i) = false) (hfw : fwUp s = true)
include hnarrow hfw

/-- Firmware's scrub of a narrow rule. -/
theorem narrowScrub_eq : narrowScrub g i s =
    if (ruleGet s g i).exclude then narrowFix g i (restoreOrMove g i) s
    else if rdF s (tcmScrubCfg g) 0 16 = 0 then s
    else scrubbed g 1 (max 1 (ruleGet s g i).slices.length) (fun t =>
      if ruleDiffers (ruleGet s g i) then narrowFix g i (ruleFix g i) t else retireSlices g i t) s := by
  unfold narrowScrub
  dsimp only
  rw [hnarrow, hfw]
  rfl

end

theorem sgSwitch_due {s : State} {g i c : Nat} (htc : (gateGet s g i).tc = some c) (hc : c ≤ netNs s) :
    sgSwitch g i s = gatePut g i { gateGet s g i with
      oper := (gateGet s g i).admin, prev := (gateGet s g i).oper, since := c, tc := none } s := by
  unfold sgSwitch
  dsimp only
  rw [htc]
  exact if_pos hc

theorem histServe_negative {s : State} {d : Nat} {r : HistRep} {rest : List HistRep}
    (hq : tget [] s.streams.histQ d = r :: rest) (hneg : r.residence < 0) :
    histServe d s = inc (stmCnt r.glen 5) { s with streams := { s.streams with histQ := tset [] s.streams.histQ d rest } } := by
  unfold histServe
  rw [hq]
  exact if_pos hneg

/-- Settles O35: each unit's step once its slot is granted. -/
theorem scrubAndSweepEventsComplete : Obligations.ScrubAndSweepEventsComplete := by
  unfold Obligations.ScrubAndSweepEventsComplete
  refine ⟨?_, ?_, ?_, ?_, ?_, ?_, ?_, ?_, ?_⟩
  · intro s g i hg hi hslot hbad
    exact ⟨_, rfl, (if_pos ⟨hg, hi⟩).trans (congrArg _ ((scrubbed_granted 1 _ hslot).trans (if_pos hbad)))⟩
  · intro s g i hg hi hslot
    refine (if_pos ⟨hg, hi⟩).trans (congrArg _ (if_neg ?_))
    rw [hslot]
    decide
  · intro s g i r u hg hi hr hwide hslot hu
    subst hr hu
    exact (if_pos ⟨hg, hi⟩).trans (congrArg _ ((if_pos hwide).trans (if_pos hslot)))
  · intro s g i r hg hi hr hwide hexclude hslot
    subst hr
    refine (if_pos ⟨hg, hi⟩).trans (congrArg _ ((if_pos ?_).trans (scrubbed_granted _ _ hslot)))
    rw [hwide, hexclude]
    rfl
  · intro s g i r u hg hi hr hnarrow hfw hin hon hslot hu
    subst hr hu
    refine (if_pos ⟨hg, hi⟩).trans (congrArg _ ((narrowScrub_eq hnarrow hfw).trans ((if_neg ?_).trans
      ((if_neg hon).trans (scrubbed_granted _ _ hslot)))))
    rw [hin]
    decide
  · intro s g i r hg hi hr hnarrow hfw hexclude hslot1 hslot2
    subst hr
    exact (if_pos ⟨hg, hi⟩).trans (congrArg _ ((narrowScrub_eq hnarrow hfw).trans ((if_pos hexclude).trans
      (narrowFix_granted _ hslot1 hslot2))))
  · intro s d r rest hd hq hneg
    exact (if_pos hd).trans (congrArg _ (histServe_negative hq hneg))
  · intro s g i c hg hi htc hc
    exact ⟨_, rfl, (if_pos ⟨hg, hi⟩).trans (congrArg _ (sgSwitch_due htc hc))⟩
  · intro s g i hg hi
    have hsweep : exec (.meterSweep g i) s = .next (meterSweep g i s) := if_pos ⟨hg, hi⟩
    rw [hsweep, meterSweep]

end Sys2Proof.Machine
end

section
/-! Releases and transfers of an owner (R231 to R234). -/

namespace Sys2Proof.Machine
open Sys2Proof

theorem ownerless_iff {c : CellRec} : ownerless c = true ↔ c.owners = [] ∨ c.owners = [collectId] := by
  simp only [ownerless, Bool.or_eq_true, List.isEmpty_iff, beq_iff_eq]

section
variable {s : State} {d req o k : Nat} {ptr : Word} {c : CellRec} (hd : d < 2) (hreq : req < 38) (ho : o < 512)

theorem exec_bpmRelease (hd : d < 2) (hreq : req < 38) (ho : o < 512) :
    exec (.bpmRelease d req o ptr .none) s = .next (release d req o ptr s).2 := if_pos ⟨hd, hreq, ho⟩

theorem exec_bpmTransfer {n : Nat} (hd : d < 2) (hreq : req < 38) (ho : o < 512) (hn : n < 512) :
    exec (.bpmTransfer d req o n ptr .none) s = .next (transfer d req o n ptr s).2 := if_pos ⟨hd, hreq, ho, hn⟩

section
variable (hquar : namesQuarantined s d ptr = false) (hptr : ptrCheck s d o ptr = .ok k)
include hquar hptr

/-- A release that passes the pointer's checks. -/
theorem release_checked : release d req o ptr s =
    if (cellGet s d (fld ptr 0 19)).owners.getLast? = some o ∧ (cellGet s d (fld ptr 0 19)).owners ≠ [o] then
      (false, badFree d bfLastEarly o req false ptr s)
    else (true, if ownerless (dropOwner (cellGet s d (fld ptr 0 19)) o) then freeCellAt d k (fld ptr 0 19) s
      else cellPut d (fld ptr 0 19) (dropOwner (cellGet s d (fld ptr 0 19)) o) s) := by
  unfold release
  rw [hquar, hptr]
  exact if_neg (by decide)

theorem release_keeps (hc : c = cellGet s d (fld ptr 0 19)) (hlast : c.owners.getLast? ≠ some o)
    (hleft : ownerless (dropOwner c o) = false) :
    (release d req o ptr s).2 = cellPut d (fld ptr 0 19) (dropOwner c o) s := by
  subst hc
  rw [release_checked hquar hptr, if_neg fun h => hlast h.1, hleft]
  rfl

theorem release_frees (hc : c = cellGet s d (fld ptr 0 19)) (hlast : c.owners.getLast? = some o → c.owners = [o])
    (hleft : ownerless (dropOwner c o) = true) :
    (release d req o ptr s).2 = freeCellAt d k (fld ptr 0 19) s := by
  subst hc
  rw [release_checked hquar hptr, if_neg fun h => h.2 (hlast h.1), hleft]
  rfl

end

/-- A transfer that passes the pointer's checks. -/
theorem transfer_checked {n : Nat} (hptr : ptrCheck s d o ptr = .ok k) (hc : c = cellGet s d (fld ptr 0 19)) :
    transfer d req o n ptr s =
      if !ownerValid s d n || c.owners.contains n then (false, badFree d bfBadOwner o req true ptr s)
      else if c.ports.contains o ∧ 8 ≤ c.owners.length - c.ports.length then
        (false, badFree d bfOwners o req true ptr s)
      else (true, if ownerless (swapOwner c o n) then freeCellAt d k (fld ptr 0 19) s
        else cellPut d (fld ptr 0 19) (swapOwner c o n) s) := by
  subst hc
  unfold transfer
  dsimp only
  rw [hptr]

theorem transfer_takes {n : Nat} (hptr : ptrCheck s d o ptr = .ok k) (hc : c = cellGet s d (fld ptr 0 19))
    (hvalid : ownerValid s d n = true) (hnew : n ∉ c.owners)
    (hroom : o ∈ c.ports → c.owners.length - c.ports.length < 8) (hleft : ownerless (swapOwner c o n) = false) :
    (transfer d req o n ptr s).2 = cellPut d (fld ptr 0 19) (swapOwner c o n) s := by
  have hports : ¬ (c.ports.contains o = true ∧ 8 ≤ c.owners.length - c.ports.length) := fun h =>
    absurd h.2 (Nat.not_le.mpr (hroom (List.contains_iff_mem.mp h.1)))
  rw [transfer_checked hptr hc, hvalid, contains_false hnew, if_neg (by decide), if_neg hports, hleft]
  rfl

end

/-- Settles O36: a release and a transfer past the pointer's checks, by the owners that are left. -/
theorem bufferEventsComplete : Obligations.BufferEventsComplete := by
  unfold Obligations.BufferEventsComplete
  refine ⟨?_, ?_, ?_, ?_, ?_, ?_⟩
  · intro s d req o ptr k c hd hreq ho hquar hptr hc hlast hsome hcollect
    have hleft : ownerless (dropOwner c o) = false :=
      Bool.eq_false_iff.mpr fun h => (ownerless_iff.mp h).elim hsome hcollect
    rw [exec_bpmRelease hd hreq ho, release_keeps hquar hptr hc hlast hleft, dropOwner]
  · intro s d req o ptr k c hd hreq ho hquar hptr hc howners
    have hleft : ownerless (dropOwner c o) = true := by
      rw [ownerless_iff, dropOwner]
      rcases howners with honly | ⟨_, hcollect⟩
      · exact .inl (by rw [honly]; exact List.erase_cons_head ..)
      · exact .inr hcollect
    have hlast : c.owners.getLast? = some o → c.owners = [o] := fun h =>
      howners.elim id fun hother => absurd h hother.1
    rw [exec_bpmRelease hd hreq ho, release_frees hquar hptr hc hlast hleft]
  · intro s d req o ptr k hd hreq ho hquar hptr hlast hmore
    rw [exec_bpmRelease hd hreq ho, release_checked hquar hptr, if_pos ⟨hlast, hmore⟩]
  · intro s d req o n ptr k c hd hreq ho hn hptr hc hvalid hnew hports hleft
    rw [exec_bpmTransfer hd hreq ho hn, transfer_takes hptr hc hvalid hnew (fun h => absurd h hports) hleft, swapOwner,
      contains_false hports]
    rfl
  · intro s d req o n ptr k c hd hreq ho hn hptr hc hvalid hnew hports hroom hleft
    rw [exec_bpmTransfer hd hreq ho hn, transfer_takes hptr hc hvalid hnew (fun _ => hroom) hleft, swapOwner,
      contains_true hports]
    rfl
  · intro s d req o n ptr k hd hreq ho hn hptr hbad
    have hrefused : (!ownerValid s d n || (cellGet s d (fld ptr 0 19)).owners.contains n) = true := by
      rcases hbad with h | h
      · rw [h]; rfl
      · rw [contains_true h, Bool.or_true]
    rw [exec_bpmTransfer hd hreq ho hn, transfer_checked hptr rfl, if_pos hrefused]

end Sys2Proof.Machine
end

section
/-! A port's gate list, and network time, by themselves (R283 to R301). -/

namespace Sys2Proof.Machine
open Sys2Proof

/-! ### Gate lists -/

section
variable {s : State} {p : Nat}

theorem gateDue_due {c : Nat} (htc : (gatOf s p).tc = some c) (hpend : (gatOf s p).pending = true) (hc : c ≤ netNs s) :
    gateDue p s = gateSwitch p s := by
  unfold gateDue
  rw [htc]
  exact if_pos ⟨hpend, hc⟩

theorem gateDue_none (h : (gatOf s p).tc = none ∨ (gatOf s p).pending = false) : gateDue p s = s := by
  unfold gateDue
  split
  · next c htc =>
    rcases h with h | h
    · rw [htc] at h; cases h
    · rw [if_neg fun e => by rw [h] at e; exact Bool.noConfusion e.1]
  · rfl

theorem entryStart_entry {e : Word × Word} (hvalid : timValid s = true) (he : gateEntryAt s p (netNs s) = some e) :
    entryStart p false s = setGat p { gatOf (gateRefresh p s) p with
      holdClose := false
      holdOp := if entryOp e = 2 then false else (gatOf (gateRefresh p s) p).holdOp } (gateRefresh p s) := by
  unfold entryStart
  rw [if_neg (by decide), hvalid, he]
  rfl

/-- Settles O37: each event in the branch of its conditions. -/
theorem gateEventsComplete : Obligations.GateEventsComplete := by
  unfold Obligations.GateEventsComplete
  refine ⟨?_, ?_, ?_, ?_, ?_, ?_⟩
  · intro s p c hp htc hpend hc
    exact (needs_true (decide_eq_true hp)).trans (congrArg _ ((if_pos hp).trans (gateDue_due htc hpend hc)))
  · intro s p hp hnone
    exact (needs_true (decide_eq_true hp)).trans (congrArg _ ((if_pos hp).trans (gateDue_none hnone)))
  · intro s p e u hp hvalid he hu
    subst hu
    exact (needs_true (decide_eq_true hp)).trans (congrArg _ ((if_pos hp).trans (entryStart_entry hvalid he)))
  · intro s p op1 hp hactive hvalid hlen
    refine (needs_true (decide_eq_true hp)).trans (congrArg _ ((if_pos hp).trans (if_pos ?_)))
    rw [hactive, hvalid, decide_eq_true hlen]
    rfl
  · intro s p hport hon
    refine (needs_true hport).trans (congrArg _ ((if_pos hport).trans (if_neg ?_)))
    rw [hon]
    decide
  · intro s p hport hon
    refine (needs_true hport).trans (congrArg _ ((if_pos hport).trans (if_neg ?_)))
    rw [hon]
    decide

end

/-! ### The time base -/

theorem timPpsCap_ne_timStat (n : Nat) : timPpsCap + n ≠ timStat := by
  have hcap : timPpsCap = timBase + 0x50 := rfl
  have hstat : timStat = timBase + 0x04 := rfl
  omega

/-- The capture of a PPS_IN edge, but for the servo. -/
def ppsCaptured (s : State) : State :=
  let s1 := if s.tim.ppsUnread then wrBit timStat 4 true s else s
  let s2 := wr timPpsCap (wd (netNanos s)) (wr (timPpsCap + 4) (loW (netSec s)) (wr (timPpsCap + 8) (hiW (netSec s)) s1))
  inc (timPpsCap + 12) { s2 with tim := { s2.tim with ppsUnread := true, ppsSeen := s2.tim.cnt } }

@[simp] theorem ppsCaptured_tim (s : State) :
    (ppsCaptured s).tim = { s.tim with ppsUnread := true, ppsSeen := s.tim.cnt } := by
  unfold ppsCaptured
  cases s.tim.ppsUnread <;> rfl

theorem ppsIn_free {s : State} (h : s.tim.discipline = false) : ppsIn s = ppsCaptured s := by
  have hservo : (ppsCaptured s).tim.discipline = false := by rw [ppsCaptured_tim]; exact h
  refine if_neg fun e => ?_
  rw [Bool.and_eq_true] at e
  exact Bool.noConfusion (hservo.symm.trans e.1)

/-- The registers after a capture. -/
theorem rd_ppsCaptured (s : State) (a : Nat) : rd (ppsCaptured s) a =
    if a = timPpsCap + 12 then rd s (timPpsCap + 12) + 1
    else if a = timPpsCap then wd (netNanos s)
    else if a = timPpsCap + 4 then loW (netSec s)
    else if a = timPpsCap + 8 then hiW (netSec s)
    else if a = timStat ∧ s.tim.ppsUnread = true then setBit (rd s timStat) 4 true else rd s a := by
  have hseen : ∀ (t : State) (x : Tim) (b : Nat), rd { t with tim := x } b = rd t b := fun t x b => rd_congr _ _ _ rfl rfl
  have hstat : ∀ b, rd (if s.tim.ppsUnread then wrBit timStat 4 true s else s) b =
      if b = timStat ∧ s.tim.ppsUnread = true then setBit (rd s timStat) 4 true else rd s b := by
    intro b
    cases s.tim.ppsUnread with
    | false => simp
    | true => simp only [if_true, and_true, wrBit, rd_wr]
  have h12 : ∀ n < 12, timPpsCap + 12 ≠ timPpsCap + n := fun n hn => by omega
  unfold ppsCaptured
  dsimp only
  rw [inc_eq, rd_wr]
  by_cases ha : a = timPpsCap + 12
  · rw [if_pos ha, if_pos ha, hseen, rd_wr_other _ _ _ _ (h12 0 (by decide)), rd_wr_other _ _ _ _ (h12 4 (by decide)),
      rd_wr_other _ _ _ _ (h12 8 (by decide)), hstat, if_neg fun e => timPpsCap_ne_timStat 12 e.1]
  · rw [if_neg ha, if_neg ha, hseen, rd_wr, rd_wr, rd_wr, hstat]

theorem slewEnd_during {s : State} (h : rdBit s timStat 5 = true) : slewEnd s =
    wr timSlewLeft (wd (unsgn 32 (s.tim.slewLeft.tdiv (10 ^ 9))))
      (if s.tim.slewLeft = 0 then wrBit timStat 5 false s else s) := by
  have htim : (if s.tim.slewLeft = 0 then wrBit timStat 5 false s else s).tim = s.tim := by
    split <;> rfl
  unfold slewEnd showSlew
  rw [if_pos h, htim]

/-- Settles O38: each event in the branch of its conditions. -/
theorem timeEventsComplete : Obligations.TimeEventsComplete := by
  unfold Obligations.TimeEventsComplete
  refine ⟨?_, ?_, ?_, ?_, ?_, ?_, ?_, ?_⟩
  · intro s
    rfl
  · intro s hsrc
    exact congrArg _ (if_pos hsrc)
  · intro s hon hin
    refine congrArg _ (if_pos ?_)
    rw [pulsing, hon, inPulse, decide_eq_true hin]
    rfl
  · intro s hout
    refine congrArg _ (if_neg ?_)
    rw [pulsing, inPulse, decide_eq_false (Nat.not_lt.mpr hout), Bool.and_false]
    decide
  · intro s hfree
    refine ⟨ppsCaptured s, congrArg _ (ppsIn_free hfree), ?_, ?_, ?_, ?_, ?_, ?_, ?_, ?_⟩
    · rw [rd_ppsCaptured, if_neg (by omega), if_pos rfl]
    · rw [rd_ppsCaptured, if_neg (by omega), if_neg (by omega), if_pos rfl]
    · rw [rd_ppsCaptured, if_neg (by omega), if_neg (by omega), if_neg (by omega), if_pos rfl]
    · rw [rd_ppsCaptured, if_pos rfl]
    · rw [ppsCaptured_tim]
    · rw [ppsCaptured_tim]
    · intro hunread
      have hne : ∀ n, timStat ≠ timPpsCap + n := fun n => (timPpsCap_ne_timStat n).symm
      rw [rdBit, rd_ppsCaptured, if_neg (hne 12), if_neg (hne 0), if_neg (hne 4), if_neg (hne 8),
        if_pos ⟨rfl, hunread⟩, bit_setBit_same _ _ _ (by decide)]
    · intro a ha hstat
      rw [rd_ppsCaptured, if_neg (by omega), if_neg (by omega), if_neg (by omega), if_neg (by omega),
        if_neg fun e => hstat e.1]
  · intro s hon hlate
    refine congrArg _ (if_pos ?_)
    rw [ppsLost, hon, decide_eq_true hlate]
    rfl
  · intro s hslew
    exact congrArg Host.Outcome.next (slewEnd_during hslew)
  · intro s hslew
    exact congrArg Host.Outcome.next (if_neg (by rw [hslew]; decide))

end Sys2Proof.Machine
end

section
/-! Recovery, sampling, dump and slot events (O39). -/

namespace Sys2Proof.Machine
open Sys2Proof

/-! ### Each event's conditions and what it does under them -/

section
variable {s : State} {d f g k n : Nat}

theorem rcvExists_of (hd : d < 2) (hf : f < 4096) : rcvExists d f = true := by
  rw [rcvExists, decide_eq_true hd, decide_eq_true hf]
  rfl

theorem dieGroup_of (hd : d < 2) (hg : g < 8) : (decide (d < 2) && decide (g < 8)) = true := by
  rw [decide_eq_true hd, decide_eq_true hg]
  rfl

theorem exec_recoveryResetTimeout (hd : d < 2) (hf : f < 4096) :
    exec (.recoveryResetTimeout d f) s = .next (rcvTimeout d f s) :=
  (needs_true (rcvExists_of hd hf)).trans (congrArg _ (if_pos (rcvExists_of hd hf)))

theorem exec_latentTestPeriod (hd : d < 2) (hf : f < 4096) :
    exec (.latentTestPeriod d f) s = .next (latentTest d f s) :=
  (needs_true (rcvExists_of hd hf)).trans (congrArg _ (if_pos (rcvExists_of hd hf)))

theorem exec_latentResetPeriod (hd : d < 2) (hf : f < 4096) :
    exec (.latentResetPeriod d f) s = .next (latentReset d f s) :=
  (needs_true (rcvExists_of hd hf)).trans (congrArg _ (if_pos (rcvExists_of hd hf)))

theorem exec_sampleBoundary (hd : d < 2) (hg : g < 8) :
    exec (.sampleBoundary d g) s = .next (sampleBoundary d g s) :=
  (needs_true (dieGroup_of hd hg)).trans (congrArg _ (if_pos ⟨hd, hg⟩))

theorem exec_sampleMemberRead (hd : d < 2) (hg : g < 8) :
    exec (.sampleMemberRead d g) s = .next (sampleRead d g s) :=
  (needs_true (dieGroup_of hd hg)).trans (congrArg _ (if_pos ⟨hd, hg⟩))

theorem exec_dumpBoundary (hk : k < 11) : exec (.dumpBoundary k) s = .next (boundary k s) :=
  (needs_true (decide_eq_true hk)).trans (congrArg _ (if_pos hk))

theorem exec_dumpWrite {bad : Option Nat} (hk : k < 11) : exec (.dumpWrite k bad) s = .next (dumpWrite k bad s) :=
  (needs_true (decide_eq_true hk)).trans (congrArg _ (if_pos hk))

theorem exec_slotElapse (hn : n < 32) (hdue : slotDue s n = true) :
    exec (.slotElapse n) s = .next (slotElapse n s) :=
  (needs_true (decide_eq_true hn)).trans (congrArg _ (if_pos ⟨hn, hdue⟩))

theorem exec_ovfCountReached (hn : n < 32) : exec (.ovfCountReached n) s = .next (ovfReached n s) :=
  (needs_true (decide_eq_true hn)).trans (congrArg _ (if_pos hn))

/-! ### Recovery functions -/

theorem rcvTimeout_due (hen : rEn (rcvGet s d f) = true) (hms : rResetMs (rcvGet s d f) ≠ 0)
    (hdue : (rcvGet s d f).timer + rResetMs (rcvGet s d f) * 10 ^ 6 ≤ s.tim.cnt) :
    rcvTimeout d f s = raise srcFreRcvReset (rcvAddr d f) 0 0
      (rcvPut d f { rcvGet (rcvReset d f s) d f with timer := s.tim.cnt } (rcvReset d f s)) := by
  refine if_neg fun h => ?_
  rcases h with h | h | h
  · rw [hen] at h; exact Bool.noConfusion h
  · exact hms h
  · exact Nat.not_lt.mpr hdue h

/-- A test or reset period of an enabled function with latent error detection has ended. -/
theorem latent_due {t : Nat} (hen : rEn (rcvGet s d f) = true) (hlat : rLatEn (rcvGet s d f) = true)
    (hdue : t ≤ s.tim.cnt) : ¬ ((!rEn (rcvGet s d f)) = true ∨ (!rLatEn (rcvGet s d f)) = true ∨ s.tim.cnt < t) := by
  rw [hen, hlat]
  intro h
  rcases h with h | h | h
  · exact Bool.noConfusion h
  · exact Bool.noConfusion h
  · exact Nat.not_lt.mpr hdue h

theorem latentTest_due (hen : rEn (rcvGet s d f) = true) (hlat : rLatEn (rcvGet s d f) = true)
    (hdue : (rcvGet s d f).latAt + rLatPeriod (rcvGet s d f) * 10 ^ 6 ≤ s.tim.cnt) :
    latentTest d f s =
      let x := rcvGet s d f
      let u := rcvPut d f { x with latAt := s.tim.cnt } s
      if rLatDiff x < ((x.p : Int) * ((rPaths x : Int) - 1) - x.d).natAbs
      then raise srcFreLatent (rcvAddr d f) 0 0 (bumpRcv d f rcLatent 1 u) else u :=
  if_neg (latent_due hen hlat hdue)

theorem latentReset_due (hen : rEn (rcvGet s d f) = true) (hlat : rLatEn (rcvGet s d f) = true)
    (hdue : (rcvGet s d f).latZero + rLatReset (rcvGet s d f) * 10 ^ 7 ≤ s.tim.cnt) :
    latentReset d f s =
      rcvPut d f { rcvGet s d f with p := 0, d := 0, latAt := s.tim.cnt, latZero := s.tim.cnt } s :=
  if_neg (latent_due hen hlat hdue)

/-! ### Sampling -/

/-- A boundary that is due, of a group whose registers name members. -/
theorem sampleBoundary_due (hlevel : rdF s (sampCfg d g) 20 2 ≠ 3) (hus : rdF s (sampCfg d g) 0 20 ≠ 0)
    (hcount : rdF s (sampRange d g) 18 14 ≠ 0) (hdue : (sampGet s d g).next ≤ s.tim.cnt)
    (hclk : 36 ∉ s.col.stopped) : sampleBoundary d g s =
      let x := sampGet s d g
      let level := rdF s (sampCfg d g) 20 2
      let first := rdF s (sampRange d g) 0 18
      let last := min (first + rdF s (sampRange d g) 18 14) (levelTop level)
      let n := nextSample x.next s.tim.cnt (rdF s (sampCfg d g) 0 20)
      if x.members ≠ [] then sampPut d g { x with next := n } (inc (schCnt d cSampSkip) s)
      else sampPut d g ⟨level, (List.range (last - first)).map (first + ·), n⟩ s := by
  have hruns : ¬ (s.tim.cnt < (sampGet s d g).next ∨ s.col.stopped.contains 36 = true) := by
    rw [List.contains_iff_mem]
    exact fun h => h.elim (Nat.not_lt.mpr hdue) hclk
  have hnamed : ¬ (rdF s (sampCfg d g) 0 20 = 0 ∨ rdF s (sampRange d g) 18 14 = 0 ∨ rdF s (sampCfg d g) 20 2 = 3) :=
    fun h => h.elim hus fun h => h.elim hcount hlevel
  unfold sampleBoundary
  dsimp only
  rw [if_neg hruns, if_neg hnamed]

theorem sampleRead_granted {i : Nat} {rest : List Nat} (hmem : (sampGet s d g).members = i :: rest)
    (hslot : hasSlot s (schMem d) 1 = true) : sampleRead d g s =
      postSample (pmcQring d) (pmcQsampLost d) (sampleRecord s d g (sampGet s d g).level i)
        (sampPut d g { sampGet s d g with members := rest } (charge (schMem d) 1 1 s)) := by
  unfold sampleRead
  dsimp only
  rw [hmem]
  exact if_pos hslot

/-! ### Dumps -/

theorem boundaryDue_valid {p : Nat} (hp : setPeriod s k = p) (hne : p ≠ 0) (hvalid : timValid s = true) :
    boundaryDue s k = (if ((setSt s k).mark / p + 1) * p ≤ netNs s
      then some (((setSt s k).mark / p + 1) * p, s.tim.cnt) else none) := by
  subst hp
  exact (if_neg hne).trans (if_pos hvalid)

theorem boundary_due {ns c : Nat} (hdue : boundaryDue s k = some (ns, c)) : boundary k s =
    let u := putSetSt k { setSt s k with mark := ns, base := c } s
    if (setSt s k).pend ≠ [] then raise srcDumpOverrun 0 0 0 (inc (pmcBase + 0x440 + 4 * k)
      (putSetSt k { setSt u k with skipped := (setSt u k).skipped + 1 } u))
    else latch k ns u := by
  unfold boundary
  rw [hdue]

theorem boundary_none (hdue : boundaryDue s k = none) : boundary k s = s := by
  unfold boundary
  rw [hdue]

/-- A dump whose shadows are all read, written to a ring in MRAM that has room. -/
theorem dumpWrite_mram (hpend : (setSt s k).pend ≠ []) (howes : (setSt s k).owes = [])
    (hmram : rdBit s (dumpRing s k + 8) 1 = false)
    (hroom : (ringPost (dumpRing s k) 1024 ((setSt s k).pend.length / 16) (setSt s k).pend s).1 = true) :
    dumpWrite k none s = keepDump k (setSt s k).pend
      (putSetSt k { setSt s k with pend := [], loss := false, prev := (setSt s k).pend }
        (ringPost (dumpRing s k) 1024 ((setSt s k).pend.length / 16) (setSt s k).pend s).2) := by
  unfold dumpWrite
  dsimp only
  rw [howes, takeSlots, if_neg hpend, if_neg (not_not_intro rfl), hmram, Bool.false_and, if_neg Bool.false_ne_true]
  simp only [dumpWords, Bool.false_eq_true, if_false, hroom, if_true]

/-! ### Slots and overflow sampling -/

theorem slotElapse_none (htook : tget false s.path.took n = false) (hwasted : tget 0 s.path.wasted n = 0) :
    slotElapse n s = if ((fifoHead s n).isSome && !pipTakes s n) || enqHeld s n
      then ovfEvent n 3 (add64 (slotReg n 4) 1 (add64 (slotReg n 0) 1 s))
      else ovfEvent n 2 (add64 (slotReg n 3) 1 (add64 (slotReg n 0) 1 s)) := by
  unfold slotElapse
  dsimp only
  rw [htook, hwasted, if_neg Bool.false_ne_true, if_neg (Nat.lt_irrefl 0)]

end

/-- Settles O39: each event in the branch of its conditions. -/
theorem counterEventsComplete : Obligations.CounterEventsComplete := by
  unfold Obligations.CounterEventsComplete
  refine ⟨?_, ?_, ?_, ?_, ?_, ?_, ?_, ?_, ?_, ?_, ?_, ?_, ?_, ?_, ?_, ?_, ?_, ?_⟩
  · intro s d f x hd hf hx hen hms hdue
    subst hx
    rw [exec_recoveryResetTimeout hd hf, rcvTimeout_due hen hms hdue, rcvAddr]
  · intro s d f x u hd hf hx hen hlat hdue hu
    subst hx hu
    rw [exec_latentTestPeriod hd hf, latentTest_due hen hlat hdue, rcvAddr]
  · intro s d f x hd hf hx hen hlat hdue
    subst hx
    rw [exec_latentResetPeriod hd hf, latentReset_due hen hlat hdue]
  · intro s d b hd hb
    exact (needs_true (by rw [decide_eq_true hd, decide_eq_true hb]; rfl)).trans (congrArg _ (if_pos ⟨hd, hb⟩))
  · intro s d g level first hd hg hlevel hne hfirst hus hcount hmem hdue hclk
    subst hlevel hfirst
    rw [exec_sampleBoundary hd hg, sampleBoundary_due hne hus hcount hdue hclk]
    exact congrArg _ (if_neg (not_not_intro hmem))
  · intro s d g hd hg hne hus hcount hmem hdue hclk
    rw [exec_sampleBoundary hd hg, sampleBoundary_due hne hus hcount hdue hclk]
    exact congrArg _ (if_pos hmem)
  · intro s d g hd hg hearly
    exact (exec_sampleBoundary hd hg).trans (congrArg _ (if_pos (.inl hearly)))
  · intro s d g i rest u hd hg hmem hslot hu
    subst hu
    rw [exec_sampleMemberRead hd hg, sampleRead_granted hmem hslot]
  · intro s k p b hk hp hne hvalid hb
    subst hb
    exact boundaryDue_valid hp hne hvalid
  · intro s k ns c u hk hdue hpend hu
    subst hu
    rw [exec_dumpBoundary hk, boundary_due hdue]
    exact congrArg _ (if_neg (not_not_intro hpend))
  · intro s k ns c u hk hdue hpend hu
    subst hu
    rw [exec_dumpBoundary hk, boundary_due hdue]
    exact congrArg _ (if_pos hpend)
  · intro s k hk hdue
    rw [exec_dumpBoundary hk, boundary_none hdue]
  · intro s k x r hk hx hpend howes hmram hr hroom
    subst hx hr
    rw [exec_dumpWrite hk, dumpWrite_mram hpend howes hmram hroom]
  · intro s n hn hdue htook
    exact ⟨_, rfl, (exec_slotElapse hn hdue).trans (congrArg _ (if_pos htook))⟩
  · intro s n hn hdue htook hwasted
    exact ⟨_, rfl, (exec_slotElapse hn hdue).trans
      (congrArg _ ((if_neg (by rw [htook]; decide)).trans (if_pos hwasted)))⟩
  · intro s n hn hdue htook hwasted
    rw [exec_slotElapse hn hdue, slotElapse_none htook hwasted]
  · intro s n hn hdue
    exact (needs_true (decide_eq_true hn)).trans (congrArg _ (if_neg fun h => by rw [hdue] at h; exact Bool.noConfusion h.2))
  · intro s n u hn hmode hint hthresh hu hheld
    subst hu
    rw [exec_ovfCountReached hn]
    unfold ovfReached
    dsimp only
    rw [hmode, hint, decide_eq_true hthresh, Bool.and_self, Bool.and_self, if_pos rfl, hheld]
    rfl

end Sys2Proof.Machine
end

section
/-! The field input and output unit's own events (O40): a transition on a table of inputs that is not in its canonical
order. -/

namespace Sys2Proof.Machine
open Sys2Proof

/-- Input 5 high and otherwise at rest, listed before input 3; input 5 filters for 1 ns.  The listed keys do not rise. -/
def inputsUnordered : State :=
  { State.reset with
    regs := [(fiCfg 5, 1)]
    fio := { State.reset.fio with ins := [(5, { restIn with pin := true }), (3, { restIn with seen := true })] } }

/-- The inputs that a next state lists, in its order. -/
def listedInputs : Out3 → List Nat
  | .next t => t.fio.ins.map (·.1)
  | _ => []

theorem listedInputs_fiTransition : listedInputs (exec (.fiTransition 5 false) inputsUnordered) = [3, 5] := by
  decide +kernel

theorem listedInputs_setFi (x : FiIn) (b : Bool) (h : x ≠ restIn) :
    listedInputs (.next (wrBit fioFiRaw 5 b (setFi 5 x inputsUnordered))) = [5, 3] := by
  show (tset restIn inputsUnordered.fio.ins 5 x).map (·.1) = [5, 3]
  rw [tset, if_neg h]
  rfl

/-- Refutes O40: the transition that brings input 5 to its resting record takes it out of the table, and noting the
transition lists it again, behind input 3; the state named writes it in its old place. -/
theorem not_fieldEventsComplete : ¬ Obligations.FieldEventsComplete := by
  intro h
  unfold Obligations.FieldEventsComplete at h
  obtain ⟨hmove, _⟩ := h
  obtain ⟨y, hy, hexec⟩ := hmove inputsUnordered 5 false _ (by decide) rfl (by decide +kernel) (by decide +kernel)
    (by decide +kernel)
  have hmoves : y ≠ restIn := fun e => absurd (congrArg FiIn.moves (hy.symm.trans e)) (Nat.succ_ne_zero _)
  have hkeys := listedInputs_fiTransition
  rw [hexec, listedInputs_setFi y _ hmoves] at hkeys
  exact absurd hkeys (by decide)

end Sys2Proof.Machine
end

section
/-! The cascade's timers and the taking of a control frame (O41). -/

namespace Sys2Proof.Machine
open Sys2Proof

section
variable {s : State}

/-- The control frame that the MP was given first, out of its queue and its buffer released. -/
def ctrlTaken (m : MpFrame) (s : State) : State :=
  (release m.die 34 290 m.ptr { s with path := { s.path with mpRx := s.path.mpRx.erase m } }).2

theorem exec_controlFrameReceive (hruns : casRuns s = true) :
    exec .controlFrameReceive s = .next (runWaiting (takeControl sessionWords s)) :=
  congrArg Host.Outcome.next (if_pos hruns)

theorem takeControl_unreadable {m : MpFrame} {run : Nat → List Word → State → State}
    (hfind : s.path.mpRx.find? (·.ctrl) = some m) (hread : readCtl m = none) :
    takeControl run s = inc (casCnt ccBadTag) (ctrlTaken m s) := by
  unfold takeControl
  rw [hfind]
  dsimp only
  rw [hread]
  rfl

theorem takeControl_read {m : MpFrame} {c : Ctl} {run : Nat → List Word → State → State}
    (hfind : s.path.mpRx.find? (·.ctrl) = some m) (hread : readCtl m = some c) :
    takeControl run s = if 4 ≤ c.kind then takeAuth run c (ctrlTaken m s) else takeJoin c (ctrlTaken m s) := by
  unfold takeControl
  rw [hfind]
  dsimp only
  rw [hread]
  rfl

/-- A session that is up, whose partner has been silent for the intervals that lose it. -/
theorem sessionTimeout_due {k : Nat} {x : CasSess} (hloss : rdF s casTiming 16 4 ≠ 0) (hup : upSess s k = some x)
    (hdue : x.lastRx + rdF s casTiming 16 4 * keepaliveNs s ≤ s.tim.cnt) : sessionTimeout k s = loseSession k s := by
  unfold sessionTimeout
  rw [hup]
  exact if_neg fun h => h.elim hloss (Nat.not_lt.mpr hdue)

theorem sessionTimeout_held {k : Nat} {x : CasSess} (hup : upSess s k = some x)
    (h : rdF s casTiming 16 4 = 0 ∨ s.tim.cnt < x.lastRx + rdF s casTiming 16 4 * keepaliveNs s) :
    sessionTimeout k s = s := by
  unfold sessionTimeout
  rw [hup]
  exact if_pos h

theorem loseSession_up {k : Nat} {x : CasSess} (hup : upSess s k = some x) : loseSession k s =
    if isWorker s then raise srcCasMgrLost 0 0 0 (wrBit casStat sbMgrLost true (closeSession k s))
    else
      let t := closeSession k s
      { t with cas := { t.cas with lost := (t.cas.lost ++ [x.device]).drop (t.cas.lost.length - 255) } } := by
  unfold loseSession
  rw [hup]

end

/-- Settles O41: each event in the branch of its conditions. -/
theorem cascadeEventsComplete : Obligations.CascadeEventsComplete := by
  unfold Obligations.CascadeEventsComplete
  refine ⟨?_, ?_, ?_, ?_, ?_, ?_, ?_, ?_, ?_, ?_, ?_⟩
  · intro s m u hruns hfind hread hu
    subst hu
    rw [exec_controlFrameReceive hruns, takeControl_unreadable hfind hread, ctrlTaken]
  · intro s m c u hruns hfind hread hkind hu
    subst hu
    rw [exec_controlFrameReceive hruns, takeControl_read hfind hread, if_neg (Nat.not_le.mpr hkind), ctrlTaken]
  · intro s m c u hruns hfind hread hkind hu
    subst hu
    rw [exec_controlFrameReceive hruns, takeControl_read hfind hread, if_pos hkind, ctrlTaken]
  · intro s i q hfrag
    refine congrArg Host.Outcome.next ?_
    unfold fragTimeout
    rw [hfrag]
    simp only [← Nat.not_lt, ite_not]
  · intro s hruns hworker hjoin hdue hdev hport hfree
    refine congrArg Host.Outcome.next (if_pos ?_)
    rw [hruns, hworker, hjoin, decide_eq_true hdue, bne_iff_ne.mpr hdev, hport, hfree]
    rfl
  · intro s h
    refine congrArg Host.Outcome.next (if_neg fun e => ?_)
    simp only [Bool.and_eq_true, decide_eq_true_eq] at e
    obtain ⟨⟨⟨⟨⟨⟨hruns, hworker⟩, hjoin⟩, hdue⟩, _⟩, _⟩, _⟩ := e
    rcases h with h | h | h | h
    · exact Bool.noConfusion (hruns.symm.trans h)
    · exact Bool.noConfusion (hworker.symm.trans h)
    · exact Bool.noConfusion (hjoin.symm.trans h)
    · exact Nat.not_lt.mpr hdue h
  · intro s k x hruns hup
    refine congrArg Host.Outcome.next ?_
    unfold keepalive
    rw [hup]
    simp only [hruns, Bool.not_true, Bool.false_eq_true, false_or, ← Nat.not_lt, ite_not]
  · intro s k x hloss hup hworker hdue
    exact congrArg Host.Outcome.next
      ((sessionTimeout_due hloss hup hdue).trans ((loseSession_up hup).trans (if_pos hworker)))
  · intro s k x u hloss hup hmanager hdue hu
    subst hu
    exact congrArg Host.Outcome.next ((sessionTimeout_due hloss hup hdue).trans
      ((loseSession_up hup).trans (if_neg (by rw [hmanager]; decide))))
  · intro s k x hup h
    exact congrArg Host.Outcome.next (sessionTimeout_held hup h)
  · intro s k x hruns hmanager hup
    refine congrArg Host.Outcome.next ?_
    rw [hup]
    exact if_pos (by rw [hruns, hmanager]; rfl)

end Sys2Proof.Machine
end

section
/-! Hardware errors, the fault sample and unit events (O42). -/

namespace Sys2Proof.Machine
open Sys2Proof

section
variable {s : State}

/-! ### Words refused on a channel (R33 to R35) -/

theorem decodeAddr_pipBlock : ∀ p < 32, decodeAddr (pipBase p / 65536 * 65536) = some (.pip p, 0) := by decide +kernel
theorem decodeAddr_sadBlock : ∀ d < 2, decodeAddr (sadBase d / 65536 * 65536) = some (.sad d, 0) := by decide +kernel

theorem exec_channelWordRefusal {b : Nat} {pip : Option Nat} {blk : Blk} {off n : Nat}
    (hblk : decodeAddr (b * 65536) = some (blk, off)) (hn : 0 < n) (hpip : pip.any (fun p => decide (32 ≤ p)) = false) :
    exec (.channelWordRefusal ⟨b, pip⟩ n) s = .next (wordRefused blk b n pip s) := by
  show execChannelWordRefusal ⟨b, pip⟩ n s = _
  unfold execChannelWordRefusal
  dsimp only
  rw [hblk]
  exact if_neg fun h => h.elim (Nat.pos_iff_ne_zero.mp hn) fun e => Bool.noConfusion (hpip.symm.trans e)

theorem wordRefused_pip (p b n : Nat) : wordRefused (.pip p) b n none s =
    if n = 16 then raise srcChanStuck 0 1 p (bump 97 b 0 32 1 s) else bump 97 b 0 32 1 s := rfl

theorem wordRefused_pip_step (p b n q : Nat) : wordRefused (.pip p) b n (some q) s =
    let t := bump 97 b 0 32 1 s
    let u := { t with path := { t.path with wasted := tmod 0 t.path.wasted q (· + 1) } }
    if n = 16 then raise srcChanStuck 0 1 p u else u := rfl

theorem wordRefused_sad (d b n : Nat) : wordRefused (.sad d) b n none s =
    if n = 16 then raise srcSaddleStuck 0 0 0 (wrBit (sadBase d) 2 true (inc (sadBase d + 4) s))
    else if n < 16 then wrBit (sadBase d) 2 false (inc (sadBase d + 4) s) else inc (sadBase d + 4) s := rfl

/-! ### Hang watchdogs -/

theorem exec_pipeHang {n : Nat} (hn : n < 34) :
    exec (.contextHangWatchdog srcPipeHang n) s = .next (raise srcPipeHang 0 1 n s) := by
  show execContextHangWatchdog srcPipeHang n s = _
  unfold execContextHangWatchdog
  rw [if_pos (.inr (.inr rfl)), needs_true (decide_eq_true hn), if_pos hn]

theorem exec_glenHang {g : Nat} (hg : g < 8) :
    exec (.contextHangWatchdog srcGlnHang g) s = .next (raise srcGlnHang 0 2 g s) := by
  show execContextHangWatchdog srcGlnHang g s = _
  unfold execContextHangWatchdog
  rw [if_neg (by decide), if_pos rfl, needs_true (decide_eq_true hg), if_pos hg]

/-! ### One sample (R474) -/

/-- A filtered map over a range in which one index alone gives a value. -/
theorem filterMap_range_single {α : Type} (f : Nat → Option α) (k : Nat) (hf : ∀ m, m ≠ k → f m = none) (n : Nat) :
    (List.range n).filterMap f = if k < n then (f k).toList else [] := by
  induction n with
  | zero => rfl
  | succ n ih =>
    rw [List.range_succ, List.filterMap_append, ih]
    rcases Nat.lt_trichotomy k n with h | h | h
    · rw [if_pos h, if_pos (by omega), List.filterMap_cons, hf n (by omega)]
      exact List.append_nil _
    · subst h
      rw [if_neg (Nat.lt_irrefl _), if_pos (Nat.lt_succ_self _), List.filterMap_cons]
      cases f k <;> rfl
    · rw [if_neg (by omega), if_neg (by omega), List.filterMap_cons, hf n (by omega)]
      rfl

theorem takenSources_nil : takenSources s [] = [] := by
  have hnone : ∀ v, (List.range srcCount).filterMap (fun n =>
      if sevOf s n = v ∧ rdBit s (fclSrcCfg n) 8 = false then ([] : List Raise).find? (fun r => r.src == n) else none) = [] :=
    fun v => List.filterMap_eq_nil_iff.mpr fun n _ => by split <;> rfl
  unfold takenSources
  simp only [hnone, List.flatMap_cons, List.flatMap_nil, List.append_nil]

theorem takenSources_one {r : Raise} (hsrc : r.src < srcCount) (hmask : rdBit s (fclSrcCfg r.src) 8 = false) :
    takenSources s [r] = [r] := by
  have hat : ∀ v, (List.range srcCount).filterMap (fun n =>
      if sevOf s n = v ∧ rdBit s (fclSrcCfg n) 8 = false then [r].find? (fun q => q.src == n) else none) =
      if sevOf s r.src = v then [r] else [] := by
    intro v
    rw [filterMap_range_single _ r.src ?_, if_pos hsrc]
    · simp only [hmask, and_true, List.find?_cons, beq_self_eq_true]
      split <;> rfl
    · intro m hm
      have hne : (r.src == m) = false := beq_eq_false_iff_ne.mpr (Ne.symm hm)
      simp only [List.find?_cons, hne, List.find?_nil, ite_self]
  have hsev : sevOf s r.src < 8 := fld_lt _ _ _
  unfold takenSources
  simp only [hat, List.flatMap_cons, List.flatMap_nil, List.append_nil]
  generalize sevOf s r.src = v at hsev
  interval_cases v <;> rfl

theorem faultSample_one {r : Raise} (hraised : s.fcl.raised = [r]) (hsrc : r.src < srcCount)
    (hmask : rdBit s (fclSrcCfg r.src) 8 = false) :
    faultSample s = (takeSource r (false, false, inc (fclCnt r.src) { s with fcl := { s.fcl with
      raised := [], windows := s.fcl.windows.filter (fun w => decide (s.tim.cnt < w.ends)) } })).2.2 := by
  have hkept : ∀ t : State, rdBit (inc (fclCnt r.src) t) (fclSrcCfg r.src) 8 = rdBit t (fclSrcCfg r.src) 8 := by
    intro t
    have hne : fclSrcCfg r.src ≠ fclCnt r.src := by
      unfold fclSrcCfg fclCnt
      omega
    rw [rdBit, inc_eq, rd_wr_other _ _ _ _ hne, rdBit]
  unfold faultSample
  dsimp only
  rw [hraised, List.foldl_cons, List.foldl_nil, takenSources_one hsrc (by rw [hkept]; exact hmask)]
  rfl

/-! ### Drain and test (R488, R489) -/

theorem exec_unitDrainComplete {kind idx : Nat} (h : unitNamed kind idx = true) :
    exec (.unitDrainComplete kind idx) s = .next (drained kind idx s) :=
  (needs_true h).trans (congrArg _ (if_pos h))

theorem unitNamed_pip {idx : Nat} (h : idx < 34) : unitNamed 1 idx = true := decide_eq_true h

end

/-- Settles O42: each event in the branch of its conditions. -/
theorem faultEventsComplete : Obligations.FaultEventsComplete := by
  unfold Obligations.FaultEventsComplete
  refine ⟨?_, ?_, ?_, ?_, ?_, ?_, ?_, ?_, ?_, ?_, ?_, ?_, ?_, ?_, ?_, ?_, ?_, ?_, ?_, ?_, ?_, ?_⟩
  · intro s p q n u hp hq hpos hn hu
    subst hu
    have hne : n ≠ 16 := Nat.ne_of_lt hn
    have hblk := decodeAddr_pipBlock p hp
    constructor
    · rw [exec_channelWordRefusal hblk hpos rfl, wordRefused_pip, if_neg hne]
    · rw [exec_channelWordRefusal (pip := some q) hblk hpos (decide_eq_false (Nat.not_le.mpr hq)), wordRefused_pip_step]
      exact congrArg _ (if_neg hne)
  · intro s p u hp hu
    subst hu
    rw [exec_channelWordRefusal (decodeAddr_pipBlock p hp) (by decide) rfl, wordRefused_pip, if_pos rfl]
  · intro s d hd
    rw [exec_channelWordRefusal (decodeAddr_sadBlock d hd) (by decide) rfl, wordRefused_sad, if_pos rfl]
  · intro s d n hd hn
    exact (needs_true (by rw [decide_eq_true hd, decide_eq_true hn]; rfl)).trans (congrArg _ (if_pos ⟨hd, hn⟩))
  · intro s
    rfl
  · intro s hstage hhold hrest
    exact ⟨_, rfl, congrArg Host.Outcome.next ((if_neg fun h => h.elim hstage hhold).trans (if_pos hrest))⟩
  · intro s n addr kind idx hn haddr hunit htherm
    have hall : (decide (n < srcCount) && decide (addr < 2 ^ 32) && unitNamed kind idx) = true := by
      rw [decide_eq_true hn, decide_eq_true haddr, hunit]
      rfl
    refine (needs_true hall).trans (congrArg _ ((if_pos ⟨hn, haddr, hunit⟩).trans ?_))
    rw [if_neg htherm]
  · intro s g i hg hi
    exact (needs_true (by rw [decide_eq_true hg, decide_eq_true hi]; rfl)).trans (congrArg _ (if_pos ⟨hg, hi⟩))
  · intro s n hn
    exact exec_pipeHang hn
  · intro s g hg
    exact exec_glenHang hg
  · intro s hraised
    refine congrArg Host.Outcome.next ?_
    unfold faultSample
    dsimp only
    rw [hraised, List.foldl_nil, takenSources_nil]
    rfl
  · intro s r ws u hraised hsrc hmask hws hu
    subst hws hu
    exact congrArg Host.Outcome.next (faultSample_one hraised hsrc hmask)
  · intro s i w hw
    refine congrArg Host.Outcome.next ?_
    unfold windowExpiry
    rw [hw]
    simp only [Option.any_some, decide_eq_true_eq]
  · intro s k hup hk
    subst hk
    exact congrArg Host.Outcome.next (if_pos hup)
  · intro s kind idx hunit hkind hstate
    refine (exec_unitDrainComplete hunit).trans (congrArg _ ((if_neg (not_not_intro hstate)).trans ?_))
    exact (if_neg fun h => hkind h.1).trans (if_neg fun h => hkind h.1)
  · intro s idx hidx hstate hspare hdone
    refine (exec_unitDrainComplete (unitNamed_pip (by omega))).trans
      (congrArg _ ((if_neg (not_not_intro hstate)).trans ((if_neg fun h => ?_).trans (if_pos ⟨rfl, hidx, hspare⟩))))
    exact hdone.elim h.2.2.1 (Nat.not_le.mpr h.2.2.2)
  · intro s idx hidx hstate hspare hheld hearly
    exact (exec_unitDrainComplete (unitNamed_pip hidx)).trans
      (congrArg _ ((if_neg (not_not_intro hstate)).trans (if_pos ⟨rfl, hspare, hheld, hearly⟩)))
  · intro s idx hidx hstate
    refine ⟨_, rfl, ?_⟩
    exact (needs_true (unitNamed_pip hidx)).trans
      (congrArg _ ((if_pos (unitNamed_pip hidx)).trans (if_neg (not_not_intro hstate))))
  · intro s
    rfl
  · intro s n hn hmem hup hfree
    refine (needs_true (decide_eq_true hn)).trans (congrArg _ (if_pos ?_))
    rw [contains_true hmem, hup, hfree]
    rfl
  · intro s idx hreset
    exact congrArg Host.Outcome.next (if_neg (by rw [hreset]; decide))
  · intro s kind idx hreset
    exact congrArg Host.Outcome.next (if_pos (by rw [hreset]; rfl))

end Sys2Proof.Machine
end

section
/-! Supplies, RESET_N, the start's steps and the Primrose ring (O43). -/

namespace Sys2Proof.Machine
open Sys2Proof

/-- A fold of operations that each leave one part of the state alone leaves it alone. -/
theorem foldl_keeps {α β : Type} (part : State → β) {f : State → α → State} (hf : ∀ t x, part (f t x) = part t) :
    ∀ (l : List α) (s : State), part (l.foldl f s) = part s
  | [], _ => rfl
  | x :: l, s => (foldl_keeps part hf l (f s x)).trans (hf s x)

/-! ### What the outputs' fail state leaves alone -/

section
variable {a : Nat} (hfio : ∀ n < 0x10000, a ≠ fioBase + n)
include hfio

theorem rd_queueEvent (mem : Nat) (bs : List Nat) (ring : Bool) (s : State) : rd (queueEvent mem bs ring s).2 a = rd s a := by
  have hcnt : a ≠ fioCnt fcEvtLost := hfio (0x0400 + 4 * fcEvtLost) (by decide)
  unfold queueEvent
  split
  · exact rd_congr _ _ _ rfl rfl
  · dsimp only
    rw [rd_raise, inc_eq, rd_wr_other _ _ _ _ hcnt]

theorem rd_foRefresh (j source : Nat) (s : State) : rd (foRefresh j source s) a = rd s a := by
  unfold foRefresh
  dsimp only
  split
  · rfl
  · exact (rd_congr _ _ _ rfl rfl).trans (rd_queueEvent hfio _ _ _ s)

theorem rd_failOuts (s : State) : rd (failOuts s) a = rd s a := by
  refine foldl_keeps (fun t => rd t a) (fun t j => ?_) _ s
  have hstat : a ≠ fioFoStat := hfio 0x18 (by decide)
  unfold failOut
  dsimp only
  split
  · rfl
  · rw [rd_foRefresh hfio, rd_wrBit_other _ _ _ hstat]
    exact rd_congr _ _ _ rfl rfl

end

theorem queueEvent_start (mem : Nat) (bs : List Nat) (ring : Bool) (s : State) :
    (queueEvent mem bs ring s).2.start = s.start := by
  unfold queueEvent
  split
  · rfl
  · dsimp only
    rw [raise_start, inc_eq, wr_start]

theorem foRefresh_start (j source : Nat) (s : State) : (foRefresh j source s).start = s.start := by
  unfold foRefresh
  dsimp only
  split
  · rfl
  · rw [setFo]
    exact queueEvent_start _ _ _ s

theorem failOuts_start (s : State) : (failOuts s).start = s.start := by
  refine foldl_keeps (·.start) (fun t j => ?_) _ s
  unfold failOut
  dsimp only
  split
  · rfl
  · rw [foRefresh_start, wrBit_eq, wr_start, setFo]

/-! ### What a stop leaves -/

theorem fwStat_ne_fio (n : Nat) (hn : n < 0x10000) : mbxFwStat ≠ fioBase + n := by
  have hstat : mbxFwStat = 0x10004 := rfl
  have hfio : fioBase = 0x70000 := rfl
  omega

theorem glbStatus_ne_fio (n : Nat) (hn : n < 0x10000) : glbStatus ≠ fioBase + n := by
  have hstat : glbStatus = 0x24 := rfl
  have hfio : fioBase = 0x70000 := rfl
  omega

theorem fwStat_ne_glbStatus : mbxFwStat ≠ glbStatus := by decide

theorem fwStat_ne_hbm (d : Nat) : mbxFwStat ≠ hbmBase d + 4 := by
  have hstat : mbxFwStat = 0x10004 := rfl
  unfold hbmBase
  omega

theorem fwUp_congr {s t : State} (h : rd s mbxFwStat = rd t mbxFwStat) : fwUp s = fwUp t := by
  rw [fwUp, rdBit, h, fwUp, rdBit]

theorem fwUp_firmwareDown (s : State) : fwUp (firmwareDown s) = false := by
  have hrd : rd (firmwareDown s) mbxFwStat = setBit (setBit (rd s mbxFwStat) 0 false) 3 false := by
    show rd (wrBit mbxFwStat 3 false (wrBit mbxFwStat 0 false (endSessions s))) mbxFwStat = _
    rw [rd_wrBit_same, rd_wrBit_same]
    rfl
  rw [fwUp, rdBit, hrd, bit_setBit_other _ _ _ _ (by decide) (by decide), bit_setBit_same _ _ _ (by decide)]

/-- The start's record after a stop. -/
theorem stopAll_start (s : State) : (stopAll s).start =
    { s.start with loader := false, mpq := [], plan := false, step := 0, ringTx := [], restarting := false } := by
  unfold stopAll firmwareDown endSessions
  dsimp only
  rw [failOuts_start]
  simp only [wrBit_eq, wr_start]

theorem fwUp_stopAll (s : State) : fwUp (stopAll s) = false := by
  refine (fwUp_congr ?_).trans (fwUp_firmwareDown s)
  unfold stopAll
  dsimp only
  rw [rd_failOuts fwStat_ne_fio, ← rd_wrBit_other sbFull false (firmwareDown s) fwStat_ne_glbStatus,
    ← rd_wrBit_other sbSafe true (wrBit glbStatus sbFull false (firmwareDown s)) fwStat_ne_glbStatus]
  generalize wrBit glbStatus sbSafe true (wrBit glbStatus sbFull false (firmwareDown s)) = t
  exact rd_congr _ _ _ rfl rfl

/-- The rails marked off. -/
def railsMarked (s : State) : State := { s with start := { s.start with rails := false, reached := false } }

theorem rd_railsMarked (s : State) (a : Nat) : rd (railsMarked s) a = rd s a := rd_congr _ _ _ rfl rfl

theorem railsOff_on {s : State} (h : s.start.rails = true) :
    railsOff s = railsMarked (wrBit glbStatus sbWestUp false (wrBit glbStatus sbFault true (stopAll s))) :=
  if_neg (by rw [h]; decide)

theorem railsOff_start {s : State} (h : s.start.rails = true) : (railsOff s).start =
    { (stopAll s).start with rails := false, reached := false } := by
  rw [railsOff_on h, railsMarked, wrBit_eq, wr_start, wrBit_eq, wr_start]

theorem railsOff_fault {s : State} (h : s.start.rails = true) : rdBit (railsOff s) glbStatus sbFault = true := by
  rw [railsOff_on h, rdBit, rd_railsMarked, rd_wrBit_same, rd_wrBit_same, bit_setBit_other _ _ _ _ (by decide) (by decide),
    bit_setBit_same _ _ _ (by decide)]

theorem fwUp_railsOff {s : State} (h : s.start.rails = true) : fwUp (railsOff s) = false := by
  refine (fwUp_congr ?_).trans (fwUp_stopAll s)
  rw [railsOff_on h, rd_railsMarked, rd_wrBit_other _ _ _ fwStat_ne_glbStatus, rd_wrBit_other _ _ _ fwStat_ne_glbStatus]

theorem railsOff_rails (s : State) : (railsOff s).start.rails = false := by
  cases h : s.start.rails with
  | true => rw [railsOff_start h]
  | false =>
    rw [railsOff, h]
    exact h

/-! ### RESET_N asserted -/

/-- A stack put at rest for a warm reset. -/
def hbmRest (warm : Bool) (d : Nat) (s : State) : State :=
  if warm && rdF s (hbmBase d + 4) 0 3 == 3 then wrF (hbmBase d + 4) 0 3 2 s else s

theorem hbmRest_start (warm : Bool) (d : Nat) (s : State) : (hbmRest warm d s).start = s.start := by
  unfold hbmRest
  split
  · rw [wrF_eq, wr_start]
  · rfl

theorem fwUp_hbmRest (warm : Bool) (d : Nat) (s : State) : fwUp (hbmRest warm d s) = fwUp s := by
  refine fwUp_congr ?_
  unfold hbmRest
  split
  · rw [wrF_eq, rd_wr_other _ _ _ _ (fwStat_ne_hbm d)]
  · rfl

theorem resetAssert_running {s : State} (warm : Bool) (hrails : s.start.rails = true) (hreset : s.start.inReset = false) :
    resetAssert warm s =
      let t := hbmRest warm 1 (hbmRest warm 0 (stopAll s))
      { t with start := { t.start with inReset := true, warmLow := warm } } :=
  if_neg (by rw [hrails, hreset]; decide)

/-! ### RESET_N deasserted: the queue stays -/

section
variable (s : State)

theorem pending_wr (a : Nat) (v : Word) : (wr a v s).pending = s.pending := by rw [wr_pending]
theorem pending_wrF (a lo n v : Nat) : (wrF a lo n v s).pending = s.pending := by rw [wrF_eq, wr_pending]
theorem pending_wrBit (a i : Nat) (b : Bool) : (wrBit a i b s).pending = s.pending := by rw [wrBit_eq, wr_pending]
theorem pending_inc (a : Nat) : (inc a s).pending = s.pending := by rw [inc_eq, wr_pending]
theorem pending_raise (src addr k i : Nat) : (raise src addr k i s).pending = s.pending := by rw [raise_pending]
theorem pending_setGat (p : Nat) (x : GatePort) : (setGat p x s).pending = s.pending := by rw [setGat]
theorem pending_gatePut (g i : Nat) (x : StreamGate) : (gatePut g i x s).pending = s.pending := by rw [gatePut]
theorem pending_islPut (i : Nat) (x : IslSt) : (islPut i x s).pending = s.pending := by rw [islPut]
theorem pending_setUnit (kind idx : Nat) (u : UnitSt) : (setUnit kind idx u s).pending = s.pending := by rw [setUnit]

theorem pending_gateRefresh (p : Nat) : (gateRefresh p s).pending = s.pending := by
  unfold gateRefresh
  dsimp only
  split
  · split
    · rw [pending_raise, pending_inc, pending_setGat]
    · rw [pending_setGat]
  · rw [pending_setGat]

theorem pending_gateSwitch (p : Nat) : (gateSwitch p s).pending = s.pending := by
  unfold gateSwitch
  simp only [pending_setGat, pending_gateRefresh, showChange, pending_wr, pending_wrF, pending_wrBit]
  exact foldl_keeps (·.pending) (fun t q => pending_wr t _ _) _ s

theorem pending_gateDue (p : Nat) : (gateDue p s).pending = s.pending := by
  unfold gateDue
  split
  · split
    · exact pending_gateSwitch s p
    · rfl
  · rfl

theorem pending_sgSwitch (g i : Nat) : (sgSwitch g i s).pending = s.pending := by
  unfold sgSwitch
  dsimp only
  split
  · split
    · rw [pending_gatePut]
    · rfl
  · rfl

theorem pending_timeChanges : (timeChanges s).pending = s.pending := by
  unfold timeChanges sgComplete eachGate
  exact (foldl_keeps (·.pending) (fun t q => pending_sgSwitch t _ _) _ _).trans
    (foldl_keeps (·.pending) (fun t p => pending_gateDue t p) _ s)

theorem pending_setCode (i c : Nat) : (setCode i c s).pending = s.pending := by
  unfold setCode
  dsimp only
  rw [pending_wr, pending_wr]

theorem pending_islFollow (b : Bool) (i : Nat) : (islFollow b i s).pending = s.pending := by
  unfold islFollow
  split
  · rfl
  · split
    · rw [pending_islPut, pending_wrBit, pending_wrBit, pending_setCode]
    · dsimp only
      split
      · rw [pending_setCode, pending_wrBit]
      · rw [pending_wrBit]

theorem pending_islService (b : Bool) : (islService b s).pending = s.pending :=
  foldl_keeps (·.pending) (fun t i => pending_islFollow t b i) _ s

theorem pending_showUnit (kind idx : Nat) : (showUnit kind idx s).pending = s.pending := by
  unfold showUnit
  dsimp only
  split
  · rw [pending_wrF, pending_wrF, pending_wrBit, pending_wrBit]
  · split
    · rw [pending_wrF, pending_wrBit, pending_wrBit]
    · rfl

theorem pending_setState (kind idx st : Nat) : (setState kind idx st s).pending = s.pending := by
  unfold setState
  rw [pending_islService, pending_showUnit, pending_setUnit]

theorem pending_measurePolicy : (measurePolicy s).pending = s.pending := by
  unfold measurePolicy measure
  split <;> rfl

theorem pending_refreshOcc : (refreshOcc s).pending = s.pending :=
  foldl_keeps (·.pending) (fun t g => by
    rw [tcmOccUpdate, pending_wr, setRoutes, lpmOccUpdate, pending_wr]
    dsimp only
    rw [occUpdate, pending_wr, pending_wrF]) _ s

theorem pending_latchStraps (straps : Nat) : (latchStraps straps s).pending = s.pending := by
  unfold latchStraps
  dsimp only
  rw [pending_wrF, pending_wrF, pending_wrF, pending_wr]
  rfl

theorem pending_afterReset (warm : Bool) (straps : Nat) : (afterReset warm straps s).pending = s.pending := by
  unfold afterReset
  dsimp only
  rw [pending_measurePolicy, foldl_keeps (·.pending) fun t q => ?_, pending_latchStraps, pending_refreshOcc]
  rw [pending_raise, pending_setState]

theorem pending_startAt (kind : Nat) : (startAt kind s).pending = s.pending := by
  unfold startAt
  dsimp only
  rw [pending_wrBit]

end

/-- RESET_N deasserted with the rails on: a start begins at step 2. -/
theorem resetDeassert_start {s : State} (straps : Nat) (warm kept : Bool) (hreset : s.start.inReset = true)
    (hrails : s.start.rails = true) : resetDeassert straps warm kept s =
      let w := warm && s.start.warmLow && kept && s.shadow.any && s.start.reached
      let t := afterReset w straps (if w then timeChanges s else s)
      startAt (b2n w) { t with start := { t.start with inReset := false, reached := s.start.reached } } := by
  unfold resetDeassert
  rw [hreset, hrails]
  rfl

/-! ### The start's steps -/

/-- The step's report in the registers that show the west die. -/
def westShown (b : Bool) (s : State) : State := wrBit (sadBase 0) 1 b (wrBit glbStatus sbWestUp b s)

theorem westShown_start (b : Bool) (s : State) : (westShown b s).start = s.start := by
  rw [westShown, wrBit_eq, wr_start, wrBit_eq, wr_start]

theorem stepDone_runs {s : State} {r : StartReport} (hruns : startRuns s = true) (hstep : s.start.step ≠ 2) :
    stepDone r s = if overrun s (storedOk s 0 r.celsius && storedOk s 1 r.celsius)
      then startFail s.start.step causeOverrun (westShown r.westUp s)
      else islService false (if s.start.step ≤ 4 then earlyStep (westShown r.westUp s)
        else lateStep r (westShown r.westUp s)) :=
  (if_neg (by rw [hruns]; decide)).trans (if_neg fun h => hstep h.1)

theorem lateStep_eight {s : State} (r : StartReport) (h : s.start.step = 8) :
    lateStep r s = goStep 9 (enterAster (if s.start.kind = 1 then s else clearTables s)) := by
  unfold lateStep
  simp only [h]

theorem lateStep_nine {s : State} (r : StartReport) (h : s.start.step = 9) :
    lateStep r s = if rdBit (restoreAll s) glbStatus sbWestUp then enterPeony (restoreAll s)
      else startFail 9 causeWest (restoreAll s) := by
  unfold lateStep
  simp only [h]

theorem stepFails_plain {s : State} {c : Nat} (hpuf : c ≠ 3) (himage : c ≠ 4) (hruns : startRuns s = true)
    (hfits : causeFits s c = true) : stepFails c s = startFail s.start.step c s := by
  unfold stepFails
  rw [hruns, hfits, if_neg hpuf, if_neg himage]
  rfl

/-- Settles O43: what a stop, a reset and a step leave, and each event in the branch of its conditions. -/
theorem startEventsComplete : Obligations.StartEventsComplete := by
  unfold Obligations.StartEventsComplete
  refine ⟨?_, ?_, ?_, ?_, ?_, ?_, ?_, ?_, ?_, ?_, ?_, ?_, ?_, ?_, ?_, ?_⟩
  · intro s straps u hrails hreset hu
    subst hu
    refine congrArg Host.Outcome.next ?_
    unfold vinGood
    rw [hrails]
    dsimp only
    rw [hreset]
    rfl
  · intro s
    rfl
  · intro s
    rfl
  · intro s hrails
    refine ⟨_, rfl, ?_, ?_, ?_, railsOff_fault hrails, fwUp_railsOff hrails⟩
    · rw [railsOff_start hrails]
    · rw [railsOff_start hrails, stopAll_start]
    · rw [railsOff_start hrails]
  · intro s hrails
    have hraised : (raise srcVinHigh 0 0 0 s).start.rails = true := hrails
    exact ⟨_, rfl, railsOff_rails _, by rw [railsOff_start hraised, stopAll_start]⟩
  · intro s hrails
    exact ⟨_, rfl, railsOff_rails _, by rw [railsOff_start hrails, stopAll_start]⟩
  · intro s
    refine ⟨_, rfl, rfl, railsOff_rails s, fun q hq => ?_⟩
    obtain ⟨x, _, rfl⟩ := List.mem_map.mp hq
    rfl
  · intro s w hrails hreset
    refine ⟨_, congrArg Host.Outcome.next (resetAssert_running w hrails hreset), rfl, rfl, ?_, ?_⟩
    · show (hbmRest w 1 (hbmRest w 0 (stopAll s))).start.step = 0
      rw [hbmRest_start, hbmRest_start, stopAll_start]
    · show fwUp (hbmRest w 1 (hbmRest w 0 (stopAll s))) = false
      rw [fwUp_hbmRest, fwUp_hbmRest, fwUp_stopAll]
  · intro s straps warm kept w hreset hrails hw
    subst hw
    refine ⟨_, congrArg Host.Outcome.next (resetDeassert_start straps warm kept hreset hrails), rfl, rfl, rfl, ?_⟩
    rw [pending_startAt]
    refine (pending_afterReset _ _ _).trans ?_
    split
    · exact pending_timeChanges s
    · rfl
  · intro s c hlow hhigh hpuf himage hruns hfits
    refine (needs_true (by rw [decide_eq_true hlow, decide_eq_true hhigh]; rfl)).trans (congrArg _ ?_)
    exact (if_pos ⟨hlow, hhigh⟩).trans (stepFails_plain hpuf himage hruns hfits)
  · intro s
    rfl
  · intro s r u hruns hstep hkind hover hu
    subst hu
    refine congrArg (fun t => Host.Outcome.next (runWaiting t)) ?_
    rw [stepDone_runs hruns (by omega), hover, if_neg Bool.false_ne_true, if_neg (by omega),
      lateStep_eight r (by rw [westShown_start]; exact hstep), if_neg (by rw [westShown_start]; omega)]
    rfl
  · intro s r u hruns hstep hover hu
    subst hu
    refine congrArg (fun t => Host.Outcome.next (runWaiting t)) ?_
    rw [stepDone_runs hruns (by omega), hover, if_neg Bool.false_ne_true, if_neg (by omega),
      lateStep_nine r (by rw [westShown_start]; exact hstep)]
    rfl
  · intro s r hruns hstep hover
    refine congrArg (fun t => Host.Outcome.next (runWaiting t)) ?_
    rw [stepDone_runs hruns hstep, hover]
    rfl
  · intro s hrestart
    refine congrArg (fun t => Host.Outcome.next (runWaiting (restartEnd t))) (if_pos hrestart)
  · intro s p bytes good hring hlen hport hplan hup
    have hframe : (ringPort p && decide (14 ≤ bytes.length)) = true := by rw [hring, decide_eq_true hlen]; rfl
    refine (needs_true hframe).trans (congrArg _ (if_pos ?_))
    rw [hframe, hport, hplan, hup]
    rfl

end Sys2Proof.Machine
end

section
/-! The security unit's events (O44), the step of the queue (O45, O46) and what reset leaves (O48). -/

namespace Sys2Proof.Machine
open Sys2Proof

/-! ### The security unit -/

/-- Registers cleared one after the other. -/
theorem rd_foldl_clear (reg : Nat → Nat) (a : Nat) : ∀ (l : List Nat) (s : State),
    rd (l.foldl (fun t w => wr (reg w) 0 t) s) a = if a ∈ l.map reg then 0 else rd s a
  | [], s => by rw [List.map_nil, if_neg List.not_mem_nil, List.foldl_nil]
  | w :: l, s => by
    rw [List.foldl_cons, rd_foldl_clear reg a l, rd_wr, List.map_cons]
    by_cases hl : a ∈ l.map reg
    · rw [if_pos hl, if_pos (List.mem_cons_of_mem _ hl)]
    · by_cases ha : a = reg w
      · rw [if_neg hl, if_pos ha, if_pos (ha ▸ List.mem_cons_self)]
      · rw [if_neg hl, if_neg ha, if_neg fun h => (List.mem_cons.mp h).elim ha hl]

theorem nonceLapse_due {s : State} (hvalid : rdBit s secBase sbNonceValid = true)
    (hdue : s.sec.nonceAt + 60 * 10 ^ 9 ≤ s.tim.cnt) : nonceLapse s = lapseNonce s := by
  refine if_pos ?_
  rw [hvalid, minutePast, decide_eq_true hdue]
  rfl

/-- What is due a minute after `start`, while a bit is set, waits before and without it. -/
theorem minute_waits {s : State} {b : Bool} {start : Nat} (h : b = false ∨ s.tim.cnt < start + 60 * 10 ^ 9) :
    ¬ ((b && minutePast start s) = true) := by
  rw [Bool.and_eq_true, minutePast, decide_eq_true_eq]
  rintro ⟨hb, hdue⟩
  rcases h with h | h
  · exact Bool.noConfusion (hb.symm.trans h)
  · exact Nat.not_lt.mpr hdue h

theorem secNonce_ne (w : Nat) : secNonce w ≠ secBase := by
  unfold secNonce
  omega

/-- Settles O44: each event when due, and nothing before. -/
theorem securityEventsComplete : Obligations.SecurityEventsComplete := by
  unfold Obligations.SecurityEventsComplete
  refine ⟨?_, ?_, ?_, ?_, ?_, ?_, ?_⟩
  · intro s hvalid hdue
    refine ⟨_, congrArg Host.Outcome.next (nonceLapse_due hvalid hdue), ?_, ?_⟩
    · rw [lapseNonce, rdBit, rd_wrBit_same, bit_setBit_same _ _ _ (by decide)]
    · intro w hw
      rw [lapseNonce, rd_wrBit_other _ _ _ (secNonce_ne w), rd_foldl_clear, if_pos]
      exact List.mem_map.mpr ⟨w, List.mem_range.mpr hw, rfl⟩
  · intro s h
    exact congrArg Host.Outcome.next (if_neg (minute_waits h))
  · intro s hlock hdue
    refine congrArg Host.Outcome.next (if_pos ?_)
    rw [hlock, minutePast, decide_eq_true hdue]
    rfl
  · intro s h
    exact congrArg Host.Outcome.next (if_neg (minute_waits h))
  · intro s hopen hdue
    refine congrArg Host.Outcome.next (if_pos ?_)
    rw [hopen, decide_eq_true hdue]
    rfl
  · intro s h
    refine congrArg Host.Outcome.next (if_neg fun e => ?_)
    rw [Bool.and_eq_true, decide_eq_true_eq] at e
    obtain ⟨hopen, hdue⟩ := e
    rcases h with h | h
    · exact Bool.noConfusion (hopen.symm.trans h)
    · exact Nat.not_lt.mpr hdue h
  · intro s ws r hr
    subst hr
    rfl

/-! ### The step of the queue -/

/-- Settles O45. -/
theorem stepTakesFront : Obligations.StepTakesFront := by
  unfold Obligations.StepTakesFront
  intro s c rest hpend
  simp only [step, hpend]

/-- Network time after one cycle without a slew. -/
theorem idle_steady {s : State} (hclk : 36 ∉ s.col.stopped) (hslew : rdBit s timStat 5 = false) :
    ∃ left rem, idle s = { s with tim := { s.tim with
      now := (((s.tim.now : Int) + 2 ^ 48 + (sgn 32 (rd s timRateAdj).toNat * 2 ^ 32 + (s.tim.rateRem : Int)) / 10 ^ 9) %
        (timeSpan : Int)).toNat, cnt := s.tim.cnt + 1, rateRem := rem, slewLeft := left } } := by
  have hstep : slewStep s = 0 := if_pos (by rw [hslew]; rfl)
  have htick : idle s = timeTick s := if_neg (mt List.contains_iff_mem.mp hclk)
  have hend : ∀ x : Tim, slewEnd { s with tim := x } = { s with tim := x } := fun x =>
    if_neg (by show ¬ rdBit s timStat 5 = true; rw [hslew]; decide)
  unfold timeTick at htick
  dsimp only at htick
  rw [hstep, zero_mul, add_zero, hend] at htick
  exact ⟨_, _, htick⟩

theorem timeSpan_pos : (0 : Int) < (timeSpan : Int) := by
  unfold timeSpan
  norm_num

/-- Settles O46. -/
theorem emptyQueueTicks : Obligations.EmptyQueueTicks := by
  unfold Obligations.EmptyQueueTicks
  refine ⟨?_, ?_, ?_⟩
  · intro s hpend
    simp only [step, hpend, idleTick]
  · intro s hclk
    exact if_pos (List.contains_iff_mem.mpr hclk)
  · intro s n hclk hslew hn
    obtain ⟨left, rem, hidle⟩ := idle_steady hclk hslew
    rw [hidle, hn]
    refine ⟨rfl, ?_, fun a => rd_congr _ _ _ rfl rfl⟩
    dsimp only
    exact Int.toNat_of_nonneg (Int.emod_nonneg _ timeSpan_pos.ne')

/-! ### Reset -/

theorem physPip_reset (n : Nat) : physPip State.reset n = n := by
  have hspare : ∀ d, State.reset.bus.spareOf.getD d 0 = 0 := by
    intro d
    match d with
    | 0 | 1 => rfl
    | d + 2 => rfl
  unfold physPip
  simp only [hspare]
  split
  · exact if_neg (by omega)
  · rfl

theorem physAddr_reset (a : Nat) : physAddr State.reset a = a := by
  unfold physAddr
  split
  · next n off h =>
    obtain ⟨_, _, ha⟩ := decodeAddr_pip a n off h
    rw [physPip_reset, ha]
  · rfl

theorem rd_reset (a : Nat) : rd State.reset a = resetOf a := by
  show resetOf (physAddr State.reset a) = resetOf a
  rw [physAddr_reset]

theorem portExists_reset (p : Nat) : portExists State.reset p = true ↔ p = 7 ∨ p = 135 := by
  by_cases h7 : p = 7
  · subst h7
    exact iff_of_true rfl (.inl rfl)
  by_cases h135 : p = 135
  · subst h135
    exact iff_of_true rfl (.inr rfl)
  have hnone : portRec State.reset p = none :=
    (if_neg (Ne.symm h7)).trans ((if_neg (Ne.symm h135)).trans rfl)
  rw [portExists, hnone]
  exact iff_of_false (by decide) fun h => h.elim h7 h135

/-- Registers whose reset value is the model's choice. -/
theorem resetOf_chosen :
    netNs State.reset = 0 ∧ timValid State.reset = false ∧ fwUp State.reset = false ∧
    resetOf pwiTiming = 0x020A1408 ∧ resetOf fclCfg = 0x00010014 ∧
    (∀ g < 8, resetOf (glnBase g + 0x10008) = 0xFFFFFFFF ∧ resetOf (glnBase g + 0x10010) = 0x020003E8) ∧
    (∀ i < islCount, resetOf (islCfg i) = 0x00103C00 ∧ resetOf (islStat i) = 0x03200028) := by
  decide +kernel

/-- Settles O48. -/
theorem resetLeaves : Obligations.ResetLeaves := by
  unfold Obligations.ResetLeaves
  obtain ⟨htime, hvalid, hup, htiming, hfcl, hglen, hisl⟩ := resetOf_chosen
  refine ⟨rd_reset, rfl, rfl, htime, hvalid, hup, fun _ => rfl, fun _ _ => rfl, portExists_reset, ?_, ?_, ?_, ?_⟩
  · rw [rd_reset, htiming]
  · rw [rd_reset, hfcl]
  · intro g hg
    rw [rd_reset, rd_reset]
    exact hglen g hg
  · intro i hi
    rw [rd_reset, rd_reset]
    exact hisl i hi

end Sys2Proof.Machine
end

section
/-! No command is refused (O47): every arm of `exec` runs a command, or stops on an operand that names nothing. -/

namespace Sys2Proof.Machine
open Sys2Proof

/-- A next state, or the stop for an operand that names nothing. -/
def Runs (o : Out3) : Prop := (∃ t, o = .next t) ∨ o = .fault .illFormed

theorem runs_next (t : State) : Runs (.next t) := .inl ⟨t, rfl⟩

/-- A command that names what the spec has goes on; another stops. -/
theorem runs_ite (p : Prop) [Decidable p] (t : State) : Runs (if p then .next t else .fault .illFormed) := by
  by_cases h : p
  · rw [if_pos h]
    exact runs_next t
  · rw [if_neg h]
    exact .inr rfl

theorem runs_needs (b : Bool) (t : State) : Runs (needs b t) := runs_ite _ t

theorem runs_commandRow (ci : CmdInfo) (body : Body) (f : Frame) (s : State) : Runs (commandRow ci body f s) := runs_ite _ _

theorem runs_contextHangWatchdog (src idx : Nat) (s : State) : Runs (execContextHangWatchdog src idx s) := by
  unfold execContextHangWatchdog
  split
  · exact runs_needs _ _
  · split
    · exact runs_needs _ _
    · split
      · exact runs_needs _ _
      · exact .inr rfl

theorem runs_channelWordRefusal (w : WordAt) (n : Nat) (s : State) : Runs (execChannelWordRefusal w n s) := by
  unfold execChannelWordRefusal
  split
  · split
    · exact .inr rfl
    · exact runs_next _
  · exact .inr rfl

theorem runs_hwError (e : HwErr) (s : State) : Runs (hwError e s) := by
  cases e with
  | source | ruleFlip | headerFlip | pivotFlip | registerFlip | hbmCorrected | hbmRow => exact runs_needs _ _

/-- Every arm runs or stops: the catalogue's commands by their frame, the commands without operands always, the others by
their operands. -/
theorem exec_runs (c : Instr) (s : State) : Runs (exec c s) := by
  cases c with
  | hello | engineInfo | cmdStatus | xferWrite | sessionList | shadowInfo | shadowDigest | nop | portCreate |
  portDelete | portAdmin | portStatus | mcastGroupSet | mcastGroupRead | mirrorCfg | emTableCfg | emKeyLayout |
  emPortCfg | tblInsert | tblDelete | tblLookup | tblFlush | tblBulkInsert | tblIterate | learnRingCfg |
  learnPolicy | ageCfg | glenBudgetSet | tblCapacity | lpmKeyLayout | lpmPortVrf | routeAdd | routeDelete |
  routeLookup | routeBulk | nexthopSet | routeCapacity | tcamKeyLayout | tcamRuleWrite | tcamRuleDelete |
  tcamRuleReplace | tcamActionSet | tcamRuleRead | tcamSearch | tcamScrubCfg | streamKeyLayout | streamIdAdd |
  streamIdDelete | streamCtxSet | streamCtxRead | streamUnblock | streamGateSet | streamCapacity | meterSet |
  meterRead | tenantPolicerMap | colourMapSet | histEdgesSet | histRead | bpmPoolLayout | bpmQuotaSet |
  bpmStatus | bpmBudgetSet | bpmYellowKeep | bpmAudit | bpmCapacity | schPortSet | schNodeSet | schTenantMap |
  schQueueSet | shaperSet | shaperRead | schQueueRead | schSampleCfg | schBudgetSet | schNodeRehome |
  schCapacity | schQueueFlush | timeGet | timeSet | timeStep | timeSlew | timeSource | timePpsCfg | timePortAdj
  | ptpInstanceSet | gateListSet | gateListRead | gatePortCfg | gateListDiscard | frePortCfg | freHandleMap |
  freGenSet | freRcvSet | freRcvRead | freRcvReset | freDupCfg | freDupStatus | ucodePatchLoad |
  ucodePatchSwitch | ucodePatchRevert | ucodeQuery | portParseProfile | rwePortProfile | fiCfg | fiRead |
  fioPubSet | fioGooseTemplate | fioEventRingCfg | fioUtcOffset | foCfg | foForce | foTimeEvent | foRelease |
  foRead | casRoleSet | casDeviceId | casPortCfg | casBudgetSet | casRelayCfg | casJoinCfg | casLeave |
  casSessionRead | casForward | casWorkerList | faultStatus | faultLog | faultAck | faultSrcCfg | faultWindow |
  unitDrain | unitTest | unitReturn | unitStatus | rehome | faultInject | faultLock | dumpSetCfg | dumpRingCfg |
  dumpNow | dumpRead | counterRead | sampleRingCfg | pktSampleCfg | ovfSampleCfg | slotRead | startStatus |
  fwRestart | fwBoot | fwImageWrite | fwSlotSelect | primroseHandover | startRetry | idCertRead |
  measurementRead | ownerCertSet | ownerCertClear | svnCommit | spdmMsg | debugUnlock | debugLock | debugPolicy
  | islCfgSet | islStatus | islCeilTime | islLoopTiming | islCeilRearm | colStallCfg | colStatus | colRearm => exact runs_commandRow _ _ _ _
  | smbRegRead | smbRegStatus | smbAlertResponse | cfgUncommittedTimeout | shadowLogRecovery | cfgRestoreWrite |
  cfgRestoreVerifyTimeout | sysclkSwitchback | budgetPeriodBoundary | parseStep | glenLookup | filterStage |
  frameFcsResult | enqueue | rewriteContextTake | rewriteStep | launchTime | egressTransmit | spillCopy |
  spillReturn | saddleMgmtWatchdog | pllRelockDone | timeSrcLoss | ppsOutRise | ppsOutFall | ppsInEdge |
  ppsInTimeout | packetTriggerApply | controlFrameReceive | fragmentTimeout | joinHelloTimer | keepaliveTimer |
  sessionLossTimeout | sessionRekeyTimer | vinGood | vinLowDetect | vinRailShutdown | vinLoss | vinHighDetect |
  vinOvervoltage | resetNAssert | resetNDeassert | pciePerst | startStepDone | peonyHoldTimer | mpWatchdogExpiry
  | firmwareRestart | faultSample | faultWindowExpiry | faultLogDrain | nonceLapse | lockoutEnd | unlockExpiry |
  slewComplete | blockResetRelease | thermNRelease | thermalShutdown | smbusClockLowTimeout | spdmDoeRequest => exact runs_next _
  | smbRegWrite | smbRegAddr | regaccUpdate | pcieReadRequest | registerWrite | stagedRegisterWrite |
  counterLoRead | timReadFrac | pwiIslPeakRead | pwiCommit | pwiDiscard | pwiCeilPendClear | glnBudgetCommit |
  glnBudgetDiscard | emtKeyCommit | emtKeyDiscard | emtHashWrite | stmHashSeedWrite | freDupSeedWrite |
  ringConsWrite | ringEnableWrite | polStgCommit | polStgDiscard | bpmLayoutCommit | bpmLayoutDiscard |
  bpmQuotaCommit | bpmQuotaDiscard | bpmBudgetCommit | bpmBudgetDiscard | bpmCaptureRearm | schBudgetCommit |
  schBudgetDiscard | schShpCommit | schShpDiscard | shaperCommitEffect | gatListCommit | gatListDiscard |
  timStepGo | timRateAdjWrite | timSrcSelect | fioFoForceEnWrite | fioFoForceValWrite | foMismatchRearm |
  casRoleWrite | casAuthFailRearm | colStallStickyClear | colOvfClear | prsBankSwitch | rweBankSwitch |
  prsPatchAddrWrite | prsPatchDataWrite | rwePatchAddrWrite | rwePatchDataWrite | buserrCaptureRearm |
  fclStatusClear | fclFirstRearm | fclLogPop | fclLockSet | pipCtlModeWrite | ovfCaptureRearm | secDbgReq |
  winRead | winWrite | mbxDoorbell | mbxCommandAreaWrite | mbxCmdProdWrite | mbxRspConsWrite | mbxRingEnWrite |
  cfgParityCheck | clockAbsent | clockPresent | colResyncComplete | frameIngress | primroseFrame |
  parseContextTake | admission | portDecision | linkDown | linkUp | preemptVerifyDone | saddleLaneRealign |
  promotion | shaperSweep | sampleBoundary | sampleMemberRead | gateChangeTime | gateEntryStart | gateHoldAssert
  | recoveryResetTimeout | latentTestPeriod | latentResetPeriod | dupEntryReclaim | fiTransition |
  fiFilterExpiry | pubRepetition | pubHeartbeat | timeEventFire | foPulseExpiry | foReadbackTimeout |
  startStepOverrun | spareTakeover | unitDrainComplete | unitTestComplete | dumpBoundary | dumpWrite |
  slotElapse | ovfCountReached | hostFrameTransmit => exact runs_needs _ _
  | pendingElementComplete | colTransferStart | colCapture | colAckSeen | colFifoWrite | colFifoRead |
  pulseArrival | colStallWatchdog | colPartnerReset | ratioWindowEnd | islandEvaluation | islCeilingExpiry |
  bpmRelease | bpmTransfer | glenUpdateOperation | learnNotifyService | ageRefresh | ageTick | ageScanBucket |
  ringIrqModeration | learnReplicate | prefixUpdateOperation | pivotScrub | wideRuleScrub | wideRuleRestore |
  narrowRuleScrub | streamMgmtRequest | streamGateSwitch | meterSweep => exact runs_ite _ _
  | contextHangWatchdog => exact runs_contextHangWatchdog _ _ _
  | channelWordRefusal => exact runs_channelWordRefusal _ _ _
  | hardwareErrorEvent => exact runs_hwError _ _

/-- Settles O47: the arms' shapes, and for the catalogue the frame's. -/
theorem noCommandIsRefused : Obligations.NoCommandIsRefused := by
  unfold Obligations.NoCommandIsRefused
  refine ⟨exec_runs, fun q hq f s => ?_⟩
  obtain ⟨body, _, hexec⟩ := isRow hq
  rw [hexec, commandRow]
  by_cases hwf : f.wf = true
  · rw [if_pos hwf]
    exact iff_of_true ⟨_, rfl⟩ hwf
  · rw [if_neg hwf]
    exact iff_of_false (fun ⟨_, h⟩ => by cases h) hwf

end Sys2Proof.Machine
end

section
/-! The checks of the header (O51) and the mailboxes that take no command (O52). -/

namespace Sys2Proof.Machine
open Sys2Proof

/-! ### The header's checks in their order -/

section
variable {ci : CmdInfo} {f : Frame} {s : State}

/-- A command whose session holds, at a version that has it. -/
def SessionHolds (ci : CmdInfo) (f : Frame) (s : State) : Prop :=
  ci.op = 0 ∨ (sessOf s f).number ≠ 0 ∧ f.session = (sessOf s f).number ∧ ci.ver ≤ (sessOf s f).agreed

theorem headerFault_session (hformat : formatBad ci f = false) (hop : ci.op ≠ 0)
    (hsess : (sessOf s f).number = 0 ∨ f.session ≠ (sessOf s f).number) : headerFault ci f s = some eNoSession :=
  (if_neg (by rw [hformat]; decide)).trans (if_pos ⟨hop, hsess⟩)

theorem headerFault_version (hformat : formatBad ci f = false) (hop : ci.op ≠ 0) (hnum : (sessOf s f).number ≠ 0)
    (hsess : f.session = (sessOf s f).number) (hver : (sessOf s f).agreed < ci.ver) : headerFault ci f s = some eVersion :=
  (if_neg (by rw [hformat]; decide)).trans
    ((if_neg fun h => h.2.elim hnum fun hne => hne hsess).trans (if_pos ⟨hop, hver⟩))

/-- Past the checks of format, session and version, the standing decides. -/
theorem headerFault_standing (hformat : formatBad ci f = false) (h : SessionHolds ci f s) :
    headerFault ci f s = if !admitted ci s f then some ePriv
      else if ci.write ∧ f.mb = 2 ∧ casActive s ≠ f.partner then some eStandby else none := by
  refine (if_neg (by rw [hformat]; decide)).trans ((if_neg fun e => ?_).trans (if_neg fun e => ?_))
  · rcases h with h | ⟨hnum, hsess, _⟩
    · exact e.1 h
    · exact e.2.elim hnum fun hne => hne hsess
  · rcases h with h | ⟨_, _, hver⟩
    · exact e.1 h
    · exact Nat.not_lt.mpr hver e.2

/-- The statuses of the header's checks are answers given at once. -/
theorem headerFault_now {st : Nat} (h : headerFault ci f s = some st) : later st = false := by
  unfold headerFault at h
  split at h
  · cases h; decide
  · split at h
    · cases h; decide
    · split at h
      · cases h; decide
      · split at h
        · cases h; decide
        · split at h
          · cases h; decide
          · cases h

theorem firmwareRun_fault {body : Body} {st : Nat} (h : headerFault ci f s = some st) :
    firmwareRun ci body f s = err st 0 s := by
  unfold firmwareRun
  rw [h]

end

/-- A command that the header's checks refuse is answered with their status. -/
theorem answers_fault {q : CmdInfo × (Frame → Instr)} {f : Frame} {s : State} {st : Nat} (hq : q ∈ commandRows)
    (hwf : f.wf = true) (hcarries : carries f s = true) (hfree : lockedOut s (mbKey f) q.1.op = false)
    (hfault : headerFault q.1 f s = some st) : Answers q.1 (q.2 f) f s (fun b => err st 0 b) := by
  have hmb : f.mb ≤ 4 := by
    simp only [Frame.wf, Bool.and_eq_true, decide_eq_true_eq] at hwf
    exact hwf.1.1.1.1.1.1.1
  obtain ⟨body, _, hexec⟩ := isRow hq
  have hnow : later st = false := headerFault_now hfault
  have hrun : firmwareRun q.1 body f (begun q.1 f s) = err st 0 (begun q.1 f s) :=
    firmwareRun_fault ((same_headerFault (same_begun q.1 f s hmb) q.1 f).trans hfault)
  have htake : takeCommand q.1 body f (begun q.1 f s) = err st 0 (begun q.1 f s) := by
    rw [takeCommand_now ((lockedOut_begun q.1 f s _ _).trans hfree) (by rw [hrun]; exact hnow), hrun]
  obtain ⟨hanswered, hsame⟩ := carried_answers (ci := q.1) (ring := mbRing s f.mb) (x := err st 0 (begun q.1 f s)) hmb hnow
    rfl rfl rfl (same_refl _) (fun _ => rfl) rfl
  refine ⟨_, ?_, hanswered, hsame⟩
  rw [hexec, commandRow, if_pos hwf, mailboxCommand_carries hmb hcarries, htake]

/-- Firmware leaves the state alone when it refuses a command for good, but for a failed record or image. -/
theorem firmwareRun_refused {ci : CmdInfo} {body : Body} {f : Frame} {s : State}
    (herr : 0x10 ≤ (firmwareRun ci body f s).status) (hnow : later (firmwareRun ci body f s).status = false)
    (hauth : (firmwareRun ci body f s).status ≠ eAuth) : (firmwareRun ci body f s).st = s := by
  unfold firmwareRun at herr hnow hauth ⊢
  split
  · rfl
  · next hnone =>
    simp only [hnone] at herr hnow hauth
    generalize body (sessOf s f).agreed f s = r at herr hnow hauth ⊢
    dsimp only at herr hnow hauth ⊢
    split
    · rfl
    · next hstage =>
      rw [if_neg hstage] at herr hnow hauth
      split
      · rfl
      · next hroom =>
        rw [if_neg hroom] at herr hnow hauth
        split
        · next hlater =>
          rw [if_pos hlater] at hnow
          exact absurd (hlater.symm.trans hnow) (by decide)
        · next hlater =>
          rw [if_neg hlater] at herr hauth
          split
          · next hlt =>
            rw [if_pos hlt] at herr
            split at herr <;> exact absurd herr (Nat.not_le.mpr hlt)
          · next hlt =>
            rw [if_neg hlt] at hauth
            split
            · next he =>
              rw [if_pos he] at hauth
              exact absurd he hauth
            · rfl

/-- Settles O51: the checks exclude each other, and a refusal leaves the state. -/
theorem headerChecksRefuse : Obligations.HeaderChecksRefuse := by
  unfold Obligations.HeaderChecksRefuse
  refine ⟨?_, ?_, ?_, ?_, ?_, ?_, ?_⟩
  · intro ci f s hformat
    exact if_pos hformat
  · intro ci f s hformat hop hsess
    exact headerFault_session hformat hop hsess
  · intro ci f s hformat hop hnum hsess hver
    exact headerFault_version hformat hop hnum hsess hver
  · intro ci f s hformat hsess hadm
    rw [headerFault_standing hformat hsess, hadm]
    rfl
  · intro ci f s hformat hsess hadm hwrite hmb hstandby
    rw [headerFault_standing hformat hsess, hadm]
    exact (if_neg (by decide)).trans (if_pos ⟨hwrite, hmb, hstandby⟩)
  · intro q hq f s st hwf hcarries hfree hfault
    exact answers_fault hq hwf hcarries hfree hfault
  · intro op c f s r _ hr herr hnow hauth
    subst hr
    exact firmwareRun_refused herr hnow hauth

/-! ### Mailboxes that take no command -/

theorem exec_catalogue {q : CmdInfo × (Frame → Instr)} {f : Frame} {s : State} (hq : q ∈ commandRows) (hwf : f.wf = true) :
    ∃ body, exec (q.2 f) s = .next (sendResponses (mailboxCommand q.1 body f s)) := by
  obtain ⟨body, _, hexec⟩ := isRow hq
  exact ⟨body, (hexec f s).trans (if_pos hwf)⟩

theorem respondSession_mb2 (op : Nat) (f : Frame) (r : CmdRes) : (respondSession op f r).mbx.mb2 = r.st.mbx.mb2 := by
  unfold respondSession
  rw [nextSeq_eq]
  dsimp only
  rw [wr_mbx]
  rfl

/-- Settles O52. -/
theorem crowdedMailboxesRefuse : Obligations.CrowdedMailboxesRefuse := by
  unfold Obligations.CrowdedMailboxesRefuse
  refine ⟨?_, ?_, ?_⟩
  · intro q hq f s hwf hmb hring hbusy
    obtain ⟨body, hexec⟩ := exec_catalogue (s := s) hq hwf
    rw [hexec, mailboxCommand, if_neg hmb, hring, if_neg Bool.false_ne_true, registerCommand, if_pos hbusy]
  · intro q hq f s hwf hmb hring hfull
    obtain ⟨body, hexec⟩ := exec_catalogue (s := s) hq hwf
    rw [hexec, mailboxCommand, if_neg hmb, hring, if_pos rfl, ringCommand, if_pos hfull]
  · intro q hq f s hwf hmb hfull
    obtain ⟨body, hexec⟩ := exec_catalogue (s := s) hq hwf
    have hwaits : ¬ (fwTakes s 2 = true ∧ mb2Of s f.partner = []) := fun h => by
      rw [h.2] at hfull
      exact absurd hfull (by decide)
    obtain ⟨hsame, _, hresp⟩ := respondSession_leaves q.1.op f (err eBusy 0 s) hmb
    refine ⟨respondSession q.1.op f (err eBusy 0 s), ?_, hsame, respondSession_mb2 _ _ _, ?_⟩
    · rw [hexec, mailboxCommand, if_pos hmb, sessionCommand, if_neg hwaits, if_neg (Nat.not_lt.mpr hfull)]
    · rw [hresp, netNanos_congr (same_tim hsame)]
      rfl

end Sys2Proof.Machine
end

section
/-! Bus errors (O53). -/

namespace Sys2Proof.Machine
open Sys2Proof

/-! ### REASON, the first that applies (R424) -/

section
variable {s : State} {m a off : Nat} {b : Blk} {full : Bool}

/-- A listed register of a block that takes accesses. -/
theorem busTarget_listed {d : RegDesc} {i j : Nat} (hm : m ≠ 2) (hdec : decodeAddr a = some (b, off))
    (hheld : blockHeld s a b = false) (haway : partnerAway s b = false)
    (hreg : findReg (blockRegs b) off = some (d, i, j)) :
    busTarget s m a full = if full then .ok ⟨a, b, d, i, j⟩ else .error reasonPartial := by
  simp only [busTarget, if_neg hm, hdec, hheld, haway, hreg, Bool.false_eq_true, if_false]

/-- REASON fits its field. -/
theorem busTarget_reason {r : Nat} (h : busTarget s m a full = .error r) : r < 8 := by
  unfold busTarget at h
  split at h
  · cases h; decide
  · split at h
    · cases h; decide
    · split at h
      · cases h; decide
      · split at h
        · cases h; decide
        · split at h
          · cases h; decide
          · split at h
            · cases h
            · cases h; decide

end

/-! ### The count, the fault and the capture -/

section
variable {s : State} {m a : Nat}

/-- A master's counter of bus errors. -/
def busErrCnt (m : Nat) : Nat := glbBase + 0x60 + 4 * m

theorem busErrCnt_ne_cap (hm : m ≤ 4) : busErrCnt m ≠ glbCapAddr ∧ busErrCnt m ≠ glbCapInfo := by
  have hcap : glbCapAddr = glbBase + 0x80 := rfl
  have hinfo : glbCapInfo = glbBase + 0x84 := rfl
  unfold busErrCnt
  omega

/-- A bus error of a write, counted and raised. -/
def busErrCounted (m a : Nat) (s : State) : State :=
  let t := raiseAcc srcRegBusErr a m 2 (incSat (busErrCnt m) 0 32 s)
  if m = 1 ∨ m = 2 then { t with bus := { t.bus with aerAbort := true } } else t

theorem rd_busErrCounted (x : Nat) : rd (busErrCounted m a s) x = rd (incSat (busErrCnt m) 0 32 s) x := by
  unfold busErrCounted
  dsimp only
  split
  · exact (rd_congr _ _ _ rfl rfl).trans (rd_raiseAcc _ _ _ _ _ _)
  · exact rd_raiseAcc _ _ _ _ _ _

theorem rd_busErrCounted_other {x : Nat} (h : x ≠ busErrCnt m) : rd (busErrCounted m a s) x = rd s x := by
  rw [rd_busErrCounted, incSat_eq, rd_wr_other _ _ _ _ h]

theorem rdF_busErrCounted : rdF (busErrCounted m a s) (busErrCnt m) 0 32 =
    min (2 ^ 32 - 1) (rdF s (busErrCnt m) 0 32 + 1) := by
  rw [rdF, rd_busErrCounted, incSat_eq, rd_wr_same, fld_setFld_same _ _ _ _ (by decide), satAdd]
  exact Nat.mod_eq_of_lt (by omega)

theorem busErrCounted_raised :
    (busErrCounted m a s).fcl.raised = s.fcl.raised ++ [⟨srcRegBusErr, a, 0, 0, m, 2, false⟩] := by
  unfold busErrCounted
  dsimp only
  split <;> rfl

theorem busErrCounted_staged : (busErrCounted m a s).bus.staged = s.bus.staged := by
  unfold busErrCounted
  dsimp only
  split <;> rfl

/-- GLB_CAP_INFO as a write's bus error leaves it. -/
def capWord (m r : Nat) : Word := wd (r + 8 * m + 64 + 2 ^ 31)

theorem busError_write (r : Nat) : busError m a true r s =
    if rdBit (busErrCounted m a s) glbCapInfo 31 then busErrCounted m a s
    else wr glbCapInfo (capWord m r) (wr glbCapAddr (wd (a % 2 ^ 26)) (busErrCounted m a s)) := by
  have hcounted : (if true = true ∧ (m = 1 ∨ m = 2) then
      { raiseAcc srcRegBusErr a m 2 (incSat (busErrCnt m) 0 32 s) with
        bus := { (raiseAcc srcRegBusErr a m 2 (incSat (busErrCnt m) 0 32 s)).bus with aerAbort := true } }
      else raiseAcc srcRegBusErr a m 2 (incSat (busErrCnt m) 0 32 s)) = busErrCounted m a s := by
    simp only [true_and, busErrCounted]
  rw [← hcounted]
  rfl

/-- The fields of the capture. -/
theorem capWord_fields {r : Nat} (hr : r < 8) (hm : m ≤ 4) :
    fld (capWord m r) 0 3 = r ∧ fld (capWord m r) 3 3 = m ∧ bit (capWord m r) 6 = true ∧ bit (capWord m r) 31 = true := by
  have hlt : r + 8 * m + 64 + 2 ^ 31 < 2 ^ 32 := by omega
  simp only [capWord, bit, fld_wd _ _ _ hlt, beq_iff_eq]
  omega

end

theorem exec_registerWrite_error {s : State} {m a be : Nat} {v : Word} {r : Nat} (hm : m ≤ 4) (ha : a % 4 = 0)
    (htop : a < 2 ^ 32) (hbe : be < 16) (herr : busTarget s m a (be == 15) = .error r) :
    exec (.registerWrite m a be v) s = .next (answer m ⟨false, []⟩ (busError m a true r s)) := by
  have hok : (accessOk m a && decide (be < 16)) = true := by
    rw [accessOk, masterOk, decide_eq_true hm, decide_eq_true ha, decide_eq_true htop, decide_eq_true hbe]
    rfl
  refine (needs_true hok).trans (congrArg _ ?_)
  unfold busWriteWith
  rw [herr]

/-- Settles O53: the count, the fault and the capture, and REASON in its order. -/
theorem busErrorsLeaveRegisters : Obligations.BusErrorsLeaveRegisters := by
  unfold Obligations.BusErrorsLeaveRegisters
  refine ⟨?_, ?_, ?_, ?_, ?_, ?_⟩
  · intro s m a be v r hm ha htop hbe herr
    have hr : r < 8 := busTarget_reason herr
    obtain ⟨hcntAddr, hcntInfo⟩ := busErrCnt_ne_cap hm
    have hinfo : rd (busErrCounted m a s) glbCapInfo = rd s glbCapInfo := rd_busErrCounted_other hcntInfo.symm
    have haddr : rd (busErrCounted m a s) glbCapAddr = rd s glbCapAddr := rd_busErrCounted_other hcntAddr.symm
    have hbit : rdBit (busErrCounted m a s) glbCapInfo 31 = rdBit s glbCapInfo 31 := by rw [rdBit, hinfo, rdBit]
    have hrd : ∀ x, rd (answer m ⟨false, []⟩ (busError m a true r s)) x = rd (busError m a true r s) x :=
      fun x => rd_congr _ _ _ rfl rfl
    obtain ⟨hreason, hmaster, hwrite, hvalid⟩ := capWord_fields hr hm
    refine ⟨_, exec_registerWrite_error hm ha htop hbe herr, ?_, ?_, ?_, ?_, ?_, ?_⟩
    · intro x hcnt hx hx'
      rw [hrd, busError_write]
      split
      · exact rd_busErrCounted_other hcnt
      · rw [rd_wr_other _ _ _ _ hx', rd_wr_other _ _ _ _ hx, rd_busErrCounted_other hcnt]
    · show rdF (answer m ⟨false, []⟩ (busError m a true r s)) (busErrCnt m) 0 32 = _
      rw [rdF, hrd, busError_write]
      split
      · exact rdF_busErrCounted
      · rw [rd_wr_other _ _ _ _ hcntInfo, rd_wr_other _ _ _ _ hcntAddr]
        exact rdF_busErrCounted
    · show (busError m a true r s).fcl.raised = _
      rw [busError_write]
      split
      · exact busErrCounted_raised
      · rw [wr_fcl, wr_fcl, busErrCounted_raised]
    · intro hset
      rw [hrd, hrd, busError_write, hbit, if_pos hset]
      exact ⟨haddr, hinfo⟩
    · intro hclear
      have hne : glbCapAddr ≠ glbCapInfo := by decide
      simp only [rdF, rdBit, hrd]
      rw [busError_write, hbit, hclear, if_neg Bool.false_ne_true, rd_wr_other _ _ _ _ hne, rd_wr_same, rd_wr_same]
      exact ⟨rfl, hreason, hmaster, hwrite, hvalid⟩
    · show (busError m a true r s).bus.staged = _
      rw [busError_write]
      split
      · exact busErrCounted_staged
      · rw [wr_bus, wr_bus, busErrCounted_staged]
  · intro s m a full hm hdec
    simp only [busTarget, if_neg hm, hdec]
  · intro s m a b off full hm hdec hheld
    simp only [busTarget, if_neg hm, hdec, hheld, if_true]
  · intro s m a b off full hm hdec hheld haway
    simp only [busTarget, if_neg hm, hdec, hheld, haway, Bool.false_eq_true, if_false, if_true]
  · intro s m a b off full hm hdec hheld haway hreg
    simp only [busTarget, if_neg hm, hdec, hheld, haway, hreg, Bool.false_eq_true, if_false]
  · intro s m a b off d i j hm hdec hheld haway hreg
    exact ⟨busTarget_listed hm hdec hheld haway hreg, busTarget_listed hm hdec hheld haway hreg⟩

end Sys2Proof.Machine
end

section
/-! Writes of plain registers (O54): what the shadow log leaves alone. -/

namespace Sys2Proof.Machine
open Sys2Proof

/-! ### The shadow log -/

/-- Nothing but the shadow differs. -/
def ShadowOnly (s t : State) : Prop := ∃ h, t = { s with shadow := h }

theorem shadowOnly_refl (s : State) : ShadowOnly s s := ⟨s.shadow, rfl⟩

theorem shadowOnly_trans {s t u : State} (h : ShadowOnly s t) (k : ShadowOnly t u) : ShadowOnly s u := by
  obtain ⟨x, rfl⟩ := h
  obtain ⟨y, rfl⟩ := k
  exact ⟨y, rfl⟩

theorem shadowOnly_foldl {α : Type} {f : State → α → State} (hf : ∀ t x, ShadowOnly t (f t x)) :
    ∀ (l : List α) (s : State), ShadowOnly s (l.foldl f s)
  | [], s => shadowOnly_refl s
  | x :: l, s => shadowOnly_trans (hf s x) (shadowOnly_foldl hf l (f s x))

theorem shadowOnly_shadowReg (a : Nat) (s : State) : ShadowOnly s (shadowReg a s) := by
  unfold shadowReg
  split
  · exact ⟨_, rfl⟩
  · exact shadowOnly_refl s

theorem shadowOnly_applyLogEntry (s : State) (e : LogEntry) : ShadowOnly s (applyLogEntry s e) := by
  unfold applyLogEntry
  split
  · exact shadowOnly_foldl (fun t a => shadowOnly_shadowReg a t) _ s
  · exact ⟨_, rfl⟩

/-- Two states with the same registers, tables, queues and frames. -/
def SamePlain (s t : State) : Prop :=
  (∀ x, rd t x = rd s x) ∧ t.glens = s.glens ∧ t.streams = s.streams ∧ t.bpm = s.bpm ∧ t.sch = s.sch ∧ t.path = s.path ∧
    t.pending = s.pending

theorem samePlain_trans {s t u : State} (h : SamePlain s t) (k : SamePlain t u) : SamePlain s u := by
  obtain ⟨hrd, hglens, hstreams, hbpm, hsch, hpath, hpend⟩ := h
  obtain ⟨krd, kglens, kstreams, kbpm, ksch, kpath, kpend⟩ := k
  exact ⟨fun x => (krd x).trans (hrd x), kglens.trans hglens, kstreams.trans hstreams, kbpm.trans hbpm, ksch.trans hsch,
    kpath.trans hpath, kpend.trans hpend⟩

theorem samePlain_shadow {s t : State} (h : ShadowOnly s t) : SamePlain s t := by
  obtain ⟨x, rfl⟩ := h
  exact ⟨fun _ => rd_congr _ _ _ rfl rfl, rfl, rfl, rfl, rfl, rfl, rfl⟩

theorem samePlain_mbx (s : State) (x : Mbx) : SamePlain s { s with mbx := x } :=
  ⟨fun _ => rd_congr _ _ _ rfl rfl, rfl, rfl, rfl, rfl, rfl, rfl⟩

/-- Clearing a lost map that is clear. -/
theorem samePlain_clear {s : State} (h : ∀ i < 32, rd s (mbxLostMap i) = 0) :
    SamePlain s ((List.range 32).foldl (fun t i => wr (mbxLostMap i) 0 t) s) := by
  refine ⟨fun x => ?_, ?_, ?_, ?_, ?_, ?_, ?_⟩
  · rw [rd_foldl_clear]
    split
    · next hx =>
      obtain ⟨i, hi, rfl⟩ := List.mem_map.mp hx
      exact (h i (List.mem_range.mp hi)).symm
    · rfl
  · exact foldl_keeps (·.glens) (fun t i => wr_glens _ _ t) _ s
  · exact foldl_keeps (·.streams) (fun t i => wr_streams _ _ t) _ s
  · exact foldl_keeps (·.bpm) (fun t i => wr_bpm _ _ t) _ s
  · exact foldl_keeps (·.sch) (fun t i => wr_sch _ _ t) _ s
  · exact foldl_keeps (·.path) (fun t i => wr_path _ _ t) _ s
  · exact foldl_keeps (·.pending) (fun t i => wr_pending _ _ t) _ s

/-- The recovery of lost blocks while no block is marked lost. -/
theorem samePlain_recoverLost {s : State} (h : ∀ i < 32, rd s (mbxLostMap i) = 0) : SamePlain s (recoverLost s) := by
  have hblocks := fun l => samePlain_shadow
    (shadowOnly_foldl (fun (t : State) (q : Nat × Word) => shadowOnly_shadowReg q.1 t) l s)
  unfold recoverLost
  dsimp only
  refine samePlain_trans (hblocks _) (samePlain_clear fun i hi => ?_)
  rw [(hblocks _).1]
  exact h i hi

/-- A log applied while no entry is lost. -/
theorem samePlain_applyLog {s : State} (h : ∀ i < 32, rd s (mbxLostMap i) = 0) : SamePlain s (applyLog s) := by
  have hentries : SamePlain s { s.mbx.log.foldl applyLogEntry s with
      mbx := { (s.mbx.log.foldl applyLogEntry s).mbx with log := [] } } :=
    samePlain_trans (samePlain_shadow (shadowOnly_foldl shadowOnly_applyLogEntry _ s)) (samePlain_mbx _ _)
  exact samePlain_trans hentries (samePlain_recoverLost fun i hi => (hentries.1 _).trans (h i hi))

/-- The lost map is no configuration register. -/
theorem configReg_lostMap : ∀ i < 32, configReg (mbxLostMap i) = false := by decide +kernel

/-- A write posted to a log that has room. -/
theorem samePlain_postLog {s : State} {t : Target} (m : Nat) (v : Word) (hact : commitAct t.reg.act = false)
    (hroom : s.mbx.log.length < 4096)
    (h : configReg t.addr = true → ∀ i < 32, rd s (mbxLostMap i) = 0) : SamePlain s (postLog m t v s) := by
  unfold postLog
  split
  · exact samePlain_shadow (shadowOnly_refl s)
  · next hlogged =>
    have hconfig : configReg t.addr = true := by
      rw [hact, Bool.or_false, not_or, Bool.not_eq_false] at hlogged
      exact hlogged.2
    dsimp only
    have hposted := samePlain_mbx s { s.mbx with log := s.mbx.log ++ [⟨t.addr, v, logMask t v, m⟩] }
    split
    · exact samePlain_trans hposted (samePlain_applyLog fun i hi => (hposted.1 _).trans (h hconfig i hi))
    · exact hposted

/-! ### A plain register -/

theorem writeEffect_store {m off : Nat} {t : Target} {v : Word} {bad : Bool} (hact : t.reg.act = .store)
    (hwin : ∀ w, t.blk ≠ .win w) (s : State) : writeEffect m off t v bad s = storeFields t.addr t.reg v s := by
  obtain ⟨addr, blk, reg, i, j⟩ := t
  dsimp only at hact hwin
  unfold writeEffect
  dsimp only
  rw [hact]
  cases blk with
  | win w => exact absurd rfl (hwin w)
  | _ => rfl

/-- A plain register after a write. -/
def storedWord (d : RegDesc) (v old : Word) : Word := ((old &&& ~~~(wd d.rw)) ||| (v &&& wd d.rw)) &&& ~~~(v &&& wd d.w1c)

theorem rd_storeFields (a : Nat) (d : RegDesc) (v : Word) (s : State) (x : Nat) :
    rd (storeFields a d v s) x = if x = a then storedWord d v (rd s a) else rd s x := by
  unfold storeFields
  dsimp only
  rw [rd_wr]
  rfl

/-- Settles O54: the write stores its fields, and the shadow log, which has room and has lost nothing, leaves the
registers alone. -/
theorem plainWritesStoreFields : Obligations.PlainWritesStoreFields := by
  unfold Obligations.PlainWritesStoreFields
  intro s m a t v b off hreach hm ha hdec hact hwin hroom hlost
  obtain ⟨haddr, _⟩ := reaches_regAt hreach hm
  have hlock : lockDrops s m t = false :=
    lockDrops_other (by rw [hact]; decide) (by rw [hact]; decide) (by rw [hact]; decide)
  have hexec : exec (.registerWrite m a 15 v) s = .next (written m t v (storeFields t.addr t.reg v) s) := by
    have hok : (accessOk m a && decide (15 < 16)) = true := by
      rw [accessOk_of hreach ha (decodeAddr_lt hdec)]
      rfl
    refine (needs_true hok).trans (congrArg _ ?_)
    rw [busWriteWith_takes hreach hlock v false off b (haddr.symm ▸ hdec), writeEffect_store hact hwin, written]
  have hfresh : ∀ x, rd (parityFresh a s) x = rd s x := fun x => rd_congr _ _ _ rfl rfl
  have hstored : ∀ x, rd (storeFields a t.reg v (parityFresh a s)) x =
      if x = a then storedWord t.reg v (rd s a) else rd s x := fun x => by rw [rd_storeFields, hfresh, hfresh]
  have hplain : SamePlain (storeFields a t.reg v (parityFresh a s))
      (postLog m t v (storeFields a t.reg v (parityFresh a s))) := by
    refine samePlain_postLog m v (by rw [hact]; rfl) ?_ fun hconfig i hi => ?_
    · unfold storeFields
      dsimp only
      rw [wr_mbx]
      exact hroom
    · rw [hstored, if_neg, hlost i hi]
      intro e
      rw [haddr, ← e, configReg_lostMap i hi] at hconfig
      exact Bool.noConfusion hconfig
  obtain ⟨hrd, hglens, hstreams, hbpm, hsch, hpath, hpend⟩ := hplain
  have hstaged : ¬ t.reg.act = .staged := by rw [hact]; decide
  refine ⟨_, hexec, ?_⟩
  unfold written
  rw [haddr, if_neg hstaged]
  have hanswer : ∀ (c : Completion) (u : State) x, rd (answer m c u) x = rd u x := fun c u x => rd_congr _ _ _ rfl rfl
  refine ⟨?_, fun x hx => ?_, ?_, ?_, ?_, ?_, ?_, ?_⟩
  · rw [hanswer, hrd, hstored, if_pos rfl]
    rfl
  · rw [hanswer, hrd, hstored, if_neg fun e => hx (by rw [e])]
  · exact hglens.trans (by unfold storeFields; dsimp only; rw [wr_glens]; rfl)
  · exact hstreams.trans (by unfold storeFields; dsimp only; rw [wr_streams]; rfl)
  · exact hbpm.trans (by unfold storeFields; dsimp only; rw [wr_bpm]; rfl)
  · exact hsch.trans (by unfold storeFields; dsimp only; rw [wr_sch]; rfl)
  · exact hpath.trans (by unfold storeFields; dsimp only; rw [wr_path]; rfl)
  · exact hpend.trans (by unfold storeFields; dsimp only; rw [wr_pending]; rfl)

end Sys2Proof.Machine
end

section
/-! Staged groups (O55): a commit refused and taken, and a discard. -/

namespace Sys2Proof.Machine
open Sys2Proof

/-! ### Staged copies -/

/-- A staged copy of a group taken into force. -/
def forceStaged (p : Nat → Bool) (t : State) (q : Nat × Option Word) : State :=
  match q.2 with
  | some v => if p q.1 then { t with regs := tset (resetOf q.1) t.regs q.1 v } else t
  | none => t

theorem bus_forceStaged (p : Nat → Bool) (t : State) (q : Nat × Option Word) : (forceStaged p t q).bus = t.bus := by
  unfold forceStaged
  split
  · split <;> rfl
  · rfl

/-- A key below every listed one is not listed. -/
theorem tget_rises {d : Nat → Option Word} : ∀ {l : Sparse (Option Word)} {lo k : Nat}, risesFrom d (some lo) l = true →
    k ≤ lo → tget none l k = none
  | [], _, _, _, _ => rfl
  | (j, v) :: l, lo, k, h, hk => by
    unfold risesFrom at h
    simp only [Bool.and_eq_true, decide_eq_true_eq] at h
    obtain ⟨⟨hj, _⟩, hl⟩ := h
    unfold tget
    rw [if_neg (by omega), tget_rises hl (by omega)]

/-- A register after the copies of a group. -/
def forced (p : Nat → Bool) (l : Sparse (Option Word)) (x : Nat) (old : Word) : Word :=
  if p x then (tget none l x).getD old else old

theorem forced_single (p : Nat → Bool) (j : Nat) (v : Option Word) (x : Nat) (old : Word) :
    forced p [(j, v)] x old = if j = x ∧ p x = true then v.getD old else old := by
  unfold forced tget
  by_cases hj : j = x <;> cases p x <;> simp [hj]

theorem tget_forceStaged (p : Nat → Bool) (t : State) (j : Nat) (v : Option Word) (x : Nat) :
    tget (resetOf x) (forceStaged p t (j, v)).regs x = forced p [(j, v)] x (tget (resetOf x) t.regs x) := by
  rw [forced_single]
  unfold forceStaged
  cases v with
  | none => simp
  | some v =>
    dsimp only
    split
    · next hp =>
      by_cases hj : j = x
      · subst hj
        rw [if_pos ⟨rfl, hp⟩]
        exact tget_tset_same _ _ _ _
      · rw [if_neg fun h => hj h.1]
        exact tget_tset_other _ _ _ _ _ _ (Ne.symm hj)
    · next hp => exact (if_neg fun h => hp (by rw [h.1, h.2])).symm

/-- Copies listed once each: every register of the group has its copy. -/
theorem tget_foldl_forceStaged (p : Nat → Bool) (x : Nat) : ∀ (l : Sparse (Option Word)) (lo : Option Nat) (t : State),
    risesFrom (fun _ => none) lo l = true →
    tget (resetOf x) (l.foldl (forceStaged p) t).regs x = forced p l x (tget (resetOf x) t.regs x)
  | [], _, t, _ => by simp [forced]
  | (j, v) :: l, lo, t, h => by
    unfold risesFrom at h
    simp only [Bool.and_eq_true] at h
    obtain ⟨_, hl⟩ := h
    rw [List.foldl_cons, tget_foldl_forceStaged p x l (some j) _ hl, tget_forceStaged]
    by_cases hj : j = x
    · subst hj
      simp [forced, tget, tget_rises hl (Nat.le_refl j)]
    · simp [forced, tget, hj]

theorem commitStaged_eq (p : Nat → Bool) (s : State) :
    commitStaged p s = { s.bus.staged.foldl (forceStaged p) s with
      bus := { (s.bus.staged.foldl (forceStaged p) s).bus with staged := s.bus.staged.filter (fun q => !p q.1) } } := rfl

theorem bus_commitStaged (p : Nat → Bool) (s : State) :
    (commitStaged p s).bus = { s.bus with staged := s.bus.staged.filter (fun q => !p q.1) } := by
  rw [commitStaged_eq, foldl_keeps (·.bus) (bus_forceStaged p) s.bus.staged s]

/-- A register after the staged copies are taken. -/
theorem rd_commitStaged {p : Nat → Bool} {s : State} (h : canonical (fun _ => none) s.bus.staged = true) (a : Nat) :
    rd (commitStaged p s) a = if p (physAddr s a) then rdStg s a else rd s a := by
  have haddr : physAddr (commitStaged p s) a = physAddr s a := physAddr_congr _ _ _ (by rw [bus_commitStaged])
  unfold rd
  rw [haddr, commitStaged_eq]
  exact tget_foldl_forceStaged p _ _ none s h

/-- No copy is listed where the group's are taken out. -/
theorem tget_filter_not {p : Nat → Bool} {x : Nat} (hp : p x = true) :
    ∀ l : Sparse (Option Word), tget none (l.filter fun q => !p q.1) x = none
  | [] => rfl
  | (j, v) :: l => by
    by_cases hj : j = x
    · subst hj
      rw [List.filter_cons_of_neg (by simp [hp]), tget_filter_not hp l]
    · by_cases hpj : p j
      · rw [List.filter_cons_of_neg (by simp [hpj]), tget_filter_not hp l]
      · rw [List.filter_cons_of_pos (by simp [hpj])]
        unfold tget
        rw [if_neg hj, tget_filter_not hp l]

/-- A register whose copy is taken out of the staged ones is its own staged copy. -/
theorem rdStg_filtered {p : Nat → Bool} {s t : State} {l : Sparse (Option Word)} {a : Nat}
    (hstaged : t.bus.staged = l.filter fun q => !p q.1) (hspare : t.bus.spareOf = s.bus.spareOf)
    (hp : p (physAddr s a) = true) : rdStg t a = rd t a := by
  unfold rdStg
  rw [physAddr_congr s t a hspare, hstaged, tget_filter_not hp]
  rfl

/-! ### The register that a group's end writes -/

theorem open_closeGroup (c : Nat) (s : State) : tget none (closeGroup c s).bus.open_ c = none := by
  show tget none (tset none s.bus.open_ c none) c = none
  exact tget_tset_same (none : Option Uncommitted) s.bus.open_ c none

theorem commitGroup_taken {p : Nat → Bool} {s : State} (h : stagedBad p s = false) (stat commit : Nat)
    (take : State → State) : commitGroup stat commit p [] take s = closeGroup commit (wr stat 1 (take s)) := by
  unfold commitGroup
  rw [h]
  rfl

theorem commitGroup_refused {p : Nat → Bool} {s : State} {fails : List Nat} {r : Nat}
    (h : (fails ++ (if stagedBad p s then [7] else [])).min? = some r) (stat commit : Nat) (take : State → State) :
    commitGroup stat commit p fails take s = wr stat (wd (2 + 4 * r)) s := by
  unfold commitGroup
  rw [h]

theorem refusedWith_wr {r : Nat} (h : r < 8) (stat : Nat) (s : State) : refusedWith (wr stat (wd (2 + 4 * r)) s) stat = some r := by
  unfold refusedWith rdF
  rw [rd_wr_same, fld_wd _ _ _ (by omega), fld_wd _ _ _ (by omega), if_pos (by omega)]
  exact congrArg some (by omega)

/-- Settles O55: each register of the group has its copy, listed once, and the status register is none of them. -/
theorem stagedGroupsCommit : Obligations.StagedGroupsCommit := by
  unfold Obligations.StagedGroupsCommit
  have hself : ∀ {p : Nat → Bool} {s : State} {stat a : Nat}, p (physAddr s stat) = false → p (physAddr s a) = true →
      a ≠ stat := fun hstat ha e => by rw [e, hstat] at ha; cases ha
  refine ⟨?_, ?_, ?_⟩
  · intro stat commit p fails take s r hmin hr
    refine ⟨_, rfl, ?_⟩
    rw [commitGroup_refused hmin]
    exact ⟨refusedWith_wr hr stat s, fun a ha => rd_wr_other _ _ _ _ fun e => ha (by rw [e]), rfl⟩
  · intro stat commit p s hstat hbad hcanon
    refine ⟨_, rfl, ?_⟩
    rw [commitGroup_taken hbad]
    have hrd : ∀ a, rd (closeGroup commit (wr stat 1 (commitStaged p s))) a =
        if a = stat then 1 else if p (physAddr s a) then rdStg s a else rd s a := fun a => by
      rw [rd_closeGroup, rd_wr, rd_commitStaged hcanon]
    have hstaged : (closeGroup commit (wr stat 1 (commitStaged p s))).bus.staged = s.bus.staged.filter (fun q => !p q.1) := by
      rw [closeGroup, wr_bus, bus_commitStaged]
    have hspare : (closeGroup commit (wr stat 1 (commitStaged p s))).bus.spareOf = s.bus.spareOf := by
      rw [closeGroup, wr_bus, bus_commitStaged]
    refine ⟨by rw [hrd, if_pos rfl], open_closeGroup _ _, fun a ha => ⟨?_, ?_⟩, fun a ha hne => ?_⟩
    · rw [hrd, if_neg (hself hstat ha), if_pos ha]
    · exact rdStg_filtered (s := s) (l := s.bus.staged) hstaged hspare ha
    · rw [hrd, if_neg (fun e => hne (by rw [e])), ha]
      rfl
  · intro stat commit p s hstat
    refine ⟨_, rfl, ?_⟩
    unfold discardGroup
    have hrd : ∀ a, rd (closeGroup commit (wr stat 3 (discardStaged p s))) a = if a = stat then 3 else rd s a := fun a => by
      rw [rd_closeGroup, rd_wr]
      exact if_congr Iff.rfl rfl (rd_congr _ _ _ rfl rfl)
    refine ⟨by rw [hrd, if_pos rfl], open_closeGroup _ _, ?_, fun a ha => ⟨?_, ?_⟩⟩
    · show (s.bus.badStg.filter fun a => !p a).any p = false
      simp
    · rw [hrd, if_neg (hself hstat ha)]
    · exact rdStg_filtered (s := s) (l := s.bus.staged) rfl rfl ha

end Sys2Proof.Machine
end

section
/-! Stream gates (O58): the list in force, and the lists that a commit refuses. -/

namespace Sys2Proof.Machine
open Sys2Proof

/-! ### The entry in force -/

/-- One entry of the search for the entry at an offset: the offset where it starts, until one is found. -/
def entryScan (offset : Nat) (acc : Nat × Option Nat) (p : Nat × Nat) : Nat × Option Nat :=
  match acc.2 with
  | some _ => acc
  | none => if p.1 ≠ 0 ∧ offset < acc.1 + p.1 then (acc.1, some p.2) else (acc.1 + p.1, none)

/-- What the search finds is an entry whose interval is not zero. -/
theorem entryScan_found {offset i : Nat} : ∀ {l : List (Nat × Nat)} {acc : Nat × Option Nat},
    (l.foldl (entryScan offset) acc).2 = some i → acc.2 = some i ∨ ∃ v, (v, i) ∈ l ∧ v ≠ 0
  | [], _, h => .inl h
  | p :: l, acc, h => by
    rcases entryScan_found (l := l) h with h | ⟨v, hmem, hv⟩
    · unfold entryScan at h
      split at h
      · exact .inl h
      · split at h
        · next hp =>
          obtain rfl := Option.some.inj h
          exact .inr ⟨p.1, List.mem_cons_self, hp.1⟩
        · cases h
    · exact .inr ⟨v, List.mem_cons_of_mem p hmem, hv⟩

theorem lastNonZero_mem {ivs : List Nat} {i : Nat} (h : lastNonZero ivs = some i) : ∃ v, (v, i) ∈ ivs.zipIdx ∧ v ≠ 0 := by
  unfold lastNonZero at h
  obtain ⟨p, hp, rfl⟩ := Option.map_eq_some_iff.mp h
  obtain ⟨hmem, hv⟩ := List.mem_filter.mp (List.mem_of_getLast? hp)
  exact ⟨p.1, hmem, by simpa using hv⟩

/-- The entry at an offset has an interval that is not zero. -/
theorem entryAt_nonZero {ivs : List Nat} {offset i : Nat} (h : entryAt ivs offset = some i) :
    ∃ v, ivs[i]? = some v ∧ v ≠ 0 := by
  have hmem : ∃ v, (v, i) ∈ ivs.zipIdx ∧ v ≠ 0 := by
    have hscan : entryAt ivs offset = match (ivs.zipIdx.foldl (entryScan offset) (0, none)).2 with
        | some i => some i
        | none => lastNonZero ivs := rfl
    rw [hscan] at h
    split at h
    · next j hj =>
      obtain rfl := Option.some.inj h
      rcases entryScan_found hj with h0 | hfound
      · cases h0
      · exact hfound
    · exact lastNonZero_mem h
  obtain ⟨v, hv, hne⟩ := hmem
  exact ⟨v, List.mk_mem_zipIdx_iff_getElem?.mp hv, hne⟩

theorem entryInForce_nonZero {ivs : List Nat} {base cycle ext t i : Nat} {tc : Option Nat}
    (h : entryInForce ivs base cycle ext tc t = some i) : ∃ v, ivs[i]? = some v ∧ v ≠ 0 := by
  unfold entryInForce at h
  split at h
  · dsimp only at h
    split at h
    · exact entryAt_nonZero h
    · exact entryAt_nonZero h
  · exact entryAt_nonZero h

/-- The interval of an entry of a gate's list. -/
theorem sgIntervals_some {x : GateSet} {i v : Nat} (h : (sgIntervals x)[i]? = some v) :
    i < x.len ∧ ∃ w, x.entries[i]? = some w ∧ fld w 8 24 = v := by
  unfold sgIntervals at h
  rw [List.getElem?_map, List.getElem?_take] at h
  obtain ⟨w, hw, hv⟩ := Option.map_eq_some_iff.mp h
  split at hw
  · next hi => exact ⟨hi, w, hw, hv⟩
  · cases hw

/-- The entry in force lies in the list and lasts. -/
theorem sgEntry_some {x : StreamGate} {t : Nat} {w : Word} (h : sgEntry x t = some w) :
    ∃ i, i < (sgList x t).1.len ∧ (sgList x t).1.entries[i]? = some w ∧ fld w 8 24 ≠ 0 := by
  unfold sgEntry at h
  dsimp only at h
  split at h
  · cases h
  · obtain ⟨i, hi, hw⟩ := Option.bind_eq_some_iff.mp h
    obtain ⟨v, hv, hne⟩ := entryInForce_nonZero hi
    obtain ⟨hlt, w', hw', hfld⟩ := sgIntervals_some hv
    obtain rfl := Option.some.inj (hw.symm.trans hw')
    exact ⟨i, hlt, hw, by rw [hfld]; exact hne⟩

theorem sgEntry_empty {x : StreamGate} {t : Nat} (h : (sgList x t).1.len = 0) : sgEntry x t = none := if_pos h

theorem sgOpen_open {x : StreamGate} (h : x.closedInv = false) (t : Nat) :
    sgOpen x t = match sgEntry x t with
      | none => (true, none)
      | some w => (bit w 0, if bit w 4 then some (fld w 1 3) else none) := by
  unfold sgOpen
  rw [h]
  rfl

/-! ### A list that is refused -/

theorem inRange_fail {b : Bool} {w : Nat} {s : State} {k : CmdRes} (h : b = false) (hw : w ≤ 255) :
    inRange b w s k = err eRange w s := by
  unfold inRange
  rw [h, Nat.min_eq_left hw]
  rfl

/-- The checks before the cycle time's pass. -/
theorem bodyStreamGateSet_cycle {f : Frame} {n v : Nat} (b : State) (hn : n = (pw f 1).toNat) (hpos : 0 < n) (hmax : n ≤ 64)
    (hl : f.length = 28 + 4 * n) (hz : pf f 0 9 23 = 0) (hns : (pw f 2).toNat < 10 ^ 9) (hz4 : pf f 4 16 16 = 0)
    (h : (pw f 5).toNat = 0 ∨ ∀ i < n, fld (pw f (7 + i)) 8 24 = 0) :
    bodyStreamGateSet v f b = err eRange (if (pw f 5).toNat = 0 then 5 else 7) b := by
  subst hn
  unfold bodyStreamGateSet
  simp only [lenIs_pass, inRange_pass, hmax, hl, hz, hns, hz4, decide_true, Bool.or_true]
  by_cases hcycle : (pw f 5).toNat = 0
  · rw [if_pos hcycle]
    exact inRange_fail (by simp [hcycle, Nat.ne_of_gt hpos]) (by decide)
  · rw [if_neg hcycle, inRange_pass (by simp [hcycle])]
    exact inRange_fail (by simpa [Nat.ne_of_gt hpos] using fun _ => h.resolve_left hcycle) (by decide)

/-- Settles O58: an entry in force has an interval; the first check of the commit that fails refuses it; an unblock writes
its gate alone. -/
theorem streamGatesFollowLists : Obligations.StreamGatesFollowLists := by
  unfold Obligations.StreamGatesFollowLists
  refine ⟨?_, ?_, ?_, ?_, ?_, ?_, ?_⟩
  · intro x t h
    exact if_pos h
  · intro x t h hlen
    rw [sgOpen_open h, sgEntry_empty hlen]
  · exact fun x t w h => sgEntry_some h
  · intro x t w h hentry
    rw [sgOpen_open h, hentry]
  · intro f s n h hn hpos hmax hl hz hns hz4 hcycle
    have hcycle : (pw f 5).toNat = 0 := by rw [hcycle]; rfl
    refine answers_of h rfl ?_ (keeps_range _ 5)
    rw [bodyStreamGateSet_cycle _ hn hpos hmax hl hz hns hz4 (.inl hcycle), if_pos hcycle]
  · intro f s n h hn hpos hmax hl hz hns hz4 hentries
    exact ⟨_, answers_of h rfl (bodyStreamGateSet_cycle _ hn hpos hmax hl hz hns hz4 (.inr hentries)) (keeps_range _ _)⟩
  · intro v g s
    refine ⟨_, rfl, ?_, fun k i hk => tget_tset_other _ _ _ _ _ _ hk⟩
    exact congrArg StreamGate.closedInv (tget_tset_same emptyGate s.streams.gates _ _)

end Sys2Proof.Machine
end

section
/-! The register file's canonical form (O49): the form as a predicate of states, and the rules by which a state operation
keeps it.  Each operation of the model keeps the form, one lemma per operation in the order of the model's chapters: an
operation that writes no register leaves the file (`Canonical.of_regs`), one that writes registers writes them by `wr` and
its kin, and any other is made of such operations. -/

namespace Sys2Proof.Machine
open Sys2Proof

/-- The register file is in its canonical form. -/
def Canonical (s : State) : Prop := canonical resetOf s.regs = true

/-- The canonical form is one of the register file alone. -/
theorem Canonical.of_regs {s t : State} (h : Canonical s) (e : t.regs = s.regs) : Canonical t := by
  unfold Canonical
  rw [e]
  exact h

/-- A state with another's register file, whatever else it has. -/
theorem canonical_update {s : State} {pending freeCtr cnt bus mbx out rings ports glens streams bpm bud fcl tim gat isl col
    path sch fre fio ucode cas dmp sec shadow start} (h : Canonical s) :
    Canonical ⟨pending, freeCtr, s.regs, cnt, bus, mbx, out, rings, ports, glens, streams, bpm, bud, fcl, tim, gat, isl,
      col, path, sch, fre, fio, ucode, cas, dmp, sec, shadow, start⟩ := h.of_regs rfl

/-- The state in a value that one of two branches gives. -/
theorem canonical_ite_of {α : Type} (f : α → State) {c : Prop} [Decidable c] {a b : α} (ha : Canonical (f a))
    (hb : Canonical (f b)) : Canonical (f (if c then a else b)) := by
  split
  · exact ha
  · exact hb

theorem canonical_ite {c : Prop} [Decidable c] {s t : State} (hs : Canonical s) (ht : Canonical t) :
    Canonical (if c then s else t) := canonical_ite_of id hs ht

theorem canonical_ite_st {c : Prop} [Decidable c] {r q : CmdRes} (hr : Canonical r.st) (hq : Canonical q.st) :
    Canonical (if c then r else q).st := canonical_ite_of CmdRes.st hr hq

theorem canonical_ite_op {c : Prop} [Decidable c] {r q : OpRes} (hr : Canonical r.st) (hq : Canonical q.st) :
    Canonical (if c then r else q).st := canonical_ite_of OpRes.st hr hq

theorem canonical_ite_snd {α : Type} {c : Prop} [Decidable c] {p q : α × State} (hp : Canonical p.2) (hq : Canonical q.2) :
    Canonical (if c then p else q).2 := canonical_ite_of Prod.snd hp hq

/-- The state that a pair spells out. -/
theorem canonical_of_eq {α : Type} {p : α × State} {a : α} {t : State} (h : Canonical p.2) (e : p = (a, t)) :
    Canonical t := by
  rw [e] at h
  exact h

/-- What holds at the start of a fold and is kept by each of its steps holds at its end. -/
theorem fold_inv {α β : Type} {P : β → Prop} {f : β → α → β} {l : List α} {b : β} (hf : ∀ b a, P b → P (f b a))
    (h : P b) : P (l.foldl f b) := by
  induction l generalizing b with
  | nil => exact h
  | cons a l ih => exact ih (hf b a h)

theorem canonical_fold {α : Type} {f : State → α → State} {l : List α} {s : State}
    (hf : ∀ t x, Canonical t → Canonical (f t x)) (h : Canonical s) : Canonical (l.foldl f s) := fold_inv hf h

/-- Firmware's part of a command keeps the form. -/
def KeepsCanonical (body : Body) : Prop := ∀ v f s, Canonical s → Canonical (body v f s).st

/-- The state that a command leaves has the form. -/
def LeavesCanonical (o : Out3) : Prop := ∀ t, o = .next t → Canonical t

theorem leavesCanonical_next {s : State} (h : Canonical s) : LeavesCanonical (.next s) := by
  intro t e
  injection e with e
  rw [← e]
  exact h

theorem leavesCanonical_fault {x : Fault} : LeavesCanonical (.fault x) := by
  intro t e
  cases e

theorem leavesCanonical_ite {c : Prop} [Decidable c] {o q : Out3} (ho : LeavesCanonical o) (hq : LeavesCanonical q) :
    LeavesCanonical (if c then o else q) := by
  split
  · exact ho
  · exact hq

theorem leavesCanonical_needs {b : Bool} {s : State} (h : Canonical s) : LeavesCanonical (needs b s) :=
  leavesCanonical_ite (leavesCanonical_next h) leavesCanonical_fault

end Sys2Proof.Machine
end

section
/-! The register file's canonical form: state operations; clock domains and cells; the shadow; mailboxes. -/

set_option autoImplicit true

namespace Sys2Proof.Machine
open Sys2Proof

variable {s : State}

/-! ### State operations -/

theorem canonical_inc (h : Canonical s) : Canonical (inc a s) := canonical_incBy _ _ h

theorem canonical_wrStg (h : Canonical s) : Canonical (wrStg a v s) := canonical_update h

theorem canonical_stgM (h : Canonical s) : Canonical (stgM a m v s) := canonical_wrStg h

theorem canonical_commitStaged (h : Canonical s) : Canonical (commitStaged p s) := by
  unfold commitStaged
  refine canonical_update (canonical_fold (fun _ _ ht => ?_) h)
  split
  · exact canonical_ite (canonical_tset _ _ ht) ht
  · exact ht

theorem canonical_armStaged (h : Canonical s) : Canonical (armStaged p s) := canonical_update h

theorem canonical_applyArmed (h : Canonical s) : Canonical (applyArmed p s) := by
  unfold applyArmed
  refine canonical_update (canonical_fold (fun _ _ ht => ?_) h)
  split
  · exact canonical_ite (canonical_tset _ _ ht) ht
  · exact ht

theorem canonical_discardStaged (h : Canonical s) : Canonical (discardStaged p s) := canonical_update h

theorem canonical_closeGroup (h : Canonical s) : Canonical (closeGroup commit s) := canonical_update h

theorem canonical_openGroup (h : Canonical s) : Canonical (openGroup commit master s) := canonical_update h

theorem canonical_commitGroup (htake : ∀ x0, Canonical x0 → Canonical (take x0)) (h : Canonical s) :
    Canonical (commitGroup stat commit p fails take s) := by
  unfold commitGroup
  split
  · exact canonical_closeGroup (canonical_wr _ _ _ (htake _ h))
  · exact canonical_wr _ _ _ h

theorem canonical_discardGroup (h : Canonical s) : Canonical (discardGroup stat commit p s) :=
  canonical_closeGroup (canonical_wr _ _ _ (canonical_discardStaged h))

theorem canonical_freeW (h : Canonical s) : Canonical (freeW s).2 := canonical_update h

theorem canonical_raise (h : Canonical s) : Canonical (raise src addr kind idx s) := canonical_update h

theorem canonical_raiseAcc (h : Canonical s) : Canonical (raiseAcc src addr master access s) := canonical_update h

theorem canonical_emit (h : Canonical s) : Canonical (emit o s) := canonical_update h

theorem canonical_bump (h : Canonical s) : Canonical (bump kind idx pos width k s) := canonical_update h

theorem canonical_setUnit (h : Canonical s) : Canonical (setUnit kind idx u s) := canonical_update h

theorem canonical_charge (h : Canonical s) : Canonical (charge u a n s) :=
  canonical_update (canonical_bump (canonical_update h))

theorem canonical_waited (h : Canonical s) : Canonical (waited u a s) :=
  canonical_ite h (canonical_update (canonical_ite (canonical_bump h) h))

theorem canonical_raiseLost (h : Canonical s) : Canonical (raiseLost what lost kind idx s) := canonical_raise h

theorem canonical_flagRow (hretire : ∀ x0, Canonical x0 → Canonical (retire x0)) (h : Canonical s) :
    Canonical (flagRow cls mac row spares retire s) :=
  canonical_ite (canonical_update h) (canonical_ite (canonical_raise (canonical_update h)) (hretire _
    (canonical_update h)))

theorem canonical_flagSpare (h : Canonical s) : Canonical (flagSpare cls mac row kind idx s) :=
  canonical_flagRow (fun _ ht => canonical_raise ht) h

theorem canonical_setRing (h : Canonical s) : Canonical (setRing b r s) := canonical_update h

theorem canonical_ringIrq (h : Canonical s) : Canonical (ringIrq b s) := canonical_setRing (canonical_emit h)

theorem canonical_ringAdvance (h : Canonical s) : Canonical (ringAdvance b s) :=
  canonical_ite (canonical_ringIrq h) (canonical_setRing h)

theorem canonical_ringPost (h : Canonical s) : Canonical (ringPost b unit n words s).2 :=
  canonical_ite_snd (canonical_ringAdvance (canonical_setRing (canonical_wr _ _ _ (canonical_emit h))))
    (canonical_setRing h)

theorem canonical_ringCfgWrite (h : Canonical s) : Canonical (ringCfgWrite b szTop v s) :=
  canonical_ite (canonical_wr _ _ _ (canonical_wr _ _ _ h)) (canonical_wr _ _ _ h)

theorem canonical_ringConsWrite (h : Canonical s) : Canonical (ringConsWrite b unit v s) :=
  canonical_ite (canonical_wrBit _ _ _ h) (canonical_wr _ _ _ h)

/-! ### Clock domains and cells -/

theorem canonical_setCell (h : Canonical s) : Canonical (setCell c x s) := canonical_wrF _ _ _ _ (canonical_update h)

theorem canonical_cellClocks (h : Canonical s) : Canonical (cellClocks c s) :=
  canonical_wrBit _ _ _ (canonical_wrBit _ _ _ h)

theorem canonical_allClocks (h : Canonical s) : Canonical (allClocks d s) :=
  canonical_fold (fun _ _ ht => canonical_cellClocks ht) h

theorem canonical_transferStart (h : Canonical s) : Canonical (transferStart c v s) :=
  canonical_ite h (canonical_ite (canonical_setCell h) (canonical_ite h (canonical_setCell h)))

theorem canonical_pulseLost (h : Canonical s) : Canonical (pulseLost c s) :=
  canonical_ite h (canonical_raise (canonical_wrBit _ _ _ (canonical_wrBit _ _ _ h)))

theorem canonical_pulseArrives (h : Canonical s) : Canonical (pulseArrives c s) :=
  canonical_ite h (canonical_ite (canonical_setCell h) (canonical_ite (canonical_setCell h) (canonical_pulseLost
    (canonical_setCell h))))

theorem canonical_capture (h : Canonical s) : Canonical (capture c s) :=
  canonical_ite h (canonical_ite (canonical_setCell h) (canonical_ite h (canonical_inc (canonical_setCell h))))

theorem canonical_ackSeen (h : Canonical s) : Canonical (ackSeen c s) :=
  canonical_ite h (canonical_ite (canonical_setCell h) (canonical_ite h (canonical_ite (canonical_setCell h)
    (canonical_setCell h))))

theorem canonical_fifoWrite (h : Canonical s) : Canonical (fifoWrite c w s) := canonical_ite h (canonical_setCell h)

theorem canonical_fifoRead (h : Canonical s) : Canonical (fifoRead c s) :=
  canonical_ite (canonical_inc (canonical_setCell h)) h

theorem canonical_stallCheck (h : Canonical s) : Canonical (stallCheck c s) :=
  canonical_ite (canonical_raise (canonical_wrBit _ _ _ (canonical_wrBit _ _ _ (canonical_setCell h)))) h

theorem canonical_partnerReset (h : Canonical s) : Canonical (partnerReset c ofSource s) :=
  canonical_ite h (canonical_ite (canonical_setCell h) (canonical_setCell h))

theorem canonical_sideReleased (h : Canonical s) : Canonical (sideReleased c ofSource s) :=
  canonical_ite h (canonical_ite (canonical_setCell h) (canonical_ite (canonical_setCell h) (canonical_ite
    (canonical_setCell h) (canonical_setCell h))))

theorem canonical_releaseWaiting (h : Canonical s) : Canonical (releaseWaiting d s) :=
  canonical_fold (fun _ _ ht => canonical_ite (canonical_ite (canonical_ite (canonical_ite ht (canonical_sideReleased
    ht)) ht) (canonical_sideReleased (canonical_ite (canonical_ite ht (canonical_sideReleased ht)) ht)))
    (canonical_ite (canonical_ite ht (canonical_sideReleased ht)) ht)) h

theorem canonical_discard (h : Canonical s) : Canonical (discard c n s) := canonical_wr _ _ _ h

theorem canonical_resync (h : Canonical s) : Canonical (resync c s) :=
  canonical_ite h (canonical_raise (canonical_wrBit _ _ _ (canonical_setCell (canonical_discard h))))

theorem canonical_domainReset (h : Canonical s) : Canonical (domainReset d s) :=
  canonical_fold (fun _ _ ht => canonical_partnerReset ht) h

theorem canonical_domainReleased (h : Canonical s) : Canonical (domainReleased d s) :=
  canonical_fold (fun _ _ ht => canonical_sideReleased ht) h

theorem canonical_rung (h : Canonical s) : Canonical (rung m s) := by
  unfold rung
  split
  · exact canonical_inc (canonical_update h)
  · exact h

theorem canonical_rings (h : Canonical s) : Canonical (rings m s) := by
  unfold rings
  split
  · exact canonical_pulseArrives h
  · exact h

theorem canonical_ringsDelivered (h : Canonical s) : Canonical (ringsDelivered s) :=
  canonical_fold (fun _ _ ht => canonical_ackSeen (canonical_capture (canonical_ackSeen (canonical_capture ht)))) h

/-! ### The shadow -/

theorem canonical_keepShadow (h : Canonical new) : Canonical (keepShadow old new) := canonical_update h

theorem canonical_shadowReg (h : Canonical s) : Canonical (shadowReg a s) := canonical_ite (canonical_update h) h

theorem canonical_shadowStaged (h : Canonical s) : Canonical (shadowStaged blk s) :=
  canonical_fold (fun _ _ ht => canonical_shadowReg ht) h

/-! ### Mailboxes -/

theorem canonical_ok (h : Canonical s) : Canonical (ok ws s).st := h

theorem canonical_err (h : Canonical s) : Canonical (err c d s).st := h

theorem canonical_lenIs (h : Canonical s) (h1 : Canonical k.st) : Canonical (lenIs f n s k).st :=
  canonical_ite_st h1 (canonical_err h)

theorem canonical_lenOk (h : Canonical s) (h1 : Canonical k.st) : Canonical (lenOk b s k).st :=
  canonical_ite_st h1 (canonical_err h)

theorem canonical_inRange (h : Canonical s) (h1 : Canonical k.st) : Canonical (inRange b w s k).st :=
  canonical_ite_st h1 (canonical_err h)

theorem canonical_needSlot (h : Canonical s) (h1 : Canonical k.st) : Canonical (needSlot us a s k).st := by
  unfold needSlot
  split
  · exact canonical_waited h
  · exact h1

theorem canonical_refuse (h : Canonical s) (h1 : Canonical k.st) : Canonical (refuse b c s k).st :=
  canonical_ite_st (canonical_err h) h1

theorem canonical_scopeSome (h : Canonical s) (h1 : Canonical k.st) : Canonical (scopeSome f s k).st :=
  canonical_ite_st (canonical_err h) h1

theorem canonical_scopeOne (h : Canonical s) (hk : ∀ x0, Canonical (k x0).st) : Canonical (scopeOne f n s k).st := by
  unfold scopeOne
  split
  · exact hk _
  · exact canonical_err h

theorem canonical_runUnits (hact : ∀ x0 x1 x2, Canonical x2 → Canonical (act x0 x1 x2).2) (h : Canonical s) :
    Canonical (runUnits die mask base act id' s).2 :=
  fold_inv (P := fun q : List Nat × State => Canonical q.2) (fun _ _ ht => canonical_ite_snd (canonical_ite_snd ht
    (hact _ _ _ ht)) ht) h

theorem canonical_keepPend (h : Canonical s) : Canonical (keepPend r s) := canonical_update h

theorem canonical_elemAnswer (h : Canonical s) : Canonical (elemAnswer die f codes s).st :=
  canonical_ite (canonical_keepPend (canonical_update h)) (canonical_update h)

theorem canonical_onUnits (hact : ∀ x0 x1 x2, Canonical x2 → Canonical (act x0 x1 x2).2) (h : Canonical s) :
    Canonical (onUnits die f act s).st :=
  canonical_scopeSome h (canonical_elemAnswer (canonical_runUnits hact h))

theorem canonical_onGlens (hact : ∀ x0 x1, Canonical x1 → Canonical (act x0 x1).2) (h : Canonical s) :
    Canonical (onGlens f act s).st :=
  canonical_onUnits (fun _ _ _ ht => hact _ _ ht) h

theorem canonical_onDies (hact : ∀ x0 x1, Canonical x1 → Canonical (act x0 x1).2) (h : Canonical s) :
    Canonical (onDies f act s).st :=
  canonical_onUnits (fun _ _ _ ht => hact _ _ ht) h

theorem canonical_eachGlen (hact : ∀ x0 x1, Canonical x1 → Canonical (act x0 x1)) (h : Canonical s) :
    Canonical (eachGlen f act s).st :=
  canonical_onGlens (fun _ _ ht => hact _ _ ht) h

theorem canonical_eachDie (hact : ∀ x0 x1, Canonical x1 → Canonical (act x0 x1)) (h : Canonical s) :
    Canonical (eachDie f act s).st :=
  canonical_onDies (fun _ _ ht => hact _ _ ht) h

theorem canonical_onEntries (hact : ∀ x0 x1 x2 x3, Canonical x3 → Canonical (act x0 x1 x2 x3).2) (h : Canonical s) :
    Canonical (onEntries die f n act s).st :=
  canonical_scopeSome h (canonical_elemAnswer (fold_inv (P := fun q : List Nat × State => Canonical q.2) (fun _ _ ht
    => canonical_runUnits (fun _ _ _ hu => hact _ _ _ _ hu) ht) h))

theorem canonical_readUnits (h : Canonical s) : Canonical (readUnits n f rdr s).st :=
  canonical_scopeSome h (canonical_ok h)

theorem canonical_commitOn (hact : ∀ x0 x1, Canonical x1 → Canonical (act x0 x1)) (h : Canonical s) :
    Canonical (commitOn die f act stat s).st := by
  unfold commitOn
  dsimp only
  split
  · exact canonical_err h
  · exact canonical_onUnits (fun _ _ _ ht => hact _ _ ht) h

theorem canonical_commitOne (h : Canonical s) (h1 : Canonical t) : Canonical (commitOne stat ws s t).st := by
  unfold commitOne
  split
  · exact canonical_err h
  · exact canonical_ok h1

theorem canonical_completeElem (h : Canonical s) : Canonical (completeElem t code s) := by
  unfold completeElem
  split
  · exact h
  · exact canonical_update h

theorem canonical_journal (h : Canonical s) : Canonical (journal s) := canonical_update (canonical_freeW h)

theorem canonical_holdsOn (h : Canonical s) : Canonical (holdsOn k op s) := canonical_ite h (canonical_update h)

theorem canonical_answered (h : Canonical s) : Canonical (answered k s) := canonical_update h

theorem canonical_firmwareRun (hbody : KeepsCanonical body) (h : Canonical s) :
    Canonical (firmwareRun ci body f s).st := by
  unfold firmwareRun
  split
  · exact canonical_err h
  · exact canonical_ite_st (canonical_err h) (canonical_ite_st (canonical_err h) (canonical_ite_st (hbody _ _ _ h)
      (canonical_ite_st (canonical_ite_st (canonical_journal (canonical_keepShadow (hbody _ _ _ h))) (hbody _ _ _
      h)) (canonical_ite_st (hbody _ _ _ h) h))))

theorem canonical_takeCommand (hbody : KeepsCanonical body) (h : Canonical s) :
    Canonical (takeCommand ci body f s).st :=
  canonical_ite_st (canonical_holdsOn h) (canonical_ite_st (canonical_holdsOn (canonical_firmwareRun hbody h))
    (canonical_firmwareRun hbody h))

theorem canonical_completionSignal (h : Canonical s) : Canonical (completionSignal m s) :=
  canonical_ite (canonical_ite (canonical_emit h) (canonical_ite (canonical_emit h) (canonical_ite (canonical_emit h)
    h))) h

theorem canonical_ringSignal (h : Canonical s) : Canonical (ringSignal m s) :=
  canonical_ite (canonical_completionSignal (canonical_setRing h)) (canonical_setRing h)

theorem canonical_nextSeq (h : Canonical s) : Canonical (nextSeq m s).2 := canonical_inc h

theorem canonical_respondRegister (h : Canonical r.st) : Canonical (respondRegister op f r) :=
  canonical_completionSignal (canonical_wrBit _ _ _ (canonical_wrBit _ _ _ (canonical_update (canonical_nextSeq
    (canonical_answered h)))))

theorem canonical_respondRing (h : Canonical r.st) : Canonical (respondRing op f r) :=
  canonical_ringSignal (canonical_inc (canonical_emit (canonical_nextSeq (canonical_answered h))))

theorem canonical_respondSession (h : Canonical r.st) : Canonical (respondSession op f r) :=
  canonical_update (canonical_nextSeq (canonical_answered h))

theorem canonical_writeArea (h : Canonical s) : Canonical (writeArea m ws s) := canonical_update h

theorem canonical_writeSlot (h : Canonical s) : Canonical (writeSlot m idx ws s) := canonical_update h

theorem canonical_countEarly (h : Canonical s) : Canonical (countEarly m s) :=
  canonical_ite (canonical_rings h) (canonical_rung (canonical_update h))

theorem canonical_runRegister (hbody : KeepsCanonical body) (h : Canonical s) : Canonical (runRegister ci body f s) :=
  canonical_ite (canonical_takeCommand hbody h) (canonical_respondRegister (canonical_takeCommand hbody h))

theorem canonical_registerCommand (hbody : KeepsCanonical body) (h : Canonical s) :
    Canonical (registerCommand ci body f s) :=
  canonical_ite (canonical_wrBit _ _ _ (canonical_wrBit _ _ _ h)) (canonical_ite (canonical_runRegister hbody
    (canonical_rung (canonical_wrBit _ _ _ (canonical_writeArea h)))) (canonical_countEarly (canonical_wrBit _ _ _
    (canonical_writeArea h))))

theorem canonical_ringLater (h : Canonical r.st) : Canonical (ringLater m r) := canonical_ite (canonical_wr _ _ _ h) h

theorem canonical_ringCommand (hbody : KeepsCanonical body) (h : Canonical s) : Canonical (ringCommand ci body f s) :=
  canonical_ite (canonical_wrBit _ _ _ h) (canonical_ite (canonical_ite (canonical_ringLater (canonical_takeCommand
    hbody (canonical_inc (canonical_inc (canonical_writeSlot h))))) (canonical_respondRing (canonical_takeCommand
    hbody (canonical_inc (canonical_inc (canonical_writeSlot h)))))) (canonical_inc (canonical_writeSlot h)))

theorem canonical_setMb2 (h : Canonical s) : Canonical (setMb2 p l s) := canonical_update h

theorem canonical_sessionLater (h : Canonical r.st) : Canonical (sessionLater p ws r) :=
  canonical_ite (canonical_setMb2 h) h

theorem canonical_sessionCommand (hbody : KeepsCanonical body) (h : Canonical s) :
    Canonical (sessionCommand ci body f s) :=
  canonical_ite (canonical_ite (canonical_sessionLater (canonical_takeCommand hbody h)) (canonical_respondSession
    (canonical_takeCommand hbody h))) (canonical_ite (canonical_setMb2 h) (canonical_respondSession (canonical_err
    h)))

theorem canonical_mailboxCommand (hbody : KeepsCanonical body) (h : Canonical s) :
    Canonical (mailboxCommand ci body f s) :=
  canonical_ite (canonical_sessionCommand hbody h) (canonical_ite (canonical_ringCommand hbody h)
    (canonical_registerCommand hbody h))

end Sys2Proof.Machine
end

section
/-! The register file's canonical form: buffer pool managers; buffer pool commands; identity and debug; gate lists. -/

set_option autoImplicit true

namespace Sys2Proof.Machine
open Sys2Proof

variable {s : State}

/-! ### Buffer pool managers -/

theorem canonical_cellPut (h : Canonical s) : Canonical (cellPut d a c s) := canonical_update h

theorem canonical_poolPut (h : Canonical s) : Canonical (poolPut d k p s) := canonical_update h

theorem canonical_pagePut (h : Canonical s) : Canonical (pagePut d p x s) := canonical_update h

theorem canonical_poolStatUpdate (h : Canonical s) : Canonical (poolStatUpdate d k s) := canonical_wr _ _ _ h

theorem canonical_setOwnUsed (h : Canonical s) : Canonical (setOwnUsed d n s) := canonical_wr _ _ _ h

theorem canonical_takeCell (h : Canonical s) : Canonical (takeCell d k s).2 :=
  canonical_ite_snd (canonical_poolPut h) (canonical_poolPut h)

theorem canonical_grantCell (h : Canonical s) : Canonical (grantCell d k q s).2 :=
  canonical_poolStatUpdate (canonical_ite (canonical_setOwnUsed (canonical_wr _ _ _ (canonical_cellPut
    (canonical_takeCell h)))) (canonical_wr _ _ _ (canonical_cellPut (canonical_takeCell h))))

theorem canonical_allocFrom (h : Canonical s) : Canonical (allocFrom d q n k s).2 := by
  induction n generalizing k s with
  | zero => exact h
  | succ n ih =>
    unfold allocFrom
    exact canonical_ite_snd (ih (canonical_ite (canonical_raise (canonical_inc h)) (canonical_inc h)))
      (canonical_ite_snd (canonical_ite_snd (canonical_grantCell h) h) (canonical_ite_snd (canonical_grantCell h) h))

theorem canonical_allocate (h : Canonical s) : Canonical (allocate d q s).2 := by
  unfold allocate
  refine canonical_ite_snd (canonical_inc (canonical_inc h)) (canonical_ite_snd (canonical_inc h) (canonical_ite_snd
    (canonical_inc h) (canonical_ite_snd (canonical_inc (canonical_raise (canonical_inc h))) ?_)))
  dsimp only
  split
  · next e => exact canonical_of_eq (canonical_allocFrom h) e
  · next e => exact canonical_inc (canonical_of_eq (canonical_allocFrom h) e)

theorem canonical_badFree (h : Canonical s) : Canonical (badFree d reason owner req transfer' ptr s) :=
  canonical_raise (canonical_ite (canonical_inc h) (canonical_wr _ _ _ (canonical_wr _ _ _ (canonical_inc h))))

theorem canonical_rejoin (h : Canonical s) : Canonical (rejoin d k cells s) :=
  canonical_poolStatUpdate (canonical_poolPut h)

theorem canonical_pageDrained (h : Canonical s) : Canonical (pageDrained d p s) := by
  unfold pageDrained
  refine canonical_ite h ?_
  dsimp only
  split
  · exact h
  · exact canonical_ite (canonical_raise (canonical_rejoin (canonical_pagePut (canonical_update h))))
      (canonical_raiseLost (canonical_poolStatUpdate (canonical_fold (fun _ _ ht => canonical_cellPut ht)
      (canonical_fold (fun _ _ ht => canonical_pagePut ht) h))))

theorem canonical_freeCellAt (h : Canonical s) : Canonical (freeCellAt d k a s) :=
  canonical_ite (canonical_poolStatUpdate (canonical_poolPut (canonical_ite (canonical_setOwnUsed (canonical_wr _ _ _
    (canonical_cellPut h))) (canonical_wr _ _ _ (canonical_cellPut h))))) (canonical_fold (fun _ _ ht =>
    canonical_pageDrained ht) (canonical_poolStatUpdate (canonical_ite (canonical_setOwnUsed (canonical_wr _ _ _
    (canonical_cellPut h))) (canonical_wr _ _ _ (canonical_cellPut h)))))

theorem canonical_release (h : Canonical s) : Canonical (release d req owner ptr s).2 := by
  unfold release
  refine canonical_ite_snd (canonical_inc h) ?_
  split
  · exact canonical_badFree h
  · exact canonical_ite_snd (canonical_badFree h) (canonical_ite (canonical_freeCellAt h) (canonical_cellPut h))

theorem canonical_transfer (h : Canonical s) : Canonical (transfer d req old new ptr s).2 := by
  unfold transfer
  dsimp only
  split
  · exact canonical_badFree h
  · exact canonical_ite_snd (canonical_badFree h) (canonical_ite_snd (canonical_badFree h) (canonical_ite
      (canonical_freeCellAt h) (canonical_cellPut h)))

theorem canonical_quarantine (h : Canonical s) : Canonical (quarantine d a s) := by
  unfold quarantine
  dsimp only
  split
  · exact canonical_poolStatUpdate (canonical_poolPut (canonical_cellPut h))
  · exact canonical_cellPut h

theorem canonical_bpmParity (h : Canonical s) : Canonical (bpmParity d e s) := by
  unfold bpmParity
  dsimp only
  split
  · exact h
  · exact canonical_raise (canonical_update (canonical_quarantine h))
  · exact canonical_raise (canonical_update (canonical_fold (fun _ _ ht => canonical_quarantine ht) h))
  · exact canonical_raise (canonical_update (canonical_poolStatUpdate (canonical_wr _ _ _ h)))

theorem canonical_flagPage (h : Canonical s) : Canonical (flagPage d p s) := by
  unfold flagPage
  refine canonical_ite h (canonical_ite (canonical_pagePut h) ?_)
  dsimp only
  split
  · exact canonical_pagePut h
  · exact canonical_pageDrained (canonical_poolStatUpdate (canonical_poolPut (canonical_pagePut h)))

theorem canonical_remarkRetired (h : Canonical s) : Canonical (remarkRetired d s) :=
  canonical_fold (fun _ _ ht => canonical_fold (fun _ _ hu => canonical_cellPut hu) ht) h

theorem canonical_rebuildPools (h : Canonical s) : Canonical (rebuildPools d s) :=
  canonical_fold (fun _ _ ht => canonical_poolStatUpdate ht) (canonical_remarkRetired (canonical_fold (fun _ _ ht =>
    canonical_poolPut ht) (canonical_update h)))

theorem canonical_layoutCommit (h : Canonical s) : Canonical (layoutCommit d s) :=
  canonical_commitGroup (fun _ ht => canonical_rebuildPools (canonical_commitStaged ht)) h

theorem canonical_layoutDiscard (h : Canonical s) : Canonical (layoutDiscard d s) := canonical_discardGroup h

theorem canonical_poolStatsUpdate (h : Canonical s) : Canonical (poolStatsUpdate d s) :=
  canonical_fold (fun _ _ ht => canonical_poolStatUpdate ht) h

theorem canonical_quotaCommit (h : Canonical s) : Canonical (quotaCommit d s) :=
  canonical_commitGroup (fun _ ht => canonical_poolStatsUpdate (canonical_commitStaged ht)) h

theorem canonical_quotaDiscard (h : Canonical s) : Canonical (quotaDiscard d s) := canonical_discardGroup h

theorem canonical_plainBudgetCommit (h : Canonical s) : Canonical (plainBudgetCommit d s) :=
  canonical_commitGroup (fun _ ht => canonical_armStaged ht) h

theorem canonical_plainBudgetDiscard (h : Canonical s) : Canonical (plainBudgetDiscard d s) := canonical_discardGroup h

theorem canonical_auditDie (h : Canonical s) : Canonical (auditDie d s) := by
  unfold auditDie
  refine canonical_poolStatsUpdate (canonical_fold (fun _ _ ht => ?_) (canonical_ite (canonical_fold (fun _ _ ht =>
    canonical_wr _ _ _ ht) h) (canonical_raise (canonical_fold (fun _ _ ht => canonical_wr _ _ _ ht) h))))
  split
  · exact canonical_rejoin (canonical_cellPut ht)
  · exact ht

theorem canonical_auditsDue (h : Canonical s) : Canonical (auditsDue s) :=
  canonical_fold (fun _ _ ht => canonical_auditDie ht) (canonical_update h)

/-! ### Buffer pool commands -/

@[simp] theorem canonical_bodyBpmPoolLayout : KeepsCanonical bodyBpmPoolLayout := by
  intro v f s h
  unfold bodyBpmPoolLayout
  refine canonical_lenIs h ?_
  split
  · exact canonical_err h
  · exact canonical_commitOn (fun _ _ ht => canonical_layoutCommit (canonical_fold (fun _ _ hu => canonical_stgM hu)
      ht)) h

@[simp] theorem canonical_bodyBpmQuotaSet : KeepsCanonical bodyBpmQuotaSet := by
  intro v f s h
  unfold bodyBpmQuotaSet
  refine canonical_lenOk h ?_
  dsimp only
  split
  · exact canonical_err h
  · exact canonical_commitOn (fun _ _ ht => canonical_quotaCommit (canonical_fold (fun _ _ hu => canonical_stgM
      (canonical_stgM hu)) ht)) h

@[simp] theorem canonical_bodyBpmStatus : KeepsCanonical bodyBpmStatus :=
  fun _ _ _ h => canonical_lenIs h (canonical_readUnits h)

@[simp] theorem canonical_bodyBpmBudgetSet : KeepsCanonical bodyBpmBudgetSet :=
  fun _ _ _ h => canonical_lenIs h (canonical_inRange h (canonical_inRange h (canonical_commitOn (fun _ _ ht =>
    canonical_plainBudgetCommit (canonical_stgM (canonical_stgM ht))) h)))

@[simp] theorem canonical_bodyBpmYellowKeep : KeepsCanonical bodyBpmYellowKeep := by
  intro v f s h
  unfold bodyBpmYellowKeep
  refine canonical_lenIs h ?_
  split
  · exact canonical_err h
  · exact canonical_eachDie (fun _ _ ht => canonical_fold (fun _ _ hu => canonical_wrM _ _ _ hu) ht) h

@[simp] theorem canonical_bodyBpmAudit : KeepsCanonical bodyBpmAudit :=
  fun _ _ _ h => canonical_lenIs h (canonical_ite_st (canonical_eachDie (fun _ _ ht => canonical_auditDie ht) h)
    (canonical_eachDie (fun _ _ ht => canonical_auditDie ht) h))

@[simp] theorem canonical_bodyBpmCapacity : KeepsCanonical bodyBpmCapacity :=
  fun _ _ _ h => canonical_lenIs h (canonical_readUnits h)

/-! ### Identity and debug -/

theorem canonical_freeBytes (h : Canonical s) : Canonical (freeBytes n s).2 := canonical_update h

theorem canonical_measure (h : Canonical s) : Canonical (measure i v s) := canonical_ite h (canonical_update h)

theorem canonical_measurePolicy (h : Canonical s) : Canonical (measurePolicy s) := canonical_measure h

theorem canonical_measureOwner (h : Canonical s) : Canonical (measureOwner s) := canonical_measure h

theorem canonical_issueNonce (h : Canonical s) : Canonical (issueNonce s) :=
  canonical_ite h (canonical_wrBit _ _ _ (canonical_update (canonical_fold (fun _ _ ht => canonical_wr _ _ _ ht)
    (canonical_freeBytes h))))

theorem canonical_lapseNonce (h : Canonical s) : Canonical (lapseNonce s) :=
  canonical_wrBit _ _ _ (canonical_fold (fun _ _ ht => canonical_wr _ _ _ ht) h)

theorem canonical_nonceLapse (h : Canonical s) : Canonical (nonceLapse s) := canonical_ite (canonical_lapseNonce h) h

theorem canonical_unlockRefused (h : Canonical s) : Canonical (unlockRefused s) :=
  canonical_ite (canonical_wrBit _ _ _ (canonical_update (canonical_raise (canonical_inc (canonical_update h)))))
    (canonical_raise (canonical_inc (canonical_update h)))

theorem canonical_checkRecord (h : Canonical s) : Canonical (checkRecord action cert r s).2 :=
  canonical_ite_snd h (canonical_ite_snd (canonical_lapseNonce h) (canonical_ite (canonical_unlockRefused
    (canonical_lapseNonce h)) (canonical_lapseNonce h)))

theorem canonical_lockoutEnd (h : Canonical s) : Canonical (lockoutEnd s) := canonical_ite (canonical_wrBit _ _ _ h) h

theorem canonical_debugLock (h : Canonical s) : Canonical (debugLock s) :=
  canonical_measurePolicy (canonical_wrBit _ _ _ (canonical_update h))

theorem canonical_unlockExpiry (h : Canonical s) : Canonical (unlockExpiry s) := canonical_ite (canonical_debugLock h) h

theorem canonical_secService (h : Canonical s) : Canonical (secService s) :=
  canonical_unlockExpiry (canonical_lockoutEnd (canonical_nonceLapse h))

@[simp] theorem canonical_bodyDebugUnlock : KeepsCanonical bodyDebugUnlock :=
  fun _ _ _ h => canonical_lenIs h (canonical_ite_st (canonical_ok (canonical_measurePolicy (canonical_raise
    (canonical_wrBit _ _ _ (canonical_update (canonical_checkRecord h)))))) (canonical_err (canonical_checkRecord h)))

@[simp] theorem canonical_bodyDebugLock : KeepsCanonical bodyDebugLock :=
  fun _ _ _ h => canonical_lenIs h (canonical_ok (canonical_debugLock h))

@[simp] theorem canonical_bodyDebugPolicy : KeepsCanonical bodyDebugPolicy := by
  intro v f s h
  have hset : ∀ t, Canonical t → Canonical (ok [] (measurePolicy (wr secCfg (wd (pf f 0 0 1))
      { t with sec := { t.sec with vendor := bit (pw f 0) 0 } }))).st :=
    fun _ ht => canonical_ok (canonical_measurePolicy (canonical_wr _ _ _ (canonical_update ht)))
  have hgood : Canonical (checkRecord 1 [] (payloadBytes f 1 200) s).2 := canonical_checkRecord h
  exact canonical_ite_st (canonical_lenIs h (canonical_inRange h (hset _ h))) (canonical_lenIs h (canonical_inRange h
    (canonical_ite_st (canonical_err hgood) (canonical_ite_st (hset _ hgood) (canonical_err (canonical_unlockRefused hgood))))))

@[simp] theorem canonical_bodyIdCertRead : KeepsCanonical bodyIdCertRead :=
  fun _ _ _ h => canonical_lenIs h (canonical_inRange h (canonical_inRange h (canonical_inRange h (canonical_ok h))))

@[simp] theorem canonical_bodyMeasurementRead : KeepsCanonical bodyMeasurementRead :=
  fun _ _ _ h => canonical_lenIs h (canonical_inRange h (canonical_ok h))

@[simp] theorem canonical_bodySvnCommit : KeepsCanonical bodySvnCommit :=
  fun _ _ _ h => canonical_lenIs h (canonical_ok (canonical_measurePolicy (canonical_wrF _ _ _ _ (canonical_update
    h))))

theorem canonical_spdmExchange (h : Canonical s) : Canonical (spdmExchange path req s).2 :=
  canonical_ite (canonical_raise (canonical_inc (canonical_update h))) (canonical_update h)

@[simp] theorem canonical_bodySpdmMsg : KeepsCanonical bodySpdmMsg :=
  fun _ _ _ h => canonical_lenOk h (canonical_ok (canonical_spdmExchange h))

/-! ### Gate lists -/

theorem canonical_setGat (h : Canonical s) : Canonical (setGat p x s) := canonical_update h

theorem canonical_gateRefresh (h : Canonical s) : Canonical (gateRefresh p s) := by
  unfold gateRefresh
  dsimp only
  split
  · exact canonical_ite (canonical_raise (canonical_inc (canonical_setGat h))) (canonical_setGat h)
  · exact canonical_setGat h

theorem canonical_showChange (h : Canonical s) : Canonical (showChange p tc s) :=
  canonical_wr _ _ _ (canonical_wr _ _ _ (canonical_wr _ _ _ h))

theorem canonical_gateSwitch (h : Canonical s) : Canonical (gateSwitch p s) :=
  canonical_setGat (canonical_gateRefresh (canonical_showChange (canonical_wrF _ _ _ _ (canonical_wrBit _ _ _
    (canonical_wrBit _ _ _ (canonical_setGat (canonical_fold (fun _ _ ht => canonical_wr _ _ _ ht) h)))))))

theorem canonical_gateDue (h : Canonical s) : Canonical (gateDue p s) := by
  unfold gateDue
  split
  · exact canonical_ite (canonical_gateSwitch h) h
  · exact h

theorem canonical_fixChange (h : Canonical s) : Canonical (fixChange p s) := canonical_showChange (canonical_setGat h)

theorem canonical_gatesStepped (h : Canonical s) : Canonical (gatesStepped s) :=
  canonical_fold (fun _ _ ht => canonical_gateRefresh (canonical_gateDue ht)) (canonical_fold (fun _ _ ht =>
    canonical_raise (canonical_inc ht)) h)

theorem canonical_gatesValid (h : Canonical s) : Canonical (gatesValid s) :=
  canonical_fold (fun _ _ ht => canonical_gateRefresh (canonical_ite (canonical_fixChange ht) ht)) h

theorem canonical_gatesInvalid (h : Canonical s) : Canonical (gatesInvalid s) :=
  canonical_fold (fun _ _ ht => canonical_gateRefresh (canonical_showChange (canonical_setGat ht))) h

theorem canonical_gatStagedWrite (h : Canonical s) : Canonical (gatStagedWrite p i v m s) :=
  canonical_ite (canonical_wrBit _ _ _ h) (canonical_stgM h)

theorem canonical_gatEntryWrite (h : Canonical s) : Canonical (gatEntryWrite p i e s) :=
  canonical_ite (canonical_wrBit _ _ _ h) (canonical_setGat h)

theorem canonical_gatResult (h : Canonical s) : Canonical (gatResult p res reason s) := canonical_wrF _ _ _ _ h

theorem canonical_gatListCommit (h : Canonical s) : Canonical (gatListCommit p s) := by
  unfold gatListCommit
  dsimp only
  split
  · exact canonical_gatResult h
  · exact canonical_ite (canonical_fixChange (canonical_gatResult (canonical_wrBit _ _ _ (canonical_setGat
      (canonical_closeGroup (canonical_commitStaged h)))))) (canonical_showChange (canonical_gatResult
      (canonical_wrBit _ _ _ (canonical_setGat (canonical_closeGroup (canonical_commitStaged h))))))

theorem canonical_gatListDiscard (h : Canonical s) : Canonical (gatListDiscard p s) :=
  canonical_showChange (canonical_gatResult (canonical_wrBit _ _ _ (canonical_setGat (canonical_closeGroup
    (canonical_discardStaged h)))))

theorem canonical_gatPortCfgWrite (h : Canonical s) : Canonical (gatPortCfgWrite p v s) :=
  canonical_ite (canonical_gateRefresh (canonical_ite (canonical_wrM _ _ _ h) (canonical_setGat (canonical_wrBit _ _ _
    (canonical_wrM _ _ _ h))))) h

theorem canonical_entryStart (h : Canonical s) : Canonical (entryStart p bad s) := by
  unfold entryStart
  refine canonical_ite (canonical_raise (canonical_flagSpare h)) (canonical_ite h ?_)
  split
  · exact h
  · exact canonical_setGat (canonical_gateRefresh h)

theorem canonical_holdAssert (h : Canonical s) : Canonical (holdAssert p op1 s) := canonical_ite (canonical_setGat h) h

theorem canonical_verifyDone (h : Canonical s) : Canonical (verifyDone p good s) :=
  canonical_ite h (canonical_ite (canonical_gateRefresh (canonical_wrBit _ _ _ h)) (canonical_raise (canonical_wrBit _
    _ _ h)))

theorem canonical_setGateStg (h : Canonical s) : Canonical (setGateStg p l s) := canonical_update h

theorem canonical_gateSetStage (h : Canonical s) : Canonical (gateSetStage p f s) :=
  canonical_fold (fun _ _ ht => canonical_wrStg ht) (canonical_fold (fun _ _ ht => canonical_gatEntryWrite ht)
    (canonical_ite (canonical_gatListDiscard h) h))

theorem canonical_gateSetCommit (h : Canonical s) : Canonical (gateSetCommit p f s) :=
  canonical_gatListCommit (canonical_gateSetStage h)

@[simp] theorem canonical_bodyGateListSet : KeepsCanonical bodyGateListSet :=
  fun _ _ _ h => canonical_inRange h (canonical_lenIs h (canonical_inRange h (canonical_inRange h (canonical_ite_st
    (canonical_ok (canonical_setGateStg h)) (canonical_ite_st (canonical_err h) (canonical_ok (canonical_gateSetCommit
    (canonical_setGateStg h))))))))

@[simp] theorem canonical_bodyGateListRead : KeepsCanonical bodyGateListRead :=
  fun _ _ _ h => canonical_lenIs h (canonical_inRange h (canonical_inRange h (canonical_inRange h (canonical_ok h))))

@[simp] theorem canonical_bodyGatePortCfg : KeepsCanonical bodyGatePortCfg :=
  fun _ _ _ h => canonical_lenIs h (canonical_inRange h (canonical_inRange h (canonical_inRange h (canonical_ok
    (canonical_wrM _ _ _ (canonical_gatPortCfgWrite h))))))

@[simp] theorem canonical_bodyGateListDiscard : KeepsCanonical bodyGateListDiscard :=
  fun _ _ _ h => canonical_lenIs h (canonical_inRange h (canonical_ok (canonical_setGateStg (canonical_gatListDiscard
    h))))

end Sys2Proof.Machine
end

section
/-! The register file's canonical form: exact match; prefix routes and rules. -/

set_option autoImplicit true

namespace Sys2Proof.Machine
open Sys2Proof

variable {s : State}

/-! ### Exact match -/

theorem canonical_bktPut (h : Canonical s) : Canonical (bktPut g b i e s) := canonical_update h

theorem canonical_occUpdate (h : Canonical s) : Canonical (occUpdate g s) := canonical_wr _ _ _ h

theorem canonical_ovfPut (h : Canonical s) : Canonical (ovfPut g i e s) := canonical_occUpdate (canonical_update h)

theorem canonical_setUpdQueue (h : Canonical s) : Canonical (setUpdQueue u l s) := canonical_update h

theorem canonical_queueFix (h : Canonical s) : Canonical (queueFix g kind i s) :=
  canonical_ite h (canonical_setUpdQueue h)

theorem canonical_emRewrite (h : Canonical s) : Canonical (emRewrite g b h' e s) :=
  canonical_ite (canonical_ovfPut h) (canonical_bktPut h)

theorem canonical_postRecord (h : Canonical s) : Canonical (postRecord g r s) :=
  canonical_ite (canonical_ite h (canonical_inc h)) (canonical_ite (canonical_ringPost h) (canonical_raise
    (canonical_inc (canonical_ringPost h))))

theorem canonical_queuePromotion (h : Canonical s) : Canonical (queuePromotion g b s) :=
  canonical_ite (canonical_update h) h

theorem canonical_chooseVictim (h : Canonical s) : Canonical (chooseVictim s g b table).2 := by
  unfold chooseVictim
  dsimp only
  split
  · exact canonical_ite_snd h (canonical_update h)
  · exact h
  · exact h

theorem canonical_emInsert (h : Canonical s) : Canonical (emInsert g table k act isStatic s).st := by
  unfold emInsert
  dsimp only
  split
  · exact canonical_ovfPut h
  · split
    · exact canonical_bktPut h
    · split
      · exact canonical_bktPut h
      · split
        · exact canonical_ovfPut h
        · split
          · next e => exact canonical_inc (canonical_of_eq (canonical_chooseVictim h) e)
          · next e =>
            exact canonical_postRecord (canonical_inc (canonical_emRewrite (canonical_of_eq (canonical_chooseVictim h) e)))

theorem canonical_emRemove (h : Canonical s) : Canonical (emRemove g b h' s) :=
  canonical_ite (canonical_ovfPut h) (canonical_queuePromotion (canonical_bktPut h))

theorem canonical_emDelete (h : Canonical s) : Canonical (emDelete g table k s).st := by
  unfold emDelete
  dsimp only
  split
  · exact canonical_emRemove h
  · split
    · exact canonical_emRemove h
    · exact h

theorem canonical_removeAll (h : Canonical s) : Canonical (removeAll g l s) :=
  canonical_fold (fun _ _ ht => canonical_emRemove ht) h

theorem canonical_emFlush (h : Canonical s) : Canonical (emFlush g table portEn port selStatic selOther s).st :=
  canonical_removeAll h

theorem canonical_promote (h : Canonical s) : Canonical (promote g b j o i s) := canonical_ovfPut (canonical_bktPut h)

/-- The search for a free overflow entry is hidden first: to unfold it would be to run through 8192 entries. -/
theorem canonical_moveOut (h : Canonical s) : Canonical (moveOut g b l s) := by
  delta moveOut moveOut._f
  generalize ovfFree = free
  induction l generalizing s with
  | nil => exact h
  | cons i l ih =>
    show Canonical (if (bktGet s g b i).valid then match free s g with | some _ => _ | none => _ else _)
    refine canonical_ite ?_ (ih h)
    split
    · exact ih (canonical_bktPut (canonical_ovfPut h))
    · exact ih (canonical_postRecord (canonical_inc (canonical_bktPut h)))

theorem canonical_retireBucket (h : Canonical s) : Canonical (retireBucket g b s) :=
  canonical_raiseLost (canonical_occUpdate (canonical_update (canonical_moveOut h)))

theorem canonical_flagBucket (h : Canonical s) : Canonical (flagBucket g b s) :=
  canonical_flagRow (fun _ ht => canonical_retireBucket ht) (canonical_raise h)

theorem canonical_badBucket (h : Canonical s) : Canonical (badBucket g b s) :=
  canonical_queueFix (canonical_flagBucket h)

theorem canonical_verifyFailed (h : Canonical s) : Canonical (verifyFailed g b s) :=
  canonical_raise (canonical_badBucket h)

theorem canonical_filterAdd (h : Canonical s) : Canonical (filterAdd g table k s) := canonical_update h

theorem canonical_learnQueue (h : Canonical s) : Canonical (learnQueue g p s) :=
  canonical_ite (canonical_update h) (canonical_inc h)

theorem canonical_learnFcs (h : Canonical s) : Canonical (learnFcs g pkt good s) :=
  canonical_incBy _ _ (canonical_update h)

theorem canonical_postFiltered (h : Canonical s) : Canonical (postFiltered g r s) :=
  canonical_ite (canonical_filterAdd (canonical_postRecord h)) h

theorem canonical_autoInsert (h : Canonical s) : Canonical (autoInsert g p fails s).2 :=
  canonical_ite_snd h (canonical_ite_snd (canonical_verifyFailed h) (canonical_postRecord (canonical_emInsert h)))

theorem canonical_autoMove (h : Canonical s) : Canonical (autoMove g p fails s).2 := by
  unfold autoMove
  dsimp only
  split
  · exact canonical_ite_snd h (canonical_ite_snd (canonical_verifyFailed h) (canonical_postFiltered
      (canonical_emRewrite h)))
  · exact h

theorem canonical_learnPost (h : Canonical s) : Canonical (learnPost g p fails s).2 :=
  canonical_ite_snd (canonical_ite_snd (canonical_autoInsert h) (canonical_postFiltered h)) (canonical_ite_snd
    (canonical_autoMove h) (canonical_postFiltered h))

theorem canonical_learnService (h : Canonical s) : Canonical (learnService g fails s) := by
  unfold learnService
  dsimp only
  split
  · exact h
  · exact canonical_ite (canonical_ite (canonical_update h) (canonical_ite (canonical_inc (canonical_update h))
      (canonical_charge (canonical_learnPost (canonical_update h))))) (canonical_waited h)

theorem canonical_ageQueue (h : Canonical s) : Canonical (ageQueue g table k s) :=
  canonical_ite (canonical_update h) (canonical_inc h)

theorem canonical_ageRefresh (h : Canonical s) : Canonical (ageRefresh g s) := by
  unfold ageRefresh
  dsimp only
  split
  · exact h
  · refine canonical_ite ?_ (canonical_waited h)
    split
    · exact canonical_ite (canonical_charge (canonical_update h)) (canonical_emRewrite (canonical_charge
        (canonical_update h)))
    · exact canonical_charge (canonical_update h)

theorem canonical_scanStart (h : Canonical s) : Canonical (scanStart g s) := canonical_update h

theorem canonical_ageAdvance (h : Canonical s) : Canonical (ageAdvance g s) :=
  canonical_scanStart (canonical_wr _ _ _ h)

theorem canonical_tickFrom (h : Canonical s) : Canonical (tickFrom g t s) := canonical_update h

theorem canonical_ageTick (h : Canonical s0) : Canonical (ageTick g s0) :=
  canonical_ite h (canonical_ite (canonical_ageAdvance (canonical_tickFrom h)) (canonical_update (canonical_tickFrom
    h)))

theorem canonical_ageDelete (h : Canonical s) : Canonical (ageDelete g b h' fails s) :=
  canonical_ite (canonical_charge (canonical_verifyFailed h)) (canonical_ite (canonical_postRecord (canonical_charge
    (canonical_inc (canonical_emRemove h)))) (canonical_charge (canonical_inc (canonical_emRemove h))))

theorem canonical_scanAdvance (h : Canonical s) : Canonical (scanAdvance g s) :=
  canonical_ite (canonical_update h) (canonical_ite (canonical_wrBit _ _ _ (canonical_update h)) (canonical_ageAdvance
    (canonical_update (canonical_wrBit _ _ _ (canonical_update h)))))

theorem canonical_scanFlags (h : Canonical s) : Canonical (scanFlags g b bad s) := by
  unfold scanFlags
  split
  · exact canonical_badBucket h
  · exact canonical_flagBucket h
  · exact h

theorem canonical_ageScan (h : Canonical s) : Canonical (ageScan g bad s) :=
  canonical_ite h (canonical_ite (canonical_ite (canonical_scanAdvance (canonical_scanFlags (canonical_fold (fun _ _
    ht => canonical_ageDelete ht) (canonical_charge (canonical_update h))))) (canonical_waited h))
    (canonical_scanAdvance (canonical_ite (canonical_ageDelete h) h)))

/-! ### Prefix routes and rules -/

theorem canonical_lpmOccUpdate (h : Canonical s) : Canonical (lpmOccUpdate g s) := canonical_wr _ _ _ h

theorem canonical_setRoutes (h : Canonical s) : Canonical (setRoutes g l s) :=
  canonical_lpmOccUpdate (canonical_update h)

theorem canonical_retirePrefix (h : Canonical s) : Canonical (retirePrefix g i s) :=
  canonical_raiseLost (canonical_lpmOccUpdate (canonical_update h))

theorem canonical_badPrefix (h : Canonical s) : Canonical (badPrefix g i s) :=
  canonical_queueFix (canonical_flagRow (fun _ ht => canonical_retirePrefix ht) (canonical_raise h))

theorem canonical_routeSlots (h : Canonical s) : Canonical (routeSlots r insert' s).2 :=
  canonical_freeW (canonical_freeW h)

theorem canonical_routeInsert (h : Canonical s) : Canonical (routeInsert g r s).st :=
  canonical_ite_op (canonical_setRoutes (canonical_routeSlots h)) (canonical_ite_op h (canonical_setRoutes
    (canonical_routeSlots h)))

theorem canonical_routeRemove (h : Canonical s) : Canonical (routeRemove g r s).st :=
  canonical_ite_op (canonical_setRoutes (canonical_routeSlots h)) h

theorem canonical_nhSet (h : Canonical s) : Canonical (nhSet g i w s) := canonical_update h

theorem canonical_tcmOccUpdate (h : Canonical s) : Canonical (tcmOccUpdate g s) := canonical_wr _ _ _ h

theorem canonical_ruleRaw (h : Canonical s) : Canonical (ruleRaw g i r s) := canonical_tcmOccUpdate (canonical_update h)

theorem canonical_ruleSet (h : Canonical s) : Canonical (ruleSet g i r s) := canonical_ruleRaw h

theorem canonical_genUp (h : Canonical s) : Canonical (genUp g n s) := canonical_incBy _ _ h

theorem canonical_ruleInstall (h : Canonical s) : Canonical (ruleInstall g i r s).st :=
  canonical_ite_op h (canonical_genUp (canonical_ruleSet h))

theorem canonical_ruleDelete (h : Canonical s) : Canonical (ruleDelete g i s).st :=
  canonical_ite_op (canonical_genUp (canonical_ruleSet h)) h

theorem canonical_ruleReplace (h : Canonical s) : Canonical (ruleReplace g old i r s).st :=
  canonical_ite_op h (canonical_ite_op h (canonical_genUp (canonical_ruleSet (canonical_ruleSet h))))

theorem canonical_ruleAction (h : Canonical s) : Canonical (ruleAction g i setAct setPrio prio a0 a1 s).st :=
  canonical_ite_op h (canonical_ruleSet h)

theorem canonical_sliceEvent (h : Canonical s) : Canonical (sliceEvent g i s) := canonical_update h

theorem canonical_falseHit (h : Canonical s) : Canonical (falseHit g i s) :=
  canonical_raise (canonical_inc (canonical_fold (fun _ _ ht => canonical_sliceEvent ht) (canonical_genUp
    (canonical_ruleRaw h))))

theorem canonical_checkedSearch (h : Canonical s) : Canonical (checkedSearch g w grp k n s).st := by
  induction n generalizing s with
  | zero => exact canonical_inc h
  | succ n ih =>
    unfold checkedSearch
    dsimp only
    split
    · exact h
    · split
      · exact h
      · split
        · exact ih (canonical_falseHit h)
        · split
          · exact ih (canonical_charge (canonical_falseHit h))
          · exact canonical_waited (canonical_falseHit h)

theorem canonical_ruleRestore (h : Canonical s) : Canonical (ruleRestore g i s) := canonical_genUp (canonical_ruleSet h)

theorem canonical_sliceLost (h : Canonical s) : Canonical (sliceLost g i bad s) :=
  canonical_raiseLost (canonical_tcmOccUpdate (canonical_fold (fun _ _ ht => canonical_update ht) h))

theorem canonical_moveRule (h : Canonical s) : Canonical (moveRule g i j s) :=
  canonical_genUp (canonical_ruleRaw (canonical_ruleReplace h))

theorem canonical_retireSlices (h : Canonical s) : Canonical (retireSlices g i s) := by
  unfold retireSlices
  refine canonical_ite h (canonical_ite (canonical_ite h (canonical_sliceLost h)) ?_)
  split
  · exact canonical_ite (canonical_charge (canonical_charge (canonical_ite (canonical_moveRule h) (canonical_sliceLost
      (canonical_moveRule h))))) (canonical_waited h)
  · exact canonical_genUp (canonical_ite (canonical_ruleSet h) (canonical_sliceLost (canonical_ruleSet h)))

theorem canonical_restoreOrMove (h : Canonical s) : Canonical (restoreOrMove g i s) :=
  canonical_retireSlices (canonical_ite h (canonical_ruleRestore h))

theorem canonical_opRun (h : Canonical s) : Canonical (opRun g op s).st := by
  unfold opRun
  split
  · exact canonical_emInsert h
  · exact canonical_emDelete h
  · exact canonical_emFlush h
  · exact canonical_routeInsert h
  · exact canonical_routeRemove h
  · exact canonical_nhSet h
  · exact canonical_ruleInstall h
  · exact canonical_ruleDelete h
  · exact canonical_ruleReplace h
  · exact canonical_ruleAction h
  · exact h

theorem canonical_joinUpd (h : Canonical s) : Canonical (joinUpd g m q s) := canonical_waited (canonical_setUpdQueue h)

theorem canonical_opPass (h : Canonical s) : Canonical (opPass g op t ms s).2 := by
  induction ms generalizing s with
  | nil => exact canonical_opRun h
  | cons m ms ih =>
    unfold opPass
    exact canonical_ite_snd (ih (canonical_charge h)) (canonical_joinUpd h)

theorem canonical_opNow (h : Canonical s) : Canonical (opNow g op s).2 :=
  canonical_fold (fun _ _ ht => canonical_charge ht) (canonical_opRun h)

theorem canonical_opSubmit (h : Canonical s) : Canonical (opSubmit g op t s).2 := canonical_opPass h

theorem canonical_opBad (h : Canonical s) (e : opBad g op s = some (b, u)) : Canonical u := by
  unfold opBad at e
  split at e
  · split at e
    · obtain ⟨-, rfl⟩ := Prod.mk.inj (Option.some.inj e)
      exact h
    · cases e
  · split at e
    · obtain ⟨-, rfl⟩ := Prod.mk.inj (Option.some.inj e)
      exact h
    · cases e
  · dsimp only at e
    split at e
    · obtain ⟨-, rfl⟩ := Prod.mk.inj (Option.some.inj e)
      exact canonical_removeAll h
    · cases e
  · cases e

theorem canonical_opFinish (h : Canonical s) : Canonical (opFinish g op t ms fails s).2 := by
  unfold opFinish
  split
  · next e =>
    split at e
    · exact canonical_verifyFailed (canonical_opBad h e)
    · cases e
  · exact canonical_opPass h

theorem canonical_opServe (h : Canonical s) : Canonical (opServe g m p fails s) := by
  unfold opServe
  dsimp only
  split
  · exact h
  · exact canonical_ite h (canonical_ite (canonical_ite (canonical_opFinish (canonical_charge (canonical_setUpdQueue
      h))) (canonical_ite (canonical_keepShadow (canonical_completeElem (canonical_opFinish (canonical_charge
      (canonical_setUpdQueue h))))) (canonical_completeElem (canonical_opFinish (canonical_charge
      (canonical_setUpdQueue h)))))) (canonical_waited h))

theorem canonical_keyCommit (h : Canonical s) : Canonical (keyCommit g s) :=
  canonical_commitGroup (fun _ ht => canonical_commitStaged ht) h

theorem canonical_keyDiscard (h : Canonical s) : Canonical (keyDiscard g s) := canonical_discardGroup h

end Sys2Proof.Machine
end

section
/-! The register file's canonical form: streams; network time; the packet path: packets and copies; microcode. -/

set_option autoImplicit true

namespace Sys2Proof.Machine
open Sys2Proof

variable {s : State}

/-! ### Streams -/

theorem canonical_idPut (h : Canonical s) : Canonical (idPut g i e s) := canonical_wrF _ _ _ _ (canonical_update h)

theorem canonical_ctxPut (h : Canonical s) : Canonical (ctxPut g i c s) := canonical_update h

theorem canonical_gatePut (h : Canonical s) : Canonical (gatePut g i x s) := canonical_update h

theorem canonical_meterPut (h : Canonical s) : Canonical (meterPut g i m s) := canonical_update h

theorem canonical_edgesPut (h : Canonical s) : Canonical (edgesPut g i e s) := canonical_update h

theorem canonical_tenMapPut (h : Canonical s) : Canonical (tenMapPut g t w s) := canonical_update h

theorem canonical_bumpCtx (h : Canonical s) : Canonical (bumpCtx g i pos k s) := canonical_bump h

theorem canonical_idInsert (h : Canonical s) : Canonical (idInsert g k ctx s).2 := by
  unfold idInsert
  split
  · exact canonical_idPut h
  · split
    · exact canonical_idPut h
    · exact h

theorem canonical_idDelete (h : Canonical s) : Canonical (idDelete g k s).2 := by
  unfold idDelete
  split
  · exact canonical_idPut h
  · exact h

theorem canonical_sgSwitch (h : Canonical s) : Canonical (sgSwitch g i s) := by
  unfold sgSwitch
  dsimp only
  split
  · exact canonical_ite (canonical_gatePut h) h
  · exact h

theorem canonical_eachGate (hf : ∀ x0 x1 x2, Canonical x2 → Canonical (f x0 x1 x2)) (h : Canonical s) :
    Canonical (eachGate f s) :=
  canonical_fold (fun _ _ ht => hf _ _ _ ht) h

theorem canonical_sgComplete (h : Canonical s) : Canonical (sgComplete s) :=
  canonical_eachGate (fun _ _ _ ht => canonical_sgSwitch ht) h

theorem canonical_sgStepped (h : Canonical s) : Canonical (sgStepped s) :=
  canonical_eachGate (fun _ _ _ ht => canonical_sgSwitch ht) (canonical_eachGate (fun _ _ _ ht => canonical_gatePut
    ht) h)

theorem canonical_sgValidity (h : Canonical s) : Canonical (sgValidity s) :=
  canonical_eachGate (fun _ _ _ ht => canonical_ite (canonical_ite (canonical_gatePut ht) ht) (canonical_ite
    (canonical_gatePut ht) ht)) h

theorem canonical_meterBad (h : Canonical s) : Canonical (meterBad g bad s) := by
  unfold meterBad
  split
  · exact canonical_flagSpare (canonical_raise (canonical_meterPut h))
  · exact h

theorem canonical_meterCommit (h : Canonical s) : Canonical (meterCommit g i w0 w1 w2 w3 resetBkt s) :=
  canonical_meterPut h

theorem canonical_polCommit (h : Canonical s) : Canonical (polCommit g resetBkt s) :=
  canonical_ite (canonical_commitGroup (fun _ ht => canonical_commitStaged (canonical_meterCommit ht)) h)
    (canonical_closeGroup (canonical_wr _ _ _ h))

theorem canonical_polDiscard (h : Canonical s) : Canonical (polDiscard g s) := canonical_discardGroup h

theorem canonical_meterSweep (h : Canonical s) : Canonical (meterSweep g i s) := canonical_meterPut h

theorem canonical_histReport (h : Canonical s) : Canonical (histReport g ctx residence' s) :=
  canonical_ite (canonical_update h) (canonical_inc h)

theorem canonical_histServe (h : Canonical s) : Canonical (histServe d s) := by
  unfold histServe
  split
  · exact h
  · exact canonical_ite (canonical_inc (canonical_update h)) (canonical_bumpCtx (canonical_update h))

theorem canonical_stmSearch (h : Canonical s) : Canonical (stmSearch f d s).2 := by
  unfold stmSearch
  refine canonical_ite_snd ?_ h
  split
  · exact canonical_inc h
  · exact canonical_inc h

theorem canonical_chooseCtx (h : Canonical s) : Canonical (chooseCtx f s).2 := by
  unfold chooseCtx
  dsimp only
  split
  · exact canonical_stmSearch (canonical_stmSearch h)
  · exact canonical_ite_snd (canonical_inc (canonical_stmSearch (canonical_stmSearch h))) (canonical_ite_snd
      (canonical_inc (canonical_stmSearch (canonical_stmSearch h))) (canonical_stmSearch (canonical_stmSearch h)))

theorem canonical_runMeter (h : Canonical s) : Canonical (runMeter f i colourIn s).2.2 :=
  canonical_ite (canonical_bump (canonical_meterPut h)) (canonical_bump (canonical_bump (canonical_meterPut h)))

theorem canonical_oversize (h : Canonical s) : Canonical (oversize g c s) := canonical_ite (canonical_ctxPut h) h

theorem canonical_tenantPolice (h : Canonical s) : Canonical (tenantPolice f tenant meterColour s).2.2 :=
  canonical_ite_of (fun q : Nat × List (Nat × Int × Bool × Bool) × State => q.2.2) (canonical_runMeter h) h

theorem canonical_filterStage (h : Canonical s) : Canonical (filterStage f s).st := by
  unfold filterStage
  extract_lets q
  have hq : Canonical q.2 := canonical_chooseCtx h
  split
  · exact canonical_tenantPolice hq
  · next c _ =>
    extract_lets x w0 w1 w2 s0 tenant drop gate o m r mres t s1
    have h0 : Canonical s0 := canonical_bumpCtx hq
    have hdrop : ∀ pos l t, Canonical t → Canonical (drop pos l t).st := fun _ _ _ ht => canonical_bumpCtx ht
    have hm : Canonical mres.2.2 := canonical_ite_of (fun q : Option Nat × List (Nat × Int × Bool × Bool) × State => q.2.2)
      (canonical_runMeter h0) h0
    have ht : Canonical t.2.2 := canonical_tenantPolice hm
    have h1 : Canonical s1 := canonical_bumpCtx ht
    exact canonical_ite_of FilterOut.st (hdrop _ _ _ h0) (canonical_ite_of FilterOut.st (hdrop _ _ _ (canonical_oversize h0))
      (canonical_ite_of FilterOut.st (hdrop _ _ _ (canonical_ite (canonical_gatePut h0) h0))
      (canonical_ite_of FilterOut.st (hdrop _ _ _ hm) (canonical_ite_of FilterOut.st (hdrop _ _ _ ht) (canonical_bumpCtx h1)))))

theorem canonical_correctMeters (h : Canonical s) : Canonical (correctMeters g len l s) := by
  induction l generalizing s with
  | nil => exact h
  | cons q l ih => exact ih (canonical_ite (canonical_inc (canonical_meterPut h)) h)

/-! ### Network time -/

theorem canonical_showSlew (h : Canonical s) : Canonical (showSlew s) := canonical_wr _ _ _ h

theorem canonical_slewEnd (h : Canonical s) : Canonical (slewEnd s) :=
  canonical_ite (canonical_showSlew (canonical_ite (canonical_wrBit _ _ _ h) h)) h

theorem canonical_timeTick (h : Canonical s) : Canonical (timeTick s) := canonical_slewEnd (canonical_update h)

theorem canonical_idle (h : Canonical s) : Canonical (idle s) := canonical_ite h (canonical_timeTick h)

theorem canonical_abandonSlew (h : Canonical s) : Canonical (abandonSlew s) :=
  canonical_ite (canonical_wrBit _ _ _ (canonical_showSlew h)) h

theorem canonical_inputsAfresh (h : Canonical s) : Canonical (inputsAfresh s) := canonical_ite (canonical_update h) h

theorem canonical_stepNoted (h : Canonical s) : Canonical (stepNoted s) := by
  unfold stepNoted
  exact h.of_regs rfl

theorem canonical_timeChanges (h : Canonical s) : Canonical (timeChanges s) :=
  canonical_sgComplete (canonical_fold (fun _ _ ht => canonical_gateDue ht) h)

theorem canonical_timeLoad (h : Canonical s) : Canonical (timeLoad now s) :=
  canonical_sgStepped (canonical_gatesStepped (canonical_stepNoted (canonical_ite (canonical_update
    (canonical_timeChanges (canonical_abandonSlew h))) (canonical_sgValidity (canonical_gatesValid
    (canonical_inputsAfresh (canonical_wrBit _ _ _ (canonical_update (canonical_timeChanges (canonical_abandonSlew
    h))))))))))

theorem canonical_timeStepBy (h : Canonical s) : Canonical (timeStepBy ns s) := canonical_timeLoad h

theorem canonical_timeSlew (h : Canonical s) : Canonical (timeSlew ns s) :=
  canonical_showSlew (canonical_wrBit _ _ _ (canonical_update (canonical_abandonSlew h)))

theorem canonical_timStepGo (h : Canonical s) : Canonical (timStepGo s) := canonical_timeStepBy h

theorem canonical_timCfgWrite (h : Canonical s) : Canonical (timCfgWrite v s) :=
  canonical_ite (canonical_wrM _ _ _ h) (canonical_wrBit _ _ _ (canonical_wrBit _ _ _ (canonical_wrM _ _ _ h)))

theorem canonical_srcLoss (h : Canonical s) : Canonical (srcLoss s) :=
  canonical_ite (canonical_raise (canonical_wrBit _ _ _ (canonical_wrBit _ _ _ (canonical_wrBit _ _ _ h)))) h

theorem canonical_timeInvalid (h : Canonical s) : Canonical (timeInvalid s) :=
  canonical_ite (canonical_raise (canonical_update (canonical_ite (canonical_sgValidity (canonical_gatesInvalid
    (canonical_wrBit _ _ _ (canonical_timeChanges h)))) (canonical_update (canonical_sgValidity
    (canonical_gatesInvalid (canonical_wrBit _ _ _ (canonical_timeChanges h)))))))) h

theorem canonical_ppsLevel (h : Canonical s) : Canonical (ppsLevel high s) := canonical_update h

theorem canonical_ppsIn (h : Canonical s) : Canonical (ppsIn s) :=
  canonical_ite (canonical_wr _ _ _ (canonical_freeW (canonical_inc (canonical_update (canonical_wr _ _ _
    (canonical_wr _ _ _ (canonical_wr _ _ _ (canonical_ite (canonical_wrBit _ _ _ h) h)))))))) (canonical_inc
    (canonical_update (canonical_wr _ _ _ (canonical_wr _ _ _ (canonical_wr _ _ _ (canonical_ite (canonical_wrBit _ _
    _ h) h))))))

theorem canonical_latchTime (h : Canonical s) : Canonical (latchTime s) :=
  canonical_wr _ _ _ (canonical_wr _ _ _ (canonical_wr _ _ _ (canonical_wr _ _ _ h)))

theorem canonical_takeCapture (h : Canonical s) : Canonical (takeCapture s) := canonical_update h

theorem canonical_postStamp (h : Canonical s) : Canonical (postStamp p t seqId msgType cookie s) :=
  canonical_ite (canonical_update (canonical_freeW h)) (canonical_raise (canonical_inc (canonical_freeW h)))

@[simp] theorem canonical_bodyTimeGet : KeepsCanonical bodyTimeGet := fun _ _ _ h => canonical_lenIs h (canonical_ok h)

@[simp] theorem canonical_bodyTimeSet : KeepsCanonical bodyTimeSet :=
  fun _ _ _ h => canonical_lenIs h (canonical_inRange h (canonical_inRange h (canonical_ok (canonical_timeLoad h))))

@[simp] theorem canonical_bodyTimeStep : KeepsCanonical bodyTimeStep :=
  fun _ _ _ h => canonical_lenIs h (canonical_ok (canonical_timeStepBy h))

@[simp] theorem canonical_bodyTimeSlew : KeepsCanonical bodyTimeSlew :=
  fun _ _ _ h => canonical_lenIs h (canonical_inRange h (canonical_ok (canonical_timeSlew h)))

@[simp] theorem canonical_bodyTimeSource : KeepsCanonical bodyTimeSource :=
  fun _ _ _ h => canonical_lenIs h (canonical_inRange h (canonical_ok (canonical_update (canonical_timCfgWrite h))))

@[simp] theorem canonical_bodyTimePpsCfg : KeepsCanonical bodyTimePpsCfg :=
  fun _ _ _ h => canonical_lenIs h (canonical_inRange h (canonical_inRange h (canonical_inRange h (canonical_ok
    (canonical_wrBit _ _ _ (canonical_wr _ _ _ (canonical_wr _ _ _ h)))))))

@[simp] theorem canonical_bodyTimePortAdj : KeepsCanonical bodyTimePortAdj :=
  fun _ _ _ h => canonical_lenIs h (canonical_inRange h (canonical_ok (canonical_wr _ _ _ (canonical_wr _ _ _ h))))

@[simp] theorem canonical_bodyPtpInstanceSet : KeepsCanonical bodyPtpInstanceSet :=
  fun _ _ _ h => canonical_lenIs h (canonical_inRange h (canonical_inRange h (canonical_refuse h (canonical_ok
    (canonical_update h)))))

/-! ### The packet path: packets and copies -/

theorem canonical_setPkt (h : Canonical s) : Canonical (setPkt k x s) := canonical_update h

theorem canonical_endPkt (h : Canonical s) : Canonical (endPkt k s) := canonical_update h

theorem canonical_modPkt (h : Canonical s) : Canonical (modPkt k f s) := by
  unfold modPkt
  split
  · exact canonical_setPkt h
  · exact h

theorem canonical_setCopy (h : Canonical s) : Canonical (setCopy c x s) := canonical_update h

theorem canonical_endCopy (h : Canonical s) : Canonical (endCopy c s) := canonical_update h

theorem canonical_setMemQueue (h : Canonical s) : Canonical (setMemQueue d a l s) := canonical_update h

theorem canonical_memWait (h : Canonical s) : Canonical (memWait d a r s) := canonical_setMemQueue (canonical_waited h)

theorem canonical_bumpPort (h : Canonical s) : Canonical (bumpPort p pos k s) := canonical_bump h

theorem canonical_ovfEvent (h : Canonical s) : Canonical (ovfEvent pip ev s) :=
  canonical_ite (canonical_wrF _ _ _ _ h) h

theorem canonical_moveSlot (h : Canonical s) : Canonical (moveSlot pip s) :=
  canonical_ovfEvent (canonical_add64 _ _ (canonical_add64 _ _ h))

theorem canonical_reapPkt (h : Canonical s) : Canonical (reapPkt k s) := by
  unfold reapPkt
  split
  · exact canonical_ite (canonical_ite (canonical_endPkt (canonical_ite h (canonical_moveSlot (canonical_setPkt h))))
      (canonical_ite h (canonical_moveSlot (canonical_setPkt h)))) h
  · exact h

theorem canonical_sampleWrite (h : Canonical s) : Canonical (sampleWrite ring lost ws s) :=
  canonical_ite (canonical_ringPost h) (canonical_raise (canonical_inc (canonical_ringPost h)))

theorem canonical_postSample (h : Canonical s) : Canonical (postSample ring lost ws s) :=
  canonical_ite (canonical_sampleWrite h) (canonical_ite (canonical_sampleWrite (canonical_charge h))
    (canonical_memWait h))

theorem canonical_samplePkt (h : Canonical s) : Canonical (samplePkt x c fate s) :=
  canonical_ite (canonical_postSample (canonical_bump h)) h

theorem canonical_discardPkt (h : Canonical s) : Canonical (discardPkt k fate s) := by
  unfold discardPkt
  split
  · exact canonical_reapPkt (canonical_setPkt (canonical_samplePkt h))
  · exact h

theorem canonical_releaseCopy (h : Canonical s) : Canonical (releaseCopy x s) := canonical_ite h (canonical_release h)

theorem canonical_discardCopy (h : Canonical s) : Canonical (discardCopy c fate s) := by
  unfold discardCopy
  split
  · refine canonical_reapPkt (canonical_endCopy ?_)
    split
    · exact canonical_samplePkt (canonical_releaseCopy h)
    · exact canonical_releaseCopy h
  · exact h

/-! ### Microcode -/

theorem canonical_countEng (h : Canonical s) : Canonical (countEng e pip n k s) := canonical_add64 _ _ h

theorem canonical_setPatchWord (h : Canonical s) : Canonical (setPatchWord e pip i v s) :=
  canonical_ite (canonical_update h) (canonical_update h)

theorem canonical_patchAddrWrite (h : Canonical s) : Canonical (patchAddrWrite e pip v s) :=
  canonical_fold (fun _ _ ht => canonical_wr _ _ _ ht) (canonical_wrM _ _ _ h)

theorem canonical_patchDataWrite (h : Canonical s) : Canonical (patchDataWrite e pip w v s) :=
  canonical_ite (canonical_wr _ _ _ h) (canonical_ite (canonical_wrF _ _ _ _ (canonical_setPatchWord (canonical_wr _ _
    _ h))) (canonical_setPatchWord (canonical_wr _ _ _ h)))

theorem canonical_ctxUpdate (h : Canonical s) : Canonical (ctxUpdate e pip s) :=
  canonical_ite (canonical_wrBit _ _ _ (canonical_wr _ _ _ h)) (canonical_wr _ _ _ h)

theorem canonical_bankSwitch (h : Canonical s) : Canonical (bankSwitch e pip s) :=
  canonical_ite (canonical_wrBit _ _ _ h) (canonical_ctxUpdate (canonical_wrBit _ _ _ (canonical_wrF _ _ _ _ h)))

theorem canonical_bankWrite (h : Canonical s) : Canonical (bankWrite e pip v s) :=
  canonical_ite (canonical_bankSwitch (canonical_wr _ _ _ h)) (canonical_wr _ _ _ h)

theorem canonical_entWrite (h : Canonical s) : Canonical (entWrite e pip bank a m v s) :=
  canonical_ite (canonical_wrBit _ _ _ h) (canonical_wrM _ _ _ h)

theorem canonical_matchWrite (h : Canonical s) : Canonical (matchWrite e pip n v s) := canonical_entWrite h

theorem canonical_profWrite (h : Canonical s) : Canonical (profWrite e pip n v s) := canonical_entWrite h

theorem canonical_portProfWrite (h : Canonical s) : Canonical (portProfWrite e p v s) :=
  canonical_ite h (canonical_ite (canonical_wrF _ _ _ _ (canonical_ite (canonical_wrBit _ _ _ h) h)) (canonical_wrBit
    _ _ _ (canonical_ite (canonical_wrBit _ _ _ h) h)))

theorem canonical_raiseUcode (h : Canonical s) : Canonical (raiseUcode src e pip a s) := canonical_raise h

theorem canonical_romCover (h : Canonical s) : Canonical (romCover e pip a s) := by
  unfold romCover
  dsimp only
  split
  · exact canonical_update (canonical_wr _ _ _ (canonical_wr _ _ _ h))
  · exact h

theorem canonical_patchParity (h : Canonical s) : Canonical (patchParity e pip a s) :=
  canonical_ite (canonical_flagRow (fun _ ht => canonical_raise ht) h) (canonical_ite (canonical_romCover h) h)

end Sys2Proof.Machine
end

section
/-! The register file's canonical form: parsing; lookup; redundancy. -/

set_option autoImplicit true

namespace Sys2Proof.Machine
open Sys2Proof

variable {s : State}

/-! ### Parsing -/

theorem canonical_prsDiscard (h : Canonical s) : Canonical (prsDiscard k pip s) :=
  canonical_ctxUpdate (canonical_ovfEvent (canonical_discardPkt h))

theorem canonical_prsFault (h : Canonical s) : Canonical (prsFault k pip src addr s) :=
  canonical_prsDiscard (canonical_raiseUcode (canonical_countEng h))

theorem canonical_captureParse (h : Canonical s) : Canonical (captureParse x s) :=
  canonical_ite (canonical_wr _ _ _ (canonical_wr _ _ _ (canonical_wr _ _ _ (canonical_wr _ _ _ (canonical_update
    h))))) h

theorem canonical_prsEnd (h : Canonical s) : Canonical (prsEnd k x c act why s) := by
  unfold prsEnd
  extract_lets s1 s2 y s3
  have h1 : Canonical s1 := canonical_countEng h
  have h2 : Canonical s2 := canonical_ite (canonical_countEng h1) (canonical_ite (canonical_countEng h1) h1)
  have h3 : Canonical s3 := canonical_captureParse (canonical_setPkt h2)
  split
  · exact canonical_prsDiscard (canonical_inc h3)
  · exact canonical_ctxUpdate h3

theorem canonical_parseStep (h : Canonical s) : Canonical (parseStep k got bad s) := by
  unfold parseStep
  split
  · exact h
  · refine canonical_ite (canonical_setPkt h) (canonical_ite (canonical_ctxUpdate (canonical_setPkt h)) (canonical_ite
      (canonical_prsFault (canonical_patchParity h)) (canonical_ite (canonical_prsFault (canonical_freeW
      (canonical_countEng (canonical_setPkt h)))) ?_)))
    split
    · exact canonical_ite (canonical_prsFault (canonical_countEng (canonical_setPkt h))) (canonical_ctxUpdate
        (canonical_setPkt (canonical_countEng (canonical_setPkt h))))
    · exact canonical_prsEnd (canonical_countEng (canonical_setPkt h))
    · exact canonical_prsDiscard (canonical_countEng (canonical_countEng (canonical_setPkt h)))
    · exact canonical_prsFault (canonical_countEng (canonical_setPkt h))

theorem canonical_setFifo (h : Canonical s) : Canonical (setFifo n v s) := canonical_update h

theorem canonical_frameIngress (h : Canonical s) : Canonical (frameIngress p got bytes s) :=
  canonical_ite h (canonical_ite (canonical_raise (canonical_bumpPort h)) (canonical_ite (canonical_inc h)
    (canonical_update (canonical_setPkt (canonical_setFifo h)))))

theorem canonical_drawTag (h : Canonical s) : Canonical (drawTag pip s).2 := canonical_ite_snd h (canonical_update h)

theorem canonical_contextTake (h : Canonical s) : Canonical (contextTake pip s) := by
  unfold contextTake
  split
  · exact h
  · exact canonical_ite h (canonical_ite (canonical_prsDiscard (canonical_countEng (canonical_setPkt (canonical_update
      (canonical_drawTag (canonical_setFifo h)))))) (canonical_ctxUpdate (canonical_setPkt (canonical_update
      (canonical_drawTag (canonical_setFifo h))))))

/-! ### Lookup -/

theorem canonical_tcamSearch (h : Canonical s) : Canonical (tcamSearch s g k met kb extra).st := by
  unfold tcamSearch
  extract_lets hd w r s1 s2
  have hr : Canonical r.st := canonical_checkedSearch (canonical_ite (canonical_inc h) (canonical_charge h))
  have h1 : Canonical s1 := canonical_ite (canonical_inc hr) hr
  have h2 : Canonical s2 := canonical_ite (canonical_inc h1) h1
  exact canonical_ite_of TcamRes.st h (canonical_ite (canonical_inc h2) h2)

theorem canonical_fwdAction (h : Canonical s) (hbad : ∀ x0, Canonical x0 → Canonical (bad x0)) :
    Canonical (fwdAction s x a routed bad).2 := by
  unfold fwdAction
  split
  · exact canonical_ite_snd h (hbad _ h)
  · exact h
  · exact h
  · exact h

theorem canonical_fwdNone (h : Canonical s) : Canonical (fwdNone s g x vid).2.2 := by
  unfold fwdNone
  refine canonical_ite_of (fun q : Fwd × Bool × State => q.2.2) (canonical_inc h) (canonical_ite_of (fun q : Fwd ×
    Bool × State => q.2.2) (canonical_inc h) (canonical_ite_of (fun q : Fwd × Bool × State => q.2.2) h ?_))
  split
  · exact h
  · exact canonical_inc h
  · exact h

theorem canonical_destResult (h : Canonical s) (e : destResult s g k x vid d = some r) : Canonical r.2 := by
  unfold destResult at e
  split at e
  · obtain rfl := Option.some.inj e
    exact canonical_fwdAction h fun _ ht => canonical_inc ht
  · split at e
    · cases e
    · split at e
      · obtain rfl := Option.some.inj e
        exact h
      · obtain rfl := Option.some.inj e
        exact h
      · obtain rfl := Option.some.inj e
        exact canonical_inc h
      · cases e

theorem canonical_forward (h : Canonical s) : Canonical (forward s g k x vid win d nh).2.2 := by
  have hrest : Canonical (match destResult s g k x vid d, nh with
      | some r, _ => (r.1, false, r.2)
      | none, some a => ((fwdAction s x a true (inc (lpmCnt g 2))).1, false, (fwdAction s x a true (inc (lpmCnt g 2))).2)
      | none, none => fwdNone s g x vid).2.2 := by
    split
    · next e => exact canonical_destResult h e
    · exact canonical_fwdAction h fun _ ht => canonical_inc ht
    · exact canonical_fwdNone h
  unfold forward
  dsimp only
  split
  · split
    · exact canonical_fwdAction h fun _ ht => canonical_inc ht
    · exact hrest
  · exact hrest

theorem canonical_countSource (h : Canonical s) : Canonical (countSource g x sr badAge s) := by
  unfold countSource
  split
  · exact h
  · exact canonical_ite (canonical_inc h) (canonical_ite (canonical_ite (canonical_inc (canonical_inc h))
      (canonical_inc h)) (canonical_ite (canonical_ageQueue (canonical_inc h)) (canonical_inc h)))

theorem canonical_afterSource (h : Canonical s) : Canonical (afterSource g k x sr drop s) := by
  unfold afterSource
  refine canonical_ite h ?_
  split
  · refine canonical_ite h ?_
    split
    · exact h
    · exact canonical_learnFcs (canonical_learnQueue h)
    · exact canonical_learnQueue h
  · refine canonical_ite (canonical_ite h ?_) h
    split
    · exact h
    · exact canonical_learnFcs (canonical_learnQueue h)
    · exact canonical_learnQueue h

theorem canonical_pushTrigger (h : Canonical s) : Canonical (pushTrigger pin op s) :=
  canonical_ite (canonical_update h) (canonical_raise (canonical_inc h))

theorem canonical_fireTrigger (h : Canonical s) : Canonical (fireTrigger k s) := by
  unfold fireTrigger
  split
  · split
    · exact canonical_pushTrigger (canonical_setPkt h)
    · exact h
  · exact h

theorem canonical_wrongLan (h : Canonical s) : Canonical (wrongLan x s) := by
  unfold wrongLan
  refine canonical_ite ?_ h
  split
  · exact canonical_ite h (canonical_raise (canonical_inc h))
  · exact h

theorem canonical_retireOvf (h : Canonical s) : Canonical (retireOvf g i s) := canonical_occUpdate (canonical_update h)

theorem canonical_badRow (h : Canonical s) (e : badRow g bad d sr pr nh s = some t) : Canonical t := by
  unfold badRow at e
  dsimp only at e
  split at e
  · obtain ⟨b, -, rfl⟩ := Option.map_eq_some_iff.mp e
    exact canonical_badBucket h
  · obtain ⟨b, -, rfl⟩ := Option.map_eq_some_iff.mp e
    exact canonical_badBucket h
  · split at e
    · obtain rfl := Option.some.inj e
      exact canonical_retireOvf (canonical_raise h)
    · cases e
  · split at e
    · obtain rfl := Option.some.inj e
      exact canonical_ite h (canonical_badPrefix h)
    · cases e
  · split at e
    · obtain rfl := Option.some.inj e
      exact canonical_flagSpare (canonical_raise h)
    · cases e
  all_goals
    split at e
    · obtain rfl := Option.some.inj e
      exact h
    · cases e

theorem canonical_endLookup (h : Canonical s) : Canonical (endLookup k x d drop s) :=
  canonical_ite (canonical_discardPkt (canonical_fireTrigger (canonical_setPkt h))) (canonical_fireTrigger
    (canonical_setPkt h))

theorem canonical_countSearches (h : Canonical s) : Canonical (countSearches g x bad d sr pr s) := by
  unfold countSearches
  extract_lets s0 s1 s2 s3
  have h1 : Canonical s1 := canonical_ite (canonical_inc (canonical_bump h)) (canonical_bump h)
  have h2 : Canonical s2 := by
    unfold s2
    split
    · exact canonical_inc h1
    · exact canonical_inc h1
    · exact h1
  have h3 : Canonical s3 := canonical_ite h2 (canonical_countSource h2)
  exact canonical_ite (canonical_flagBucket h3) h3

theorem canonical_lookupEnd (h : Canonical t.st) : Canonical (lookupEnd k g x bad vid d sr nh t) := by
  unfold lookupEnd
  refine canonical_ite (canonical_endLookup (canonical_afterSource h)) (canonical_endLookup (canonical_afterSource
    (canonical_forward ?_)))
  split
  · exact canonical_flagSpare (canonical_raise h)
  · exact h

theorem canonical_lookup (h : Canonical s) : Canonical (lookup k g x bad s) := by
  unfold lookup
  extract_lets lay kb vid srcMay d sr pr nh nhw s1 extra t
  have hs1 : Canonical s1 := canonical_ite (canonical_countSearches h) h
  have ht : Canonical t.st := canonical_tcamSearch hs1
  clear_value t s1
  refine canonical_ite (canonical_waited h) ?_
  split
  · next e =>
    split at e
    · exact canonical_discardPkt (canonical_badRow hs1 e)
    · cases e
  · exact canonical_ite (canonical_setPkt ht) (canonical_lookupEnd ht)

theorem canonical_glenResult (h : Canonical s) : Canonical (glenResult k g x bad s) := by
  unfold glenResult
  split
  · exact canonical_discardPkt (canonical_inc h)
  · exact canonical_discardPkt (canonical_inc h)
  · exact canonical_endLookup (canonical_inc h)
  · exact canonical_endLookup h
  · exact canonical_ite (canonical_endLookup h) (canonical_lookup h)

theorem canonical_glenLookup (h : Canonical s) : Canonical (glenLookup k bad s) := by
  unfold glenLookup
  split
  · exact h
  · exact canonical_ite h (canonical_glenResult (canonical_wrongLan h))

/-! ### Redundancy -/

theorem canonical_setHandle (h : Canonical s) : Canonical (setHandle d h' w s) := canonical_update h

theorem canonical_setGen (h : Canonical s) : Canonical (setGen d g n s) := canonical_update h

theorem canonical_drawSeq (h : Canonical s) : Canonical (drawSeq d g s).2 := canonical_setGen h

theorem canonical_rcvPut (h : Canonical s) : Canonical (rcvPut d f x s) := canonical_update h

theorem canonical_bumpRcv (h : Canonical s) : Canonical (bumpRcv d f pos k s) := canonical_bump h

theorem canonical_recover (h : Canonical s) : Canonical (recover d f seq s).2 :=
  canonical_ite_snd h (canonical_bumpRcv (canonical_fold (fun _ _ ht => canonical_bumpRcv ht) (canonical_rcvPut h)))

theorem canonical_rcvReset (h : Canonical s) : Canonical (rcvReset d f s) := canonical_bumpRcv (canonical_rcvPut h)

theorem canonical_rcvTimeout (h : Canonical s) : Canonical (rcvTimeout d f s) :=
  canonical_ite h (canonical_raise (canonical_rcvPut (canonical_rcvReset h)))

theorem canonical_latentTest (h : Canonical s) : Canonical (latentTest d f s) :=
  canonical_ite h (canonical_ite (canonical_raise (canonical_bumpRcv (canonical_rcvPut h))) (canonical_rcvPut h))

theorem canonical_latentReset (h : Canonical s) : Canonical (latentReset d f s) := canonical_ite h (canonical_rcvPut h)

theorem canonical_rcvConfig (h : Canonical s) : Canonical (rcvConfig d f w0 w1 w2 s) := canonical_rcvPut h

theorem canonical_rcvFromCtx (h : Canonical s) : Canonical (rcvFromCtx h' s) :=
  canonical_ite h (canonical_fold (fun _ _ ht => canonical_ite ht (canonical_rcvPut ht)) h)

theorem canonical_dupPut (h : Canonical s) : Canonical (dupPut d b l s) := canonical_wr _ _ _ (canonical_update h)

theorem canonical_dupCheck (h : Canonical s) : Canonical (dupCheck d mac seq dom s).2 :=
  canonical_ite_snd h (canonical_ite_snd (canonical_inc (canonical_dupPut h)) (canonical_ite_snd (canonical_dupPut h)
    (canonical_inc (canonical_dupPut h))))

theorem canonical_dupSeedWrite (h : Canonical s) : Canonical (dupSeedWrite d v s) :=
  canonical_ite (canonical_wr _ _ _ h) h

theorem canonical_portCfgWrite (h : Canonical s) : Canonical (portCfgWrite p a m v s) :=
  canonical_ite (canonical_update h) (canonical_wrM _ _ _ h)

@[simp] theorem canonical_bodyFrePortCfg : KeepsCanonical bodyFrePortCfg :=
  fun _ _ _ h => canonical_lenIs h (canonical_inRange h (canonical_inRange h (canonical_ok (canonical_portCfgWrite
    h))))

@[simp] theorem canonical_bodyFreHandleMap : KeepsCanonical bodyFreHandleMap := by
  intro v f s h
  unfold bodyFreHandleMap
  refine canonical_lenOk h (canonical_inRange h ?_)
  split
  · exact canonical_err h
  · exact canonical_eachDie (fun _ _ ht => canonical_fold (fun _ _ hu => canonical_rcvFromCtx (canonical_setHandle
      hu)) ht) h

@[simp] theorem canonical_bodyFreGenSet : KeepsCanonical bodyFreGenSet :=
  fun _ _ _ h => canonical_lenIs h (canonical_inRange h (canonical_scopeOne h (fun _ => canonical_eachDie (fun _ _ ht
    => canonical_setGen ht) h)))

@[simp] theorem canonical_bodyFreRcvSet : KeepsCanonical bodyFreRcvSet := by
  intro v f s h
  unfold bodyFreRcvSet
  refine canonical_lenIs h (canonical_inRange h (canonical_scopeOne h (fun _ => ?_)))
  split
  · exact canonical_err h
  · exact canonical_eachDie (fun _ _ ht => canonical_rcvConfig ht) h

@[simp] theorem canonical_bodyFreRcvRead : KeepsCanonical bodyFreRcvRead :=
  fun _ _ _ h => canonical_lenIs h (canonical_inRange h (canonical_scopeOne h (fun _ => canonical_ok h)))

@[simp] theorem canonical_bodyFreRcvReset : KeepsCanonical bodyFreRcvReset :=
  fun _ _ _ h => canonical_lenIs h (canonical_inRange h (canonical_scopeOne h (fun _ => canonical_eachDie (fun _ _ ht
    => canonical_bumpRcv (canonical_rcvPut ht)) h)))

@[simp] theorem canonical_bodyFreDupCfg : KeepsCanonical bodyFreDupCfg := by
  intro v f s h
  unfold bodyFreDupCfg
  refine canonical_lenIs h (canonical_inRange h ?_)
  split
  · exact canonical_err h
  · exact canonical_eachDie (fun _ _ ht => canonical_fold (fun _ _ hu => canonical_wr _ _ _ (canonical_wr _ _ _ hu))
      (canonical_dupSeedWrite (canonical_wr _ _ _ ht))) h

@[simp] theorem canonical_bodyFreDupStatus : KeepsCanonical bodyFreDupStatus :=
  fun _ _ _ h => canonical_lenIs h (canonical_readUnits h)

end Sys2Proof.Machine
end

section
/-! The register file's canonical form: scheduler; the packet path: admission; rewrite; frames of the block's own. -/

set_option autoImplicit true

namespace Sys2Proof.Machine
open Sys2Proof

variable {s : State}

/-! ### Scheduler -/

theorem canonical_tmapPut (h : Canonical s) : Canonical (tmapPut d t w s) := canonical_update h

theorem canonical_nodePut (h : Canonical s) : Canonical (nodePut d n w s) := canonical_update h

theorem canonical_queuePut (h : Canonical s) : Canonical (queuePut d i r s) := canonical_update h

theorem canonical_setQ (h : Canonical s) : Canonical (setQ d i l s) := canonical_update h

theorem canonical_shpPut (h : Canonical s) : Canonical (shpPut d l i x s) := canonical_update h

theorem canonical_setNodeDyn (h : Canonical s) : Canonical (setNodeDyn d n x s) := canonical_update h

theorem canonical_setPortDyn (h : Canonical s) : Canonical (setPortDyn d p x s) := canonical_update h

theorem canonical_bumpQ (h : Canonical s) : Canonical (bumpQ d i pos k s) := canonical_bump h

theorem canonical_chooseNode (h : Canonical s) : Canonical (chooseNode p tenant s).2 :=
  canonical_ite_snd h (canonical_ite_snd (canonical_inc h) (canonical_inc (canonical_inc h)))

theorem canonical_emptied (h : Canonical s) : Canonical (emptied d i s) :=
  canonical_ite (canonical_ite (canonical_setPortDyn (canonical_setNodeDyn h)) (canonical_setNodeDyn h)) h

theorem canonical_unqueue (h : Canonical s) : Canonical (unqueue c x s) := canonical_emptied (canonical_setQ h)

theorem canonical_dropQueued (h : Canonical s) : Canonical (dropQueued reason c s) := by
  unfold dropQueued
  split
  · exact canonical_discardCopy (canonical_bumpQ (canonical_unqueue h))
  · exact h

theorem canonical_flushQueue (h : Canonical s) : Canonical (flushQueue reason d i s) :=
  canonical_fold (fun _ _ ht => canonical_dropQueued ht) h

theorem canonical_flushNode (h : Canonical s) : Canonical (flushNode reason d n s) :=
  canonical_fold (fun _ _ ht => canonical_flushQueue ht) h

theorem canonical_dropDown (h : Canonical s) : Canonical (dropDown p s) :=
  canonical_ite h (canonical_fold (fun _ _ ht => canonical_flushNode ht) h)

theorem canonical_shpRefreshAt (h : Canonical s) : Canonical (shpRefreshAt t d l i s) :=
  canonical_ite (canonical_shpPut h) h

theorem canonical_shpRefresh (h : Canonical s) : Canonical (shpRefresh d l i s) := canonical_shpRefreshAt h

theorem canonical_shpSpend (h : Canonical s) : Canonical (shpSpend d l i b committed s) :=
  canonical_ite (canonical_shpPut h) h

theorem canonical_useReserve (h : Canonical s) : Canonical (useReserve d s) := canonical_bump (canonical_update h)

theorem canonical_joinQueue (h : Canonical s) : Canonical (joinQueue c s) := by
  unfold joinQueue
  split
  · exact h
  · exact canonical_ite (canonical_dropQueued (canonical_setCopy (canonical_setQ (canonical_bumpQ (canonical_bumpQ
      (canonical_useReserve h)))))) (canonical_setCopy (canonical_setQ (canonical_bumpQ (canonical_bumpQ
      (canonical_useReserve h)))))

theorem canonical_enqueue (h : Canonical s) : Canonical (enqueue c s) := by
  unfold enqueue
  split
  · exact h
  · exact canonical_ite h (canonical_ite (canonical_joinQueue h) (canonical_ite (canonical_inc (canonical_update h))
      h))

theorem canonical_enqPeriod (h : Canonical s) : Canonical (enqPeriod d s) :=
  canonical_fold (fun _ _ ht => canonical_joinQueue ht) (canonical_update h)

theorem canonical_atBegin (h : Canonical s) : Canonical (atBegin s p) :=
  canonical_ite h (canonical_setGat (canonical_update h))

theorem canonical_afterChoice (h : Canonical s) : Canonical (afterChoice p ch s) :=
  canonical_setPortDyn (canonical_setNodeDyn h)

theorem canonical_refreshPort (h : Canonical s) : Canonical (refreshPort p s) :=
  canonical_shpRefreshAt (canonical_fold (fun _ _ ht => canonical_fold (fun _ _ hu => canonical_shpRefreshAt hu)
    (canonical_shpRefreshAt ht)) h)

theorem canonical_sendChoice (h : Canonical s) : Canonical (sendChoice p ch s) := by
  unfold sendChoice
  dsimp only
  split
  · exact h
  · exact canonical_setCopy (canonical_setGat (canonical_bump (canonical_bump (canonical_bump (canonical_bump
      (canonical_bump (canonical_bumpQ (canonical_bumpQ (canonical_useReserve (canonical_unqueue
      (canonical_afterChoice (canonical_shpSpend (canonical_shpSpend (canonical_shpSpend h))))))))))))))

theorem canonical_dropGateLongs (h : Canonical s) : Canonical (dropGateLongs p s) := by
  unfold dropGateLongs
  refine canonical_fold (fun _ _ ht => canonical_fold (fun _ _ hu => ?_) ht) h
  split
  · split
    · exact canonical_ite (canonical_dropQueued hu) hu
    · exact hu
  · exact hu

theorem canonical_retireNode (h : Canonical s0) : Canonical (retireNode d n s0) :=
  canonical_raiseLost (canonical_nodePut (canonical_update (canonical_flushNode h)))

theorem canonical_nodeParity (h : Canonical s) : Canonical (nodeParity d n s) := by
  unfold nodeParity
  exact canonical_flagRow (fun _ ht => canonical_retireNode ht) (canonical_raise (canonical_flushNode h))

theorem canonical_shpParity (h : Canonical s) : Canonical (shpParity d l i s) :=
  canonical_flagSpare (canonical_raise (canonical_shpPut h))

theorem canonical_shpReplace (h : Canonical s) : Canonical (shpReplace d q s) := canonical_shpPut h

theorem canonical_setShpWait (h : Canonical s) : Canonical (setShpWait d q s) := canonical_update h

theorem canonical_shpAccept (h : Canonical s) : Canonical (shpAccept d q s) :=
  canonical_ite (canonical_wr _ _ _ (canonical_shpReplace (canonical_charge h))) (canonical_setShpWait (canonical_wr _
    _ _ (canonical_waited h)))

theorem canonical_shpCommit (h : Canonical s) : Canonical (shpCommit d reset t s) := by
  unfold shpCommit
  dsimp only
  split
  · exact canonical_wr _ _ _ h
  · exact canonical_ite (canonical_closeGroup (canonical_wr _ _ _ h)) (canonical_shpAccept (canonical_closeGroup
      (canonical_commitStaged h)))

theorem canonical_shpDiscard (h : Canonical s) : Canonical (shpDiscard d s) :=
  canonical_closeGroup (canonical_wr _ _ _ (canonical_discardStaged h))

theorem canonical_shpEffect (h : Canonical s) : Canonical (shpEffect d s) := by
  unfold shpEffect
  split
  · exact canonical_ite (canonical_ite (canonical_keepShadow (canonical_completeElem (canonical_wrBit _ _ _
      (canonical_setShpWait (canonical_shpReplace (canonical_charge h)))))) (canonical_completeElem (canonical_wrBit _
      _ _ (canonical_setShpWait (canonical_shpReplace (canonical_charge h)))))) h
  · exact h

theorem canonical_schBudgetCommit (h : Canonical s) : Canonical (schBudgetCommit d s) :=
  canonical_commitGroup (fun _ ht => canonical_armStaged ht) h

theorem canonical_schBudgetDiscard (h : Canonical s) : Canonical (schBudgetDiscard d s) := canonical_discardGroup h

theorem canonical_sampPut (h : Canonical s) : Canonical (sampPut d g x s) := canonical_update h

theorem canonical_sampleBoundary (h : Canonical s) : Canonical (sampleBoundary d g s) :=
  canonical_ite h (canonical_ite (canonical_sampPut h) (canonical_ite (canonical_sampPut (canonical_inc h))
    (canonical_sampPut h)))

theorem canonical_sampleRead (h : Canonical s) : Canonical (sampleRead d g s) := by
  unfold sampleRead
  dsimp only
  split
  · exact h
  · exact canonical_ite (canonical_postSample (canonical_sampPut (canonical_charge h))) (canonical_waited h)

theorem canonical_decisionBad (h : Canonical s) : Canonical (decisionBad p bad s) := by
  unfold decisionBad
  split
  · exact h
  · exact canonical_ite (canonical_nodeParity h) h
  · exact canonical_ite (canonical_shpParity h) h

theorem canonical_portDecide (h : Canonical s) : Canonical (portDecide p bad s) := by
  unfold portDecide
  refine canonical_ite ?_ (canonical_decisionBad h)
  dsimp only
  split
  · exact canonical_sendChoice (canonical_refreshPort (canonical_dropGateLongs (canonical_decisionBad h)))
  · exact canonical_refreshPort (canonical_dropGateLongs (canonical_decisionBad h))

/-! ### The packet path: admission -/

theorem canonical_drawFor (h : Canonical s) : Canonical (drawFor port handle s).2 := by
  unfold drawFor
  split
  · exact h
  · exact canonical_ite_snd (canonical_drawSeq h) h

theorem canonical_filterPkt (h : Canonical s) : Canonical (filterPkt k bad s) := by
  unfold filterPkt
  split
  · exact h
  · next x _ =>
    extract_lets f r s1 handle _ y q _ z
    have hr : Canonical r.st := canonical_filterStage (canonical_meterBad h)
    have h1 : Canonical s1 := by
      unfold s1
      split
      · exact canonical_flagSpare (canonical_raise hr)
      · exact hr
    have hq : Canonical q.2 := canonical_drawFor h1
    exact canonical_ite h (canonical_ite (canonical_discardPkt h) (canonical_ite
      (canonical_ite (canonical_discardPkt (canonical_setPkt hq)) (canonical_setPkt hq)) (canonical_discardPkt (canonical_setPkt h1))))

theorem canonical_endCopies (h : Canonical s) : Canonical (endCopies k fate p s) :=
  canonical_fold (fun _ _ ht => canonical_ite ht (canonical_ite (canonical_setCopy ht) (canonical_discardCopy
    (canonical_ite (canonical_unqueue ht) ht)))) h

theorem canonical_endFrame (h : Canonical s) : Canonical (endFrame k fate s) := by
  unfold endFrame
  dsimp only
  split
  · exact canonical_setPkt (canonical_endCopies h)
  · exact canonical_endCopies h

theorem canonical_countRx (h : Canonical s) : Canonical (countRx x good s) := by
  unfold countRx
  extract_lets n long s1 s2 s3
  have h1 : Canonical s1 := canonical_ite (canonical_bumpPort h) h
  have h2 : Canonical s2 := canonical_ite (canonical_bump h1) h1
  have h3 : Canonical s3 := canonical_bumpPort (canonical_bumpPort h2)
  exact canonical_ite h2 (canonical_ite (canonical_ite (canonical_bumpPort h3) (canonical_ite (canonical_bumpPort h3) h3))
    (canonical_bumpPort h2))

theorem canonical_lateSdu (h : Canonical s) : Canonical (lateSdu k x s) := by
  unfold lateSdu
  split
  · exact h
  · exact canonical_ite (canonical_ite (canonical_endFrame (canonical_oversize (canonical_bumpCtx h)))
      (canonical_discardPkt (canonical_oversize (canonical_bumpCtx h)))) h

theorem canonical_outgrow (h : Canonical s) : Canonical (outgrow k x s) :=
  canonical_fold (fun _ _ ht => canonical_ite (canonical_endCopies (canonical_inc ht)) ht) h

theorem canonical_fcsResult (h : Canonical s) : Canonical (fcsResult k good s) := by
  unfold fcsResult
  split
  · exact h
  · next x _ =>
    extract_lets g y s1 s2 s3 past s4 s5
    have h3 : Canonical s3 := canonical_fireTrigger (canonical_learnFcs (canonical_correctMeters (canonical_setPkt (canonical_countRx h))))
    have h4 : Canonical s4 := canonical_ite (canonical_outgrow (canonical_lateSdu h3)) h3
    have h5 : Canonical s5 := canonical_ite h4 (canonical_ite (canonical_endFrame h4) (canonical_ite (canonical_discardPkt h4) h4))
    exact canonical_ite h (canonical_reapPkt h5)

theorem canonical_dropPlace (h : Canonical s) : Canonical (dropPlace x port queue reason s) :=
  canonical_samplePkt (canonical_bumpQ h)

theorem canonical_placeAt (h : Canonical s) : Canonical (placeAt x port trunc s).2 := by
  unfold placeAt
  dsimp only
  split
  · exact canonical_samplePkt (canonical_chooseNode h)
  · split
    · exact canonical_dropPlace (canonical_chooseNode h)
    · exact canonical_chooseNode h

theorem canonical_placeAll (h : Canonical s) : Canonical (placeAll x trunc ports s).2 :=
  fold_inv (P := fun q : List Place × State => Canonical q.2) (fun _ _ ht => canonical_placeAt ht) h

theorem canonical_addCopy (h : Canonical s) : Canonical (addCopy k x ptr q s) := canonical_update (canonical_setCopy h)

theorem canonical_bufferFor (h : Canonical s) : Canonical (bufferFor k d req size x places named s).2 := by
  unfold bufferFor
  dsimp only
  split
  · exact canonical_fold (fun _ _ ht => canonical_addCopy ht) (canonical_allocate h)
  · exact canonical_fold (fun _ _ ht => canonical_dropPlace ht) (canonical_allocate h)

theorem canonical_giveMp (h : Canonical s) : Canonical (giveMp x d ptr s) := canonical_samplePkt (canonical_update h)

theorem canonical_mirrorTake (h : Canonical s) : Canonical (mirrorTake p n s).2 :=
  canonical_ite_snd h (canonical_update h)

theorem canonical_mirrorCopy (h : Canonical s) : Canonical (mirrorCopy k d group trunc s) := by
  unfold mirrorCopy
  split
  · exact h
  · exact canonical_ite (canonical_ite h (canonical_placeAll h)) (canonical_bufferFor (canonical_charge
      (canonical_placeAll h)))

theorem canonical_mirrorPlaces (h : Canonical s) : Canonical (mirrorPlaces k d x have_ src s).2 := by
  unfold mirrorPlaces
  split
  · exact h
  · exact canonical_ite_snd (canonical_placeAll h) (canonical_ite (canonical_mirrorTake h) (canonical_ite
      (canonical_mirrorCopy (canonical_mirrorTake h)) (canonical_memWait (canonical_mirrorTake h))))

theorem canonical_mirrorAll (h : Canonical s) : Canonical (mirrorAll k d x l ps s).2 := by
  induction ps generalizing l s with
  | nil => exact h
  | cons p ps ih => exact ih (canonical_mirrorPlaces h)

theorem canonical_admitOn (h : Canonical s) : Canonical (admitOn k d x s) := by
  unfold admitOn
  refine canonical_ite (canonical_mirrorAll (canonical_placeAll h)) ?_
  dsimp only
  split
  · exact canonical_bufferFor (canonical_mirrorAll (canonical_placeAll h))
  · exact canonical_ite (canonical_giveMp (canonical_modPkt (canonical_bufferFor (canonical_mirrorAll
      (canonical_placeAll h))))) (canonical_modPkt (canonical_bufferFor (canonical_mirrorAll (canonical_placeAll h))))

theorem canonical_admission (h : Canonical s) : Canonical (admission k d bad s) := by
  unfold admission
  split
  · exact h
  · exact canonical_ite h (canonical_reapPkt (canonical_admitOn (canonical_setPkt (canonical_bpmParity h))))

theorem canonical_spillCopy (h : Canonical s) : Canonical (spillCopy c s) := by
  unfold spillCopy
  split
  · exact h
  · refine canonical_ite h (canonical_ite (canonical_waited h) (canonical_ite (canonical_bumpQ (canonical_setCopy
      (canonical_charge (canonical_release (canonical_transfer h))))) (canonical_reapPkt (canonical_endCopy ?_))))
    split
    · exact canonical_samplePkt (canonical_bumpQ (canonical_unqueue (canonical_release (canonical_transfer h))))
    · exact canonical_bumpQ (canonical_unqueue (canonical_release (canonical_transfer h)))

theorem canonical_spillReturn (h : Canonical s) : Canonical (spillReturn c bad s) := by
  unfold spillReturn
  split
  · exact h
  · refine canonical_ite h (canonical_ite (canonical_waited h) ?_)
    dsimp only
    split
    · exact canonical_allocate h
    · exact canonical_ite (canonical_raise (canonical_incBy _ _ (canonical_charge (canonical_setCopy
        (canonical_allocate h))))) (canonical_charge (canonical_setCopy (canonical_allocate h)))

theorem canonical_setLink (h : Canonical s) : Canonical (setLink p up s) := by
  unfold setLink
  split
  · exact canonical_update h
  · exact h

theorem canonical_linkDown (h : Canonical s) : Canonical (linkDown p s) :=
  canonical_dropDown (canonical_raise (canonical_setLink h))

/-! ### Rewrite -/

theorem canonical_rweRoutine (h : Canonical s) (e : rweRoutine s x y a = some r) : Canonical r.2.2 := by
  unfold rweRoutine at e
  split at e
  · obtain rfl := Option.some.inj e
    exact canonical_freeW (canonical_freeW h)
  · split at e
    · obtain rfl := Option.some.inj e
      exact canonical_freeW h
    · cases e

theorem canonical_rweDiscard (h : Canonical s) : Canonical (rweDiscard c pip fate s) :=
  canonical_ctxUpdate (canonical_discardCopy h)

theorem canonical_rweFault (h : Canonical s) : Canonical (rweFault c pip src addr s) :=
  canonical_rweDiscard (canonical_raiseUcode (canonical_countEng h))

theorem canonical_seqFor (h : Canonical s) : Canonical (seqFor x p s).2 := by
  unfold seqFor
  split
  · exact h
  · split
    · exact h
    · exact canonical_ite_snd (canonical_drawSeq h) h

theorem canonical_giveSeq (h : Canonical s) : Canonical (giveSeq x y s).2.2 := by
  unfold giveSeq
  refine canonical_ite_of (fun q : Option Nat × Copy × State => q.2.2) ?_ h
  dsimp only
  split
  · exact canonical_seqFor h
  · exact canonical_inc (canonical_seqFor h)

theorem canonical_verdict (heval : ∀ x0, Canonical x0 → Canonical (eval x0).2) (h : Canonical s) :
    Canonical (verdict k key' x eval s).2 := by
  unfold verdict
  split
  · exact h
  · exact canonical_modPkt (heval _ h)

theorem canonical_exitRecovery (h : Canonical s) : Canonical (exitRecovery y bad s).2 := by
  unfold exitRecovery
  split
  · exact h
  · split
    · exact h
    · exact canonical_ite_snd (canonical_verdict (fun _ ht => canonical_recover ht) (canonical_ite (canonical_raise
        (canonical_rcvReset h)) h)) h

theorem canonical_exitDup (h : Canonical s) : Canonical (exitDup y tagged bad s).2 := by
  unfold exitDup
  split
  · exact h
  · dsimp only
    split
    · exact h
    · exact canonical_ite_snd h (canonical_ite_snd (canonical_verdict (fun _ ht => canonical_raise (canonical_dupPut
        ht)) h) (canonical_verdict (fun _ ht => canonical_dupCheck ht) h))

theorem canonical_readyCopy (h : Canonical s) : Canonical (readyCopy c x y tl s) :=
  canonical_ite (canonical_rweDiscard (canonical_raise (canonical_countEng (canonical_ite (canonical_countEng h) h))))
    (canonical_ite (canonical_rweDiscard (canonical_countEng (canonical_ite (canonical_countEng h) h)))
    (canonical_ctxUpdate (canonical_setCopy (canonical_ite (canonical_countEng h) h))))

theorem canonical_rweFinish (h : Canonical s) : Canonical (rweFinish c x y0 bad s) := by
  unfold rweFinish
  extract_lets pip q vEnd _ y r d
  have hr : Canonical r.2 := canonical_exitRecovery (canonical_setCopy (canonical_giveSeq (canonical_countEng h)))
  have hd : Canonical d.2 := canonical_exitDup hr
  exact canonical_ite (canonical_rweDiscard hr) (canonical_ite (canonical_rweDiscard hd)
    (canonical_ite (canonical_ctxUpdate (canonical_setCopy hd)) (canonical_readyCopy hd)))

theorem canonical_rweTake (h : Canonical s) : Canonical (rweTake c s) := by
  unfold rweTake
  split
  · exact h
  · dsimp only
    split
    · exact h
    · exact canonical_ite h (canonical_ite (canonical_rweFinish (canonical_setCopy h)) (canonical_ctxUpdate
        (canonical_setCopy h)))

theorem canonical_rweStepOf (h : Canonical s) : Canonical (rweStepOf s x y).2.2 := by
  unfold rweStepOf
  dsimp only
  split
  · exact h
  · split
    · exact h
    · split
      · next e =>
        split at e
        · cases e
        · exact canonical_rweRoutine h e
      · exact h

theorem canonical_rweStep (h : Canonical s) : Canonical (rweStep c bad s) := by
  unfold rweStep
  split
  · exact h
  · split
    · exact h
    · refine canonical_ite h (canonical_ite (canonical_rweFault (canonical_patchParity h)) ?_)
      dsimp only
      split
      · exact canonical_ite (canonical_rweFault (canonical_rweStepOf h)) (canonical_ctxUpdate (canonical_setCopy
          (canonical_rweStepOf h)))
      · exact canonical_ite (canonical_rweFault (canonical_freeW (canonical_rweStepOf h))) (canonical_rweFinish
          (canonical_rweStepOf h))
      · exact canonical_rweDiscard (canonical_countEng (canonical_rweStepOf h))
      · exact canonical_rweFault (canonical_rweStepOf h)

theorem canonical_launchTime (h : Canonical s) : Canonical (launchTime c s) := by
  unfold launchTime
  split
  · exact h
  · split
    · exact canonical_ite h (canonical_ite (canonical_setCopy h) (canonical_readyCopy h))
    · exact h

theorem canonical_countTx (h : Canonical s) : Canonical (countTx p bs inv s) :=
  canonical_ite (canonical_bumpPort h) (canonical_ite (canonical_bumpPort (canonical_bumpPort (canonical_bumpPort h)))
    (canonical_ite (canonical_bumpPort (canonical_bumpPort (canonical_bumpPort h))) (canonical_bumpPort
    (canonical_bumpPort h))))

theorem canonical_afterSent (h : Canonical s) : Canonical (afterSent x y ts s) := by
  unfold afterSent
  dsimp only
  split
  · refine canonical_postStamp ?_
    split
    · exact canonical_ite (canonical_histReport h) h
    · exact h
  · refine canonical_ite (canonical_postStamp ?_) ?_
    · split
      · exact canonical_ite (canonical_histReport h) h
      · exact h
    · split
      · exact canonical_ite (canonical_histReport h) h
      · exact h

theorem canonical_plainParity (h : Canonical s) : Canonical (plainParity y s) :=
  canonical_fold (fun _ _ ht => canonical_ite (canonical_setCopy ht) ht) (canonical_raise h)

theorem canonical_quarantineDrop (h : Canonical s) : Canonical (quarantineDrop c y s) :=
  canonical_discardCopy (canonical_setGat (canonical_bumpPort (canonical_raise h)))

theorem canonical_transmit (h : Canonical s) : Canonical (transmit c bad s) := by
  unfold transmit
  split
  · exact h
  · split
    · exact h
    · extract_lets p inv ts s1 s2 span _ s3 up s4 s5 s6 _ s7
      have h1 : Canonical s1 := canonical_ite (canonical_flagPage (canonical_plainParity h)) (canonical_ite (canonical_raise h) h)
      have h3 : Canonical s3 := canonical_update (canonical_emit (canonical_countTx h1))
      have h4 : Canonical s4 := canonical_ite (canonical_inc h3) (canonical_ite (canonical_inc h3) h3)
      have h7 : Canonical s7 := canonical_setGat (canonical_samplePkt (canonical_releaseCopy (canonical_afterSent h4)))
      exact canonical_ite h (canonical_ite (canonical_quarantineDrop h)
        (canonical_reapPkt (canonical_endCopy (canonical_ite h7 (canonical_modPkt h7)))))

/-! ### Frames of the block's own -/

theorem canonical_askStamps (h : Canonical s) : Canonical (askStamps k cookie s) := by
  unfold askStamps
  split
  · exact h
  · exact canonical_fold (fun _ _ ht => canonical_setCopy ht) h

theorem canonical_frameOnDie (h : Canonical s) : Canonical (frameOnDie k d req mine cookie pub s) := by
  unfold frameOnDie
  split
  · exact h
  · exact canonical_ite (canonical_placeAll h) (canonical_ite (canonical_askStamps (canonical_bufferFor
      (canonical_charge (canonical_placeAll h)))) (canonical_ite (canonical_raise (canonical_inc (canonical_bufferFor
      (canonical_charge (canonical_placeAll h))))) (canonical_bufferFor (canonical_charge (canonical_placeAll h)))))

theorem canonical_memGrant (h : Canonical s) : Canonical (memGrant d r s) := by
  unfold memGrant
  split
  · exact canonical_reapPkt (canonical_frameOnDie h)
  · exact canonical_sampleWrite (canonical_charge h)
  · exact canonical_reapPkt (canonical_mirrorCopy h)

theorem canonical_memServe (h : Canonical s) : Canonical (memServe d a l s) := by
  induction l generalizing s with
  | nil => exact h
  | cons r l ih => exact canonical_ite (ih (canonical_memGrant (canonical_setMemQueue h))) (canonical_waited h)

theorem canonical_memPeriod (h : Canonical s) : Canonical (memPeriod d s) := canonical_memServe (canonical_memServe h)

theorem canonical_sendFrom (h : Canonical s) : Canonical (sendFrom req ports bytes tc tenant cookie ctrl pub s) :=
  canonical_reapPkt (canonical_fold (fun _ _ ht => canonical_ite ht (canonical_ite (canonical_frameOnDie ht)
    (canonical_memWait ht))) (canonical_setPkt (canonical_update h)))

theorem canonical_bumpPri (h : Canonical s) : Canonical (bumpPri pos s) := canonical_bump h

theorem canonical_ringDrain (h : Canonical s) : Canonical (ringDrain p s) :=
  canonical_ite (canonical_fold (fun _ _ ht => canonical_emit (canonical_countTx ht)) (canonical_update h)) h

theorem canonical_ringSend (h : Canonical s) : Canonical (ringSend p bs s) :=
  canonical_ite (canonical_bumpPri h) (canonical_ringDrain (canonical_update h))

end Sys2Proof.Machine
end

section
/-! The register file's canonical form: microcode commands; the cascade; islands; col cells. -/

set_option autoImplicit true

namespace Sys2Proof.Machine
open Sys2Proof

variable {s : State}

/-! ### Microcode commands -/

theorem canonical_imageFrom (h : Canonical s) : Canonical (imageFrom f host n addr s).2 :=
  canonical_ite_snd (canonical_update h) h

theorem canonical_putSet (h : Canonical s) : Canonical (putSet k x s) := canonical_update h

theorem canonical_writeEngine (h : Canonical s0) : Canonical (writeEngine e pip base b s0) :=
  canonical_fold (fun _ _ ht => canonical_setPatchWord ht) (canonical_fold (fun _ _ ht => canonical_wr _ _ _ ht)
    (canonical_fold (fun _ _ ht => canonical_wr _ _ _ ht) (canonical_update h)))

theorem canonical_allEngines (hact : ∀ x0 x1, Canonical x1 → Canonical (act x0 x1)) (h : Canonical s) :
    Canonical (allEngines act s) :=
  canonical_fold (fun _ _ ht => hact _ _ ht) h

theorem canonical_writeSet (h : Canonical s) : Canonical (writeSet e x s) :=
  canonical_allEngines (fun _ _ ht => canonical_writeEngine ht) h

theorem canonical_switchSet (h : Canonical s) : Canonical (switchSet e s) :=
  canonical_measure (canonical_measure (canonical_putSet (canonical_putSet (canonical_allEngines (fun _ _ ht =>
    canonical_bankSwitch ht) h))))

theorem canonical_loadSet (h : Canonical s) : Canonical (loadSet e x s) :=
  canonical_measure (canonical_putSet (canonical_writeSet h))

theorem canonical_revertSet (h : Canonical s) : Canonical (revertSet e s) := canonical_switchSet (canonical_loadSet h)

theorem canonical_loaded (h : Canonical s) : Canonical (loaded b base idx s).st := canonical_ok h

theorem canonical_gapLoad (h : Canonical s) : Canonical (gapLoad e q s).st :=
  canonical_ite_st h (canonical_loaded (canonical_switchSet (canonical_loadSet (canonical_update h))))

@[simp] theorem canonical_bodyUcodePatchLoad : KeepsCanonical bodyUcodePatchLoad := by
  intro v f s h
  unfold bodyUcodePatchLoad
  refine canonical_lenIs h (canonical_inRange h (canonical_inRange h ?_))
  dsimp only
  split
  · exact canonical_gapLoad h
  · refine canonical_ite_st (canonical_err (canonical_raise (canonical_imageFrom h))) (canonical_refuse h ?_)
    split
    · exact canonical_ite_st (canonical_loaded (canonical_switchSet (canonical_loadSet (canonical_imageFrom h))))
        (canonical_loaded (canonical_loadSet (canonical_imageFrom h)))
    · exact canonical_ite_st (canonical_err h) (canonical_gapLoad (canonical_update (canonical_revertSet
        (canonical_imageFrom h))))

theorem canonical_withEngine (h : Canonical s) (hk : ∀ x0, Canonical (k x0).st) : Canonical (withEngine f s k).st :=
  canonical_lenIs h (canonical_inRange h (hk _))

@[simp] theorem canonical_bodyUcodePatchSwitch : KeepsCanonical bodyUcodePatchSwitch :=
  fun _ _ _ h => canonical_withEngine h (fun _ => canonical_refuse h (canonical_ok (canonical_switchSet h)))

@[simp] theorem canonical_bodyUcodePatchRevert : KeepsCanonical bodyUcodePatchRevert :=
  fun _ _ _ h => canonical_withEngine h (fun _ => canonical_refuse h (canonical_ok (canonical_revertSet h)))

@[simp] theorem canonical_bodyUcodeQuery : KeepsCanonical bodyUcodeQuery :=
  fun _ _ _ h => canonical_withEngine h (fun _ => canonical_ok h)

theorem canonical_portProfile (h : Canonical s) : Canonical (portProfile e f s).st :=
  canonical_lenIs h (canonical_inRange h (canonical_inRange h (canonical_ok (canonical_portCfgWrite h))))

@[simp] theorem canonical_bodyPortParseProfile : KeepsCanonical bodyPortParseProfile :=
  fun _ _ _ h => canonical_portProfile h

@[simp] theorem canonical_bodyRwePortProfile : KeepsCanonical bodyRwePortProfile :=
  fun _ _ _ h => canonical_portProfile h

/-! ### The cascade -/

theorem canonical_putSess (h : Canonical s) : Canonical (putSess k x s) := canonical_update h

theorem canonical_showSess (h : Canonical s) : Canonical (showSess s) :=
  canonical_ite (canonical_wrF _ _ _ _ h) (canonical_wrF _ _ _ _ h)

theorem canonical_sendCtrl (h : Canonical s) : Canonical (sendCtrl ports dest sess cnt kind frag key' payload s) :=
  canonical_sendFrom h

theorem canonical_sendJoin (h : Canonical s) : Canonical (sendJoin ports dest sess kind bs s) :=
  canonical_fold (fun _ _ ht => canonical_sendCtrl ht) h

theorem canonical_sendOn (h : Canonical s) : Canonical (sendOn k kind bs s) := by
  unfold sendOn
  split
  · exact h
  · exact canonical_putSess (canonical_fold (fun _ _ ht => canonical_sendCtrl ht) h)

theorem canonical_sendResponses (h : Canonical s) : Canonical (sendResponses s) :=
  canonical_fold (fun _ _ ht => canonical_ite (canonical_sendOn ht) ht) (canonical_update h)

theorem canonical_answerForward (h : Canonical s) : Canonical (answerForward w status detail ws s) :=
  canonical_ite h (canonical_ite (canonical_respondRing h) (canonical_respondRegister h))

theorem canonical_settle (h : Canonical s) : Canonical (settle p s) := by
  unfold settle
  split
  · exact canonical_ite (canonical_putSess (canonical_putSess h)) h
  · exact canonical_ite h (canonical_update h)

theorem canonical_closeSession (h : Canonical s) : Canonical (closeSession k s) := by
  unfold closeSession
  split
  · exact h
  · exact canonical_showSess (canonical_ite (canonical_settle (canonical_fold (fun _ _ ht => canonical_answerForward
      ht) (canonical_putSess (canonical_update h)))) (canonical_fold (fun _ _ ht => canonical_answerForward ht)
      (canonical_putSess (canonical_update h))))

theorem canonical_leaveSession (h : Canonical s) : Canonical (leaveSession k s) :=
  canonical_closeSession (canonical_ite (canonical_sendOn h) h)

theorem canonical_leaveAll (h : Canonical s) : Canonical (leaveAll s) :=
  canonical_fold (fun _ _ ht => canonical_leaveSession ht) h

theorem canonical_setRole (h : Canonical s) : Canonical (setRole r s) :=
  canonical_ite (canonical_wrF _ _ _ _ h) (canonical_showSess (canonical_wrF _ _ _ _ (canonical_wrF _ _ _ _
    (canonical_update (canonical_leaveAll h)))))

theorem canonical_casCfgWrite (h : Canonical s) : Canonical (casCfgWrite v s) :=
  canonical_wr _ _ _ (canonical_ite h (canonical_setRole h))

theorem canonical_assemble (h : Canonical s) : Canonical (assemble c s).2 :=
  canonical_ite_snd (canonical_update h) (canonical_update h)

theorem canonical_fragTimeout (h : Canonical s) : Canonical (fragTimeout i s) := by
  unfold fragTimeout
  split
  · exact canonical_ite h (canonical_update h)
  · exact h

theorem canonical_authFails (h : Canonical s) : Canonical (authFails sess s) :=
  canonical_ite (canonical_inc h) (canonical_raise (canonical_wrBit _ _ _ (canonical_inc h)))

theorem canonical_sendHello (h : Canonical s) : Canonical (sendHello s) :=
  canonical_sendJoin (canonical_update (canonical_freeBytes h))

theorem canonical_facing (h : Canonical s) : Canonical (facing p v s) := canonical_ite (canonical_wrF _ _ _ _ h) h

theorem canonical_sendCert (h : Canonical s) : Canonical (sendCert dev old hello ver port s) :=
  canonical_sendJoin (canonical_putSess (canonical_update (canonical_freeBytes (canonical_freeBytes h))))

theorem canonical_takeHello (h : Canonical s) : Canonical (takeHello c bs s) := by
  unfold takeHello
  split
  · exact canonical_raise (canonical_update h)
  · refine canonical_ite (canonical_sendCert ?_) (canonical_ite (canonical_sendCert ?_) h)
    · split
      · exact canonical_putSess h
      · exact h
    · split
      · exact canonical_putSess h
      · exact h

theorem canonical_takeCert (h : Canonical s) : Canonical (takeCert c bs s) := by
  unfold takeCert
  split
  · exact canonical_inc h
  · exact canonical_ite (canonical_sendJoin (canonical_putSess (canonical_freeBytes h))) h

theorem canonical_takeFinish (h : Canonical s) : Canonical (takeFinish c bs s) := by
  unfold takeFinish
  split
  · exact h
  · exact canonical_ite h (canonical_ite (canonical_putSess h) (canonical_ite (canonical_update (canonical_sendOn
      (canonical_facing (canonical_putSess h)))) (canonical_leaveSession (canonical_update (canonical_sendOn
      (canonical_facing (canonical_putSess h)))))))

theorem canonical_takeResponse (h : Canonical s) : Canonical (takeResponse k ws s) := by
  unfold takeResponse
  split
  · exact h
  · refine canonical_ite ?_ (canonical_answerForward (canonical_update h))
    split
    · exact canonical_ite (canonical_putSess (canonical_update h)) (canonical_update h)
    · exact canonical_update h

theorem canonical_takeMessage (hrun : ∀ x0 x1 x2, Canonical x2 → Canonical (run x0 x1 x2)) (h : Canonical s) :
    Canonical (takeMessage run k c bs s) :=
  canonical_ite (canonical_ite (hrun _ _ _ h) h) (canonical_ite (canonical_takeResponse h) (canonical_ite
    (canonical_closeSession h) h))

theorem canonical_bringUp (h : Canonical s) : Canonical (bringUp k s) := by
  unfold bringUp
  split
  · exact canonical_ite h (canonical_facing (canonical_showSess (canonical_putSess h)))
  · exact h

theorem canonical_takeAuth (hrun : ∀ x0 x1 x2, Canonical x2 → Canonical (run x0 x1 x2)) (h : Canonical s) :
    Canonical (takeAuth run c s) := by
  unfold takeAuth
  split
  · exact canonical_authFails h
  · split
    · exact h
    · refine canonical_ite (canonical_authFails h) ?_
      split
      · exact canonical_raise (canonical_inc h)
      · dsimp only
        split
        · exact canonical_takeMessage hrun (canonical_assemble (canonical_bringUp (canonical_putSess h)))
        · exact canonical_assemble (canonical_bringUp (canonical_putSess h))

theorem canonical_takeJoin (h : Canonical s) : Canonical (takeJoin c s) := by
  unfold takeJoin
  dsimp only
  split
  · exact canonical_assemble h
  · exact canonical_ite (canonical_takeHello (canonical_assemble h)) (canonical_ite (canonical_takeCert
      (canonical_assemble h)) (canonical_takeFinish (canonical_assemble h)))

theorem canonical_takeControl (hrun : ∀ x0 x1 x2, Canonical x2 → Canonical (run x0 x1 x2)) (h : Canonical s) :
    Canonical (takeControl run s) := by
  unfold takeControl
  split
  · exact h
  · dsimp only
    split
    · exact canonical_inc (canonical_release (canonical_update h))
    · exact canonical_ite (canonical_takeAuth hrun (canonical_release (canonical_update h))) (canonical_takeJoin
        (canonical_release (canonical_update h)))

theorem canonical_keepalive (h : Canonical s) : Canonical (keepalive k s) := by
  unfold keepalive
  split
  · exact canonical_ite h (canonical_sendOn h)
  · exact h

theorem canonical_loseSession (h : Canonical s) : Canonical (loseSession k s) := by
  unfold loseSession
  split
  · exact h
  · exact canonical_ite (canonical_raise (canonical_wrBit _ _ _ (canonical_closeSession h))) (canonical_update
      (canonical_closeSession h))

theorem canonical_sessionTimeout (h : Canonical s) : Canonical (sessionTimeout k s) := by
  unfold sessionTimeout
  split
  · exact canonical_ite h (canonical_loseSession h)
  · exact h

@[simp] theorem canonical_bodyCasRoleSet : KeepsCanonical bodyCasRoleSet :=
  fun _ _ _ h => canonical_lenIs h (canonical_inRange h (canonical_ok (canonical_setRole h)))

@[simp] theorem canonical_bodyCasDeviceId : KeepsCanonical bodyCasDeviceId :=
  fun _ _ _ h => canonical_lenIs h (canonical_inRange h (canonical_refuse h (canonical_ok (canonical_wr _ _ _ h))))

theorem canonical_cascadeSet (h : Canonical s) : Canonical (cascadeSet p v s) :=
  canonical_ite (canonical_portCfgWrite (canonical_portCfgWrite (canonical_portCfgWrite h))) (canonical_ite
    (canonical_portCfgWrite (canonical_portCfgWrite (canonical_portCfgWrite h))) (canonical_portCfgWrite h))

@[simp] theorem canonical_bodyCasPortCfg : KeepsCanonical bodyCasPortCfg :=
  fun _ _ _ h => canonical_lenIs h (canonical_inRange h (canonical_inRange h (canonical_ok (canonical_cascadeSet h))))

@[simp] theorem canonical_bodyCasBudgetSet : KeepsCanonical bodyCasBudgetSet :=
  fun _ _ _ h => canonical_lenIs h (canonical_ok (canonical_wr _ _ _ (canonical_wr _ _ _ h)))

@[simp] theorem canonical_bodyCasRelayCfg : KeepsCanonical bodyCasRelayCfg :=
  fun _ _ _ h => canonical_lenIs h (canonical_inRange h (canonical_ok (canonical_wrM _ _ _ h)))

@[simp] theorem canonical_bodyCasJoinCfg : KeepsCanonical bodyCasJoinCfg :=
  fun _ _ _ h => canonical_lenOk h (canonical_inRange h (canonical_inRange h (canonical_refuse h (canonical_ok
    (canonical_update h)))))

theorem canonical_withPartner (h : Canonical s) (hk : ∀ x0 x1, Canonical (k x0 x1).st) :
    Canonical (withPartner f s k).st := by
  unfold withPartner
  refine canonical_refuse h ?_
  split
  · split
    · exact hk _ _
    · exact canonical_err h
  · exact canonical_err h

@[simp] theorem canonical_bodyCasLeave : KeepsCanonical bodyCasLeave :=
  fun _ _ _ h => canonical_lenIs h (canonical_withPartner h (fun _ _ => canonical_ok (canonical_leaveSession h)))

@[simp] theorem canonical_bodyCasSessionRead : KeepsCanonical bodyCasSessionRead :=
  fun _ _ _ h => canonical_lenIs h (canonical_withPartner h (fun _ _ => canonical_ok h))

@[simp] theorem canonical_bodyCasForward : KeepsCanonical bodyCasForward :=
  fun _ _ _ h => canonical_lenOk h (canonical_refuse h (canonical_withPartner h (fun _ _ => canonical_update
    (canonical_sendOn h))))

@[simp] theorem canonical_bodyCasWorkerList : KeepsCanonical bodyCasWorkerList :=
  fun _ _ _ h => canonical_lenIs h (canonical_refuse h (canonical_ok h))

theorem canonical_ownerSet (h : Canonical s) : Canonical (ownerSet cert s) :=
  canonical_measureOwner (canonical_wrBit _ _ _ (canonical_update (canonical_ite h (canonical_leaveAll h))))

@[simp] theorem canonical_bodyOwnerCertSet : KeepsCanonical bodyOwnerCertSet :=
  fun _ _ _ h => canonical_lenOk h (canonical_inRange h (canonical_lenIs h (canonical_inRange h (canonical_ite_st
    (canonical_ok (canonical_ownerSet h)) (canonical_ite_st (canonical_ok (canonical_ownerSet (canonical_checkRecord
    h))) (canonical_err (canonical_checkRecord h)))))))

@[simp] theorem canonical_bodyOwnerCertClear : KeepsCanonical bodyOwnerCertClear :=
  fun _ _ _ h => canonical_lenIs h (canonical_refuse h (canonical_ite_st (canonical_ok (canonical_ownerSet
    (canonical_checkRecord h))) (canonical_err (canonical_checkRecord h))))

/-! ### Islands -/

theorem canonical_islPut (h : Canonical s) : Canonical (islPut i x s) := canonical_update h

theorem canonical_setCode (h : Canonical s) : Canonical (setCode i c s) := canonical_wr _ _ _ (canonical_wr _ _ _ h)

theorem canonical_islFollow (h : Canonical s) : Canonical (islFollow fromReset i s) :=
  canonical_ite h (canonical_ite (canonical_islPut (canonical_wrBit _ _ _ (canonical_wrBit _ _ _ (canonical_setCode
    h)))) (canonical_ite (canonical_setCode (canonical_wrBit _ _ _ h)) (canonical_wrBit _ _ _ h)))

theorem canonical_islService (h : Canonical s) : Canonical (islService fromReset s) :=
  canonical_fold (fun _ _ ht => canonical_islFollow ht) h

theorem canonical_ratioWindow (h : Canonical s) : Canonical (ratioWindow i arrivals stepPs mv s) :=
  canonical_ite h (canonical_islPut (canonical_wr _ _ _ (canonical_wrBit _ _ _ (canonical_wrF _ _ _ _ h))))

theorem canonical_ceilingCheck (h : Canonical s) : Canonical (ceilingCheck i s) := by
  unfold ceilingCheck
  split
  · exact h
  · exact canonical_ite (canonical_raise (canonical_wrBit _ _ _ h)) h

theorem canonical_evaluate (h : Canonical s) : Canonical (evaluate i occ steps s) := by
  unfold evaluate
  extract_lets s0 pin r _ x s1 v v1 s2
  have h0 : Canonical s0 := canonical_incBy _ _ (canonical_wrF _ _ _ _ h)
  have h2 : Canonical s2 := canonical_wr _ _ _ (canonical_islPut (canonical_setCode h0))
  exact canonical_ite h0 (canonical_ite (canonical_islFollow h0) (canonical_ite h0 (canonical_ite (canonical_ceilingCheck h2) h2)))

theorem canonical_islandsToCeiling (h : Canonical s) : Canonical (islandsToCeiling s) :=
  canonical_fold (fun _ _ ht => canonical_ite ht (canonical_setCode ht)) h

theorem canonical_peakRestart (h : Canonical s) : Canonical (peakRestart i s) := canonical_wr _ _ _ h

theorem canonical_pwiCommit (h : Canonical s) : Canonical (pwiCommit s) := by
  unfold pwiCommit
  dsimp only
  split
  · exact canonical_wrF _ _ _ _ (canonical_commitGroup (fun _ ht => canonical_commitStaged ht) h)
  · exact canonical_commitGroup (fun _ ht => canonical_commitStaged ht) h

theorem canonical_pwiDiscard (h : Canonical s) : Canonical (pwiDiscard s) := canonical_discardGroup h

@[simp] theorem canonical_bodyIslCfgSet : KeepsCanonical bodyIslCfgSet :=
  fun _ _ _ h => canonical_lenIs h (canonical_commitOne h (canonical_pwiCommit (canonical_fold (fun _ _ ht =>
    canonical_stgM (canonical_stgM ht)) h)))

@[simp] theorem canonical_bodyIslStatus : KeepsCanonical bodyIslStatus :=
  fun _ _ _ h => canonical_lenIs h (canonical_inRange h (canonical_ok (canonical_peakRestart h)))

@[simp] theorem canonical_bodyIslCeilTime : KeepsCanonical bodyIslCeilTime :=
  fun _ _ _ h => canonical_lenIs h (canonical_inRange h (canonical_ok (canonical_wrM _ _ _ h)))

@[simp] theorem canonical_bodyIslLoopTiming : KeepsCanonical bodyIslLoopTiming :=
  fun _ _ _ h => canonical_lenIs h (canonical_commitOne h (canonical_pwiCommit (canonical_stgM (canonical_stgM h))))

theorem canonical_ceilRearm (h : Canonical s) : Canonical (ceilRearm w v s) := canonical_wr _ _ _ h

@[simp] theorem canonical_bodyIslCeilRearm : KeepsCanonical bodyIslCeilRearm :=
  fun _ _ _ h => canonical_lenIs h (canonical_ok (canonical_fold (fun _ _ ht => canonical_ceilRearm ht) h))

/-! ### Col cells -/

theorem canonical_domainStops (h : Canonical s) : Canonical (domainStops d s) :=
  canonical_ite (canonical_islandsToCeiling (canonical_ite (canonical_allClocks (canonical_wr _ _ _ (canonical_update
    h))) (canonical_raise (canonical_allClocks (canonical_wr _ _ _ (canonical_update h)))))) (canonical_ite
    (canonical_allClocks (canonical_wr _ _ _ (canonical_update h))) (canonical_raise (canonical_allClocks
    (canonical_wr _ _ _ (canonical_update h)))))

theorem canonical_sysclkLost (h : Canonical s) : Canonical (sysclkLost s) :=
  canonical_fold (fun _ _ ht => canonical_ite ht (canonical_domainStops ht)) (canonical_raise (canonical_raise
    (canonical_allClocks (canonical_wr _ _ _ h))))

theorem canonical_clockAbsent (h : Canonical s) : Canonical (clockAbsent d s) :=
  canonical_ite (canonical_sysclkLost h) (canonical_domainStops h)

theorem canonical_clockPresent (h : Canonical s) : Canonical (clockPresent d periodPs s) :=
  canonical_ite (canonical_ringsDelivered (canonical_releaseWaiting (canonical_allClocks (canonical_wrF _ _ _ _
    (canonical_wrBit _ _ _ (canonical_update h)))))) (canonical_releaseWaiting (canonical_allClocks (canonical_wrF _ _
    _ _ (canonical_wrBit _ _ _ (canonical_update h)))))

theorem canonical_sysclkBack (h : Canonical s) : Canonical (sysclkBack s) :=
  canonical_ite (canonical_allClocks (canonical_wrBit _ _ _ (canonical_wrBit _ _ _ h))) h

theorem canonical_clearSticky (h : Canonical s) : Canonical (clearSticky c s) :=
  canonical_wrBit _ _ _ (canonical_wrBit _ _ _ h)

theorem canonical_clearOvf (h : Canonical s) : Canonical (clearOvf c s) :=
  canonical_wrBit _ _ _ (canonical_wrBit _ _ _ (canonical_setCell h))

theorem canonical_clearResync (h : Canonical s) : Canonical (clearResync c s) := canonical_wrBit _ _ _ h

theorem canonical_cellStatWrite (h : Canonical s) : Canonical (cellStatWrite c v s) :=
  canonical_ite (canonical_clearResync (canonical_ite (canonical_clearOvf (canonical_ite (canonical_clearSticky h) h))
    (canonical_ite (canonical_clearSticky h) h))) (canonical_ite (canonical_clearOvf (canonical_ite
    (canonical_clearSticky h) h)) (canonical_ite (canonical_clearSticky h) h))

theorem canonical_stallPendWrite (h : Canonical s) : Canonical (stallPendWrite w v s) :=
  canonical_fold (fun _ _ ht => canonical_clearSticky ht) h

theorem canonical_ovfPendWrite (h : Canonical s) : Canonical (ovfPendWrite w v s) :=
  canonical_fold (fun _ _ ht => canonical_clearOvf ht) h

@[simp] theorem canonical_bodyColStallCfg : KeepsCanonical bodyColStallCfg :=
  fun _ _ _ h => canonical_lenIs h (canonical_inRange h (canonical_ok (canonical_fold (fun _ _ ht => canonical_wrM _ _
    _ ht) h)))

@[simp] theorem canonical_bodyColStatus : KeepsCanonical bodyColStatus :=
  fun _ _ _ h => canonical_lenIs h (canonical_inRange h (canonical_ok h))

@[simp] theorem canonical_bodyColRearm : KeepsCanonical bodyColRearm :=
  fun _ _ _ h => canonical_lenIs h (canonical_inRange h (canonical_inRange h (canonical_ok (canonical_fold (fun _ _ ht
    => canonical_wrBit _ _ _ ht) (canonical_fold (fun _ _ ht => canonical_cellStatWrite ht) h)))))

end Sys2Proof.Machine
end

section
/-! The register file's canonical form: exact-match commands; prefix and tcam commands; field inputs and outputs. -/

set_option autoImplicit true

namespace Sys2Proof.Machine
open Sys2Proof

variable {s : State}

/-! ### Exact-match commands -/

theorem canonical_hashSeedWrite (h : Canonical s) : Canonical (hashSeedWrite g v s) :=
  canonical_ite (canonical_wr _ _ _ h) (canonical_wrBit _ _ _ h)

theorem canonical_hashCfgWrite (h : Canonical s) : Canonical (hashCfgWrite g v s) :=
  canonical_ite (canonical_ite (canonical_wrBit _ _ _ h) h) (canonical_ite (canonical_wrF _ _ _ _ (canonical_ite
    (canonical_wrBit _ _ _ h) h)) (canonical_wrBit _ _ _ (canonical_ite (canonical_wrBit _ _ _ h) h)))

theorem canonical_ageCfgWrite (h : Canonical s) : Canonical (ageCfgWrite g v s) :=
  canonical_ite h (canonical_ite (canonical_scanStart (canonical_tickFrom (canonical_wrM _ _ _ h))) (canonical_wrM _ _
    _ h))

theorem canonical_tblCfgWrite (h : Canonical s) : Canonical (tblCfgWrite g t v s) :=
  canonical_ite (canonical_wrM _ _ _ h) h

theorem canonical_glnBudgetCommit (h : Canonical s) : Canonical (glnBudgetCommit g s) :=
  canonical_commitGroup (fun _ ht => canonical_armStaged ht) h

theorem canonical_glnBudgetDiscard (h : Canonical s) : Canonical (glnBudgetDiscard g s) := canonical_discardGroup h

@[simp] theorem canonical_bodyEmTableCfg : KeepsCanonical bodyEmTableCfg :=
  fun _ _ _ h => canonical_lenIs h (canonical_inRange h (canonical_inRange h (canonical_eachGlen (fun _ _ ht =>
    canonical_tblCfgWrite ht) h)))

@[simp] theorem canonical_bodyEmKeyLayout : KeepsCanonical bodyEmKeyLayout :=
  fun _ _ _ h => canonical_lenIs h (canonical_inRange h (canonical_commitOn (fun _ _ ht => canonical_keyCommit
    (canonical_fold (fun _ _ hu => canonical_stgM (canonical_stgM hu)) (canonical_stgM (canonical_stgM ht)))) h))

@[simp] theorem canonical_bodyEmPortCfg : KeepsCanonical bodyEmPortCfg :=
  fun _ _ _ h => canonical_lenIs h (canonical_inRange h (canonical_ok (canonical_wrM _ _ _ h)))

@[simp] theorem canonical_bodyTblInsert : KeepsCanonical bodyTblInsert :=
  fun _ _ _ h => canonical_lenIs h (canonical_inRange h (canonical_onUnits (fun _ _ _ ht => canonical_opSubmit ht) h))

@[simp] theorem canonical_bodyTblDelete : KeepsCanonical bodyTblDelete :=
  fun _ _ _ h => canonical_lenIs h (canonical_inRange h (canonical_onUnits (fun _ _ _ ht => canonical_opSubmit ht) h))

theorem canonical_debugRead (h : Canonical s) : Canonical (debugRead g m n s) := canonical_charge h

theorem canonical_debugSlot (h : Canonical s) (hk : ∀ x0, Canonical x0 → Canonical (k x0).st) :
    Canonical (debugSlot g m s k).st :=
  canonical_needSlot h (hk _ (canonical_debugRead h))

@[simp] theorem canonical_bodyTblLookup : KeepsCanonical bodyTblLookup := by
  intro v f s h
  unfold bodyTblLookup
  refine canonical_lenIs h (canonical_inRange h (canonical_scopeOne h (fun _ => canonical_debugSlot h (fun _ ht =>
    ?_))))
  split
  · exact canonical_ok ht
  · exact canonical_ok ht

@[simp] theorem canonical_bodyTblFlush : KeepsCanonical bodyTblFlush :=
  fun _ _ _ h => canonical_lenIs h (canonical_inRange h (canonical_inRange h (canonical_onUnits (fun _ _ _ ht =>
    canonical_opSubmit ht) h)))

@[simp] theorem canonical_bodyTblBulkInsert : KeepsCanonical bodyTblBulkInsert :=
  fun _ _ _ h => canonical_lenOk h (canonical_onEntries (fun _ _ _ _ ht => canonical_opSubmit ht) h)

@[simp] theorem canonical_bodyTblIterate : KeepsCanonical bodyTblIterate := by
  intro v f s h
  unfold bodyTblIterate
  refine canonical_lenIs h (canonical_inRange h (canonical_inRange h (canonical_scopeOne h (fun _ =>
    canonical_debugSlot h (fun _ ht => ?_)))))
  split
  · exact canonical_ok ht
  · exact canonical_ok ht

@[simp] theorem canonical_bodyLearnRingCfg : KeepsCanonical bodyLearnRingCfg :=
  fun _ _ _ h => canonical_lenIs h (canonical_inRange h (canonical_scopeOne h (fun _ => canonical_ok (canonical_wrM _
    _ _ (canonical_ringCfgWrite (canonical_wr _ _ _ (canonical_wrM _ _ _ h)))))))

@[simp] theorem canonical_bodyLearnPolicy : KeepsCanonical bodyLearnPolicy :=
  fun _ _ _ h => canonical_lenIs h (canonical_inRange h (canonical_inRange h (canonical_ok (canonical_update h))))

@[simp] theorem canonical_bodyAgeCfg : KeepsCanonical bodyAgeCfg :=
  fun _ _ _ h => canonical_lenIs h (canonical_inRange h (canonical_eachGlen (fun _ _ ht => canonical_ageCfgWrite ht)
    h))

@[simp] theorem canonical_bodyGlenBudgetSet : KeepsCanonical bodyGlenBudgetSet :=
  fun _ _ _ h => canonical_lenIs h (canonical_inRange h (canonical_inRange h (canonical_inRange h (canonical_commitOn
    (fun _ _ ht => canonical_glnBudgetCommit (canonical_stgM (canonical_stgM (canonical_stgM ht)))) h))))

@[simp] theorem canonical_bodyTblCapacity : KeepsCanonical bodyTblCapacity :=
  fun _ _ _ h => canonical_lenIs h (canonical_readUnits h)

theorem canonical_promotionServe (h : Canonical s) : Canonical (promotionServe g verifyFails s) := by
  unfold promotionServe
  dsimp only
  split
  · exact h
  · refine canonical_ite ?_ (canonical_waited h)
    split
    · exact canonical_charge (canonical_ite (canonical_verifyFailed (canonical_update h)) (canonical_queuePromotion
        (canonical_promote (canonical_update h))))
    · exact canonical_update h

theorem canonical_ringModerate (h : Canonical s) : Canonical (ringModerate r s) := by
  unfold ringModerate
  dsimp only
  split
  · exact canonical_ite (canonical_completionSignal (canonical_setRing h)) h
  · exact canonical_ite (canonical_ringIrq h) h

theorem canonical_setOrigin (h : Canonical s) : Canonical (setOrigin table k g s) := canonical_update h

theorem canonical_issueAll (h : Canonical s) : Canonical (issueAll op gs s) :=
  canonical_fold (fun _ _ ht => canonical_ite ht (canonical_opSubmit ht)) h

theorem canonical_replicate (h : Canonical s) : Canonical (replicate g ws s) := by
  unfold replicate
  refine canonical_ite h (canonical_ite (canonical_issueAll (canonical_setOrigin h)) (canonical_ite ?_ h))
  split
  · exact h
  · refine canonical_ite (canonical_issueAll (canonical_setOrigin h)) ?_
    split
    · exact canonical_issueAll h
    · exact h

theorem canonical_learnConsume (h : Canonical s) : Canonical (learnConsume g s) := by
  unfold learnConsume
  refine canonical_ite h ?_
  split
  · exact h
  · exact canonical_wr _ _ _ (canonical_replicate h)

/-! ### Prefix and TCAM commands -/

@[simp] theorem canonical_bodyLpmKeyLayout : KeepsCanonical bodyLpmKeyLayout :=
  fun _ _ _ h => canonical_lenIs h (canonical_inRange h (canonical_commitOn (fun _ _ ht => canonical_keyCommit
    (canonical_stgM ht)) h))

@[simp] theorem canonical_bodyLpmPortVrf : KeepsCanonical bodyLpmPortVrf :=
  fun _ _ _ h => canonical_lenIs h (canonical_inRange h (canonical_ok (canonical_wrM _ _ _ h)))

@[simp] theorem canonical_bodyTcamKeyLayout : KeepsCanonical bodyTcamKeyLayout :=
  fun _ _ _ h => canonical_lenIs h (canonical_inRange h (canonical_commitOn (fun _ _ ht => canonical_keyCommit
    (canonical_fold (fun _ _ hu => canonical_stgM hu) (canonical_stgM ht))) h))

@[simp] theorem canonical_bodyTcamScrubCfg : KeepsCanonical bodyTcamScrubCfg :=
  fun _ _ _ h => canonical_lenIs h (canonical_eachGlen (fun _ _ ht => canonical_wrM _ _ _ ht) h)

theorem canonical_checkRoute (h : Canonical s) (h1 : Canonical k.st) : Canonical (checkRoute f i del s k).st := by
  unfold checkRoute
  split
  · exact canonical_err h
  · exact h1

@[simp] theorem canonical_bodyRouteAdd : KeepsCanonical bodyRouteAdd :=
  fun _ _ _ h => canonical_lenIs h (canonical_inRange h (canonical_checkRoute h (canonical_onUnits (fun _ _ _ ht =>
    canonical_opSubmit ht) h)))

@[simp] theorem canonical_bodyRouteDelete : KeepsCanonical bodyRouteDelete :=
  fun _ _ _ h => canonical_lenIs h (canonical_inRange h (canonical_checkRoute h (canonical_onUnits (fun _ _ _ ht =>
    canonical_opSubmit ht) h)))

@[simp] theorem canonical_bodyRouteBulk : KeepsCanonical bodyRouteBulk := by
  intro v f s h
  unfold bodyRouteBulk
  refine canonical_lenOk h ?_
  split
  · exact canonical_err h
  · exact canonical_onEntries (fun _ _ _ _ ht => canonical_opSubmit ht) h

@[simp] theorem canonical_bodyRouteLookup : KeepsCanonical bodyRouteLookup := by
  intro v f s h
  unfold bodyRouteLookup
  refine canonical_lenIs h (canonical_inRange h (canonical_scopeOne h (fun _ => canonical_debugSlot h (fun _ ht =>
    ?_))))
  dsimp only
  split
  · exact canonical_ok ht
  · exact canonical_ok ht

theorem canonical_submitAll (h : Canonical s) : Canonical (submitAll g t l s).2 := by
  induction l generalizing s with
  | nil => exact h
  | cons op l ih =>
    cases l with
    | nil => exact canonical_opSubmit h
    | cons op' l => exact ih (canonical_opSubmit h)

@[simp] theorem canonical_bodyNexthopSet : KeepsCanonical bodyNexthopSet :=
  fun _ _ _ h => canonical_inRange h (canonical_lenIs h (canonical_inRange h (canonical_onUnits (fun _ _ _ ht =>
    canonical_submitAll ht) h)))

@[simp] theorem canonical_bodyRouteCapacity : KeepsCanonical bodyRouteCapacity :=
  fun _ _ _ h => canonical_lenIs h (canonical_readUnits h)

theorem canonical_checkRule (h : Canonical s) (h1 : Canonical k.st) : Canonical (checkRule f i s k).st :=
  canonical_inRange h (canonical_lenIs h (canonical_inRange h (canonical_inRange h (canonical_inRange h h1))))

@[simp] theorem canonical_bodyTcamRuleWrite : KeepsCanonical bodyTcamRuleWrite :=
  fun _ _ _ h => canonical_checkRule h (canonical_onUnits (fun _ _ _ ht => canonical_opSubmit ht) h)

@[simp] theorem canonical_bodyTcamRuleDelete : KeepsCanonical bodyTcamRuleDelete :=
  fun _ _ _ h => canonical_lenIs h (canonical_inRange h (canonical_onUnits (fun _ _ _ ht => canonical_opSubmit ht) h))

@[simp] theorem canonical_bodyTcamRuleReplace : KeepsCanonical bodyTcamRuleReplace :=
  fun _ _ _ h => canonical_checkRule h (canonical_inRange h (canonical_onUnits (fun _ _ _ ht => canonical_opSubmit ht)
    h))

@[simp] theorem canonical_bodyTcamActionSet : KeepsCanonical bodyTcamActionSet :=
  fun _ _ _ h => canonical_lenIs h (canonical_inRange h (canonical_onUnits (fun _ _ _ ht => canonical_opSubmit ht) h))

@[simp] theorem canonical_bodyTcamRuleRead : KeepsCanonical bodyTcamRuleRead :=
  fun _ _ _ h => canonical_lenIs h (canonical_inRange h (canonical_scopeOne h (fun _ => canonical_debugSlot h (fun _
    ht => canonical_needSlot h (canonical_ok (canonical_debugRead ht))))))

theorem canonical_portWinner (h : Canonical s) : Canonical (portWinner g w grp k n s).2 := by
  induction n generalizing s with
  | zero => exact h
  | succ n ih =>
    unfold portWinner
    split
    · exact h
    · exact canonical_ite_snd h (ih (canonical_debugRead (canonical_falseHit h)))

theorem canonical_searchCount (h : Canonical s) : Canonical (searchCount gs w grp k s).st :=
  canonical_ok (fold_inv (P := fun q : List Word × State => Canonical q.2) (fun _ _ ht => canonical_portWinner
    (canonical_debugRead ht)) h)

theorem canonical_stepFirst (h : Canonical s) : Canonical (stepFirst w grp k l s).2 := by
  induction l generalizing s with
  | nil => exact h
  | cons p l ih => exact canonical_ite_snd h (ih (canonical_falseHit h))

theorem canonical_searchStep (h : Canonical s) : Canonical (searchStep gs w grp k tok s).st := by
  unfold searchStep
  have hread : Canonical (gs.foldl (fun t g => debugRead g 1 1 t) s) :=
    canonical_fold (fun _ _ ht => canonical_debugRead ht) h
  dsimp only
  split
  · next e => exact canonical_ok (canonical_of_eq (canonical_stepFirst hread) e)
  · next e => exact canonical_ok (canonical_of_eq (canonical_stepFirst hread) e)

@[simp] theorem canonical_bodyTcamSearch : KeepsCanonical bodyTcamSearch :=
  fun _ _ _ h => canonical_lenIs h (canonical_inRange h (canonical_inRange h (canonical_inRange h (canonical_scopeSome
    h (canonical_needSlot h (canonical_ite_st (canonical_searchCount h) (canonical_searchStep h)))))))

theorem canonical_prefixRead (h : Canonical s) : Canonical (prefixRead g m badRow' s) := by
  unfold prefixRead
  split
  · exact canonical_ite (canonical_badPrefix h) h
  · exact h

theorem canonical_scrubbed (hact : ∀ x0, Canonical x0 → Canonical (act x0)) (h : Canonical s) :
    Canonical (scrubbed g m n act s) :=
  canonical_ite (hact _ (canonical_charge h)) (canonical_waited h)

theorem canonical_pivotScrub (h : Canonical s) : Canonical (pivotScrub g i s) :=
  canonical_ite (canonical_raise (canonical_update h)) h

theorem canonical_ruleFix (h : Canonical s) : Canonical (ruleFix g i s) :=
  canonical_restoreOrMove (canonical_raise (canonical_fold (fun _ _ ht => canonical_sliceEvent ht) h))

theorem canonical_wideScrub (h : Canonical s) : Canonical (wideScrub g i s) :=
  canonical_scrubbed (fun _ ht => canonical_ite (canonical_ruleFix (canonical_charge ht)) (canonical_retireSlices ht))
    h

theorem canonical_narrowFix (hfix : ∀ x0, Canonical x0 → Canonical (fix x0)) (h : Canonical s) :
    Canonical (narrowFix g i fix s) :=
  canonical_ite (hfix _ (canonical_charge (canonical_charge h))) (canonical_waited h)

theorem canonical_narrowScrub (h : Canonical s) : Canonical (narrowScrub g i s) :=
  canonical_ite h (canonical_ite (canonical_narrowFix (fun _ ht => canonical_restoreOrMove ht) h) (canonical_ite h
    (canonical_scrubbed (fun _ ht => canonical_ite (canonical_narrowFix (fun _ hu => canonical_ruleFix hu) ht)
    (canonical_retireSlices ht)) h)))

/-! ### Field inputs and outputs -/

theorem canonical_setFi (h : Canonical s) : Canonical (setFi i x s) := canonical_update h

theorem canonical_setFo (h : Canonical s) : Canonical (setFo j x s) := canonical_update h

theorem canonical_setPub (h : Canonical s) : Canonical (setPub j x s) := canonical_update h

theorem canonical_queueEvent (h : Canonical s) : Canonical (queueEvent mem bytes ring s).2 :=
  canonical_ite_snd (canonical_update h) (canonical_raise (canonical_inc h))

theorem canonical_acceptEdge (h : Canonical s) : Canonical (acceptEdge i l stamp bounced s) :=
  canonical_setFi (canonical_queueEvent (canonical_wrBit _ _ _ (canonical_ite (canonical_inc h) h)))

theorem canonical_fiStable (h : Canonical s) : Canonical (fiStable i s) := by
  unfold fiStable
  dsimp only
  split
  · exact canonical_wrBit _ _ _ (canonical_setFi h)
  · exact canonical_ite (canonical_setFi h) (canonical_acceptEdge h)

theorem canonical_fiMoved (h : Canonical s) : Canonical (fiMoved i s) :=
  canonical_ite h (canonical_ite (canonical_fiStable (canonical_wrBit _ _ _ (canonical_setFi h))) (canonical_wrBit _ _
    _ (canonical_setFi h)))

theorem canonical_fiTransition (h : Canonical s) : Canonical (fiTransition i pin s) :=
  canonical_ite h (canonical_fiMoved (canonical_setFi h))

theorem canonical_fiFiltered (h : Canonical s) : Canonical (fiFiltered i s) := canonical_ite h (canonical_fiStable h)

theorem canonical_fiCfgWrite (h : Canonical s) : Canonical (fiCfgWrite i v s) :=
  canonical_ite (canonical_wrM _ _ _ h) (canonical_fiMoved (canonical_wrM _ _ _ h))

theorem canonical_foRefresh (h : Canonical s) : Canonical (foRefresh j source s) :=
  canonical_ite h (canonical_setFo (canonical_queueEvent h))

theorem canonical_foOp (h : Canonical s) : Canonical (foOp j op source s) := by
  unfold foOp
  refine canonical_ite (canonical_inc h) ?_
  split
  · exact canonical_foRefresh (canonical_setFo h)
  · exact canonical_foRefresh (canonical_setFo h)
  · exact canonical_ite (canonical_inc h) (canonical_ite h (canonical_foRefresh (canonical_setFo h)))
  · exact h

theorem canonical_pulseEnds (h : Canonical s) : Canonical (pulseEnds j s) :=
  canonical_ite h (canonical_foRefresh (canonical_setFo h))

theorem canonical_readback (h : Canonical s) : Canonical (readback j pin s) :=
  canonical_ite (canonical_ite (canonical_inc h) (canonical_raise (canonical_wrBit _ _ _ (canonical_inc h)))) h

theorem canonical_trigApply (h : Canonical s) : Canonical (trigApply s) := by
  unfold trigApply
  split
  · exact h
  · exact canonical_ite h (canonical_foOp (canonical_update h))

theorem canonical_failOut (h : Canonical s) : Canonical (failOut j s) :=
  canonical_ite h (canonical_foRefresh (canonical_wrBit _ _ _ (canonical_setFo h)))

theorem canonical_failOuts (h : Canonical s) : Canonical (failOuts s) :=
  canonical_fold (fun _ _ ht => canonical_failOut ht) h

theorem canonical_foCfgWrite (h : Canonical s) : Canonical (foCfgWrite j v s) :=
  canonical_ite (canonical_foRefresh (canonical_setFo (canonical_wrM _ _ _ h))) (canonical_foRefresh (canonical_wrM _
    _ _ h))

theorem canonical_forceWrite (h : Canonical s) : Canonical (forceWrite a mask v s) :=
  canonical_fold (fun _ _ ht => canonical_ite (canonical_inc ht) (canonical_foRefresh ht)) (canonical_wr _ _ _ h)

theorem canonical_foRelease (h : Canonical s) : Canonical (foRelease j s) :=
  canonical_ite h (canonical_foRefresh (canonical_wrBit _ _ _ (canonical_setFo h)))

theorem canonical_pinRecordLoad (h : Canonical s) : Canonical (pinRecordLoad s) := by
  unfold pinRecordLoad
  refine canonical_fold (fun _ _ ht => canonical_ite (canonical_foRefresh (canonical_wrBit _ _ _ (canonical_setFo
    ht))) ht) (canonical_update (canonical_fold (fun _ _ ht => ?_) h))
  split
  · exact canonical_wr _ _ _ ht
  · exact ht

theorem canonical_fioResume (h : Canonical s) : Canonical (fioResume s) :=
  canonical_fold (fun _ _ ht => canonical_foRefresh ht) (canonical_fold (fun _ _ ht => canonical_ite ht
    (canonical_fiMoved ht)) h)

theorem canonical_setTev (h : Canonical s) : Canonical (setTev i x s) := canonical_update h

theorem canonical_timeEvent (h : Canonical s) : Canonical (timeEvent i s) :=
  canonical_ite h (canonical_foOp (canonical_setTev (canonical_incBy _ _ h)))

theorem canonical_pubSend (h : Canonical s) : Canonical (pubSend j x bs s) :=
  canonical_ite (canonical_fold (fun _ _ ht => canonical_ite (canonical_ringSend ht) ht) (canonical_drawSeq h))
    (canonical_sendFrom h)

theorem canonical_pubFrames (h : Canonical s) : Canonical (pubFrames j rep s) := by
  unfold pubFrames
  dsimp only
  split
  · exact canonical_fold (fun _ _ ht => canonical_pubSend ht) h
  · exact canonical_pubSend h
  · exact h

theorem canonical_pubState (h : Canonical s) : Canonical (pubState j events s) :=
  canonical_ite h (canonical_pubFrames (canonical_setPub h))

theorem canonical_pubRepeat (h : Canonical s) : Canonical (pubRepeat j s) :=
  canonical_ite h (canonical_pubFrames (canonical_setPub h))

theorem canonical_pubBeat (h : Canonical s) : Canonical (pubBeat j s) :=
  canonical_ite h (canonical_pubFrames (canonical_setPub h))

theorem canonical_fioDrain (h : Canonical s) : Canonical (fioDrain s) :=
  canonical_ite h (canonical_fold (fun _ _ ht => canonical_ite ht (canonical_pubState ht)) (canonical_fold (fun _ _ ht
    => canonical_ite (canonical_ringPost ht) ht) (canonical_update h)))

@[simp] theorem canonical_bodyFiCfg : KeepsCanonical bodyFiCfg :=
  fun _ _ _ h => canonical_lenIs h (canonical_inRange h (canonical_inRange h (canonical_ok (canonical_fiCfgWrite h))))

@[simp] theorem canonical_bodyFiRead : KeepsCanonical bodyFiRead :=
  fun _ _ _ h => canonical_lenIs h (canonical_inRange h (canonical_inRange h (canonical_ok h)))

@[simp] theorem canonical_bodyFioPubSet : KeepsCanonical bodyFioPubSet :=
  fun _ _ _ h => canonical_lenIs h (canonical_inRange h (canonical_inRange h (canonical_inRange h (canonical_inRange h
    (canonical_ok (canonical_pubState (canonical_setPub h)))))))

@[simp] theorem canonical_bodyFioGooseTemplate : KeepsCanonical bodyFioGooseTemplate := by
  intro v f s h
  unfold bodyFioGooseTemplate
  refine canonical_lenOk h (canonical_lenIs h (canonical_inRange h (canonical_inRange h (canonical_inRange h ?_))))
  dsimp only
  split
  · exact canonical_err h
  · exact canonical_ok (canonical_update h)

@[simp] theorem canonical_bodyFioEventRingCfg : KeepsCanonical bodyFioEventRingCfg :=
  fun _ _ _ h => canonical_lenIs h (canonical_inRange h (canonical_ok (canonical_ringCfgWrite (canonical_wr _ _ _
    (canonical_wrM _ _ _ h)))))

@[simp] theorem canonical_bodyFioUtcOffset : KeepsCanonical bodyFioUtcOffset :=
  fun _ _ _ h => canonical_lenIs h (canonical_inRange h (canonical_ok (canonical_wr _ _ _ h)))

@[simp] theorem canonical_bodyFoCfg : KeepsCanonical bodyFoCfg :=
  fun _ _ _ h => canonical_lenIs h (canonical_inRange h (canonical_inRange h (canonical_ok (canonical_update
    (canonical_foCfgWrite h)))))

@[simp] theorem canonical_bodyFoForce : KeepsCanonical bodyFoForce :=
  fun _ _ _ h => canonical_lenIs h (canonical_ok (canonical_forceWrite (canonical_forceWrite h)))

@[simp] theorem canonical_bodyFoTimeEvent : KeepsCanonical bodyFoTimeEvent :=
  fun _ _ _ h => canonical_lenIs h (canonical_inRange h (canonical_inRange h (canonical_inRange h (canonical_inRange h
    (canonical_ok (canonical_setTev h))))))

@[simp] theorem canonical_bodyFoRelease : KeepsCanonical bodyFoRelease :=
  fun _ _ _ h => canonical_lenIs h (canonical_inRange h (canonical_refuse h (canonical_ok (canonical_fold (fun _ _ ht
    => canonical_foRelease ht) h))))

@[simp] theorem canonical_bodyFoRead : KeepsCanonical bodyFoRead :=
  fun _ _ _ h => canonical_lenIs h (canonical_inRange h (canonical_inRange h (canonical_ok h)))

end Sys2Proof.Machine
end

section
/-! The register file's canonical form: Primrose; units; faults; dumps. -/

set_option autoImplicit true

namespace Sys2Proof.Machine
open Sys2Proof

variable {s : State}

/-! ### Primrose -/

theorem canonical_ringToMp (h : Canonical s) : Canonical (ringToMp bs mac seq s) :=
  canonical_ite (canonical_bumpPri (canonical_dupCheck h)) (canonical_ite (canonical_bumpPri (canonical_dupCheck h))
    (canonical_update (canonical_dupCheck h)))

theorem canonical_ringRelay (h : Canonical s) : Canonical (ringRelay p bs mac seq s) :=
  canonical_ite (canonical_ringSend (canonical_bumpPri (canonical_dupCheck h))) (canonical_bumpPri (canonical_dupCheck
    h))

theorem canonical_ringFrame (h : Canonical s) : Canonical (ringFrame p bs good s) := by
  unfold ringFrame
  refine canonical_ite (canonical_bumpPri h) (canonical_ite h ?_)
  split
  · exact canonical_ite (canonical_ringToMp (canonical_ringRelay h)) (canonical_bumpPri h)
  · exact canonical_bumpPri h

theorem canonical_mpqTake (h : Canonical s) : Canonical (mpqTake s) := canonical_ite (canonical_update h) h

theorem canonical_endSessions (h : Canonical s) : Canonical (endSessions s) := canonical_update h

theorem canonical_restartAnswer (h : Canonical s) : Canonical (restartAnswer k op s) := by
  unfold restartAnswer
  refine canonical_ite ?_ (canonical_ite (canonical_respondRing (canonical_inc h)) (canonical_ite
    (canonical_respondRegister h) h))
  split
  · exact canonical_respondSession (canonical_setMb2 h)
  · exact h

theorem canonical_answerRestarted (h : Canonical s) : Canonical (answerRestarted s) :=
  canonical_update (canonical_fold (fun _ _ ht => canonical_restartAnswer ht) (canonical_fold (fun _ _ ht =>
    canonical_answerForward ht) (canonical_update h)))

theorem canonical_firmwareDown (h : Canonical s) : Canonical (firmwareDown s) :=
  canonical_update (canonical_wrBit _ _ _ (canonical_wrBit _ _ _ (canonical_endSessions h)))

theorem canonical_ringBack (h : Canonical s) : Canonical (ringBack s) :=
  canonical_ite h (canonical_update (canonical_fold (fun _ _ ht => canonical_wr _ _ _ ht) h))

theorem canonical_flushOthers (h : Canonical s) : Canonical (flushOthers s) :=
  canonical_fold (fun _ _ ht => canonical_ite ht (canonical_fold (fun _ _ hu => canonical_flushNode hu) ht)) h

theorem canonical_dropToPrimrose (h : Canonical s) : Canonical (dropToPrimrose s) :=
  canonical_failOuts (canonical_wrF _ _ _ _ (canonical_firmwareDown (canonical_wrBit _ _ _ (canonical_wrBit _ _ _
    (canonical_ringBack (canonical_flushOthers (canonical_update h)))))))

theorem canonical_loaderUp (h : Canonical s) : Canonical (loaderUp s) :=
  canonical_update (canonical_wrBit _ _ _ (canonical_wrF _ _ _ _ h))

theorem canonical_enterPrimrose (h : Canonical s) : Canonical (enterPrimrose s) := by
  unfold enterPrimrose
  extract_lets own s1 _ s2 s3
  have hown : ∀ t d, Canonical t → Canonical (own t d) := fun _ _ ht =>
    canonical_ite (canonical_wrF _ _ _ _ (canonical_wr _ _ _ (canonical_wr _ _ _ ht)))
      (canonical_wr _ _ _ (canonical_wr _ _ _ ht))
  have hs1 : Canonical s1 := hown _ _ (hown _ _ h)
  clear_value s1
  have hs2 : Canonical s2 := canonical_update hs1
  clear_value s2
  have hs3 : Canonical s3 := canonical_ite (canonical_setPub hs2) hs2
  clear_value s3
  exact canonical_ite (canonical_pubState hs3) hs3

theorem canonical_startFail (h : Canonical s) : Canonical (startFail step' cause s) := by
  unfold startFail
  extract_lets f swap l bist _ s1 _ s2
  have h1 : Canonical s1 := canonical_raise (canonical_update h)
  have h2 : Canonical s2 := canonical_ite
    (canonical_failOuts (canonical_firmwareDown (canonical_wrBit _ _ _ (canonical_wrBit _ _ _ (canonical_update h1)))))
    (canonical_dropToPrimrose h1)
  exact canonical_ite (canonical_loaderUp (canonical_raise (canonical_update h2))) (canonical_update h2)

theorem canonical_holdAll (h : Canonical s) : Canonical (holdAll s) :=
  canonical_failOuts (canonical_wrBit _ _ _ (canonical_wrBit _ _ _ (canonical_firmwareDown (canonical_update h))))

/-! ### Units -/

theorem canonical_showUnit (h : Canonical s) : Canonical (showUnit kind idx s) :=
  canonical_ite (canonical_wrF _ _ _ _ (canonical_wrF _ _ _ _ (canonical_wrBit _ _ _ (canonical_wrBit _ _ _ h))))
    (canonical_ite (canonical_wrF _ _ _ _ (canonical_wrBit _ _ _ (canonical_wrBit _ _ _ h))) h)

theorem canonical_setState (h : Canonical s) : Canonical (setState kind idx st s) :=
  canonical_islService (canonical_showUnit (canonical_setUnit h))

theorem canonical_restoreRegs (h : Canonical s) : Canonical (restoreRegs p s) :=
  canonical_fold (fun _ _ ht => canonical_tset _ _ ht) h

theorem canonical_copyPip (h : Canonical s0) : Canonical (copyPip src dst s0) :=
  canonical_restoreRegs (canonical_update (canonical_fold (fun _ _ ht => canonical_tset _ _ ht) h))

theorem canonical_dropContexts (h : Canonical s) : Canonical (dropContexts n s) :=
  canonical_incBy _ _ (canonical_fold (fun _ _ ht => canonical_discardCopy ht) (canonical_fold (fun _ _ ht =>
    canonical_discardPkt ht) h))

theorem canonical_isolatePip (h : Canonical s) : Canonical (isolatePip n s) :=
  canonical_setState (canonical_dropContexts h)

theorem canonical_degradePip (h : Canonical s) : Canonical (degradePip n s) :=
  canonical_ite h (canonical_ite (canonical_isolatePip h) (canonical_ite (canonical_update (canonical_isolatePip h))
    (canonical_raise (canonical_isolatePip h))))

theorem canonical_takeover (h : Canonical s) : Canonical (takeover n s) :=
  canonical_raise (canonical_wrBit _ _ _ (canonical_setState (canonical_islService (canonical_update
    (canonical_copyPip (canonical_update h))))))

theorem canonical_takeBack (h : Canonical s) : Canonical (takeBack n s) :=
  canonical_raise (canonical_setState (canonical_setState (canonical_copyPip (canonical_update (canonical_wrBit _ _ _
    (canonical_dropContexts h))))))

theorem canonical_siblingService (h : Canonical s) : Canonical (siblingService g s) :=
  canonical_ite (canonical_fold (fun _ _ ht => canonical_opSubmit ht) (canonical_wrBit _ _ _ (canonical_wrBit _ _ _
    h))) (canonical_wrBit _ _ _ (canonical_wrBit _ _ _ h))

theorem canonical_siblingEnd (h : Canonical s) : Canonical (siblingEnd g s) :=
  canonical_wrBit _ _ _ (canonical_wrBit _ _ _ h)

theorem canonical_inDomain (hact : ∀ x0 x1, Canonical x1 → Canonical (act x0 x1)) (h : Canonical s) :
    Canonical (inDomain kind idx act s) := by
  unfold inDomain
  split
  · exact hact _ _ h
  · exact h

theorem canonical_holdReset (h : Canonical s) : Canonical (holdReset kind idx s) :=
  canonical_ite (canonical_dropContexts (canonical_inDomain (fun _ _ ht => canonical_domainReset ht)
    (canonical_islService (canonical_setUnit h)))) (canonical_ite (canonical_wrF _ _ _ _ (canonical_inDomain (fun _ _
    ht => canonical_domainReset ht) (canonical_islService (canonical_setUnit h)))) (canonical_inDomain (fun _ _ ht =>
    canonical_domainReset ht) (canonical_islService (canonical_setUnit h))))

theorem canonical_releaseReset (h : Canonical s) : Canonical (releaseReset kind idx s) := by
  unfold releaseReset
  extract_lets u s1
  have h1 : Canonical s1 :=
    canonical_inDomain (fun _ _ ht => canonical_domainReleased ht) (canonical_islService (canonical_setUnit h))
  exact canonical_ite h (canonical_ite (canonical_restoreRegs h1) (canonical_ite (canonical_restoreRegs h1) (canonical_ite h1
    (canonical_ite (canonical_incSat _ _ _ (canonical_wrBit _ _ _ (canonical_wrF _ _ _ _ h1))) (canonical_restoreRegs h1)))))

theorem canonical_stackOut (h : Canonical s) : Canonical (stackOut d s) := canonical_setState (canonical_wrF _ _ _ _ h)

theorem canonical_flagNow (hretire : ∀ x0, Canonical x0 → Canonical (retire x0)) (h : Canonical s) :
    Canonical (flagNow cls mac row spares retire s) :=
  canonical_flagRow hretire (canonical_update h)

theorem canonical_rowNow (h : Canonical s) : Canonical (rowNow src addr idx s) :=
  canonical_ite (canonical_flagNow (fun _ ht => canonical_retireBucket ht) h) (canonical_ite (canonical_flagNow (fun _
    ht => canonical_retirePrefix ht) h) (canonical_ite (canonical_flagNow (fun _ ht => canonical_raise ht) h)
    (canonical_ite (canonical_flagNow (fun _ ht => canonical_retireNode ht) (canonical_flushNode h)) (canonical_ite
    (canonical_flagPage (canonical_pagePut h)) h))))

/-! ### Faults -/

theorem canonical_setMaskBit (h : Canonical s) : Canonical (setMaskBit base n b s) := canonical_wrBit _ _ _ h

theorem canonical_setLvl (h : Canonical s) : Canonical (setLvl c v s) := canonical_wrF _ _ _ _ h

theorem canonical_settleLevels (h : Canonical s) : Canonical (settleLevels s) :=
  canonical_fold (fun _ _ ht => canonical_ite ht (canonical_setLvl ht)) h

theorem canonical_acknowledge (h : Canonical s) : Canonical (acknowledge w v s) :=
  canonical_settleLevels (canonical_fold (fun _ _ ht => canonical_wr _ _ _ ht) h)

theorem canonical_firstRearm (h : Canonical s) : Canonical (firstRearm s) :=
  canonical_fold (fun _ _ ht => canonical_wr _ _ _ ht) (canonical_wrBit _ _ _ h)

theorem canonical_showLog (h : Canonical s) : Canonical (showLog s) :=
  canonical_fold (fun _ _ ht => canonical_wr _ _ _ ht) (canonical_wrF _ _ _ _ h)

theorem canonical_logPop (h : Canonical s) : Canonical (logPop s) := canonical_showLog (canonical_update h)

theorem canonical_logRecord (h : Canonical s) : Canonical (logRecord src r s) :=
  canonical_ite (canonical_showLog (canonical_update h)) (canonical_ite (canonical_incSat _ _ _ h) (canonical_raise
    (canonical_incSat _ _ _ h)))

theorem canonical_logDrain (h : Canonical s) : Canonical (logDrain s) := canonical_showLog (canonical_update h)

theorem canonical_abortTests (h : Canonical s) : Canonical (abortTests s) :=
  canonical_fold (fun _ _ ht => canonical_ite (canonical_raise (canonical_setState ht)) ht) h

theorem canonical_mpReset (h : Canonical s) : Canonical (mpReset s) :=
  canonical_ite h (canonical_ite (canonical_domainReset (canonical_firmwareDown (canonical_update h)))
    (canonical_startFail h))

theorem canonical_levelFour (h : Canonical s) : Canonical (levelFour s) :=
  canonical_ite h (canonical_update (canonical_loaderUp (canonical_dropToPrimrose (canonical_abortTests h))))

theorem canonical_actOn (h : Canonical s) : Canonical (actOn lvl r kind idx s) := by
  unfold actOn
  split
  · exact canonical_ite (canonical_degradePip h) (canonical_holdReset h)
  · exact canonical_ite (canonical_siblingService (canonical_setState h)) (canonical_holdReset h)
  · exact canonical_holdReset h
  · exact canonical_ite (canonical_stackOut h) (canonical_holdReset h)
  · exact canonical_ite h (canonical_mpReset h)
  · exact canonical_holdReset h
  · exact canonical_rowNow h
  · exact h

theorem canonical_react (h : Canonical s) : Canonical (react lvl r s) := by
  unfold react
  refine canonical_ite h (canonical_ite (canonical_levelFour h) (canonical_ite (canonical_holdAll
    (canonical_abortTests h)) ?_))
  split
  · exact canonical_actOn h
  · exact h

theorem canonical_openWindow (h : Canonical s) : Canonical (openWindow mask s) := canonical_ite h (canonical_update h)

theorem canonical_windowExpiry (h : Canonical s) : Canonical (windowExpiry i s) := canonical_ite (canonical_update h) h

theorem canonical_interrupt (h : Canonical s) : Canonical (interrupt s) :=
  canonical_ite (canonical_emit (canonical_ite (canonical_emit h) h)) (canonical_ite (canonical_emit h) h)

theorem canonical_takeSource (h : Canonical a.2.2) : Canonical (takeSource r a).2.2 := by
  unfold takeSource
  extract_lets s was s0 sev c esc lvl s1 mask s2 s3 ws _ s4 held cap s5 s6
  have h0 : Canonical s0 := canonical_setMaskBit h
  have h1 : Canonical s1 := canonical_ite h0 (canonical_setLvl (canonical_setMaskBit h0))
  have h2 : Canonical s2 := canonical_react h1
  have h3 : Canonical s3 := canonical_ite (canonical_openWindow h2) h2
  have h4 : Canonical s4 := canonical_update h3
  have h5 : Canonical s5 := canonical_ite (canonical_wrBit _ _ _ (canonical_fold (fun _ _ ht => canonical_wr _ _ _ ht) h4))
    (canonical_ite (canonical_setMaskBit h4) h4)
  have h6 : Canonical s6 := canonical_logRecord h5
  exact canonical_ite_of (fun q : Bool × Bool × State => q.2.2) (canonical_setMaskBit h0)
    (canonical_ite (canonical_interrupt h6) h6)

theorem canonical_faultSample (h : Canonical s) : Canonical (faultSample s) :=
  fold_inv (P := fun q : Bool × Bool × State => Canonical q.2.2) (fun _ _ ht => canonical_takeSource ht)
    (canonical_fold (fun _ _ ht => canonical_inc ht) (canonical_update h))

theorem canonical_hbmCorrected (h : Canonical s) : Canonical (hbmCorrected d s) :=
  canonical_ite (canonical_raise (canonical_inc (canonical_update h))) (canonical_inc (canonical_update h))

theorem canonical_hbmRow (h : Canonical s) : Canonical (hbmRow d s) :=
  canonical_ite (canonical_stackOut (canonical_raise (canonical_raise (canonical_inc h)))) (canonical_wr _ _ _
    (canonical_raise (canonical_inc h)))

theorem canonical_ruleFlip (h : Canonical s) : Canonical (ruleFlip g i j v m s) := canonical_ruleRaw h

theorem canonical_headerFlip (h : Canonical s) : Canonical (headerFlip g i h' s) := canonical_ruleRaw h

theorem canonical_wordRefused (h : Canonical s) : Canonical (wordRefused blk b n pip s) := by
  unfold wordRefused
  split
  · exact canonical_ite (canonical_raise (canonical_wrBit _ _ _ (canonical_inc h))) (canonical_ite (canonical_wrBit _
      _ _ (canonical_inc h)) (canonical_inc h))
  · refine canonical_ite (canonical_raise ?_) ?_
    · split
      · exact canonical_update (canonical_bump h)
      · exact canonical_bump h
    · split
      · exact canonical_update (canonical_bump h)
      · exact canonical_bump h

theorem canonical_setBoth (h : Canonical s) : Canonical (setBoth kind idx st s) :=
  canonical_ite (canonical_setState (canonical_setState h)) (canonical_setState h)

theorem canonical_unitDrain (h : Canonical s) : Canonical (unitDrain kind idx s) :=
  canonical_ite (canonical_setState (canonical_takeover h)) (canonical_setBoth h)

theorem canonical_drained (h : Canonical s) : Canonical (drained kind idx s) :=
  canonical_ite h (canonical_ite h (canonical_ite (canonical_isolatePip h) (canonical_setBoth h)))

theorem canonical_spareTraffic (h : Canonical s) : Canonical (spareTraffic d s) := by
  unfold spareTraffic
  dsimp only
  split
  · exact canonical_release (canonical_allocate (canonical_freeW h))
  · exact canonical_allocate (canonical_freeW h)

theorem canonical_unitTest (h : Canonical s) : Canonical (unitTest kind idx plan s) :=
  canonical_ite (canonical_ite (canonical_siblingService (canonical_setUnit (canonical_setBoth h))) (canonical_setUnit
    (canonical_setBoth h))) (canonical_ite (canonical_wrF _ _ _ _ (canonical_setBoth h)) (canonical_ite
    (canonical_spareTraffic (canonical_setBoth h)) (canonical_setBoth h)))

theorem canonical_unitTested (h : Canonical s) : Canonical (unitTested kind idx pass' s) := by
  unfold unitTested
  extract_lets done s1 s2 s3
  have hdone : ∀ k i t, Canonical t → Canonical (done k i t) := fun _ _ _ ht => canonical_showUnit (canonical_setUnit ht)
  have h1 : Canonical s1 := hdone _ _ _ h
  have h2 : Canonical s2 := canonical_ite (hdone _ _ _ h1) h1
  have h3 : Canonical s3 := canonical_ite (canonical_incSat _ _ _ (canonical_wrF _ _ _ _ h2)) h2
  refine canonical_ite h (canonical_ite h3 ?_)
  split
  · exact canonical_raise h3
  · exact canonical_raise h3
  · exact canonical_raise h3
  · exact canonical_raise h3
  · exact h3

theorem canonical_wakeRehome (h : Canonical s) : Canonical (wakeRehome d s) := by
  unfold wakeRehome
  refine canonical_ite ?_ h
  split
  · exact canonical_update h
  · exact h

theorem canonical_unitReturn (h : Canonical s) : Canonical (unitReturn kind idx s) :=
  canonical_ite (canonical_wakeRehome (canonical_update (canonical_ite (canonical_takeBack h) (canonical_setState
    h)))) (canonical_ite (canonical_setBoth (canonical_siblingEnd (canonical_setUnit h))) (canonical_ite
    (canonical_setState (canonical_wrF _ _ _ _ h)) (canonical_setBoth h)))

theorem canonical_pipModeWrite (h : Canonical s) : Canonical (pipModeWrite n v s) :=
  canonical_ite (canonical_ite (canonical_isolatePip h) (canonical_ite (canonical_setState h) (canonical_setState h)))
    h

@[simp] theorem canonical_bodyFaultStatus : KeepsCanonical bodyFaultStatus :=
  fun _ _ _ h => canonical_lenIs h (canonical_ok h)

@[simp] theorem canonical_bodyFaultLog : KeepsCanonical bodyFaultLog :=
  fun _ _ _ h => canonical_lenIs h (canonical_ok h)

@[simp] theorem canonical_bodyFaultAck : KeepsCanonical bodyFaultAck :=
  fun _ _ _ h => canonical_lenIs h (canonical_inRange h (canonical_ok (canonical_ite (canonical_firstRearm
    (canonical_fold (fun _ _ ht => canonical_acknowledge ht) h)) (canonical_fold (fun _ _ ht => canonical_acknowledge
    ht) h))))

@[simp] theorem canonical_bodyFaultSrcCfg : KeepsCanonical bodyFaultSrcCfg :=
  fun _ _ _ h => canonical_lenIs h (canonical_inRange h (canonical_inRange h (canonical_inRange h (canonical_refuse h
    (canonical_ok (canonical_fold (fun _ _ ht => canonical_wr _ _ _ ht) (canonical_wr _ _ _ h)))))))

@[simp] theorem canonical_bodyFaultWindow : KeepsCanonical bodyFaultWindow :=
  fun _ _ _ h => canonical_lenIs h (canonical_inRange h (canonical_refuse h (canonical_ok (canonical_wrM _ _ _ h))))

@[simp] theorem canonical_bodyFaultLock : KeepsCanonical bodyFaultLock :=
  fun _ _ _ h => canonical_lenIs h (canonical_ok (canonical_wrBit _ _ _ h))

@[simp] theorem canonical_bodyFaultInject : KeepsCanonical bodyFaultInject :=
  fun _ _ _ h => canonical_lenIs h (canonical_inRange h (canonical_inRange h (canonical_ok (canonical_update h))))

theorem canonical_withUnit (h : Canonical s) (hk : ∀ x0 x1, Canonical (k x0 x1).st) : Canonical (withUnit f s k).st :=
  canonical_inRange h (hk _ _)

@[simp] theorem canonical_bodyUnitDrain : KeepsCanonical bodyUnitDrain :=
  fun _ _ _ h => canonical_lenIs h (canonical_withUnit h (fun _ _ => canonical_refuse h (canonical_refuse h
    (canonical_refuse h (canonical_ok (canonical_unitDrain h))))))

@[simp] theorem canonical_bodyUnitTest : KeepsCanonical bodyUnitTest :=
  fun _ _ _ h => canonical_lenIs h (canonical_withUnit h (fun _ _ => canonical_inRange h (canonical_refuse h
    (canonical_refuse h (canonical_refuse h (canonical_ok (canonical_unitTest h)))))))

@[simp] theorem canonical_bodyUnitReturn : KeepsCanonical bodyUnitReturn :=
  fun _ _ _ h => canonical_lenIs h (canonical_withUnit h (fun _ _ => canonical_refuse h (canonical_refuse h
    (canonical_ok (canonical_unitReturn h)))))

@[simp] theorem canonical_bodyUnitStatus : KeepsCanonical bodyUnitStatus :=
  fun _ _ _ h => canonical_lenIs h (canonical_ok h)

@[simp] theorem canonical_bodyRehome : KeepsCanonical bodyRehome :=
  fun _ _ _ h => canonical_lenIs h (canonical_withUnit h (fun _ _ => canonical_inRange h (canonical_refuse h
    (canonical_refuse h (canonical_ok (canonical_takeover (canonical_isolatePip h)))))))

/-! ### Dumps -/

theorem canonical_putSetSt (h : Canonical s) : Canonical (putSetSt k x s) := canonical_update h

theorem canonical_freshUse (h : Canonical s) : Canonical (freshUse k s) := canonical_update h

theorem canonical_takeSlots (h : Canonical s) : Canonical (takeSlots l s).2 := by
  induction l generalizing s with
  | nil => exact h
  | cons q l ih => exact canonical_ite_snd (ih (canonical_charge h)) (ih (canonical_waited h))

theorem canonical_latch (h : Canonical s) : Canonical (latch k ns s) := canonical_freshUse (canonical_putSetSt h)

theorem canonical_boundary (h : Canonical s) : Canonical (boundary k s) := by
  unfold boundary
  split
  · exact h
  · exact canonical_ite (canonical_raise (canonical_inc (canonical_putSetSt (canonical_putSetSt h)))) (canonical_latch
      (canonical_putSetSt h))

theorem canonical_periodSet (h : Canonical s) : Canonical (periodSet k s) := canonical_putSetSt h

theorem canonical_setCfgWrite (h : Canonical s) : Canonical (setCfgWrite k v s) :=
  canonical_periodSet (canonical_wr _ _ _ h)

theorem canonical_keepDump (h : Canonical s) : Canonical (keepDump k ws s) := canonical_ite (canonical_update h) h

theorem canonical_counterParity (h : Canonical s) : Canonical (counterParity k n x s) :=
  canonical_ite (canonical_flagSpare (canonical_raise h)) h

theorem canonical_dumpWrite (h : Canonical s) : Canonical (dumpWrite k bad s) := by
  unfold dumpWrite
  extract_lets q _ x b ws n s1 r
  have hq : Canonical q.2 := canonical_takeSlots h
  have h1 : Canonical s1 := by
    unfold s1
    split
    · exact canonical_counterParity hq
    · exact hq
  have hr : Canonical r.2 := canonical_ringPost (canonical_ite (canonical_charge h1) h1)
  exact canonical_ite h (canonical_ite (canonical_putSetSt hq) (canonical_ite (canonical_waited (canonical_putSetSt hq))
    (canonical_ite (canonical_keepDump (canonical_putSetSt hr)) (canonical_raise (canonical_inc (canonical_putSetSt h1))))))

theorem canonical_slotElapse (h : Canonical s) : Canonical (slotElapse n s) :=
  canonical_ite (canonical_ovfEvent (canonical_add64 _ _ (canonical_update (canonical_add64 _ _ h)))) (canonical_ite
    (canonical_ovfEvent (canonical_add64 _ _ (canonical_update (canonical_add64 _ _ h)))) (canonical_ite
    (canonical_ovfEvent (canonical_add64 _ _ (canonical_add64 _ _ h))) (canonical_ovfEvent (canonical_add64 _ _
    (canonical_add64 _ _ h)))))

theorem canonical_ovfReached (h : Canonical s) : Canonical (ovfReached n s) :=
  canonical_ite (canonical_ite (canonical_incSat _ _ _ (canonical_emit (canonical_wrF _ _ _ _ h))) (canonical_update
    (canonical_emit (canonical_wrF _ _ _ _ h)))) h

theorem canonical_sampleMode (h : Canonical s) : Canonical (sampleMode s) := canonical_ite (canonical_wrBit _ _ _ h) h

@[simp] theorem canonical_bodyDumpSetCfg : KeepsCanonical bodyDumpSetCfg :=
  fun _ _ _ h => canonical_lenIs h (canonical_inRange h (canonical_inRange h (canonical_inRange h (canonical_inRange h
    (canonical_ok (canonical_wr _ _ _ (canonical_wr _ _ _ (canonical_setCfgWrite h))))))))

theorem canonical_ringCfgCmd (h : Canonical s) : Canonical (ringCfgCmd b f s).st :=
  canonical_inRange h (canonical_inRange h (canonical_ok (canonical_ringCfgWrite (canonical_wr _ _ _ (canonical_wr _ _
    _ h)))))

@[simp] theorem canonical_bodyDumpRingCfg : KeepsCanonical bodyDumpRingCfg :=
  fun _ _ _ h => canonical_lenIs h (canonical_inRange h (canonical_ringCfgCmd h))

@[simp] theorem canonical_bodySampleRingCfg : KeepsCanonical bodySampleRingCfg :=
  fun _ _ _ h => canonical_lenIs h (canonical_inRange h (canonical_ringCfgCmd h))

@[simp] theorem canonical_bodyDumpNow : KeepsCanonical bodyDumpNow :=
  fun _ _ _ h => canonical_lenIs h (canonical_inRange h (canonical_refuse h (canonical_ok (canonical_fold (fun _ _ ht
    => canonical_latch ht) h))))

@[simp] theorem canonical_bodyDumpRead : KeepsCanonical bodyDumpRead :=
  fun _ _ _ h => canonical_lenIs h (canonical_inRange h (canonical_inRange h (canonical_inRange h (canonical_ok h))))

@[simp] theorem canonical_bodyCounterRead : KeepsCanonical bodyCounterRead := by
  intro v f s h
  unfold bodyCounterRead
  refine canonical_lenIs h (canonical_inRange h ?_)
  dsimp only
  split
  · exact canonical_ok h
  · exact canonical_err h

@[simp] theorem canonical_bodyPktSampleCfg : KeepsCanonical bodyPktSampleCfg :=
  fun _ _ _ h => canonical_lenIs h (canonical_inRange h (canonical_inRange h (canonical_ok (canonical_update
    (canonical_wr _ _ _ (canonical_wr _ _ _ h))))))

@[simp] theorem canonical_bodyOvfSampleCfg : KeepsCanonical bodyOvfSampleCfg :=
  fun _ _ _ h => canonical_lenIs h (canonical_inRange h (canonical_ok (canonical_fold (fun _ _ ht => canonical_wr _ _
    _ ht) h)))

@[simp] theorem canonical_bodySlotRead : KeepsCanonical bodySlotRead :=
  fun _ _ _ h => canonical_lenIs h (canonical_ok h)

end Sys2Proof.Machine
end

section
/-! The register file's canonical form: stream commands; scheduler commands; start and restart; sessions. -/

set_option autoImplicit true

namespace Sys2Proof.Machine
open Sys2Proof

variable {s : State}

/-! ### Stream commands -/

@[simp] theorem canonical_bodyStreamKeyLayout : KeepsCanonical bodyStreamKeyLayout :=
  fun _ _ _ h => canonical_lenIs h (canonical_inRange h (canonical_commitOn (fun _ _ ht => canonical_keyCommit
    (canonical_stgM ht)) h))

@[simp] theorem canonical_bodyStreamIdAdd : KeepsCanonical bodyStreamIdAdd :=
  fun _ _ _ h => canonical_lenIs h (canonical_inRange h (canonical_onGlens (fun _ _ ht => canonical_idInsert ht) h))

@[simp] theorem canonical_bodyStreamIdDelete : KeepsCanonical bodyStreamIdDelete :=
  fun _ _ _ h => canonical_lenIs h (canonical_onGlens (fun _ _ ht => canonical_idDelete ht) h)

theorem canonical_ctxWrite (h : Canonical s) : Canonical (ctxWrite g i w s) := canonical_ctxPut h

@[simp] theorem canonical_bodyStreamCtxSet : KeepsCanonical bodyStreamCtxSet := by
  intro v f s h
  unfold bodyStreamCtxSet
  refine canonical_lenIs h (canonical_inRange h ?_)
  split
  · exact canonical_err h
  · exact canonical_eachGlen (fun _ _ ht => canonical_rcvFromCtx (canonical_ctxWrite ht)) h

@[simp] theorem canonical_bodyStreamCtxRead : KeepsCanonical bodyStreamCtxRead :=
  fun _ _ _ h => canonical_lenIs h (canonical_inRange h (canonical_scopeOne h (fun _ => canonical_ok h)))

theorem canonical_unblock (h : Canonical s) : Canonical (unblock kind v g s) := by
  unfold unblock
  split
  · exact canonical_ctxPut h
  · exact canonical_gatePut h
  · exact canonical_meterPut h

@[simp] theorem canonical_bodyStreamUnblock : KeepsCanonical bodyStreamUnblock :=
  fun _ _ _ h => canonical_lenIs h (canonical_inRange h (canonical_inRange h (canonical_eachGlen (fun _ _ ht =>
    canonical_unblock ht) h)))

theorem canonical_gateCommit (h : Canonical s) : Canonical (gateCommit g i x inv s) := canonical_gatePut h

@[simp] theorem canonical_bodyStreamGateSet : KeepsCanonical bodyStreamGateSet :=
  fun _ _ _ h => canonical_inRange h (canonical_lenIs h (canonical_inRange h (canonical_inRange h (canonical_inRange h
    (canonical_inRange h (canonical_inRange h (canonical_eachGlen (fun _ _ ht => canonical_gateCommit ht) h)))))))

@[simp] theorem canonical_bodyStreamCapacity : KeepsCanonical bodyStreamCapacity :=
  fun _ _ _ h => canonical_lenIs h (canonical_readUnits h)

@[simp] theorem canonical_bodyMeterSet : KeepsCanonical bodyMeterSet :=
  fun _ _ _ h => canonical_lenIs h (canonical_inRange h (canonical_inRange h (canonical_commitOn (fun _ _ ht =>
    canonical_polCommit (canonical_fold (fun _ _ hu => canonical_wrStg hu) (canonical_wrStg ht))) h)))

@[simp] theorem canonical_bodyMeterRead : KeepsCanonical bodyMeterRead :=
  fun _ _ _ h => canonical_lenIs h (canonical_inRange h (canonical_scopeOne h (fun _ => canonical_ok h)))

@[simp] theorem canonical_bodyTenantPolicerMap : KeepsCanonical bodyTenantPolicerMap :=
  fun _ _ _ h => canonical_inRange h (canonical_lenIs h (canonical_inRange h (canonical_eachGlen (fun _ _ ht =>
    canonical_fold (fun _ _ hu => canonical_tenMapPut hu) ht) h)))

@[simp] theorem canonical_bodyColourMapSet : KeepsCanonical bodyColourMapSet :=
  fun _ _ _ h => canonical_lenIs h (canonical_inRange h (canonical_eachGlen (fun _ _ ht => canonical_ite
    (canonical_fold (fun _ _ hu => canonical_wr _ _ _ hu) ht) (canonical_wr _ _ _ ht)) h))

@[simp] theorem canonical_bodyHistEdgesSet : KeepsCanonical bodyHistEdgesSet := by
  intro v f s h
  unfold bodyHistEdgesSet
  refine canonical_lenIs h (canonical_inRange h ?_)
  split
  · exact canonical_err h
  · exact canonical_eachGlen (fun _ _ ht => canonical_edgesPut ht) h

@[simp] theorem canonical_bodyHistRead : KeepsCanonical bodyHistRead :=
  fun _ _ _ h => canonical_lenIs h (canonical_inRange h (canonical_scopeOne h (fun _ => canonical_ok h)))

/-! ### Scheduler commands -/

@[simp] theorem canonical_bodySchPortSet : KeepsCanonical bodySchPortSet :=
  fun _ _ _ h => canonical_lenIs h (canonical_inRange h (canonical_inRange h (canonical_ok (canonical_dropDown
    (canonical_wrM _ _ _ h)))))

theorem canonical_cfgSlot (h : Canonical s) : Canonical (cfgSlot d n s) := canonical_charge h

theorem canonical_cfgWait (h : Canonical s) (h1 : Canonical k.st) : Canonical (cfgWait f s k).st :=
  canonical_needSlot h h1

theorem canonical_dieDone (hact : ∀ x0, Canonical x0 → Canonical (act x0)) (h : Canonical s) :
    Canonical (dieDone f act s).st :=
  canonical_eachDie (fun _ _ ht => hact _ ht) h

@[simp] theorem canonical_bodySchNodeSet : KeepsCanonical bodySchNodeSet :=
  fun _ _ _ h => canonical_lenIs h (canonical_scopeOne h (fun _ => canonical_inRange h (canonical_inRange h
    (canonical_refuse h (canonical_cfgWait h (canonical_dieDone (fun _ ht => canonical_cfgSlot (canonical_nodePut ht))
    h))))))

@[simp] theorem canonical_bodySchTenantMap : KeepsCanonical bodySchTenantMap := by
  intro v f s h
  unfold bodySchTenantMap
  refine canonical_lenOk h (canonical_inRange h ?_)
  split
  · exact canonical_err h
  · exact canonical_cfgWait h (canonical_eachDie (fun _ _ ht => canonical_cfgSlot (canonical_fold (fun _ _ hu =>
      canonical_tmapPut hu) ht)) h)

@[simp] theorem canonical_bodySchQueueSet : KeepsCanonical bodySchQueueSet := by
  intro v f s h
  unfold bodySchQueueSet
  refine canonical_lenIs h (canonical_scopeOne h (fun _ => canonical_inRange h (canonical_inRange h ?_)))
  split
  · exact canonical_err h
  · exact canonical_cfgWait h (canonical_dieDone (fun _ ht => canonical_cfgSlot (canonical_queuePut ht)) h)

@[simp] theorem canonical_bodyShaperSet : KeepsCanonical bodyShaperSet := by
  intro v f s h
  unfold bodyShaperSet
  refine canonical_lenIs h (canonical_inRange h (canonical_scopeOne h (fun _ => canonical_inRange h (canonical_inRange
    h ?_))))
  dsimp only
  split
  · exact canonical_err h
  · exact canonical_onUnits (fun _ _ _ ht => canonical_shpCommit (canonical_fold (fun _ _ hu => canonical_wrStg hu)
      (canonical_wrStg ht))) h

@[simp] theorem canonical_bodyShaperRead : KeepsCanonical bodyShaperRead :=
  fun _ _ _ h => canonical_lenIs h (canonical_inRange h (canonical_inRange h (canonical_inRange h (canonical_scopeOne
    h (fun _ => canonical_cfgWait h (canonical_ok (canonical_cfgSlot h)))))))

@[simp] theorem canonical_bodySchQueueRead : KeepsCanonical bodySchQueueRead :=
  fun _ _ _ h => canonical_lenIs h (canonical_inRange h (canonical_scopeOne h (fun _ => canonical_cfgWait h
    (canonical_ok (canonical_cfgSlot h)))))

@[simp] theorem canonical_bodySchSampleCfg : KeepsCanonical bodySchSampleCfg :=
  fun _ _ _ h => canonical_lenIs h (canonical_inRange h (canonical_inRange h (canonical_eachDie (fun _ _ ht =>
    canonical_wr _ _ _ (canonical_wr _ _ _ ht)) h)))

@[simp] theorem canonical_bodySchBudgetSet : KeepsCanonical bodySchBudgetSet :=
  fun _ _ _ h => canonical_lenIs h (canonical_inRange h (canonical_inRange h (canonical_commitOn (fun _ _ ht =>
    canonical_schBudgetCommit (canonical_stgM (canonical_stgM ht))) h)))

theorem canonical_shpCopy (h : Canonical s) : Canonical (shpCopy d l i j s) := canonical_shpReplace h

theorem canonical_rehomeNode (h : Canonical s) : Canonical (rehomeNode d n m s) :=
  canonical_fold (fun _ _ ht => canonical_ite (canonical_wrF _ _ _ _ ht) ht) (canonical_fold (fun _ _ ht =>
    canonical_tmapPut ht) (canonical_shpCopy (canonical_fold (fun _ _ ht => canonical_shpCopy (canonical_queuePut ht))
    (canonical_nodePut h))))

/-- The search for a spare node is hidden first: to unfold it would be to run through the nodes. -/
theorem canonical_nodeRehomes (h : Canonical s) : Canonical (nodeRehomes l s) := by
  delta nodeRehomes nodeRehomes._f
  generalize freeSpareNode = spare
  induction l generalizing s with
  | nil => exact h
  | cons x l ih =>
    show Canonical (match spare s (x / 32768) with | some _ => _ | none => _)
    split
    · exact canonical_ite (ih (canonical_cfgSlot (canonical_rehomeNode (canonical_update h)))) (ih (canonical_waited h))
    · exact ih h

@[simp] theorem canonical_bodySchNodeRehome : KeepsCanonical bodySchNodeRehome := by
  intro v f s h
  unfold bodySchNodeRehome
  refine canonical_lenIs h (canonical_inRange h (canonical_scopeOne h (fun _ => ?_)))
  split
  · exact canonical_err h
  · exact canonical_cfgWait h (canonical_ok (canonical_cfgSlot (canonical_rehomeNode h)))

@[simp] theorem canonical_bodySchCapacity : KeepsCanonical bodySchCapacity :=
  fun _ _ _ h => canonical_lenIs h (canonical_readUnits h)

@[simp] theorem canonical_bodySchQueueFlush : KeepsCanonical bodySchQueueFlush :=
  fun _ _ _ h => canonical_lenIs h (canonical_inRange h (canonical_inRange h (canonical_scopeOne h (fun _ =>
    canonical_cfgWait h (canonical_dieDone (fun _ ht => canonical_cfgSlot (canonical_ite (canonical_flushQueue ht)
    (canonical_flushNode ht))) h)))))

/-! ### Start and restart -/

theorem canonical_latchStraps (h : Canonical s0) : Canonical (latchStraps straps s0) :=
  canonical_wrF _ _ _ _ (canonical_wrF _ _ _ _ (canonical_wrF _ _ _ _ (canonical_wr _ _ _ (canonical_fold (fun _ _ ht
    => canonical_update ht) h))))

theorem canonical_refreshOcc (h : Canonical s) : Canonical (refreshOcc s) :=
  canonical_fold (fun _ _ ht => canonical_tcmOccUpdate (canonical_setRoutes (canonical_occUpdate (canonical_wrF _ _ _
    _ ht)))) h

theorem canonical_afterReset (h : Canonical s) : Canonical (afterReset warm straps s) :=
  canonical_measurePolicy (canonical_fold (fun _ _ ht => canonical_raise (canonical_setState ht))
    (canonical_latchStraps (canonical_refreshOcc (canonical_filter _ h))))

theorem canonical_startAt (h : Canonical s) : Canonical (startAt kind s) := canonical_update (canonical_wrBit _ _ _ h)

theorem canonical_stopAll (h : Canonical s) : Canonical (stopAll s) :=
  canonical_failOuts (canonical_update (canonical_wrBit _ _ _ (canonical_wrBit _ _ _ (canonical_firmwareDown h))))

theorem canonical_resetAssert (h : Canonical s) : Canonical (resetAssert warm s) :=
  canonical_ite (canonical_update h) (canonical_update (canonical_ite (canonical_wrF _ _ _ _ (canonical_ite
    (canonical_wrF _ _ _ _ (canonical_stopAll h)) (canonical_stopAll h))) (canonical_ite (canonical_wrF _ _ _ _
    (canonical_stopAll h)) (canonical_stopAll h))))

theorem canonical_resetDeassert (h : Canonical s) : Canonical (resetDeassert straps warm retained s) :=
  canonical_ite h (canonical_ite (canonical_update h) (canonical_startAt (canonical_update (canonical_afterReset
    (canonical_ite (canonical_timeChanges h) h)))))

theorem canonical_vinGood (h : Canonical s) : Canonical (vinGood straps s) :=
  canonical_ite h (canonical_ite (canonical_update (canonical_update (canonical_afterReset (canonical_update h))))
    (canonical_startAt (canonical_update (canonical_afterReset (canonical_update h)))))

theorem canonical_railsOff (h : Canonical s) : Canonical (railsOff s) :=
  canonical_ite h (canonical_update (canonical_wrBit _ _ _ (canonical_wrBit _ _ _ (canonical_stopAll h))))

theorem canonical_vinLoss (h : Canonical s) : Canonical (vinLoss s) := canonical_update (canonical_railsOff h)

theorem canonical_runImage (h : Canonical s) : Canonical (runImage b s) := canonical_update (canonical_measure h)

theorem canonical_stepFive (h : Canonical s) : Canonical (stepFive s) :=
  canonical_measureOwner (canonical_measurePolicy (canonical_wrBit _ _ _ (canonical_wrF _ _ _ _ (canonical_wrBit _ _ _
    (canonical_wrBit _ _ _ h)))))

theorem canonical_trainStack (h : Canonical s) : Canonical (trainStack d r s) :=
  canonical_ite (canonical_raise (canonical_stackOut h)) (canonical_ite (canonical_wrF _ _ _ _ (canonical_wrBit _ _ _
    (canonical_wrBit _ _ _ (canonical_wrF _ _ _ _ h)))) (canonical_update (canonical_incSat _ _ _ (canonical_wrF _ _ _
    _ (canonical_wrF _ _ _ _ (canonical_wrBit _ _ _ (canonical_wrBit _ _ _ (canonical_wrF _ _ _ _ h))))))))

theorem canonical_noUse (h : Canonical s) : Canonical (noUse d s) :=
  canonical_setOwnUsed (canonical_fold (fun _ _ ht => canonical_fold (fun _ _ hu => canonical_wr _ _ _ hu) ht) h)

theorem canonical_noFrames (h : Canonical s0) : Canonical (noFrames s0) := by
  unfold noFrames
  generalize State.reset = x
  exact canonical_rebuildPools (canonical_rebuildPools (canonical_update (canonical_noUse (canonical_noUse h))))

theorem canonical_clearTables (h : Canonical s) : Canonical (clearTables s) := by
  unfold clearTables
  generalize State.reset = x
  exact canonical_noFrames (canonical_refreshOcc (canonical_update h))

theorem canonical_refreshParked (h : Canonical s) : Canonical (refreshParked n s) :=
  canonical_wrBit _ _ _ (canonical_ite (canonical_wrBit _ _ _ h) h)

theorem canonical_shadowKeep (h : Canonical s) : Canonical (shadowKeep l s) := canonical_update h

theorem canonical_defaultLayout (h : Canonical s) : Canonical (defaultLayout g s) :=
  canonical_ite (canonical_ite h (canonical_shadowKeep (canonical_wrBit _ _ _ h))) (canonical_ite
    (canonical_keyDiscard (canonical_keyCommit (canonical_fold (fun _ _ ht => canonical_wrStg ht) (canonical_ite h
    (canonical_shadowKeep (canonical_wrBit _ _ _ h)))))) (canonical_shadowKeep (canonical_keyCommit (canonical_fold
    (fun _ _ ht => canonical_wrStg ht) (canonical_ite h (canonical_shadowKeep (canonical_wrBit _ _ _ h)))))))

theorem canonical_defaultQuotas (h : Canonical s) : Canonical (defaultQuotas d s) := by
  unfold defaultQuotas
  extract_lets s1 t
  have h1 : Canonical s1 := canonical_fold (fun _ _ ht => canonical_ite ht (canonical_shadowKeep (canonical_wr _ _ _ ht))) h
  have ht : Canonical t := canonical_quotaCommit (canonical_fold (fun _ _ ht => canonical_wrStg ht) h1)
  exact canonical_ite (canonical_poolStatsUpdate h1) (canonical_ite (canonical_quotaDiscard ht) (canonical_shadowKeep ht))

theorem canonical_restoreSet (h : Canonical s) : Canonical (restoreSet e s) := by
  unfold restoreSet
  extract_lets x y put s1
  have hput : ∀ z t, Canonical t → Canonical (put z t) := fun _ _ ht => canonical_ite (canonical_loadSet ht) ht
  have h1 : Canonical s1 := canonical_ite (canonical_ite h (canonical_revertSet h))
    (canonical_ite h (canonical_switchSet (hput _ _ h)))
  exact canonical_ite h1 (hput _ _ h1)

theorem canonical_restoreTables (h : Canonical s) : Canonical (restoreTables s) :=
  canonical_update (canonical_fold (fun _ _ ht => canonical_idPut ht) (canonical_fold (fun _ _ ht => canonical_ruleSet
    ht) (canonical_fold (fun _ _ ht => canonical_setRoutes ht) (canonical_fold (fun _ _ ht => canonical_emInsert ht)
    h))))

theorem canonical_restorePubs (h : Canonical s) : Canonical (restorePubs s) :=
  canonical_fold (fun _ _ ht => canonical_ite ht (canonical_pubState (canonical_setPub ht))) h

theorem canonical_restoreRecords (h : Canonical s) : Canonical (restoreRecords s) :=
  canonical_restorePubs (canonical_fold (fun _ _ ht => canonical_refreshParked ht) (canonical_update h))

theorem canonical_restoreAll (h : Canonical s) : Canonical (restoreAll s) := by
  unfold restoreAll
  extract_lets s1 s2 s3 s4 s5
  have h1 : Canonical s1 := canonical_rebuildPools (canonical_rebuildPools (canonical_restoreRegs h))
  have h2 : Canonical s2 := canonical_defaultQuotas (canonical_defaultQuotas
    (canonical_fold (fun _ _ ht => canonical_defaultLayout ht) h1))
  have h3 : Canonical s3 := canonical_ite h2 (canonical_restoreTables h2)
  have h4 : Canonical s4 := canonical_noFrames (canonical_restoreRecords h3)
  have h5 : Canonical s5 := canonical_fold (fun _ _ ht => canonical_periodSet ht) (canonical_restoreSet (canonical_restoreSet h4))
  exact canonical_ite (canonical_sgValidity (canonical_gatesValid h5))
    (canonical_fold (fun _ _ ht => canonical_gateRefresh ht) h5)

theorem canonical_enterAster (h : Canonical s) : Canonical (enterAster s) :=
  canonical_update (canonical_wrBit _ _ _ (canonical_wrBit _ _ _ (canonical_wrF _ _ _ _ h)))

theorem canonical_enterPeony (h : Canonical s) : Canonical (enterPeony s) :=
  canonical_update (canonical_wrBit _ _ _ (canonical_wrBit _ _ _ (canonical_wrF _ _ _ _ (canonical_wrBit _ _ _ h))))

theorem canonical_goStep (h : Canonical s) : Canonical (goStep n s) := canonical_update h

theorem canonical_stepSix (h : Canonical s) : Canonical (stepSix s) :=
  canonical_ite (canonical_goStep (canonical_runImage (canonical_update h))) (canonical_startFail (canonical_raise h))

theorem canonical_earlyStep (h : Canonical s) : Canonical (earlyStep s) :=
  canonical_ite (canonical_ite (canonical_goStep (canonical_wrBit _ _ _ (canonical_wrF _ _ _ _ (canonical_wrF _ _ _ _
    (canonical_pinRecordLoad h))))) (canonical_goStep (canonical_wrF _ _ _ _ (canonical_wrF _ _ _ _
    (canonical_pinRecordLoad h))))) (canonical_ite (canonical_goStep (canonical_update (canonical_wrBit _ _ _ h)))
    (canonical_goStep (canonical_enterPrimrose h)))

theorem canonical_lateStep (h : Canonical s) : Canonical (lateStep r s) := by
  unfold lateStep
  split
  · exact canonical_ite (canonical_loaderUp (canonical_goStep (canonical_stepFive h))) (canonical_goStep
      (canonical_stepFive h))
  · exact canonical_ite h (canonical_stepSix h)
  · exact canonical_ite (canonical_goStep (canonical_trainStack (canonical_trainStack h))) (canonical_startFail
      (canonical_trainStack (canonical_trainStack h)))
  · exact canonical_goStep (canonical_enterAster (canonical_ite h (canonical_clearTables h)))
  · exact canonical_ite (canonical_enterPeony (canonical_restoreAll h)) (canonical_startFail (canonical_restoreAll h))
  · exact h

theorem canonical_stepDone (h : Canonical s) : Canonical (stepDone r s) :=
  canonical_ite h (canonical_ite (canonical_wrBit _ _ _ (canonical_wrBit _ _ _ h)) (canonical_ite (canonical_startFail
    (canonical_wrBit _ _ _ (canonical_wrBit _ _ _ h))) (canonical_islService (canonical_ite (canonical_earlyStep
    (canonical_wrBit _ _ _ (canonical_wrBit _ _ _ h))) (canonical_lateStep (canonical_wrBit _ _ _ (canonical_wrBit _ _
    _ h)))))))

theorem canonical_stepFails (h : Canonical s) : Canonical (stepFails cause s) :=
  canonical_ite (canonical_startFail (canonical_ite (canonical_raise h) (canonical_ite (canonical_raise h) h))) h

theorem canonical_applyLogEntry (h : Canonical s) : Canonical (applyLogEntry s e) :=
  canonical_ite (canonical_shadowStaged h) (canonical_update h)

theorem canonical_recoverLost (h : Canonical s) : Canonical (recoverLost s) :=
  canonical_fold (fun _ _ ht => canonical_wr _ _ _ ht) (canonical_fold (fun _ _ ht => canonical_shadowReg ht) h)

theorem canonical_applyLog (h : Canonical s) : Canonical (applyLog s) := by
  unfold applyLog
  exact canonical_recoverLost (canonical_update (canonical_fold (fun _ _ ht => canonical_applyLogEntry ht) h))

theorem canonical_restartImage (h : Canonical s) : Canonical (restartImage s) :=
  canonical_ite (canonical_runImage h) (canonical_ite (canonical_runImage h) (canonical_startFail (canonical_raise
    h)))

theorem canonical_restartEnd (h : Canonical s) : Canonical (restartEnd s) :=
  canonical_ite h (canonical_ite (canonical_restartImage (canonical_domainReleased h)) (canonical_answerRestarted
    (canonical_update (canonical_incSat _ _ _ (canonical_wrBit _ _ _ (canonical_wrBit _ _ _ (canonical_restoreRegs
    (canonical_applyLog (canonical_restartImage (canonical_domainReleased h))))))))))

theorem canonical_firmwareRestart (h : Canonical s) : Canonical (firmwareRestart s) :=
  canonical_restartEnd (canonical_ite h (canonical_mpReset h))

@[simp] theorem canonical_bodyStartStatus : KeepsCanonical bodyStartStatus :=
  fun _ _ _ h => canonical_lenIs h (canonical_ok h)

@[simp] theorem canonical_bodyFwRestart : KeepsCanonical bodyFwRestart :=
  fun _ _ _ h => canonical_lenIs h (canonical_refuse h (canonical_ok (canonical_mpReset h)))

@[simp] theorem canonical_bodyFwBoot : KeepsCanonical bodyFwBoot :=
  fun _ _ _ h => canonical_lenIs h (canonical_inRange h (canonical_refuse h (canonical_ite_st (canonical_err
    (canonical_raise h)) (canonical_ok (canonical_goStep (canonical_update (canonical_wrBit _ _ _ (canonical_runImage
    h))))))))

@[simp] theorem canonical_bodyFwImageWrite : KeepsCanonical bodyFwImageWrite :=
  fun _ _ _ h => canonical_lenIs h (canonical_inRange h (canonical_inRange h (canonical_ite_st (canonical_err
    (canonical_raise (canonical_imageFrom h))) (canonical_ok (canonical_update (canonical_imageFrom h))))))

@[simp] theorem canonical_bodyFwSlotSelect : KeepsCanonical bodyFwSlotSelect :=
  fun _ _ _ h => canonical_lenIs h (canonical_inRange h (canonical_ok (canonical_ite (canonical_mpReset
    (canonical_update h)) (canonical_update h))))

theorem canonical_handOver (h : Canonical s) : Canonical (handOver s) :=
  canonical_update (canonical_fold (fun _ _ ht => canonical_wr _ _ _ ht) (canonical_fold (fun _ _ ht => canonical_wr _
    _ _ (canonical_wr _ _ _ ht)) h))

@[simp] theorem canonical_bodyPrimroseHandover : KeepsCanonical bodyPrimroseHandover :=
  fun _ _ _ h => canonical_lenIs h (canonical_refuse h (canonical_ok (canonical_handOver h)))

theorem canonical_startRetry (h : Canonical s) : Canonical (startRetry s) :=
  canonical_update (canonical_dropToPrimrose (canonical_abortTests h))

@[simp] theorem canonical_bodyStartRetry : KeepsCanonical bodyStartRetry :=
  fun _ _ _ h => canonical_lenIs h (canonical_ok (canonical_startRetry h))

/-! ### Sessions -/

theorem canonical_dropXfer (h : Canonical s) : Canonical (dropXfer k s) := canonical_update h

@[simp] theorem canonical_bodyHello : KeepsCanonical bodyHello := by
  intro v f s h
  unfold bodyHello
  refine canonical_lenIs h (canonical_inRange h (canonical_inRange h (canonical_inRange h ?_)))
  split
  · exact h
  · exact canonical_ok (canonical_update (canonical_dropXfer h))

@[simp] theorem canonical_bodyEngineInfo : KeepsCanonical bodyEngineInfo :=
  fun _ _ _ h => canonical_lenIs h (canonical_ok h)

@[simp] theorem canonical_bodyCmdStatus : KeepsCanonical bodyCmdStatus := by
  intro v f s h
  unfold bodyCmdStatus
  refine canonical_lenIs h (canonical_inRange h ?_)
  split
  · exact canonical_err h
  · exact canonical_ok h

@[simp] theorem canonical_bodyXferWrite : KeepsCanonical bodyXferWrite :=
  fun _ _ _ h => canonical_lenOk h (canonical_inRange h (canonical_ok (canonical_update h)))

@[simp] theorem canonical_bodySessionList : KeepsCanonical bodySessionList :=
  fun _ _ _ h => canonical_lenIs h (canonical_ok h)

@[simp] theorem canonical_bodyShadowInfo : KeepsCanonical bodyShadowInfo :=
  fun _ _ _ h => canonical_lenIs h (canonical_ok h)

@[simp] theorem canonical_bodyShadowDigest : KeepsCanonical bodyShadowDigest :=
  fun _ _ _ h => canonical_lenIs h (canonical_inRange h (canonical_ok h))

@[simp] theorem canonical_bodyNop : KeepsCanonical bodyNop := fun _ _ _ h => canonical_ok h

theorem canonical_putPort (h : Canonical s) : Canonical (putPort p r s) := canonical_update h

theorem canonical_retune (h : Canonical s) : Canonical (retune p s) := canonical_update h

@[simp] theorem canonical_bodyPortCreate : KeepsCanonical bodyPortCreate :=
  fun _ _ _ h => canonical_lenIs h (canonical_inRange h (canonical_inRange h (canonical_ite_st (canonical_err h)
    (canonical_refuse h (canonical_ok (canonical_refreshParked (canonical_retune (canonical_putPort h))))))))

theorem canonical_withPort (h : Canonical s) (hk : ∀ x0 x1, Canonical (k x0 x1).st) :
    Canonical (withPort f reserved s k).st := by
  unfold withPort
  dsimp only
  split
  · exact canonical_inRange h (hk _ _)
  · exact canonical_err h

@[simp] theorem canonical_bodyPortDelete : KeepsCanonical bodyPortDelete :=
  fun _ _ _ h => canonical_lenIs h (canonical_withPort h (fun _ _ => canonical_refuse h (canonical_refuse h
    (canonical_ok (canonical_refreshParked (canonical_putPort h))))))

@[simp] theorem canonical_bodyPortAdmin : KeepsCanonical bodyPortAdmin :=
  fun _ _ _ h => canonical_lenIs h (canonical_withPort h (fun _ _ => canonical_refuse h (canonical_ok (canonical_ite
    (canonical_putPort h) (canonical_dropDown (canonical_putPort h))))))

theorem canonical_portStat (h : Canonical s) : Canonical (portStat p s).2 := by
  unfold portStat
  split
  · exact h
  · exact canonical_freeW h

@[simp] theorem canonical_bodyPortStatus : KeepsCanonical bodyPortStatus :=
  fun _ _ _ h => canonical_lenIs h (canonical_withPort h (fun _ _ => canonical_ok (canonical_freeW (canonical_portStat
    h))))

/-- The command's map is a variable in the proof, under `id`: the sum that spells it (32 bits a word) is never computed. -/
@[simp] theorem canonical_bodyMcastGroupSet : KeepsCanonical bodyMcastGroupSet := by
  intro v f s h
  unfold bodyMcastGroupSet
  generalize List.foldl _ _ _ = map
  revert map
  refine id fun map => canonical_lenIs h (canonical_inRange h ?_)
  dsimp only
  split
  · exact canonical_err h
  · exact canonical_ok (canonical_update h)

@[simp] theorem canonical_bodyMcastGroupRead : KeepsCanonical bodyMcastGroupRead :=
  fun _ _ _ h => canonical_lenIs h (canonical_inRange h (canonical_ok h))

@[simp] theorem canonical_bodyMirrorCfg : KeepsCanonical bodyMirrorCfg :=
  fun _ _ _ h => canonical_lenIs h (canonical_withPort h (fun _ _ => canonical_inRange h (canonical_inRange h
    (canonical_ok (canonical_update h)))))

end Sys2Proof.Machine
end

section
/-! The register file's canonical form: firmware; windows; register accesses. -/

set_option autoImplicit true

namespace Sys2Proof.Machine
open Sys2Proof

variable {s : State}

/-! ### Firmware -/

theorem canonical_commandPart0 : ∀ q ∈ commandPart0, KeepsCanonical q.2 := by
  simp [commandPart0]

theorem canonical_commandPart1 : ∀ q ∈ commandPart1, KeepsCanonical q.2 := by
  simp [commandPart1]

theorem canonical_commandPart2 : ∀ q ∈ commandPart2, KeepsCanonical q.2 := by
  simp [commandPart2]

theorem canonical_commandPart3 : ∀ q ∈ commandPart3, KeepsCanonical q.2 := by
  simp [commandPart3]

theorem canonical_commandPart4 : ∀ q ∈ commandPart4, KeepsCanonical q.2 := by
  simp [commandPart4]

theorem canonical_commandPart5 : ∀ q ∈ commandPart5, KeepsCanonical q.2 := by
  simp [commandPart5]

theorem canonical_commandPart6 : ∀ q ∈ commandPart6, KeepsCanonical q.2 := by
  simp [commandPart6]

theorem canonical_commandPart7 : ∀ q ∈ commandPart7, KeepsCanonical q.2 := by
  simp [commandPart7]

theorem canonical_commandPart8 : ∀ q ∈ commandPart8, KeepsCanonical q.2 := by
  simp [commandPart8]

/-- Every command of the catalogue. -/
theorem canonical_commandTable : ∀ q ∈ commandTable, KeepsCanonical q.2 := by
  simp only [commandTable, List.forall_mem_append]
  exact ⟨⟨⟨⟨⟨⟨⟨⟨canonical_commandPart0, canonical_commandPart1⟩, canonical_commandPart2⟩, canonical_commandPart3⟩,
    canonical_commandPart4⟩, canonical_commandPart5⟩, canonical_commandPart6⟩, canonical_commandPart7⟩,
    canonical_commandPart8⟩

theorem canonical_findCommand (e : findCommand op = some c) : KeepsCanonical c.2 :=
  canonical_commandTable c (List.mem_of_find?_eq_some e)

theorem canonical_runWords (hrespond : ∀ op f r, Canonical r.st → Canonical (respond op f r))
    (hwait : ∀ r, Canonical r.st → Canonical (wait r)) (h : Canonical s) :
    Canonical (runWords respond wait m p ws s) := by
  unfold runWords
  dsimp only
  split
  · next e =>
    have htaken : ∀ ci f, Canonical (takeCommand ci _ f s).st := fun _ _ => canonical_takeCommand (canonical_findCommand e) h
    exact canonical_ite (hwait _ (htaken _ _)) (hrespond _ _ _ (htaken _ _))
  · exact hrespond _ _ _ (canonical_err h)

theorem canonical_runArea (h : Canonical s) : Canonical (runArea m s) :=
  canonical_ite (canonical_runWords (fun _ _ _ ht => canonical_respondRegister ht) (fun _ ht => ht) (canonical_update
    h)) h

theorem canonical_runRing (h : Canonical s) : Canonical (runRing n m s) := by
  induction n generalizing s with
  | zero => exact h
  | succ n ih =>
    exact canonical_ite (ih (canonical_runWords (fun _ _ _ ht => canonical_respondRing ht)
      (fun _ ht => canonical_ringLater ht) (canonical_inc h))) h

theorem canonical_runSession (h : Canonical s) : Canonical (runSession n p s) := by
  induction n generalizing s with
  | zero => exact h
  | succ n ih =>
    unfold runSession
    split
    · exact h
    · exact canonical_ite (ih (canonical_runWords (fun _ _ _ ht => canonical_respondSession ht)
        (fun _ ht => canonical_sessionLater ht) (canonical_setMb2 h))) h

theorem canonical_runWaiting (h : Canonical s) : Canonical (runWaiting s) :=
  canonical_sendResponses (canonical_runArea (canonical_runArea (canonical_runSession (canonical_runSession
    (canonical_runRing (canonical_runArea (canonical_runRing (canonical_runArea h))))))))

theorem canonical_fwWork (h : Canonical s) : Canonical (fwWork s) :=
  canonical_ite (canonical_nodeRehomes (canonical_auditsDue (canonical_runWaiting h))) (canonical_runWaiting h)

theorem canonical_doorbell (h : Canonical s) : Canonical (doorbell m s) :=
  canonical_ite h (canonical_ite (canonical_wrBit _ _ _ h) (canonical_ite (canonical_runWaiting (canonical_rung
    (canonical_wrBit _ _ _ h))) (canonical_countEarly (canonical_wrBit _ _ _ h))))

theorem canonical_areaWrite (h : Canonical s) : Canonical (areaWrite m i v s) :=
  canonical_ite (canonical_wrBit _ _ _ h) (canonical_update h)

theorem canonical_cmdProdWrite (h : Canonical s) : Canonical (cmdProdWrite m v s) :=
  canonical_ite (canonical_wrBit _ _ _ h) (canonical_runWaiting (canonical_wr _ _ _ h))

theorem canonical_rspConsWrite (h : Canonical s) : Canonical (rspConsWrite m v s) :=
  canonical_ite (canonical_wrBit _ _ _ h) (canonical_runWaiting (canonical_wr _ _ _ h))

theorem canonical_hostEntries (h : Canonical s) : Canonical (hostEntries m es s) :=
  canonical_fold (fun _ _ ht => canonical_writeSlot ht) h

theorem canonical_mbRingCfgWrite (h : Canonical s) : Canonical (mbRingCfgWrite m v s) :=
  canonical_ite h (canonical_ite (canonical_wrBit _ _ _ h) (canonical_ite (canonical_wr _ _ _ (canonical_wr _ _ _
    (canonical_wrBit _ _ _ (canonical_wr _ _ _ h)))) (canonical_wrBit _ _ _ (canonical_wr _ _ _ h))))

theorem canonical_sessionWords (h : Canonical s) : Canonical (sessionWords p ws s) :=
  canonical_ite (canonical_runSession (canonical_setMb2 h)) (canonical_respondSession (canonical_err h))

/-! ### Windows -/

theorem canonical_winWaits (h : Canonical s) : Canonical (winWaits q s) := by
  unfold winWaits
  dsimp only
  split
  · exact canonical_waited h
  · exact canonical_waited h
  · exact canonical_waited h
  · exact canonical_waited h
  · exact canonical_waited h
  · exact canonical_waited h

theorem canonical_winCharge (h : Canonical s) : Canonical (winCharge t u s) := by
  unfold winCharge
  split
  · exact canonical_debugRead h
  · exact canonical_debugRead h
  · exact canonical_debugRead h
  · exact canonical_debugRead h
  · exact canonical_debugRead (canonical_debugRead h)
  · exact canonical_charge h
  · exact canonical_charge h
  · exact canonical_charge h
  · exact canonical_charge h
  · exact h

theorem canonical_freeWords (h : Canonical s) : Canonical (freeWords n s).2 := by
  induction n generalizing s with
  | zero => exact h
  | succ n ih => exact ih (canonical_freeW h)

theorem canonical_winRecord (h : Canonical s) : Canonical (winRecord t u i s).2 := by
  unfold winRecord
  split
  · exact h
  · exact h
  · exact canonical_freeWords h
  · exact h
  · exact h
  · exact h
  · exact h
  · exact h
  · exact h
  · exact h
  · exact h
  · exact h
  · exact h
  · exact h
  · exact h
  · exact h
  · exact h
  · exact h
  · exact h
  · exact h
  · exact h
  · exact h
  · exact h
  · exact h

theorem canonical_winRefused (h : Canonical s) : Canonical (winRefused s).st := h

theorem canonical_winDone (h : Canonical s) : Canonical (winDone s).st := h

theorem canonical_winCode (h : Canonical r.2) : Canonical (winCode r).st := h

theorem canonical_winRule (h : Canonical s) : Canonical (winRule g i w s).st :=
  canonical_ite_of WinRes.st (canonical_winRefused h) (canonical_ite_of WinRes.st (canonical_ite_of WinRes.st
    (canonical_winRefused h) (canonical_winCode (canonical_ite_snd (canonical_opNow h) (canonical_opNow
    (canonical_opNow h))))) (canonical_ite_of WinRes.st (canonical_winCode (canonical_opNow h)) (canonical_ite_of
    WinRes.st (canonical_winDone (canonical_charge (canonical_charge (canonical_genUp (canonical_ruleSet h)))))
    (canonical_winRefused h))))

theorem canonical_winNode (h : Canonical s) : Canonical (winNode d n w s).st :=
  canonical_ite_of WinRes.st (canonical_winRefused h) (canonical_winDone (canonical_charge (canonical_nodePut h)))

theorem canonical_winTmap (h : Canonical s) : Canonical (winTmap d t w s).st :=
  canonical_ite_of WinRes.st (canonical_winRefused h) (canonical_winDone (canonical_charge (canonical_tmapPut h)))

theorem canonical_winQueue (h : Canonical s) : Canonical (winQueue d i r s).st :=
  canonical_ite_of WinRes.st (canonical_winDone (canonical_charge (canonical_queuePut h))) (canonical_winRefused h)

theorem canonical_winEdges (h : Canonical s) : Canonical (winEdges g i e s).st :=
  canonical_ite_of WinRes.st (canonical_winRefused h) (canonical_winDone (canonical_edgesPut h))

theorem canonical_winRcv (h : Canonical s) : Canonical (winRcv d f w s).st :=
  canonical_ite_of WinRes.st (canonical_winDone (canonical_rcvConfig h)) (canonical_winRefused h)

theorem canonical_winApply (h : Canonical s) : Canonical (winApply t u i w s).st := by
  unfold winApply
  refine canonical_ite_of WinRes.st h ?_
  split
  · exact canonical_winCode (canonical_opNow h)
  · exact canonical_winRule h
  · split
    · exact canonical_winRefused h
    · exact canonical_winDone (canonical_ctxWrite h)
  · exact canonical_winDone (canonical_tenMapPut h)
  · exact canonical_winEdges h
  · exact canonical_winTmap h
  · exact canonical_winNode h
  · exact canonical_winQueue h
  · exact canonical_winDone (canonical_gatEntryWrite h)
  · exact canonical_ite_of WinRes.st (canonical_winRefused h) (canonical_winDone (canonical_setHandle h))
  · exact canonical_ite_of WinRes.st (canonical_winRefused h) (canonical_winDone (canonical_setGen h))
  · exact canonical_winRcv h
  · exact h

theorem canonical_winParity (h : Canonical s) : Canonical (winParity t u i s) := by
  unfold winParity
  split
  · exact canonical_badBucket h
  · exact canonical_retireOvf (canonical_raise h)
  · exact canonical_badPrefix h
  · exact canonical_flagSpare (canonical_raise h)
  · exact canonical_flagSpare (canonical_raise h)
  · exact canonical_ite (canonical_nodeParity h) (canonical_ite (canonical_nodeParity h) (canonical_raise h))
  · exact canonical_ite (canonical_nodeParity h) (canonical_ite (canonical_nodeParity h) (canonical_raise h))
  · exact canonical_ite (canonical_nodeParity h) (canonical_ite (canonical_nodeParity h) (canonical_raise h))
  · exact canonical_ite (canonical_nodeParity h) (canonical_ite (canonical_nodeParity h) (canonical_raise h))
  · exact canonical_flagSpare (canonical_raise h)
  · exact canonical_raise h
  · exact canonical_raise h
  · exact canonical_raise h
  · exact canonical_raise h
  · exact h
  · exact canonical_flagSpare (canonical_raise h)

theorem canonical_winEnd (h : Canonical s) : Canonical (winEnd w result outcome s) :=
  canonical_wrF _ _ _ _ (canonical_wrF _ _ _ _ h)

theorem canonical_winFill (h : Canonical s) : Canonical (winFill w ws s) :=
  canonical_fold (fun _ _ ht => canonical_wr _ _ _ ht) h

theorem canonical_winStaged (h : Canonical s) : Canonical (winStaged q s) := canonical_ite (canonical_openGroup h) h

theorem canonical_winRun (h : Canonical s) : Canonical (winRun q s) :=
  canonical_winStaged (canonical_winEnd (canonical_ite_of WinRes.st (canonical_winApply h) (canonical_ite_of WinRes.st
    (canonical_winParity (canonical_winCharge h)) (canonical_winFill (canonical_winRecord (canonical_winCharge h))))))

theorem canonical_winCmd (h : Canonical s) : Canonical (winCmd w v bad s) :=
  canonical_ite (canonical_wrBit _ _ _ h) (canonical_ite h (canonical_ite (canonical_winEnd h) (canonical_ite
    (canonical_winEnd h) (canonical_ite (canonical_winRun h) (canonical_winWaits (canonical_wrBit _ _ _
    (canonical_update h)))))))

theorem canonical_winTableWrite (h : Canonical s) : Canonical (winTableWrite w v s) :=
  canonical_wrF _ _ _ _ (canonical_wrM _ _ _ h)

theorem canonical_winDataWrite (h : Canonical s) : Canonical (winDataWrite w k v s) :=
  canonical_ite (canonical_wrBit _ _ _ h) (canonical_wr _ _ _ h)

theorem canonical_winServe (h : Canonical s) : Canonical (winServe s) :=
  canonical_fold (fun _ _ ht => canonical_ite (canonical_winRun (canonical_update ht)) (canonical_winWaits ht)) h

/-! ### Register accesses -/

theorem canonical_guardCount (h : Canonical s) : Canonical (guardCount m s) := canonical_incSat _ _ _ h

theorem canonical_busError (h : Canonical s) : Canonical (busError m a write reason s) :=
  canonical_ite (canonical_ite (canonical_update (canonical_raiseAcc (canonical_incSat _ _ _ h))) (canonical_raiseAcc
    (canonical_incSat _ _ _ h))) (canonical_wr _ _ _ (canonical_wr _ _ _ (canonical_ite (canonical_update
    (canonical_raiseAcc (canonical_incSat _ _ _ h))) (canonical_raiseAcc (canonical_incSat _ _ _ h)))))

theorem canonical_answer (h : Canonical s) : Canonical (answer m c s) := canonical_update h

theorem canonical_parityFound (h : Canonical s) : Canonical (parityFound a s) :=
  canonical_ite (canonical_raise h) (canonical_update (canonical_raise h))

theorem canonical_parityRead (h : Canonical s) : Canonical (parityRead t s) := canonical_ite (canonical_parityFound h) h

theorem canonical_readValue (h : Canonical s) : Canonical (readValue m t s).2 := by
  unfold readValue
  dsimp only
  split
  · exact h
  · exact h
  · exact canonical_latchTime h
  · exact canonical_takeCapture h
  · exact canonical_peakRestart h
  · exact h
  · exact canonical_update h
  · exact canonical_update h
  · split
    · exact h
    · exact h
    · exact h
    · exact canonical_ite_snd (canonical_portStat h) h
    · exact h

theorem canonical_readTarget (h : Canonical s) : Canonical (readTarget m t s).2 :=
  canonical_ite_snd h (canonical_ite_snd (canonical_guardCount (canonical_parityRead h)) (canonical_ite
    (canonical_readValue (canonical_parityRead h)) (canonical_guardCount (canonical_readValue (canonical_parityRead
    h)))))

theorem canonical_storeFields (h : Canonical s) : Canonical (storeFields a d v s) := canonical_wr _ _ _ h

theorem canonical_commitBits (hcommit : ∀ x0, Canonical x0 → Canonical (commit x0)) (hdiscard' : ∀ x0, Canonical x0 →
  Canonical (discard' x0)) (h : Canonical s) :
    Canonical (commitBits v commit discard' s) :=
  canonical_ite (hdiscard' _ h) (canonical_ite (hcommit _ h) h)

theorem canonical_profileWrite (h : Canonical s0) : Canonical (profileWrite e n i a v s0) :=
  canonical_ite (canonical_ite (canonical_portCfgWrite (canonical_ite (canonical_wrBit _ _ _ h) h))
    (canonical_portProfWrite h)) (canonical_ite (canonical_wrF _ _ _ _ (canonical_ite (canonical_wrBit _ _ _ h) h))
    (canonical_wrBit _ _ _ (canonical_ite (canonical_wrBit _ _ _ h) h)))

theorem canonical_keepWrite (h : Canonical s) : Canonical (keepWrite k t v s) := by
  unfold keepWrite
  dsimp only
  split
  · exact canonical_ite (canonical_dropDown (canonical_portCfgWrite h)) h
  · exact canonical_ite (canonical_portCfgWrite h) h
  · exact canonical_profileWrite h
  · exact canonical_profileWrite h
  · exact canonical_ite (canonical_portCfgWrite h) h
  · exact canonical_matchWrite h
  · exact canonical_profWrite h
  · exact canonical_matchWrite h
  · exact canonical_profWrite h
  · exact canonical_foCfgWrite h
  · exact canonical_fiCfgWrite h
  · exact canonical_update (canonical_wrM _ _ _ h)

theorem canonical_fclCfgWrite (h : Canonical s) : Canonical (fclCfgWrite v s) := canonical_wrM _ _ _ h

theorem canonical_fclSrcWrite (h : Canonical s) : Canonical (fclSrcWrite a v s) := canonical_wrM _ _ _ h

theorem canonical_winWrite (h : Canonical s) : Canonical (winWrite w off t v bad s) :=
  canonical_ite (canonical_winTableWrite h) (canonical_ite (canonical_winCmd h) (canonical_ite (canonical_storeFields
    h) (canonical_winDataWrite h)))

theorem canonical_stageWrite (h : Canonical s) : Canonical (stageWrite m off t v s) :=
  canonical_openGroup (canonical_stgM h)

theorem canonical_writeEffect (h : Canonical s) : Canonical (writeEffect m off t v bad s) := by
  unfold writeEffect
  dsimp only
  split
  · exact canonical_winWrite h
  · exact canonical_stageWrite h
  · exact canonical_ite (canonical_gatStagedWrite h) (canonical_openGroup (canonical_gatStagedWrite h))
  · exact canonical_commitBits (fun _ ht => canonical_gatListCommit ht) (fun _ ht => canonical_gatListDiscard ht) h
  · exact canonical_gatPortCfgWrite h
  · exact canonical_ite (canonical_doorbell h) h
  · exact canonical_mbRingCfgWrite h
  · exact canonical_cmdProdWrite h
  · exact canonical_rspConsWrite h
  · exact canonical_areaWrite h
  · exact canonical_fclCfgWrite h
  · exact canonical_acknowledge h
  · exact canonical_ite (canonical_firstRearm h) h
  · exact canonical_ite (canonical_logPop h) h
  · exact canonical_fclSrcWrite h
  · exact canonical_pipModeWrite h
  · exact canonical_bankWrite h
  · exact canonical_bankWrite h
  · exact canonical_patchAddrWrite h
  · exact canonical_patchAddrWrite h
  · exact canonical_patchDataWrite h
  · exact canonical_patchDataWrite h
  · exact canonical_ringCfgWrite h
  · exact canonical_ringConsWrite h
  · exact canonical_ringConsWrite h
  · exact canonical_commitBits (fun _ ht => canonical_pwiCommit ht) (fun _ ht => canonical_pwiDiscard ht) h
  · exact canonical_cellStatWrite h
  · exact canonical_stallPendWrite h
  · exact canonical_ovfPendWrite h
  · exact canonical_commitBits (fun _ ht => canonical_glnBudgetCommit ht) (fun _ ht => canonical_glnBudgetDiscard ht)
      h
  · exact canonical_commitBits (fun _ ht => canonical_keyCommit ht) (fun _ ht => canonical_keyDiscard ht) h
  · exact canonical_ite (canonical_hashCfgWrite h) (canonical_hashSeedWrite h)
  · exact canonical_ageCfgWrite h
  · exact canonical_tblCfgWrite h
  · exact canonical_ite (canonical_wr _ _ _ h) (canonical_wrBit _ _ _ h)
  · exact canonical_commitBits (fun _ ht => canonical_polCommit ht) (fun _ ht => canonical_polDiscard ht) h
  · exact canonical_commitBits (fun _ ht => canonical_layoutCommit ht) (fun _ ht => canonical_layoutDiscard ht) h
  · exact canonical_commitBits (fun _ ht => canonical_quotaCommit ht) (fun _ ht => canonical_quotaDiscard ht) h
  · exact canonical_commitBits (fun _ ht => canonical_plainBudgetCommit ht) (fun _ ht => canonical_plainBudgetDiscard
      ht) h
  · exact canonical_ite h (canonical_storeFields h)
  · exact canonical_commitBits (fun _ ht => canonical_schBudgetCommit ht) (fun _ ht => canonical_schBudgetDiscard ht)
      h
  · exact canonical_commitBits (fun _ ht => canonical_shpCommit ht) (fun _ ht => canonical_shpDiscard ht) h
  · exact canonical_ite (canonical_timStepGo h) h
  · exact canonical_timCfgWrite h
  · exact canonical_forceWrite h
  · exact canonical_forceWrite h
  · exact canonical_ite h (canonical_storeFields h)
  · exact canonical_casCfgWrite h
  · exact canonical_ite h (canonical_storeFields h)
  · exact canonical_ite h (canonical_storeFields h)
  · exact canonical_storeFields h
  · exact canonical_setCfgWrite h
  · exact canonical_update h
  · exact canonical_dupSeedWrite h
  · exact canonical_ite (canonical_issueNonce h) h
  · exact canonical_measurePolicy (canonical_storeFields h)
  · exact canonical_keepWrite h
  · exact canonical_storeFields h

theorem canonical_postLog (h : Canonical s) : Canonical (postLog m t v s) :=
  canonical_ite h (canonical_ite (canonical_ite (canonical_applyLog (canonical_update h)) (canonical_update h))
    (canonical_wrBit _ _ _ (canonical_raise (canonical_inc h))))

theorem canonical_parityFresh (h : Canonical s) : Canonical (parityFresh a s) := canonical_update h

theorem canonical_writeTarget (h : Canonical s) : Canonical (writeTarget m t v bad s) :=
  canonical_ite h (canonical_ite (canonical_guardCount h) (canonical_postLog (canonical_writeEffect (canonical_ite h
    (canonical_parityFresh h)))))

theorem canonical_busWriteWith (h : Canonical s) : Canonical (busWriteWith m a be v bad s) := by
  unfold busWriteWith
  split
  · exact canonical_answer (canonical_busError h)
  · exact canonical_answer (canonical_writeTarget h)

theorem canonical_busWrite (h : Canonical s) : Canonical (busWrite m a v s) := canonical_busWriteWith h

theorem canonical_busRead (h : Canonical s) : Canonical (busRead m a s) := by
  unfold busRead
  split
  · exact canonical_answer (canonical_busError h)
  · exact canonical_answer (canonical_readTarget h)

theorem canonical_readDwords (h : Canonical s) : Canonical (readDwords m l s).2 := by
  induction l generalizing s with
  | nil => exact h
  | cons a l ih =>
    unfold readDwords
    split
    · exact h
    · exact ih (canonical_readTarget h)

end Sys2Proof.Machine
end

section
/-! The register file's canonical form: events; electrical; the idle tick. -/

set_option autoImplicit true

namespace Sys2Proof.Machine
open Sys2Proof

variable {s : State}

/-! ### Events -/

theorem canonical_uncommitted (h : Canonical s) : Canonical (uncommitted commit s) := by
  unfold uncommitted
  split
  · exact canonical_ite h (canonical_raiseAcc (canonical_update h))
  · exact h

theorem canonical_parityCheck (h : Canonical s) : Canonical (parityCheck a pass' s) := by
  unfold parityCheck
  dsimp only
  split
  · exact canonical_wrF _ _ _ _ (canonical_ite (canonical_raise (canonical_ite (canonical_parityFound h) h))
      (canonical_ite (canonical_parityFound h) h))
  · exact canonical_ite (canonical_raise (canonical_ite (canonical_parityFound h) h)) (canonical_ite
      (canonical_parityFound h) h)

theorem canonical_restoreWrite (h : Canonical s) : Canonical (restoreWrite s) := by
  unfold restoreWrite
  split
  · exact h
  · exact canonical_ite (canonical_incSat _ _ _ (canonical_tset _ _ (canonical_update h))) (canonical_update h)

theorem canonical_restoreVerify (h : Canonical s) : Canonical (restoreVerify a s) :=
  canonical_ite (canonical_ite (canonical_raise (canonical_update h)) (canonical_update h)) h

theorem canonical_clockBack (h : Canonical s) : Canonical (clockBack d periodPs s) :=
  canonical_ite (canonical_clockPresent h) (canonical_ite (canonical_fioResume (canonical_timeInvalid
    (canonical_clockPresent h))) (canonical_ite (canonical_runWaiting (canonical_clockPresent h))
    (canonical_clockPresent h)))

theorem canonical_cutIngress (h : Canonical s) : Canonical (cutIngress n through s) := by
  unfold cutIngress
  refine canonical_fold (fun _ _ ht => ?_) h
  split
  · exact canonical_ite (canonical_fcsResult ht) ht
  · exact ht

theorem canonical_cutEgress (h : Canonical s) : Canonical (cutEgress n through s) := by
  unfold cutEgress
  refine canonical_fold (fun _ _ ht => ?_) h
  split
  · exact canonical_ite (canonical_bumpPort (canonical_discardCopy ht)) ht
  · exact ht

theorem canonical_cellResynced (h : Canonical s) : Canonical (cellResynced c through s) :=
  canonical_ite h (canonical_ite (canonical_resync h) (canonical_ite (canonical_cutIngress (canonical_resync h))
    (canonical_ite (canonical_cutEgress (canonical_resync h)) (canonical_resync h))))

theorem canonical_periodBoundary (h : Canonical s) : Canonical (periodBoundary s) :=
  canonical_memPeriod (canonical_memPeriod (canonical_winServe (canonical_enqPeriod (canonical_enqPeriod
    (canonical_applyArmed (canonical_update h))))))

theorem canonical_periodService (h : Canonical s) : Canonical (periodService s) :=
  canonical_ite (canonical_periodBoundary h) h

/-! ### Electrical -/

theorem canonical_readRequest (h : Canonical s) : Canonical (readRequest fn addr count s) := by
  unfold readRequest
  refine canonical_ite (canonical_answer h) ?_
  split
  · exact canonical_answer (canonical_busError h)
  · exact canonical_answer (canonical_readDwords h)

theorem canonical_perst (h : Canonical s) : Canonical (perst low s) :=
  canonical_ite (canonical_ite h (canonical_update (canonical_domainReset h))) (canonical_ite (canonical_update
    (canonical_domainReleased h)) h)

theorem canonical_smbWrite (h : Canonical s) : Canonical (smbWrite a v s) := canonical_update (canonical_busWrite h)

theorem canonical_smbGive (h : Canonical s) : Canonical (smbGive bytes s) := canonical_emit (canonical_update h)

theorem canonical_smbReadReg (h : Canonical s) : Canonical (smbReadReg s) := by
  unfold smbReadReg
  split
  · exact canonical_smbGive h
  · exact canonical_smbGive (canonical_busRead h)

theorem canonical_regacc (h : Canonical s) : Canonical (regacc a write v s) := by
  unfold regacc
  dsimp only
  split
  · exact canonical_update (canonical_ite (canonical_busWrite h) (canonical_busRead h))
  · exact canonical_ite (canonical_busWrite h) (canonical_busRead h)

/-! ### The idle tick -/

theorem canonical_idleTick (h : Canonical s) : Canonical (idleTick s) :=
  canonical_fwWork (canonical_sampleMode (canonical_mpqTake (canonical_fioDrain (canonical_secService (canonical_idle
    (canonical_periodService h))))))

end Sys2Proof.Machine
end

section
/-! The register file's canonical form (O49): every command and the idle tick keep it. -/

namespace Sys2Proof.Machine
open Sys2Proof

variable {s : State}

theorem leavesCanonical_guard {c : Prop} [Decidable c] {x : Fault} (h : Canonical s) :
    LeavesCanonical (if c then .next s else .fault x) := leavesCanonical_ite (leavesCanonical_next h) leavesCanonical_fault

/-- An event that does its work where it is due. -/
theorem leavesCanonical_due {b : Bool} {c : Prop} [Decidable c] {t : State} (ht : Canonical t) (h : Canonical s) :
    LeavesCanonical (needs b (if c then t else s)) := leavesCanonical_needs (canonical_ite ht h)

theorem leavesCanonical_commandRow {ci : CmdInfo} {body : Body} {f : Frame} (hbody : KeepsCanonical body)
    (h : Canonical s) : LeavesCanonical (commandRow ci body f s) :=
  leavesCanonical_guard (canonical_sendResponses (canonical_mailboxCommand hbody h))

theorem leavesCanonical_hwError (x : HwErr) (h : Canonical s) : LeavesCanonical (hwError x s) := by
  unfold hwError
  split
  · exact leavesCanonical_needs (canonical_ite (canonical_raise (canonical_ite (canonical_wrBit _ _ _
      (canonical_update h)) h)) h)
  · exact leavesCanonical_due (canonical_ite (canonical_ruleFlip h) h) h
  · exact leavesCanonical_due (canonical_ite (canonical_headerFlip h) h) h
  · exact leavesCanonical_due (canonical_update h) h
  · exact leavesCanonical_due (canonical_update h) h
  · exact leavesCanonical_due (canonical_hbmCorrected h) h
  · exact leavesCanonical_due (canonical_hbmRow h) h

/-- Every command keeps the form. -/
theorem leavesCanonical_exec (c : Instr) (h : Canonical s) : LeavesCanonical (exec c s) := by
  cases c with
  | hello | engineInfo | cmdStatus | xferWrite | sessionList | shadowInfo | shadowDigest | nop | portCreate |
    portDelete | portAdmin | portStatus | mcastGroupSet | mcastGroupRead | mirrorCfg | emTableCfg | emKeyLayout |
    emPortCfg | tblInsert | tblDelete | tblLookup | tblFlush | tblBulkInsert | tblIterate | learnRingCfg | learnPolicy
    | ageCfg | glenBudgetSet | tblCapacity | lpmKeyLayout | lpmPortVrf | routeAdd | routeDelete | routeLookup |
    routeBulk | nexthopSet | routeCapacity | tcamKeyLayout | tcamRuleWrite | tcamRuleDelete | tcamRuleReplace |
    tcamActionSet | tcamRuleRead | tcamSearch | tcamScrubCfg | streamKeyLayout | streamIdAdd | streamIdDelete |
    streamCtxSet | streamCtxRead | streamUnblock | streamGateSet | streamCapacity | meterSet | meterRead |
    tenantPolicerMap | colourMapSet | histEdgesSet | histRead | bpmPoolLayout | bpmQuotaSet | bpmStatus | bpmBudgetSet
    | bpmYellowKeep | bpmAudit | bpmCapacity | schPortSet | schNodeSet | schTenantMap | schQueueSet | shaperSet |
    shaperRead | schQueueRead | schSampleCfg | schBudgetSet | schNodeRehome | schCapacity | schQueueFlush | timeGet |
    timeSet | timeStep | timeSlew | timeSource | timePpsCfg | timePortAdj | ptpInstanceSet | gateListSet |
    gateListRead | gatePortCfg | gateListDiscard | frePortCfg | freHandleMap | freGenSet | freRcvSet | freRcvRead |
    freRcvReset | freDupCfg | freDupStatus | ucodePatchLoad | ucodePatchSwitch | ucodePatchRevert | ucodeQuery |
    portParseProfile | rwePortProfile | fiCfg | fiRead | fioPubSet | fioGooseTemplate | fioEventRingCfg | fioUtcOffset
    | foCfg | foForce | foTimeEvent | foRelease | foRead | casRoleSet | casDeviceId | casPortCfg | casBudgetSet |
    casRelayCfg | casJoinCfg | casLeave | casSessionRead | casForward | casWorkerList | faultStatus | faultLog |
    faultAck | faultSrcCfg | faultWindow | unitDrain | unitTest | unitReturn | unitStatus | rehome | faultInject |
    faultLock | dumpSetCfg | dumpRingCfg | dumpNow | dumpRead | counterRead | sampleRingCfg | pktSampleCfg |
    ovfSampleCfg | slotRead | startStatus | fwRestart | fwBoot | fwImageWrite | fwSlotSelect | primroseHandover |
    startRetry | idCertRead | measurementRead | ownerCertSet | ownerCertClear | svnCommit | spdmMsg | debugUnlock |
    debugLock | debugPolicy | islCfgSet | islStatus | islCeilTime | islLoopTiming | islCeilRearm | colStallCfg |
    colStatus | colRearm =>
    exact leavesCanonical_commandRow (by simp) h
  | smbRegWrite => exact leavesCanonical_due (canonical_smbWrite h) h
  | smbRegAddr => exact leavesCanonical_due (canonical_update h) h
  | smbRegRead => exact leavesCanonical_next (canonical_ite (canonical_smbReadReg h) h)
  | smbRegStatus | smbAlertResponse => exact leavesCanonical_next (canonical_ite (canonical_smbGive h) h)
  | regaccUpdate => exact leavesCanonical_needs (canonical_regacc h)
  | spdmDoeRequest => exact leavesCanonical_next (canonical_emit (canonical_spdmExchange h))
  | pcieReadRequest => exact leavesCanonical_needs (canonical_readRequest h)
  | registerWrite | winRead | winWrite => exact leavesCanonical_needs (canonical_busWriteWith h)
  | stagedRegisterWrite | pwiCommit | pwiDiscard | pwiCeilPendClear | glnBudgetCommit | glnBudgetDiscard |
    emtKeyCommit | emtKeyDiscard | emtHashWrite | stmHashSeedWrite | freDupSeedWrite | ringConsWrite | ringEnableWrite
    | polStgCommit | polStgDiscard | bpmLayoutCommit | bpmLayoutDiscard | bpmQuotaCommit | bpmQuotaDiscard |
    bpmBudgetCommit | bpmBudgetDiscard | bpmCaptureRearm | schBudgetCommit | schBudgetDiscard | schShpCommit |
    schShpDiscard | gatListCommit | gatListDiscard | timStepGo | timRateAdjWrite | timSrcSelect | fioFoForceEnWrite |
    fioFoForceValWrite | foMismatchRearm | casRoleWrite | casAuthFailRearm | prsBankSwitch | rweBankSwitch |
    prsPatchAddrWrite | prsPatchDataWrite | rwePatchAddrWrite | rwePatchDataWrite | buserrCaptureRearm |
    fclStatusClear | fclFirstRearm | fclLogPop | fclLockSet | pipCtlModeWrite | ovfCaptureRearm | secDbgReq |
    mbxDoorbell | mbxCommandAreaWrite | mbxRspConsWrite | mbxRingEnWrite =>
    exact leavesCanonical_needs (canonical_busWrite h)
  | cfgUncommittedTimeout => exact leavesCanonical_next (canonical_uncommitted h)
  | counterLoRead | timReadFrac | pwiIslPeakRead => exact leavesCanonical_needs (canonical_busRead h)
  | shaperCommitEffect => exact leavesCanonical_due (canonical_shpEffect h) h
  | colStallStickyClear | colOvfClear =>
    exact leavesCanonical_needs (canonical_ite (canonical_busWrite h) (canonical_busWrite h))
  | mbxCmdProdWrite => exact leavesCanonical_needs (canonical_busWrite (canonical_ite (canonical_hostEntries h) h))
  | pendingElementComplete | glenUpdateOperation => exact leavesCanonical_guard (canonical_opServe h)
  | shadowLogRecovery => exact leavesCanonical_next (canonical_ite (canonical_applyLog h) h)
  | cfgParityCheck => exact leavesCanonical_needs (canonical_parityCheck h)
  | cfgRestoreWrite => exact leavesCanonical_next (canonical_ite (canonical_restoreWrite h) h)
  | cfgRestoreVerifyTimeout => exact leavesCanonical_next (canonical_restoreVerify h)
  | clockAbsent => exact leavesCanonical_due (canonical_clockAbsent h) h
  | clockPresent => exact leavesCanonical_due (canonical_clockBack h) h
  | sysclkSwitchback => exact leavesCanonical_next (canonical_sysclkBack h)
  | colTransferStart => exact leavesCanonical_guard (canonical_transferStart h)
  | colCapture => exact leavesCanonical_guard (canonical_capture h)
  | colAckSeen => exact leavesCanonical_guard (canonical_ackSeen h)
  | colFifoWrite => exact leavesCanonical_guard (canonical_fifoWrite h)
  | colFifoRead => exact leavesCanonical_guard (canonical_fifoRead h)
  | pulseArrival => exact leavesCanonical_guard (canonical_pulseArrives h)
  | colStallWatchdog => exact leavesCanonical_guard (canonical_stallCheck h)
  | colPartnerReset => exact leavesCanonical_guard (canonical_partnerReset h)
  | colResyncComplete => exact leavesCanonical_due (canonical_cellResynced h) h
  | ratioWindowEnd => exact leavesCanonical_guard (canonical_ratioWindow h)
  | islandEvaluation => exact leavesCanonical_guard (canonical_evaluate h)
  | islCeilingExpiry => exact leavesCanonical_guard (canonical_ceilingCheck h)
  | budgetPeriodBoundary => exact leavesCanonical_next (canonical_periodService h)
  | frameIngress => exact leavesCanonical_due (canonical_frameIngress h) h
  | primroseFrame => exact leavesCanonical_due (canonical_ringFrame h) h
  | parseContextTake => exact leavesCanonical_due (canonical_contextTake h) h
  | parseStep => exact leavesCanonical_next (canonical_parseStep h)
  | glenLookup => exact leavesCanonical_next (canonical_glenLookup h)
  | filterStage => exact leavesCanonical_next (canonical_filterPkt h)
  | frameFcsResult => exact leavesCanonical_next (canonical_fcsResult h)
  | admission => exact leavesCanonical_due (canonical_admission h) h
  | enqueue => exact leavesCanonical_next (canonical_enqueue h)
  | portDecision => exact leavesCanonical_due (canonical_portDecide h) h
  | rewriteContextTake => exact leavesCanonical_next (canonical_rweTake h)
  | rewriteStep => exact leavesCanonical_next (canonical_rweStep h)
  | launchTime => exact leavesCanonical_next (canonical_launchTime h)
  | egressTransmit => exact leavesCanonical_next (canonical_transmit h)
  | bpmRelease => exact leavesCanonical_guard (canonical_release (canonical_bpmParity h))
  | bpmTransfer => exact leavesCanonical_guard (canonical_transfer (canonical_bpmParity h))
  | spillCopy => exact leavesCanonical_next (canonical_spillCopy h)
  | spillReturn => exact leavesCanonical_next (canonical_spillReturn h)
  | linkDown => exact leavesCanonical_due (canonical_linkDown h) h
  | linkUp => exact leavesCanonical_due (canonical_setLink h) h
  | preemptVerifyDone => exact leavesCanonical_due (canonical_verifyDone h) h
  | channelWordRefusal =>
    show LeavesCanonical (execChannelWordRefusal _ _ s)
    unfold execChannelWordRefusal
    split
    · exact leavesCanonical_ite leavesCanonical_fault (leavesCanonical_next (canonical_wordRefused h))
    · exact leavesCanonical_fault
  | saddleLaneRealign => exact leavesCanonical_due (canonical_raise (canonical_inc (canonical_incBy _ _ h))) h
  | saddleMgmtWatchdog | vinLowDetect | vinHighDetect => exact leavesCanonical_next (canonical_raise h)
  | promotion => exact leavesCanonical_due (canonical_promotionServe h) h
  | learnNotifyService => exact leavesCanonical_guard (canonical_learnService h)
  | ageRefresh => exact leavesCanonical_guard (canonical_ageRefresh h)
  | ageTick => exact leavesCanonical_guard (canonical_ageTick h)
  | ageScanBucket => exact leavesCanonical_guard (canonical_ageScan h)
  | ringIrqModeration => exact leavesCanonical_guard (canonical_ringModerate h)
  | learnReplicate => exact leavesCanonical_guard (canonical_learnConsume h)
  | prefixUpdateOperation => exact leavesCanonical_guard (canonical_opServe (canonical_prefixRead h))
  | pivotScrub => exact leavesCanonical_guard (canonical_scrubbed (fun _ ht => canonical_pivotScrub ht) h)
  | wideRuleScrub => exact leavesCanonical_guard (canonical_ite (canonical_wideScrub h) h)
  | wideRuleRestore =>
    exact leavesCanonical_guard (canonical_ite (canonical_scrubbed (fun _ ht => canonical_restoreOrMove ht) h) h)
  | narrowRuleScrub => exact leavesCanonical_guard (canonical_narrowScrub h)
  | streamMgmtRequest => exact leavesCanonical_guard (canonical_histServe h)
  | streamGateSwitch => exact leavesCanonical_guard (canonical_sgSwitch h)
  | meterSweep => exact leavesCanonical_guard (canonical_meterSweep h)
  | shaperSweep =>
    exact leavesCanonical_needs (canonical_ite (canonical_ite (canonical_shpRefresh (canonical_charge h))
      (canonical_waited h)) h)
  | sampleBoundary => exact leavesCanonical_due (canonical_sampleBoundary h) h
  | sampleMemberRead => exact leavesCanonical_due (canonical_sampleRead h) h
  | pllRelockDone => exact leavesCanonical_next (canonical_wrBit _ _ _ h)
  | timeSrcLoss => exact leavesCanonical_next (canonical_srcLoss h)
  | ppsOutRise => exact leavesCanonical_next (canonical_ite (canonical_ppsLevel h) h)
  | ppsOutFall => exact leavesCanonical_next (canonical_ite h (canonical_ppsLevel h))
  | ppsInEdge => exact leavesCanonical_next (canonical_ppsIn h)
  | ppsInTimeout | smbusClockLowTimeout => exact leavesCanonical_next (canonical_ite (canonical_raise h) h)
  | gateChangeTime => exact leavesCanonical_due (canonical_gateDue h) h
  | gateEntryStart => exact leavesCanonical_due (canonical_entryStart h) h
  | gateHoldAssert => exact leavesCanonical_due (canonical_holdAssert h) h
  | recoveryResetTimeout => exact leavesCanonical_due (canonical_rcvTimeout h) h
  | latentTestPeriod => exact leavesCanonical_due (canonical_latentTest h) h
  | latentResetPeriod => exact leavesCanonical_due (canonical_latentReset h) h
  | dupEntryReclaim => exact leavesCanonical_due (canonical_dupPut h) h
  | fiTransition => exact leavesCanonical_due (canonical_fiTransition h) h
  | fiFilterExpiry => exact leavesCanonical_due (canonical_fiFiltered h) h
  | pubRepetition => exact leavesCanonical_due (canonical_pubRepeat h) h
  | pubHeartbeat => exact leavesCanonical_due (canonical_pubBeat h) h
  | packetTriggerApply => exact leavesCanonical_next (canonical_trigApply h)
  | timeEventFire => exact leavesCanonical_due (canonical_timeEvent h) h
  | foPulseExpiry => exact leavesCanonical_due (canonical_pulseEnds h) h
  | foReadbackTimeout => exact leavesCanonical_due (canonical_readback h) h
  | controlFrameReceive =>
    exact leavesCanonical_next (canonical_ite (canonical_runWaiting (canonical_takeControl (fun _ _ _ ht =>
      canonical_sessionWords ht) h)) h)
  | fragmentTimeout => exact leavesCanonical_next (canonical_fragTimeout h)
  | joinHelloTimer => exact leavesCanonical_next (canonical_ite (canonical_sendHello h) h)
  | keepaliveTimer => exact leavesCanonical_next (canonical_keepalive h)
  | sessionLossTimeout => exact leavesCanonical_next (canonical_sessionTimeout h)
  | sessionRekeyTimer =>
    show LeavesCanonical (execSessionRekeyTimer _ s)
    unfold execSessionRekeyTimer
    refine leavesCanonical_next ?_
    split
    · exact canonical_ite (canonical_sendCert h) h
    · exact h
  | vinGood => exact leavesCanonical_next (canonical_vinGood h)
  | vinRailShutdown | thermalShutdown => exact leavesCanonical_next (canonical_railsOff h)
  | vinLoss => exact leavesCanonical_next (canonical_vinLoss h)
  | vinOvervoltage => exact leavesCanonical_next (canonical_railsOff (canonical_raise h))
  | resetNAssert => exact leavesCanonical_next (canonical_resetAssert h)
  | resetNDeassert => exact leavesCanonical_next (canonical_resetDeassert h)
  | pciePerst => exact leavesCanonical_next (canonical_perst h)
  | startStepDone => exact leavesCanonical_next (canonical_runWaiting (canonical_stepDone h))
  | startStepOverrun => exact leavesCanonical_due (canonical_stepFails h) h
  | peonyHoldTimer => exact leavesCanonical_next (canonical_ite (canonical_update h) h)
  | mpWatchdogExpiry => exact leavesCanonical_next (canonical_mpReset (canonical_raise h))
  | firmwareRestart => exact leavesCanonical_next (canonical_runWaiting (canonical_firmwareRestart h))
  | hardwareErrorEvent => exact leavesCanonical_hwError _ h
  | contextHangWatchdog =>
    exact leavesCanonical_ite (leavesCanonical_needs (canonical_ite (canonical_raise h) h)) (leavesCanonical_ite
      (leavesCanonical_needs (canonical_ite (canonical_raise h) h)) (leavesCanonical_ite (leavesCanonical_needs
      (canonical_ite (canonical_raise h) h)) leavesCanonical_fault))
  | faultSample => exact leavesCanonical_next (canonical_faultSample h)
  | faultWindowExpiry => exact leavesCanonical_next (canonical_windowExpiry h)
  | spareTakeover => exact leavesCanonical_due (canonical_takeover h) h
  | faultLogDrain => exact leavesCanonical_next (canonical_ite (canonical_logDrain h) h)
  | unitDrainComplete => exact leavesCanonical_due (canonical_drained h) h
  | unitTestComplete => exact leavesCanonical_due (canonical_unitTested h) h
  | dumpBoundary => exact leavesCanonical_due (canonical_boundary h) h
  | dumpWrite => exact leavesCanonical_due (canonical_dumpWrite h) h
  | slotElapse => exact leavesCanonical_due (canonical_slotElapse h) h
  | ovfCountReached => exact leavesCanonical_due (canonical_ovfReached h) h
  | nonceLapse => exact leavesCanonical_next (canonical_nonceLapse h)
  | lockoutEnd => exact leavesCanonical_next (canonical_lockoutEnd h)
  | unlockExpiry => exact leavesCanonical_next (canonical_unlockExpiry h)
  | slewComplete => exact leavesCanonical_next (canonical_slewEnd h)
  | blockResetRelease => exact leavesCanonical_next (canonical_releaseReset h)
  | hostFrameTransmit => exact leavesCanonical_due (canonical_sendFrom h) h
  | thermNRelease => exact leavesCanonical_next (canonical_wrBit _ _ _ (canonical_update h))

/-- Settles O49: a step is a command or the idle tick, and each keeps the form. -/
theorem registersStayCanonical : Obligations.RegistersStayCanonical := by
  unfold Obligations.RegistersStayCanonical
  intro s t h e
  have hstep : LeavesCanonical (step s) := by
    unfold step
    split
    · exact leavesCanonical_next (canonical_idleTick h)
    · exact leavesCanonical_exec _ (canonical_update h)
  exact hstep t e

end Sys2Proof.Machine
end
